-- ==== Sys2Proof/Word.lean ====
section
/-! DEFINITION. The word types of the TZ1680: bytes, 32-bit register words and 64-bit register quantities
(spec/00_scope.md R4, R5; spec/14_register_access.md R427, R437). -/

namespace Sys2Proof

/-- A byte of a message, a table or a frame store page. -/
abbrev Byte := BitVec 8

/-- A 32-bit register or deep-space word. -/
abbrev Word := BitVec 32

/-- A 64-bit register quantity. -/
abbrev DWord := BitVec 64

/-- A sequence of bytes, lowest address first (R5). -/
abbrev Bytes := List Byte

/-- The single-bit upsets of the words of one hopper item (R101, R102): word index, and the bit among the 33 stored (bit 32
is the parity bit); one upset of a word at most counts. -/
abbrev Hits := List (Nat × Fin 33)

end Sys2Proof
end

