-- ==== Sys2Proof/Syntax.lean ====
section
/-! DEFINITION. The commands of the TZ1680: one constructor per row of spec/opcode_table.json, and the operand types
they carry. A mailbox command carries its request (R54); a register access its path, address, width and data (R427,
R432, R435); a hardware event what the event brings with it from outside. -/

namespace Sys2Proof

/-- A request as the Milliner takes it from a hopper (R54, R55, R62): its mailbox, sequence number and host tag, the
NORESP flag, whether it carried a valid tag (R59), the upsets of its words in the hopper (R101, R102), and its payload
bytes. -/
structure Req where
  mbx : Fin 8
  seq : Word
  htag : Word
  noresp : Bool
  auth : Bool
  hits : Hits
  payload : Bytes
  deriving DecidableEq, Repr, Inhabited

/-- A UDP datagram as the uplink delivers it (R51, R52): what its headers say and its UDP payload; `hits` are the upsets of a
request of unknown opcode in its hopper (that of a known one stand in the command's own row). -/
structure Datagram where
  v6 : Bool
  fragment : Bool
  /-- the UDP length field agrees with the bytes the IP packet carries for UDP -/
  lengthOk : Bool
  /-- the UDP checksum field is 0 -/
  csumZero : Bool
  /-- the UDP checksum, when not 0, is right -/
  csumOk : Bool
  port : BitVec 16
  src : Nat
  srcPort : BitVec 16
  data : Bytes
  hits : Hits
  deriving DecidableEq, Repr

/-- The access paths to the register window (R432). -/
inductive Path where
  | management | inBand | milliner
  deriving DecidableEq, Repr, Inhabited

/-- The access widths (R435). -/
inductive Size where
  | b8 | b16 | b32 | b64
  deriving DecidableEq, Repr, Inhabited

/-- One register access without data: path, window address and width. -/
structure Access where
  path : Path
  addr : BitVec 32
  size : Size
  deriving DecidableEq, Repr

/-- What follows the header in a long packet of pixel data (R167, R169, R170): its payload, its footer, and whether the RX hopper
overflowed while it arrived (R109). -/
structure Pixels where
  payload : Bytes
  footer : BitVec 16
  overflow : Bool
  deriving DecidableEq, Repr

/-- What follows the header in a long packet that carries a head's message (R167, R168): its payload and its footer. -/
structure HeadData where
  data : Bytes
  footer : BitVec 16
  deriving DecidableEq, Repr

/-- How an encoder's levels were sampled (R121): the samples for which the synchronised inputs have shown them, and the cycles
since the previous command. -/
structure LevelRun where
  held : Nat
  dt : Nat
  deriving DecidableEq, Repr

/-- A mark channel, and the samples for which its source has shown the selected edge (R121, R132). -/
structure MarkSample where
  ch : Fin 2
  held : Nat
  deriving DecidableEq, Repr

/-- The instant of a trigger: whether an EXPSET that is due is not yet sent in full (R180), and the PHASE it gives (R178). -/
structure FireAt where
  expsetLate : Bool
  phase : Fin 10
  deriving DecidableEq, Repr

/-- Where a LANE_MARKER stands (R161): its skew, and the stream blocks since the last valid marker of its lane. -/
structure MarkerAt where
  skew : Nat
  blocks : Nat
  deriving DecidableEq, Repr

/-- The loss of a head link port (R163, R186): its cause, and for a block lock the lane. -/
structure LinkLoss where
  cause : Fin 4
  lane : Fin 4
  deriving DecidableEq, Repr

/-- A line reaches the mosaic of a pipeline: the single-bit errors of the defect and kernel entries it reads, and the deep-space
addresses of entries newly uncorrectable (R196). -/
structure MosaicRun where
  head : Fin 16
  corrected : Nat
  bad : List Nat
  deriving DecidableEq, Repr

/-- The instant of a POSITION (R407): its first bit leaves the pins `after` 1/256 ns into the cycle, dt cycles after the previous
command. -/
structure SendAt where
  after : Fin 854
  dt : Nat
  deriving DecidableEq, Repr

/-- The end of a bulk fetch (R77): 0 complete, 1 refused by the responder or a queue pair in error; the words of the bulk area
that were read with a corrected and with an uncorrectable error (R328, R329). -/
structure FetchEnd where
  outcome : Fin 2
  corrected : List Nat
  bad : List Nat
  deriving DecidableEq, Repr

/-- A REG_WRITE, and the items issued at once that hardware updates of RWH state or pointer fields meet (R443). -/
structure RegWriteReq where
  req : Req
  hw : List Nat
  deriving DecidableEq, Repr

/-- The end of an MBX_WRITE (R492): its PEC byte, if one came, and the upsets of the message in its hopper (R101). -/
structure ChunkEnd where
  pec : Option Byte
  hits : Hits
  deriving DecidableEq, Repr

/-- The end of a write of WIN_DATA (R492): its PEC byte, if one came, and whether a hardware update of an RWH state or pointer
field meets the access (R443). -/
structure DataEnd where
  pec : Option Byte
  hw : Bool
  deriving DecidableEq, Repr

/-- The head of a band message as received (R395, R399): the port, HOPS, LSEQ, how it came: 0 valid, 1 with a bad CRC or a wrong
LEN, 2 dropped by the BAND_RX hopper; and the upsets of its words in that hopper. -/
structure BandMsg where
  port : Fin 2
  hops : BitVec 8
  lseq : BitVec 16
  how : Fin 3
  hits : Hits
  deriving DecidableEq, Repr

/-- What a CONFIG carries (R397, R415, R416): one of the four line commands as committed, or the line state that the lead
repeats (line started, row pitch, log2 of the batt height, origin, first batt, the deadline's two registers); origins in
1/64 tick. `offMin` is OFF_MIN of the line group in 1/256 tick as the follower learns it with the line (R138, R292), none where
it does not (R397 gives no field that carries it, notes/assumptions/48.md). -/
inductive LineChange where
  | geometry (pitch : BitVec 24) (hlog : BitVec 4)
  | start (origin : BitVec 64) (first : BitVec 48) (offMin : Option Nat)
  | stop (now : Bool) (last : BitVec 48)
  | deadline (pos time : Word)
  | state (started : Bool) (pitch : BitVec 24) (hlog : BitVec 4) (origin : BitVec 64) (first : BitVec 48) (pos time : Word)
      (offMin : Option Nat)
  deriving DecidableEq, Repr

/-- One committed exposure entry of an EXPOSE (R397): device, head, identifier, time, gain, strobe width. -/
structure ExpItem where
  dev : Fin 64
  head : Fin 16
  expid : BitVec 8
  time : BitVec 24
  gain : BitVec 16
  width : BitVec 16
  deriving DecidableEq, Repr

/-- What a REPORT carries (R397, R417): a follower's smallest enabled mount offset in 1/256 tick, if it has one; an entry of a
committed change that a head has applied (late or not) or that was replaced or discarded; a loop's commit request. -/
inductive Report where
  | offset (pos : Fin 64) (smallest : Option Nat)
  | entry (cmd : Nat) (dev : Fin 64) (head : Fin 16) (applied late : Bool)
  | loop (pos : Fin 64) (group : Fin 8) (target : BitVec 48) (expid : BitVec 8) (time : BitVec 24) (gain width : BitVec 16)
      (heads : List (Fin 16))
  deriving DecidableEq, Repr

/-- What a PTP message says of itself (R423): the uplink port it arrives on, domain, transport (0 UDP/IPv4, 1 UDP/IPv6, 2 IEEE
802.3), the sender's clock identity. -/
structure Ptp where
  port : Fin 8
  domain : BitVec 8
  transport : Fin 3
  master : BitVec 64
  deriving DecidableEq, Repr

/-- What an Announce says of its grandmaster (R424), in the order in which the best master clock algorithm compares. -/
structure Announce where
  priority1 : BitVec 8
  clockClass : BitVec 8
  accuracy : BitVec 8
  variance : BitVec 16
  priority2 : BitVec 8
  grandmaster : BitVec 64
  steps : BitVec 16
  deriving DecidableEq, Repr

/-- Why an SMBus transaction is refused (R493): its code (not in the table, or not on the slot), the direction (read or
write) that the code does not offer, the count of a Block Write, a byte beyond the defined length and its PEC. -/
inductive SmbRefusal where
  | code (c : Byte)
  | direction (c : Byte) (read : Bool)
  | count (c : Byte) (n : Byte)
  | extra (c : Byte)
  deriving DecidableEq, Repr

/-- The commands of the block (spec/opcode_table.json), one constructor per row, in the table's order. -/
inductive Instr where
  /-- IDENTIFY (R25): Command 0x0101 returns the identity of the part and of its running firmware. -/
  | identify (r : Req)
  /-- GET_STATE (R74): Command 0x0102 returns a summary of the device, line, position and fault state. -/
  | getState (r : Req)
  /-- SET_PLANT_ADDRESS (R91): Command 0x0103 sets the 18-bit plant address in PLANT_ADDR, with an optional check of the present value. -/
  | setPlantAddress (r : Req)
  /-- RESET_UNIT (R92): Command 0x0104 quiesces one unit, flushes its hoppers and answers ACCEPTED. -/
  | resetUnit (r : Req)
  /-- UNIT_RESET_DONE (R92): A unit reset by RESET_UNIT returns to service; the follow-up and the UNIT_RESET event are sent. -/
  | unitResetDone (m : Fin 8) (faulted : Bool)
  /-- RESET_DEVICE (R93): Command 0x0105 answers OK and begins a device reset 1 ms later, optionally selecting the boot image. -/
  | resetDevice (r : Req)
  /-- SET_EVENT_ROUTE (R94): Command 0x0106 binds or unbinds the event ring and sets the group enable and urgent masks. -/
  | setEventRoute (r : Req)
  /-- SET_AUTH_KEY (R95): Command 0x0107, on mailbox 0 only, loads the HMAC key and sets the authentication mode of mailboxes 1 to 7. -/
  | setAuthKey (r : Req)
  /-- BULK_PUT (R97): Command 0x0108 writes one chunk of bytes into the bulk area of the requesting mailbox. -/
  | bulkPut (r : Req)
  /-- BULK_GET (R97): Command 0x0109 reads one chunk of bytes from the bulk area of the requesting mailbox. -/
  | bulkGet (r : Req)
  /-- LIST_CONDUCT (R529): Command 0x0201 lists the supported conduct levels and the level that is locked. -/
  | listConduct (r : Req)
  /-- LOCK_CONDUCT (R532): Command 0x0202 locks a conduct level until the next device reset or power loss. -/
  | lockConduct (r : Req)
  /-- SNAPSHOT_EXPORT (R535): Command 0x0203 captures a snapshot, or writes one piece of an earlier capture, to a region or the bulk area. -/
  | snapshotExport (r : Req)
  /-- SNAPSHOT_IMPORT (R536): Command 0x0204 stores a snapshot piece and, at the piece marked LAST, checks and applies the whole snapshot. -/
  | snapshotImport (r : Req)
  /-- ENCODER_CONFIG (R125): Command 0x0301 sets the role, filter and options of one encoder, and the device-wide position settings when the role is MASTER. -/
  | encoderConfig (r : Req)
  /-- TRIGGER_PLAN (R139): Command 0x0302 sets one head's trigger mode, pitch, offset and bound strobe outputs. -/
  | triggerPlan (r : Req)
  /-- POSITION_READ (R131): Command 0x0303 returns SPOS, time, high-water mark, rate and the position state, all from one cycle. -/
  | positionRead (r : Req)
  /-- BATT_GEOMETRY (R134): Command 0x0304 sets ROW_PITCH and HEIGHT_LOG2 on the lead, which fans them out to its followers. -/
  | battGeometry (r : Req)
  /-- LINE_START (R155): Command 0x0305 fixes the origin and the first batt number and starts the line. -/
  | lineStart (r : Req)
  /-- LINE_STOP (R156): Command 0x0306 commits a stop of triggering, either now or after a named batt, and answers ACCEPTED. -/
  | lineStop (r : Req)
  /-- COIL_MARK_CONFIG (R132): Command 0x0307 configures the source, edge, filter, offset and hold of one mark channel. -/
  | coilMarkConfig (r : Req)
  /-- ENCODER_TICK (R123): An accepted level change on an encoder's A or B input counts one tick, updating the count and, for the master, SPOS. -/
  | encoderTick (enc : Fin 4) (a : Bool) (b : Bool) (run : LevelRun)
  /-- ENCODER_OPEN (R124): An open or shorted encoder pair lasting 1 us is detected, incrementing OPEN and raising the encoder's fault source. -/
  | encoderOpen (enc : Fin 4)
  /-- MARK_EDGE (R132): A mark channel's selected edge stamps a position and is accepted or counted as a repeat. -/
  | markEdge (x : MarkSample)
  /-- TRIGGER_FIRE (R141): SPOS reaches a head's next trigger position, and the line is fired, skipped or suppressed and the generator advances. -/
  | triggerFire (head : Fin 16) (x : FireAt)
  /-- TRIGGER_REARM (R143): SPOS falls far enough below the last fired line that a head's generator is re-armed to an earlier line. -/
  | triggerRearm (head : Fin 16)
  /-- STROBE_ACTIVE (R147): A strobe output goes active after its delay for a fired line of its bound head. -/
  | strobeActive (out : Fin 8)
  /-- STROBE_END (R147): A strobe output's width count expires and the output goes inactive. -/
  | strobeEnd (out : Fin 8)
  /-- HEAD_ATTACH (R184): Command 0x0401 configures and powers a head link port and starts training, answering ACCEPTED. -/
  | headAttach (r : Req)
  /-- HEAD_DETACH (R188): Command 0x0402 sends HALT, discards the line in progress and its records, and powers the port down. -/
  | headDetach (r : Req)
  /-- HEAD_LINK_STATUS (R183): Command 0x0403 reports a head link port's state and counters without clearing them. -/
  | headLinkStatus (r : Req)
  /-- HEAD_MESSAGE (R182): Command 0x0404 starts sending a message to the head as HMSG fragments on the back-channel. -/
  | headMessage (r : Req)
  /-- HMSG_SENT (R182): The last HMSG fragment leaves the back-channel pins, and HEAD_MESSAGE answers OK. -/
  | hmsgSent (head : Fin 16)
  /-- LANE_BLOCK_LOCK (R163): A receive lane gains block lock after 64 consecutive valid sync headers. -/
  | laneBlockLock (head : Fin 16) (lane : Fin 4)
  /-- LANE_MARKER (R161): A LANE_MARKER is received on a lane, checked and used for deskew and marker lock. -/
  | laneMarker (head : Fin 16) (lane : Fin 4) (marker : Bytes) (x : MarkerAt)
  /-- MARKER_LOCK (R163): A training port gains marker lock, sends LINKCTL RUN and becomes UP. -/
  | markerLock (head : Fin 16)
  /-- PORT_DOWN (R186): An UP port loses block or marker lock, discards the line in progress and goes DOWN. -/
  | portDown (head : Fin 16) (x : LinkLoss)
  /-- PORT_RETRAIN (R186): A DOWN port returns to TRAIN after 1 ms. -/
  | portRetrain (head : Fin 16)
  /-- TRAIN_RESTART (R185): A port not UP 100 ms after entering TRAIN restarts training. -/
  | trainRestart (head : Fin 16)
  /-- LINKCTL_TRAIN (R183): A training port sends LINKCTL TRAIN every 10 us. -/
  | linkctlTrain (head : Fin 16)
  /-- ERROR_BLOCK (R160): A control block of unknown type or an invalid sync header is counted and treated as IDLE. -/
  | errorBlock (head : Fin 16) (kind : Fin 3) (inPacket : Bool)
  /-- STRAY_DATA_BLOCK (R165): A data block arriving outside a packet is discarded and counted in STRAY. -/
  | strayDataBlock (head : Fin 16)
  /-- FRAME_START (R174): A Frame Start packet is received and its exposure identifier echo is checked. -/
  | frameStart (head : Fin 16) (h : Word)
  /-- FRAME_END (R173): A Frame End packet is received and frame framing is checked. -/
  | frameEnd (head : Fin 16) (h : Word)
  /-- LINE_START_PACKET (R172): A Line Start packet is received and consumes or continues a trigger record, retiring older records. -/
  | lineStartPacket (head : Fin 16) (h : Word)
  /-- LINE_END (R168): A Line End packet is received and either has no effect or increments FRAME_ERR. -/
  | lineEnd (head : Fin 16) (h : Word)
  /-- PIXEL_PACKET (R170): A long packet of pixel data is received and joined to the open line, which completes at WIDTH pixels. -/
  | pixelPacket (head : Fin 16) (h : Word) (p : Pixels)
  /-- HEAD_MESSAGE_PACKET (R168): A user-defined 8 packet from the head is received as a head-to-host message. -/
  | headMessagePacket (head : Fin 16) (h : Word) (x : HeadData)
  /-- DISCARDED_PACKET (R168): A packet of another virtual channel or of a wrong data type is discarded and counted. -/
  | discardedPacket (head : Fin 16) (h : Word) (payload : Bytes)
  /-- LINE_TIMEOUT (R170): A line not complete within LINE_TIMEOUT of its Line Start is discarded and reported lost with cause LENGTH. -/
  | lineTimeout (head : Fin 16)
  /-- LINE_POUNCE (R192): A line enters pouncing and every sample is corrected for black level, dark offset and gain, with defects replaced. -/
  | linePounce (head : Fin 16) (hits : Hits) (corrected : Nat) (bad : List Nat)
  /-- BANK_COPY_DONE (R217): The copy of the new active bank into the inactive bank that follows a swap ends. -/
  | bankCopyDone (head : Fin 17) (corrected : Nat) (bad : List Nat)
  /-- MOSAIC_LINE (R207): Once its window rows are available, a line is reconstructed into output planes and the channel matrix is applied. -/
  | mosaicLine (x : MosaicRun)
  /-- CARD_ROW_RESOLVE (R231): Once every needed tap is resolved, carding forms a strip row of a head, present or missing. -/
  | cardRowResolve (head : Fin 16)
  /-- BLOCK_ROW (R257): Once its carded rows are resolved, blocking forms a blocked row on the strip grid, present or missing. -/
  | blockRow (head : Fin 16)
  /-- NAP_TILE_ROW (R280): Once every blocked row of a tile row is formed, the tile records are computed and passed to the card writer. -/
  | napTileRow (head : Fin 16)
  /-- CARD_WRITE (R341): The card writer writes a row's header, record share and samples into the card hood slot of its row. -/
  | cardWrite (head : Fin 16) (overflow : Bool) (hits trHits btrHits : Hits)
  /-- BATT_CLOSE (R242): The batt tracker declares a batt CLOSED once every contributing head has finished it and every earlier batt is CLOSED. -/
  | battClose
  /-- BATT_DEADLINE_EXPIRY (R244): The deadline of a batt expires by position or time, and its unresolved taps are resolved lost with cause DEADLINE. -/
  | battDeadlineExpiry (batt : Nat)
  /-- LOOP_DECISION (R294): The automatic exposure loop computes a new setting for a group from an eligible batt and commits it. -/
  | loopDecision (group : Fin 8)
  /-- DECISION_POINT (R297): A closed batt reaches its decision point, and its tile set, flags, rung, deferrals and staging reservation are fixed. -/
  | decisionPoint
  /-- SEAM_WAIT_EXPIRY (R305): A needed neighbour close has not arrived within SEAM_WAIT of local close, so remote pixels of the batt become absent. -/
  | seamWaitExpiry (batt : Nat)
  /-- FULLING_START (R298): A batt past its decision point is given to the lowest idle fulling slice. -/
  | fullingStart (corrected : List Nat) (bad : List Nat)
  /-- FULLING_DONE (R35): A fulling slice has written every tile and the tile index of a batt into output staging, and the batt is FULLED. -/
  | fullingDone (slice : Fin 8) (hits : Hits)
  /-- RECALL_BATT_START (R350): A recall batt begins fulling at the named rung, after verifying sealed pages if asked. -/
  | recallBattStart (run : Fin 2) (corrected : List Nat) (bad : List Nat)
  /-- PAGE_SEAL (R353): A settled page holding a row of a sealed live mark is sealed by the scan engine into the page seal table. -/
  | pageSeal (page : Fin 24544) (corrected : List Nat) (bad : List Nat)
  /-- BUFFER_ASSIGN (R368): A batt is given the next posted buffer of its stream, or becomes FAILED(BUFFER) if the buffer is too short. -/
  | bufferAssign (stream : Fin 8)
  /-- PARCEL_ISSUE (R375): A ready parcel receives the next PID and an in-flight slot and is issued as one RDMA WRITE. -/
  | parcelIssue (stream : Fin 8) (hits : Hits)
  /-- PACKET_SEND (R377): At a 4,096-byte packet boundary a send engine chooses and sends the next packet from the highest ready class. -/
  | packetSend (engine : Fin 2) (corrected : List Nat) (bad : List Nat)
  /-- ROCE_ACK_RX (R379): An RDMA acknowledgement is received and acknowledged parcels receive DONE completion records. -/
  | roceAckRx (qp : Fin 64) (psn : BitVec 24)
  /-- ROCE_NAK_RX (R361): A NAK is received, leading to a go-back-N retransmission, an RNR wait or the queue pair's ERROR. -/
  | roceNakRx (qp : Fin 64) (kind : Fin 5) (syndrome : BitVec 8) (psn : BitVec 24)
  /-- RETRANSMIT_TIMEOUT (R361): A request unacknowledged for its timeout is retransmitted, or the queue pair enters ERROR after RETRY attempts. -/
  | retransmitTimeout (qp : Fin 64)
  /-- RNR_WAIT_EXPIRY (R361): The wait requested by an RNR NAK ends and the request is retried. -/
  | rnrWaitExpiry (qp : Fin 64)
  /-- READ_RESPONSE_RX (R363): An RDMA READ response is received for a bulk or snapshot fetch or a consumer count, sending a CNP if CE is marked. -/
  | readResponseRx (qp : Fin 64) (ce : Bool) (data : Bytes)
  /-- CNP_RX (R362): A CNP addressed to a queue pair cuts its rate once CC_GAP has passed since the last cut. -/
  | cnpRx (qp : Fin 64)
  /-- CC_PERIOD_END (R362): A congestion period without a CNP ends and the queue pair's rate is raised. -/
  | ccPeriodEnd (qp : Fin 64)
  /-- COMPLETION_WRITE (R373): A completion record is written to the stream's completion ring, and the FAILED record's cause decides the next action. -/
  | completionWrite (stream : Fin 8) (hits : Hits)
  /-- DESCRIPTOR_WRITE (R38): A PLACED batt whose predecessors have their descriptors has its descriptor written, becomes PUBLISHED and then RELEASED. -/
  | descriptorWrite (stream : Fin 8)
  /-- REVOKE_FENCE_DONE (R387): Every issue to a revoked region has its record and no packet is unacknowledged, so REGION_REVOKE gives its final outcome. -/
  | revokeFenceDone
  /-- PFC_FRAME_RX (R357): A priority flow control frame is received and pauses the queue pairs of the paused priorities. -/
  | pfcFrameRx (port : Fin 8) (pcp : Fin 8) (quanta : BitVec 16)
  /-- UPLINK_FRAME_RX (R359): A frame is received on the uplink and is answered if it is ARP or Neighbor Solicitation, or otherwise discarded and counted. -/
  | uplinkFrameRx (port : Fin 8) (kind : Fin 4) (addr : Bytes) (qp : Fin 64)
  /-- UPLINK_LANE_LOSS (R612): An uplink lane loses block or FEC lock, raising the source of its lane for its uplink port. -/
  | uplinkLaneLoss (lane : Fin 8)
  /-- UPLINK_LINK_UP (R356): Every enabled uplink port gains link, or 500 ms pass, and UPLINK_CONFIG sends its follow-up. -/
  | uplinkLinkUp (link : BitVec 8)
  /-- UPLINK_CONFIG (R356): Command 0x0B01 sets the uplink mode, ports and management address, answering ACCEPTED. -/
  | uplinkConfig (r : Req)
  /-- QP_CREATE (R364): Command 0x0B02 makes a queue pair READY with a new starting PSN. -/
  | qpCreate (r : Req)
  /-- QP_DESTROY (R364): Command 0x0B03 makes a queue pair FREE. -/
  | qpDestroy (r : Req)
  /-- REGION_ADD (R365): Command 0x0B04 enters a region into the region table and returns its handle. -/
  | regionAdd (r : Req)
  /-- REGION_REVOKE (R387): Command 0x0B05 revokes a region, removing its buffers and withdrawing issues not yet sent. -/
  | regionRevoke (r : Req)
  /-- RING_BIND (R372): Command 0x0B06 binds a stream's buffer, descriptor and completion rings and its parcel size. -/
  | ringBind (r : Req)
  /-- BUFFERS_POST (R366): Command 0x0B07 posts buffers to a stream's buffer ring. -/
  | buffersPost (r : Req)
  /-- PARCEL_ABORT (R389): Command 0x0B08 aborts the named parcels by PID, each not yet recorded ending FAILED(ABORTED). -/
  | parcelAbort (r : Req)
  /-- STREAM_START (R367): Command 0x0B09 starts a LIVE or RECALL stream on its primary queue pair. -/
  | streamStart (r : Req)
  /-- STREAM_STOP (R389): Command 0x0B0A stops a stream now or after a named batt, answering ACCEPTED. -/
  | streamStop (r : Req)
  /-- STREAM_STOP_DONE (R38): Every batt of a stopping stream up to LAST_BATT has its descriptor, and STREAM_STOP sends its follow-up. -/
  | streamStopDone (stream : Fin 8)
  /-- PLACEMENT_STATUS (R375): Command 0x0B0B reports a stream's placement state without clearing anything. -/
  | placementStatus (r : Req)
  /-- BAND_CONFIG (R401): Command 0x0C01 enables the band ports and sets RING, UNLOCK_MAX and the asymmetry trims. -/
  | bandConfig (r : Req)
  /-- BAND_ROLE (R400): Command 0x0C02 sets the device's role in the line group. -/
  | bandRole (r : Req)
  /-- TIMEBASE_CONFIG (R424): Command 0x0C03 sets the timebase source, PTP transport, domain and announce timeout. -/
  | timebaseConfig (r : Req)
  /-- BAND_STATUS (R426): Command 0x0C04 reports the group, port and timebase state without clearing anything. -/
  | bandStatus (r : Req)
  /-- POSITION_SEND (R407): A POSITION message carrying the sender's SPOS and rate is started on each enabled band port every 12 or 13 block periods. -/
  | positionSend (p : Fin 2) (x : SendAt)
  /-- POSITION_RX (R408): A valid POSITION message is received and the follower forms its SPOS from it. -/
  | positionRx (m : BandMsg) (spos : BitVec 64) (rate : Word) (flags : BitVec 8) (dt : Nat)
  /-- POSITION_MISS (R410): A message period passes without a valid POSITION on the source port, setting EXTRAP from the second miss. -/
  | positionMiss (dt : Nat)
  /-- BAND_HOLD_EXPIRY (R411): 1,024 periods pass without valid POSITION, so the follower raises its band fault, sets UNLOCKED and raises BAND_LOST. -/
  | bandHoldExpiry
  /-- UNLOCK_MAX_EXPIRY (R413): A follower UNLOCKED for UNLOCK_MAX stops its line and raises LINE_STOPPED with CAUSE 1. -/
  | unlockMaxExpiry
  /-- TIME_SEND (R397): A TIME message with the IEEE 1588 time is sent on each enabled band port every 1 us. -/
  | timeSend (p : Fin 2) (dt : Nat)
  /-- TIME_RX (R425): A TIME message is received and, with SRC BAND, the follower takes its time from it. -/
  | timeRx (m : BandMsg) (time : BitVec 64) (state : BitVec 8) (dt : Nat)
  /-- PROBE_SEND (R403): A PROBE carrying the hop-delay timestamps is sent on each link every 1 us. -/
  | probeSend (p : Fin 2) (t1 : Int)
  /-- PROBE_RX (R403): A PROBE is received and a measured hop delay is computed from a complete exchange. -/
  | probeRx (m : BandMsg) (t1 : Int) (pair : Option (Int × Int)) (t4 : Int)
  /-- HOP_DELAY_UPDATE (R404): Every 1 ms an UP port updates its hop delay from the exchanges of that millisecond. -/
  | hopDelayUpdate (p : Fin 2)
  /-- ROLL_SEND (R397): A ROLL message is sent at training and every 1 ms. -/
  | rollSend (p : Fin 2)
  /-- ROLL_RX (R402): A ROLL is received, setting the follower's position, and the port becomes UP or stays in TRAIN. -/
  | rollRx (m : BandMsg) (role : Fin 3) (pos : BitVec 6) (plant : Word) (first : BitVec 20) (last : BitVec 20) (size : BitVec 7)
  /-- BAND_BLOCK_LOCK_LOSS (R394): A band port loses block lock and goes DOWN, raising its fault source unless it is the source port. -/
  | bandBlockLockLoss (p : Fin 2)
  /-- BAND_RETRAIN (R402): A DOWN band port returns to TRAIN after 1 ms. -/
  | bandRetrain (p : Fin 2)
  /-- CONFIG_RX (R415): A CONFIG message carrying a line command committed at the lead is applied by a follower in order of arrival. -/
  | configRx (m : BandMsg) (c : LineChange) (spos : BitVec 64)
  /-- LINE_STATE_REPEAT (R416): Every 1 ms the lead repeats the line state as CONFIG. -/
  | lineStateRepeat
  /-- EXPOSE_RX (R417): An EXPOSE message carrying committed exposure entries is received by a follower and made pending for its heads. -/
  | exposeRx (m : BandMsg) (target : BitVec 64) (source : Fin 2) (group : BitVec 8) (cmd : Nat) (seq : Word) (entries : List ExpItem)
  /-- REPORT_RX (R417): The lead receives a REPORT with a follower's smallest offset, loop commit requests or applied heads. -/
  | reportRx (m : BandMsg) (rep : Report)
  /-- SEAM_ROW_SEND (R418): Once local heads have resolved a row, the seam sender sends its overlap columns to the neighbour as SEAM_ROW. -/
  | seamRowSend (p : Fin 2) (corrected : List Nat) (bad : List Nat)
  /-- SEAM_ROW_RX (R305): A SEAM_ROW is received and its remote overlap values are kept for the batt's seams, or discarded if late. -/
  | seamRowRx (m : BandMsg) (batt : BitVec 48) (row : BitVec 16) (col : BitVec 20) (planes : List (List Word))
  /-- BATT_CLOSE_RX (R419): A BATT_CLOSE from a neighbour is received as the neighbour close of the batt. -/
  | battCloseRx (m : BandMsg) (batt : BitVec 48) (flagged : List Bool)
  /-- BATT_OPEN_RX (R397): The lead receives a BATT_OPEN giving a follower's first triggered batt. -/
  | battOpenRx (m : BandMsg) (pos : Fin 64) (batt : BitVec 48)
  /-- GROUP_STOP_RX (R420): A GROUP_STOP is received, forwarded once per stop number, and starts a class 2 recovery. -/
  | groupStopRx (m : BandMsg) (origin : Fin 64) (source : BitVec 8) (stop : Nat)
  /-- SAFE_STOP_RX (R421): A SAFE_STOP is received; from the lead the follower stops its line, from a follower it counts as port loss. -/
  | safeStopRx (m : BandMsg) (origin : Fin 64) (role : Fin 3)
  /-- BAND_ACK_RX (R398): An ACK for a reliable band message is received. -/
  | bandAckRx (m : BandMsg) (acked : BitVec 16)
  /-- BAND_RETRANSMIT (R398): An unacknowledged reliable band message is sent again after 2 us, or the port goes DOWN after 16 attempts. -/
  | bandRetransmit (p : Fin 2) (lseq : BitVec 16)
  /-- PTP_ANNOUNCE_RX (R424): A PTP Announce is accepted, moving the timebase to ACQUIRING. -/
  | ptpAnnounceRx (h : Ptp) (a : Announce)
  /-- PTP_SYNC_RX (R424): A PTP Sync is taken, stepping the time once or correcting its rate, and may lock or lose lock. -/
  | ptpSyncRx (h : Ptp) (twoStep : Bool) (t1 : BitVec 64) (err : Int) (dt : Nat)
  /-- ANNOUNCE_TIMEOUT (R424): No Announce arrives within ANN_TMO intervals, moving the timebase to FREE or HOLDOVER. -/
  | announceTimeout
  /-- SEAM_SET (R302): Command 0x0901 writes or removes one seam of the inactive fulling bank. -/
  | seamSet (r : Req)
  /-- LADDER_SET (R317): Command 0x0902 writes the ladder of the inactive fulling bank. -/
  | ladderSet (r : Req)
  /-- OUTPUT_FORMAT (R308): Command 0x0903 writes the output planes, shifts and fill values of the inactive fulling bank. -/
  | outputFormat (r : Req)
  /-- BUDGET_SET (R322): Command 0x0904 sets the ladder mode, reserve and seam wait. -/
  | budgetSet (r : Req)
  /-- LADDER_STATUS (R321): Command 0x0905 reports the last ladder decision without clearing anything. -/
  | ladderStatus (r : Req)
  /-- POUNCE_LOAD (R214): Command 0x0501 fetches and loads a calibration table, black levels and pouncing parameters into the inactive bank. -/
  | pounceLoad (r : Req)
  /-- DEFECT_LOAD (R197): Command 0x0502 loads the defect map of the inactive bank. -/
  | defectLoad (r : Req)
  /-- MOSAIC_SET (R201): Command 0x0503 sets the mosaic descriptor and kernel table of the inactive bank. -/
  | mosaicSet (r : Req)
  /-- CHANNEL_MATRIX_SET (R210): Command 0x0504 sets the channel matrix of the inactive bank. -/
  | channelMatrixSet (r : Req)
  /-- BULK_FETCH_DONE (R77): An incoming bulk fetch completes and its seal is checked before the command applies the data. -/
  | bulkFetchDone (m : Fin 8) (data : Bytes) (x : FetchEnd)
  /-- BULK_WRITE_ACKED (R78): An outgoing bulk or snapshot write is acknowledged and the command reports its outcome. -/
  | bulkWriteAcked (m : Fin 8) (outcome : Fin 2)
  /-- CARD_OFFSETS (R220): Command 0x0601 sets a head's trim, interpolation, sensor line reduction and frame geometry in the inactive bank. -/
  | cardOffsets (r : Req)
  /-- LINE_DELAYS (R224): Command 0x0602 sets the multi-line delays of the inactive bank. -/
  | lineDelays (r : Req)
  /-- CARD_STATUS (R237): Command 0x0603 reports a head's carding state and counters without clearing them. -/
  | cardStatus (r : Req)
  /-- BATT_DEADLINE (R245): Command 0x0604 sets DL_POS and DL_TIME on the lead, applying them to every batt not CLOSED. -/
  | battDeadline (r : Req)
  /-- BLOCK_MAP_LOAD (R249): Command 0x0701 loads the block map and kernels of the inactive bank. -/
  | blockMapLoad (r : Req)
  /-- STRIP_GRID_SET (R248): Command 0x0702 sets the strip grid width, pitch and device column range. -/
  | stripGridSet (r : Req)
  /-- BRIM_CONFIG (R260): Command 0x0703 sets a head's brim settings and, with CROP, the device's crop settings. -/
  | brimConfig (r : Req)
  /-- BRIM_READ (R265): Command 0x0704 returns the kept edge records of recently closed batts. -/
  | brimRead (r : Req)
  /-- NAP_CONFIG (R279): Command 0x0801 sets the scoring plane, filter, class thresholds and class map of the inactive bank. -/
  | napConfig (r : Req)
  /-- STATS_CONFIG (R282): Command 0x0802 sets the histogram mapping, column window and publication of the inactive bank. -/
  | statsConfig (r : Req)
  /-- EXPOSURE_SET (R288): Command 0x0803 commits one exposure change for up to 64 heads of the line group in one cycle. -/
  | exposureSet (r : Req)
  /-- EXPOSURE_AUTO (R291): Command 0x0804 enables or disables an automatic exposure loop group and sets its parameters. -/
  | exposureAuto (r : Req)
  /-- STATS_READ (R285): Command 0x0805 returns a kept statistics block header and optionally one plane of bins. -/
  | statsRead (r : Req)
  /-- HOOD_CONFIG (R333): Command 0x0A01 partitions the frame store and sets hood policies and sample formats. -/
  | hoodConfig (r : Req)
  /-- PAGE_INIT_DONE (R332): Zero initialisation of newly allocated pages completes and HOOD_CONFIG sends its follow-up. -/
  | pageInitDone
  /-- MARK_SET (R345): Command 0x0A02 makes a free mark live over a range of batts. -/
  | markSet (r : Req)
  /-- RECALL (R350): Command 0x0A03 creates recall batts for a range of a live mark on a recall stream, answering ACCEPTED. -/
  | recallBatts (r : Req)
  /-- RECALL_DONE (R350): Every recall batt of a RECALL has its descriptor and the command sends its follow-up. -/
  | recallDone (run : Fin 2)
  /-- MARK_RELEASE (R349): Command 0x0A04 frees a mark and its sealed pages. -/
  | markRelease (r : Req)
  /-- HOOD_STATUS (R343): Command 0x0A05 reports the frame store partition, hoods and marks. -/
  | hoodStatus (r : Req)
  /-- FAULT_CONFIG (R472): Command 0x0D01 sets PIN_MIN and the class, ESC and GRP of up to 255 sources. -/
  | faultConfig (r : Req)
  /-- FAULT_STATUS (R467): Command 0x0D02 reports the collector and, with CLEAR, clears the sticky bits it returns. -/
  | faultStatus (r : Req)
  /-- FAULT_LOG_READ (R470): Command 0x0D03 returns fault log entries without removing them. -/
  | faultLogRead (r : Req)
  /-- QUIET_SET (R476): Command 0x0D04 sets the quiet periods and escalation limits. -/
  | quietSet (r : Req)
  /-- FAULT_OCCURRENCE (R466): One or more fault sources occur in a cycle and the collector takes the reaction of the gravest effective class. -/
  | faultOccurrence (srcs : List (Fin 256)) (qps : BitVec 64)
  /-- QUIET_PERIOD_END (R476): A recovery's quiet period ends, and the recovery ends or restarts its quiet period. -/
  | quietPeriodEnd (kind : Fin 7) (idx : Fin 64)
  /-- FAULT_LOG_SAMPLE (R468): Every 10 us Milliner pair 1 samples the sticky and live bits and appends a log entry if they changed. -/
  | faultLogSample
  /-- WATCHDOG_EXPIRY (R31): The firmware has not served its watchdog for 10 ms and source 0x07 is raised. -/
  | watchdogExpiry
  /-- HEALTH_READ (R515): Command 0x0E01 returns temperatures, supplies, refresh, fan level, eye margin and FEC figures. -/
  | healthRead (r : Req)
  /-- WEAR_READ (R526): Command 0x0E02 returns device and per-unit wear and the remaining life. -/
  | wearRead (r : Req)
  /-- ADAPT_POLICY (R518): Command 0x0E03 sets the conformateur's adaptation enables and thresholds. -/
  | adaptPolicy (r : Req)
  /-- PAGE_RETIRE_LIST (R523): Command 0x0E04 returns entries of the retired page list. -/
  | pageRetireList (r : Req)
  /-- THERMAL_SAMPLE (R521): Every 1 ms the thermal sensors are read, updating TJ_MAX, refresh, fan requests and the thermal trip. -/
  | thermalSample (temps : List Int) (odd : Bool)
  /-- SUPPLY_SAMPLE (R574): Every 10 us the supply monitors are read, raising source 0x02 outside their windows. -/
  | supplySample (mv : List Nat)
  /-- EYE_SAMPLE (R519): Every 10 s a lane's eye margin is measured and the lane may be re-equalised. -/
  | eyeSample (lane : Fin 74) (eye : Nat) (after : Option Nat)
  /-- AGEING_SAMPLE (R525): Every 1 s the ageing sites are measured and ageing wear is updated. -/
  | ageingSample (losses : List Nat) (odd : Bool)
  /-- LINK_ERROR_SAMPLE (R528): Every 1 s link error rates are compared with their thresholds. -/
  | linkErrorSample (fec : List Nat) (symbols : Nat) (band : List Nat) (bits : Nat) (sync : List Nat) (blocks : Nat)
  /-- WEAR_TICK (R524): Each powered second adds AF(T) to every unit's equivalent seconds and checks WEAR_WARN. -/
  | wearTick
  /-- WEAR_RECORD_WRITE (R527): Every hour the wear record is written into the alternate flash copy. -/
  | wearRecordWrite (ok : Bool)
  /-- REG_READ (R434): Command 0x0F01 reads consecutive registers or deep-space words on the in-band path. -/
  | regRead (r : Req)
  /-- REG_WRITE (R448): Command 0x0F02 writes consecutive registers or deep-space words on the in-band path. -/
  | regWrite (x : RegWriteReq)
  /-- STIFFEN (R461): Command 0x0F03 runs a scan and makes its result the stiffening reference, answering ACCEPTED. -/
  | stiffen (r : Req)
  /-- UNSTIFFEN (R461): Command 0x0F04 suspends stiffening comparison. -/
  | unstiffen (r : Req)
  /-- BANK_COMMIT (R215): Command 0x0F05 requests swaps of several pipeline and fulling banks with one target in one cycle. -/
  | bankCommit (r : Req)
  /-- STIFFEN_SCAN_DUE (R119): Every 262,144 CK_CTL cycles a stiffening scan falls due and starts or waits for the running scan. -/
  | stiffenScanDue
  /-- SCAN_DONE (R458): A scan completes, storing its results and, for stiffening, comparing or rebasing the reference. -/
  | scanDone (corrected : List Nat) (bad : List Nat)
  /-- SCAN_GO (R118): A write of 1 to SCAN_CTRL.GO requests a scan of the described space and range. -/
  | scanGo (path : Path) (space : Fin 4)
  /-- SEAL_START (R112): A write of 1 to SEALn_CTRL.START loads 0xFFFF_FFFF into RUN and processes the fold word. -/
  | sealStart (path : Path) (n : Fin 9) (nofold : Bool)
  /-- SEAL_DATA (R112): A write to SEALn_DATA feeds its enabled bytes into the seal unit. -/
  | sealData (path : Path) (n : Fin 9) (size : Size) (data : Word)
  /-- SEAL_RUN_LOAD (R114): A write to SEALn_RUN loads a saved running value, losing any coinciding hardware update. -/
  | sealRunLoad (path : Path) (n : Fin 9) (value : Word) (hw : Bool)
  /-- FW_INFO (R560): Command 0x1001 reports the image slots and boot state. -/
  | fwInfo (r : Req)
  /-- FW_STAGE (R559): Command 0x1002 fetches, checks and programs an image into a slot that is not running. -/
  | fwStage (r : Req)
  /-- FW_STAGE_DONE (R559): Programming and read-back of a staged image completes and FW_STAGE sends its follow-up. -/
  | fwStageDone (ok : Bool)
  /-- FW_COMMIT (R560): Command 0x1003 ends a trial of the running image and optionally advances the anti-rollback fuses. -/
  | fwCommit (r : Req)
  /-- FW_ACTIVATE (R561): Command 0x1004 starts a trial of the other slot and resets the device. -/
  | fwActivate (r : Req)
  /-- MBX_DATAGRAM_RX (R60): An in-band mailbox datagram is received and checked for transport, length, seal, flags, authentication, sequence and room. -/
  | mbxDatagramRx (g : Datagram)
  /-- SECOND_TICK (R608): Each second tick ends a second, raising AUTH_REJECTED if failures occurred and resetting the response rate limit. -/
  | secondTick
  /-- MILLISECOND_TICK (R608): Each millisecond tick raises the rate-limited events whose conditions occurred in that millisecond. -/
  | millisecondTick
  /-- EVENT_WRITE (R83): The event writer writes the next event from the event hopper into the ring or mailbox 0 queue when there is room. -/
  | eventWrite (hits : Hits)
  /-- EVENTS_LOST (R85): Once space returns after losses, EVENTS_LOST reports the number of events lost. -/
  | eventsLost
  /-- CONSUMER_COUNT_POLL (R84): While an event ring is full, its consumer count is read by RDMA READ at least every 100 us. -/
  | consumerCountPoll (ring : Fin 9)
  /-- EVENT_ROUTE_DOWN (R87): An event ring write fails, the route is unbound and events move to the mailbox 0 queue. -/
  | eventRouteDown
  /-- HOPPER_FLUSH_BOUNDARY (R104): A requested hopper flush reaches its packet boundary and the items completed by then are discarded. -/
  | hopperFlushBoundary (hopper : Fin 71)
  /-- TAIL_NOTICE (R107): A hopper's tail timer reaches TAIL_TIME and raises the TAIL notice to its consumer. -/
  | tailNotice (hopper : Fin 71)
  /-- REGISTER_WRITE (R445): A write to a register without a row of its own takes effect in the cycle it is performed. -/
  | registerWrite (a : Access) (data : BitVec 64) (hw : Bool)
  /-- RC_REGISTER_READ (R442): A direct-view read of a register holding RC fields returns and clears the bits it returns. -/
  | rcRegisterRead (a : Access)
  /-- FLT_STICKY_READ (R467): A direct-view read of FLT_STICKYi clears the sticky bits it returns. -/
  | fltStickyRead (path : Path) (idx : Fin 8)
  /-- SET_ALIAS_WRITE (R440): A write through the set alias sets the written writable bits as one read-modify-write. -/
  | setAliasWrite (a : Access) (data : BitVec 64)
  /-- CLEAR_ALIAS_WRITE (R440): A write through the clear alias clears the written writable bits as one read-modify-write. -/
  | clearAliasWrite (a : Access) (data : BitVec 64)
  /-- TOGGLE_ALIAS_WRITE (R440): A write through the toggle alias inverts the written writable bits as one read-modify-write. -/
  | toggleAliasWrite (a : Access) (data : BitVec 64)
  /-- SHADOW_HIGH_READ (R437): A read of the high word of a 64-bit quantity returns the path's read shadow if tagged, else the live word. -/
  | shadowHighRead (a : Access)
  /-- SHADOW_HIGH_WRITE (R438): A write to the high word of a 64-bit quantity loads the path's write shadow. -/
  | shadowHighWrite (a : Access) (data : BitVec 64)
  /-- SHADOW_LOW_WRITE (R438): A write to the low word of a 64-bit quantity commits the low word with any tagged shadow in one cycle. -/
  | shadowLowWrite (a : Access) (data : BitVec 64)
  /-- ACCESS_TIMEOUT (R431): A block does not complete an access within 4,096 cycles, so the access fails and source 0x0A is raised. -/
  | accessTimeout (a : Access) (write : Bool) (data : BitVec 64)
  /-- INBAND_WR_WRITE (R448): A write to REG_ACCESS.INBAND_WR is performed on the management bus path and refused DENIED on other paths. -/
  | inbandWrWrite (path : Path) (on : Bool)
  /-- NEXT_BANK_PIPE (R446): A write of 1 to a NEXT_BANK pipeline bit requests a swap of that pipeline with target all ones. -/
  | nextBankPipe (path : Path) (mask : BitVec 16)
  /-- NEXT_BANK_FUL (R446): A write of 1 to NEXT_BANK.FUL requests a fulling bank swap with target all ones. -/
  | nextBankFul (path : Path)
  /-- FLT_INJECT_GO (R488): A write of 1 to FLT_INJECT.GO on the management bus raises the chosen source for one cycle. -/
  | fltInjectGo (path : Path) (source : BitVec 8)
  /-- IDX_DATA_WRITE (R450): A non-posted write to IDX_DATA starts a bridge write that completes when the far side completes it. -/
  | idxDataWrite (path : Path) (data : Word)
  /-- IDX_DATA_POSTED_WRITE (R452): A posted write to IDX_DATA completes at once and is carried out at the far side. -/
  | idxDataPostedWrite (path : Path) (data : Word)
  /-- IDX_WRITE_COMPLETE (R450): The far side completes a bridge write, releasing a waiting initiator or reporting a posted failure. -/
  | idxWriteComplete (path : Path) (farError : Bool)
  /-- IDX_WRITE_TIMEOUT (R451): A non-posted bridge write not completed within 10 ms fails with BRIDGE_TIMEOUT. -/
  | idxWriteTimeout (path : Path)
  /-- IDX_DATA_READ (R453): A read of IDX_DATA returns a held value or starts a fetch and answers RETRY. -/
  | idxDataRead (path : Path)
  /-- IDX_FETCH_DONE (R453): A bridge fetch completes and its value or error is held for the path. -/
  | idxFetchDone (path : Path) (farError : Bool)
  /-- IDX_HOLD_EXPIRY (R453): A fetched value not collected within IDX_HOLD_TIME is discarded and counted. -/
  | idxHoldExpiry (path : Path)
  /-- IDX_PERR_CNT_READ (R452): A read of IDX_PERR_CNT clears it and re-arms capture of the next first posted failure. -/
  | idxPerrCntRead (path : Path)
  /-- MBX_WRITE (R495): SMBus code 0x10 delivers a chunk of a mailbox 0 message, which passes to acceptance at LAST. -/
  | mbxWrite (addr : BitVec 7) (block : Bytes) (x : ChunkEnd)
  /-- MBX_READ (R497): SMBus code 0x11 returns the next chunk of the outbound response or event message. -/
  | mbxRead (addr : BitVec 7) (n : Nat) (hits : Hits)
  /-- MBX_REWIND (R498): SMBus code 0x12 restarts the outbound message from its first chunk. -/
  | mbxRewind (addr : BitVec 7) (pec : Option Byte)
  /-- WIN_ADDR_WRITE (R499): SMBus code 0x20 written sets the management bus window address, width and auto-increment. -/
  | winAddrWrite (addr : BitVec 7) (value : Word) (pec : Option Byte)
  /-- WIN_ADDR_READ (R499): SMBus code 0x20 read returns the management bus window address value. -/
  | winAddrRead (addr : BitVec 7) (n : Nat)
  /-- WIN_DATA_READ (R500): SMBus code 0x21 read performs one register access and returns its status and data. -/
  | winDataRead (addr : BitVec 7) (n : Nat)
  /-- WIN_DATA_WRITE (R501): SMBus code 0x21 write performs one register access while stretching the clock, recording its outcome. -/
  | winDataWrite (addr : BitVec 7) (data : Bytes) (x : DataEnd)
  /-- WIN_STATUS (R501): SMBus code 0x22 returns the outcome of the last WIN_DATA write. -/
  | winStatus (addr : BitVec 7) (n : Nat)
  /-- STATUS (R502): SMBus code 0x30 returns the device state, queue state and highest junction temperature. -/
  | status (addr : BitVec 7) (n : Nat)
  /-- FAULT_SUMMARY (R503): SMBus code 0x31 returns FLT_STATE, FLT_UREC and the sticky bits without clearing them. -/
  | faultSummary (addr : BitVec 7) (n : Nat)
  /-- ALERT_CAUSE (R504): SMBus code 0x32 returns and clears the alert causes. -/
  | alertCause (addr : BitVec 7) (n : Nat) (fresh : BitVec 17)
  /-- SMBUS_REFUSED (R493): An SMBus transaction with an unknown or refused code, wrong direction, bad count or extra byte is not acknowledged. -/
  | smbusRefused (addr : BitVec 7) (why : SmbRefusal)
  /-- HOST_NOTIFY (R505): The device acts as controller and sends a Host Notify when ALERT_CAUSE becomes non-zero. -/
  | hostNotify (lost : Bool)
  /-- NOTIFY_REPEAT (R505): NOTIFY_REP ms pass with ALERT_CAUSE unread and non-zero, and the Host Notify is sent again. -/
  | notifyRepeat (lost : Bool)
  /-- SMBUS_PROTOCOL_ERROR (R508): A repeated start or stop where an acknowledge or data bit was due ends the transaction and is counted. -/
  | smbusProtocolError (addr : BitVec 7) (readMade : Bool)
  /-- SCL_TIMEOUT (R510): The controller holds MB_SCL low beyond tTIMEOUT and the interface resets. -/
  | sclTimeout
  /-- MB_RST_N (R511): MB_RST_N low releases the bus pins and abandons the transaction and partial message. -/
  | mbRstN
  /-- SMBUS_WAKE (R509): A start condition or new alert cause wakes the bus interface from standby. -/
  | smbusWake
  /-- SMBUS_IDLE_SLEEP (R509): IDLE_SLEEP ms pass without a start and the bus interface enters standby. -/
  | smbusIdleSleep
  /-- PWR_OK_RISE (R554): PWR_OK rises, the straps are sampled and a power-on reset of everything takes place. -/
  | pwrOkRise
  /-- PWR_OK_FALL (R553): PWR_OK falls, all activity stops and every domain including PD_FLT is reset, ending the safe state. -/
  | pwrOkFall
  /-- RST_N_ASSERT (R555): RST_N goes low, putting the frame store in self-refresh and releasing the flash pins. -/
  | rstNAssert
  /-- BOOT_START (R562): RST_N rises with PWR_OK high, the collector runs and boot-set domains begin switching on. -/
  | bootStart
  /-- IMAGE_LOADED (R559): An image body has been loaded and is accepted or rejected; the firmware starts or the other slot is tried. -/
  | imageLoaded (image : Bytes)
  /-- READY (R562): Start-up completes, the fault pair shows health and the READY event is raised. -/
  | ready (bootMs : BitVec 16)
  /-- DOMAIN_SWITCH_DONE (R546): A power domain completes its switch sequence and the next queued domain begins. -/
  | domainSwitchDone
  /-- REF_CLOCK_SLIP (R540): The two reference clocks slip by more than 0.4 ns, or a reference or PLL is lost, raising source 0x01. -/
  | refClockSlip (stat : BitVec 4)
  /-- DBG_CHAL (R565): A debug challenge returns the UID and a fresh nonce. -/
  | dbgChal
  /-- DBG_RESP (R565): A debug response is checked against the fused debug key and unlocks its scope or counts a failure. -/
  | dbgResp (scope : BitVec 8) (sig : Bytes)
  /-- JTAG_INSTRUCTION (R564): A boundary-scan instruction is taken on the JTAG port. -/
  | jtagInstruction (ir : Nat) (extest : Bool)
  /-- DEVICE_RESET_BEGIN (R93): One millisecond after RESET_DEVICE or FW_ACTIVATE has answered OK, the device reset begins and start-up runs towards READY. -/
  | deviceResetBegin
  /-- SHADOW_LOW_READ (R437): A read touching the low word of a 64-bit quantity copies the high word into the path's read shadow and tags it. -/
  | shadowLowRead (a : Access)
  /-- REGISTER_READ_ERROR (R447): A read that meets an empty slot, a misalignment, a powered-off block or a denial receives an error response, returns 0 and is entered in the violation log. -/
  | registerReadError (a : Access)
  /-- UPLINK_LANE_LOCK (R612): An uplink lane regains block and FEC lock, ending the live condition of its source so that the port's recovery can end. -/
  | uplinkLaneLock (lane : Fin 8)
  /-- PTP_FOLLOW_UP_RX (R423): A PTP Follow_Up from a two-step master is received and supplies the precise origin time of its Sync. -/
  | ptpFollowUpRx (h : Ptp) (t1 : BitVec 64)
  /-- PTP_DELAY_RESP_RX (R423): A PTP Delay_Resp is received under the delay request-response profile and gives the path delay used for the offset. -/
  | ptpDelayRespRx (h : Ptp) (t4 : BitVec 64)
  /-- MB_RST_N_RISE (R511): MB_RST_N rises and the interface serves transactions again 10 us later, with MB_ALERT_N following R504. -/
  | mbRstNRise
  /-- BUS_FREE (R506): After a lost arbitration the bus becomes free and the device sends its Host Notify again with the data of that moment. -/
  | busFree (lost : Bool)
  deriving DecidableEq, Repr

end Sys2Proof
end

