-- ==== Sys2Proof/Machine/Operands.lean ====
section
/-! DEFINITION. The operand forms: the fields of payloads, records and tables, which are little-endian (R5), and the
signed numbers among them. -/

namespace Sys2Proof.Machine

open Sys2Proof

/-- Byte i of a byte string; 0 beyond its end. -/
def byteAt (b : Bytes) (i : Nat) : Nat := (b.getD i 0).toNat

/-- The n-byte little-endian number at offset o. -/
def leAt (b : Bytes) (o : Nat) : Nat → Nat
  | 0 => 0
  | n + 1 => byteAt b o + 256 * leAt b (o + 1) n

/-- A number of w bits read as two's complement. -/
def signed (w v : Nat) : Int := if v % 2 ^ w < 2 ^ (w - 1) then ((v % 2 ^ w : Nat) : Int) else ((v % 2 ^ w : Nat) : Int) - (2 ^ w : Nat)

/-- An integer as a w-bit two's complement number. -/
def unsigned (w : Nat) (i : Int) : Nat := (i % ((2 ^ w : Nat) : Int)).toNat

/-- The n-byte signed number at offset o. -/
def sleAt (b : Bytes) (o n : Nat) : Int := signed (8 * n) (leAt b o n)

/-- v as n little-endian bytes. -/
def le : Nat → Nat → Bytes
  | 0, _ => []
  | n + 1, v => BitVec.ofNat 8 v :: le n (v / 256)

/-- A signed number as n little-endian bytes. -/
def sle (n : Nat) (i : Int) : Bytes := le n (unsigned (8 * n) i)

/-- n zero bytes: reserved fields of a response, event or record (R11). -/
def zeros (n : Nat) : Bytes := List.replicate n 0

/-- The bytes of b from o, n of them. -/
def slice (b : Bytes) (o n : Nat) : Bytes := (b.drop o).take n

/-- Bytes o to o + n - 1 are all 0 (a reserved field of a request, R11). -/
def zeroAt (b : Bytes) (o n : Nat) : Bool := leAt b o n == 0

/-- Bit i of a number. -/
def bit (v i : Nat) : Bool := v / 2 ^ i % 2 == 1

/-- Bits lo + w - 1 to lo of a number. -/
def bits (v lo w : Nat) : Nat := v / 2 ^ lo % 2 ^ w

/-- 1 for true, 0 for false. -/
def b2n (b : Bool) : Nat := if b then 1 else 0

/-- The indices below n whose bit of the mask is 1, ascending. -/
def maskList (n v : Nat) : List Nat := (List.range n).filter (bit v)

/-- The mask of a list of bit numbers. -/
def listMask (l : List Nat) : Nat := l.foldl (fun m i => if bit m i then m else m + 2 ^ i) 0

/-- Element i of a list, a default beyond its end. -/
def nth {α : Type} [Inhabited α] (l : List α) (i : Nat) : α := l.getD i default

/-- Smallest of a list of numbers, if any. -/
def minOf : List Nat → Option Nat
  | [] => none
  | a :: t => match minOf t with
    | none => some a
    | some b => some (min a b)

/-- Largest of a list of numbers, if any. -/
def maxOf : List Nat → Option Nat
  | [] => none
  | a :: t => match maxOf t with
    | none => some a
    | some b => some (max a b)

/-- Rounding division of integers toward minus infinity. -/
def floorDiv (a : Int) (b : Nat) : Int := Int.fdiv a (b : Int)

/-- Smallest integer at or above a / b. -/
def ceilDiv (a b : Nat) : Nat := (a + b - 1) / b

/-- A value held between two bounds. -/
def clampI (lo hi v : Int) : Int := if v < lo then lo else if v > hi then hi else v

end Sys2Proof.Machine
end

