-- ==== Sys2Proof/Machine/Crypto.lean ====
section
/-! DEFINITION. The cryptographic functions the spec names: SHA-256 and HMAC-SHA-256 (R58, R95), SHA-384 (R559), and the
CRC-8 of SMBus PEC (R494). The ECDSA P-384 check of R559 and R565 is an opaque constant (notes/assumptions/4.md). -/

namespace Sys2Proof.Machine

open Sys2Proof

namespace Sha

/-- The round constants of SHA-256 (FIPS 180-4): cube roots of the first 64 primes. -/
def k256 : List (BitVec 32) :=
  [0x428a2f98#32, 0x71374491#32, 0xb5c0fbcf#32, 0xe9b5dba5#32, 0x3956c25b#32, 0x59f111f1#32, 0x923f82a4#32, 0xab1c5ed5#32]
  ++ [0xd807aa98#32, 0x12835b01#32, 0x243185be#32, 0x550c7dc3#32, 0x72be5d74#32, 0x80deb1fe#32, 0x9bdc06a7#32, 0xc19bf174#32]
  ++ [0xe49b69c1#32, 0xefbe4786#32, 0x0fc19dc6#32, 0x240ca1cc#32, 0x2de92c6f#32, 0x4a7484aa#32, 0x5cb0a9dc#32, 0x76f988da#32]
  ++ [0x983e5152#32, 0xa831c66d#32, 0xb00327c8#32, 0xbf597fc7#32, 0xc6e00bf3#32, 0xd5a79147#32, 0x06ca6351#32, 0x14292967#32]
  ++ [0x27b70a85#32, 0x2e1b2138#32, 0x4d2c6dfc#32, 0x53380d13#32, 0x650a7354#32, 0x766a0abb#32, 0x81c2c92e#32, 0x92722c85#32]
  ++ [0xa2bfe8a1#32, 0xa81a664b#32, 0xc24b8b70#32, 0xc76c51a3#32, 0xd192e819#32, 0xd6990624#32, 0xf40e3585#32, 0x106aa070#32]
  ++ [0x19a4c116#32, 0x1e376c08#32, 0x2748774c#32, 0x34b0bcb5#32, 0x391c0cb3#32, 0x4ed8aa4a#32, 0x5b9cca4f#32, 0x682e6ff3#32]
  ++ [0x748f82ee#32, 0x78a5636f#32, 0x84c87814#32, 0x8cc70208#32, 0x90befffa#32, 0xa4506ceb#32, 0xbef9a3f7#32, 0xc67178f2#32]

/-- The initial hash value of SHA-256: square roots of the first 8 primes. -/
def h256 : List (BitVec 32) := [0x6a09e667#32, 0xbb67ae85#32, 0x3c6ef372#32, 0xa54ff53a#32, 0x510e527f#32, 0x9b05688c#32, 0x1f83d9ab#32, 0x5be0cd19#32]

/-- The round constants of SHA-384 (FIPS 180-4). -/
def k512 : List (BitVec 64) :=
  [0x428a2f98d728ae22#64, 0x7137449123ef65cd#64, 0xb5c0fbcfec4d3b2f#64, 0xe9b5dba58189dbbc#64]
  ++ [0x3956c25bf348b538#64, 0x59f111f1b605d019#64, 0x923f82a4af194f9b#64, 0xab1c5ed5da6d8118#64]
  ++ [0xd807aa98a3030242#64, 0x12835b0145706fbe#64, 0x243185be4ee4b28c#64, 0x550c7dc3d5ffb4e2#64]
  ++ [0x72be5d74f27b896f#64, 0x80deb1fe3b1696b1#64, 0x9bdc06a725c71235#64, 0xc19bf174cf692694#64]
  ++ [0xe49b69c19ef14ad2#64, 0xefbe4786384f25e3#64, 0x0fc19dc68b8cd5b5#64, 0x240ca1cc77ac9c65#64]
  ++ [0x2de92c6f592b0275#64, 0x4a7484aa6ea6e483#64, 0x5cb0a9dcbd41fbd4#64, 0x76f988da831153b5#64]
  ++ [0x983e5152ee66dfab#64, 0xa831c66d2db43210#64, 0xb00327c898fb213f#64, 0xbf597fc7beef0ee4#64]
  ++ [0xc6e00bf33da88fc2#64, 0xd5a79147930aa725#64, 0x06ca6351e003826f#64, 0x142929670a0e6e70#64]
  ++ [0x27b70a8546d22ffc#64, 0x2e1b21385c26c926#64, 0x4d2c6dfc5ac42aed#64, 0x53380d139d95b3df#64]
  ++ [0x650a73548baf63de#64, 0x766a0abb3c77b2a8#64, 0x81c2c92e47edaee6#64, 0x92722c851482353b#64]
  ++ [0xa2bfe8a14cf10364#64, 0xa81a664bbc423001#64, 0xc24b8b70d0f89791#64, 0xc76c51a30654be30#64]
  ++ [0xd192e819d6ef5218#64, 0xd69906245565a910#64, 0xf40e35855771202a#64, 0x106aa07032bbd1b8#64]
  ++ [0x19a4c116b8d2d0c8#64, 0x1e376c085141ab53#64, 0x2748774cdf8eeb99#64, 0x34b0bcb5e19b48a8#64]
  ++ [0x391c0cb3c5c95a63#64, 0x4ed8aa4ae3418acb#64, 0x5b9cca4f7763e373#64, 0x682e6ff3d6b2b8a3#64]
  ++ [0x748f82ee5defb2fc#64, 0x78a5636f43172f60#64, 0x84c87814a1f0ab72#64, 0x8cc702081a6439ec#64]
  ++ [0x90befffa23631e28#64, 0xa4506cebde82bde9#64, 0xbef9a3f7b2c67915#64, 0xc67178f2e372532b#64]
  ++ [0xca273eceea26619c#64, 0xd186b8c721c0c207#64, 0xeada7dd6cde0eb1e#64, 0xf57d4f7fee6ed178#64]
  ++ [0x06f067aa72176fba#64, 0x0a637dc5a2c898a6#64, 0x113f9804bef90dae#64, 0x1b710b35131c471b#64]
  ++ [0x28db77f523047d84#64, 0x32caab7b40c72493#64, 0x3c9ebe0a15c9bebc#64, 0x431d67c49c100d4c#64]
  ++ [0x4cc5d4becb3e42b6#64, 0x597f299cfc657e2a#64, 0x5fcb6fab3ad6faec#64, 0x6c44198c4a475817#64]

/-- The initial hash value of SHA-384. -/
def h384 : List (BitVec 64) := [0xcbbb9d5dc1059ed8#64, 0x629a292a367cd507#64, 0x9159015a3070dd17#64, 0x152fecd8f70e5939#64, 0x67332667ffc00b31#64, 0x8eb44a8768581511#64, 0xdb0c2e0d64f98fa7#64, 0x47b5481dbefa4fa4#64]

/-- The amounts of the rotations and shifts that distinguish the 32-bit and 64-bit functions. -/
structure Rot where
  b0 : Nat × Nat × Nat
  b1 : Nat × Nat × Nat
  s0 : Nat × Nat × Nat
  s1 : Nat × Nat × Nat

def rot256 : Rot := ⟨(2, 13, 22), (6, 11, 25), (7, 18, 3), (17, 19, 10)⟩
def rot512 : Rot := ⟨(28, 34, 39), (14, 18, 41), (1, 8, 7), (19, 61, 6)⟩

variable {w : Nat}

/-- An upper-case sigma: three rotations. -/
def bigS (r : Nat × Nat × Nat) (x : BitVec w) : BitVec w :=
  x.rotateRight r.1 ^^^ x.rotateRight r.2.1 ^^^ x.rotateRight r.2.2
/-- A lower-case sigma: two rotations and a shift. -/
def smallS (r : Nat × Nat × Nat) (x : BitVec w) : BitVec w :=
  x.rotateRight r.1 ^^^ x.rotateRight r.2.1 ^^^ x >>> r.2.2

/-- One further word of the message schedule; the list is newest first. -/
def schedNext (t : Rot) (l : List (BitVec w)) : BitVec w :=
  smallS t.s1 (l.getD 1 0) + l.getD 6 0 + smallS t.s0 (l.getD 14 0) + l.getD 15 0

/-- The message schedule, newest first. -/
def sched (t : Rot) : Nat → List (BitVec w) → List (BitVec w)
  | 0, l => l
  | n + 1, l => sched t n (schedNext t l :: l)

/-- One round on the eight working variables. -/
def round (t : Rot) (v : List (BitVec w)) (kw : BitVec w × BitVec w) : List (BitVec w) :=
  match v with
  | [a, b, c, d, e, f, g, h] =>
    let t1 := h + bigS t.b1 e + ((e &&& f) ^^^ (~~~e &&& g)) + kw.1 + kw.2
    let t2 := bigS t.b0 a + ((a &&& b) ^^^ (a &&& c) ^^^ (b &&& c))
    [t1 + t2, a, b, c, d + t1, e, f, g]
  | _ => v

/-- One block of 16 words. -/
def block (t : Rot) (ks : List (BitVec w)) (h blk : List (BitVec w)) : List (BitVec w) :=
  let ws := (sched t (ks.length - 16) blk.reverse).reverse
  List.zipWith (· + ·) h ((ks.zip ws).foldl (round t) h)

/-- A big-endian word of n bytes. -/
def beWord (n : Nat) (b : Bytes) : BitVec w := BitVec.ofNat w (leAt (b.take n).reverse 0 n)

/-- Words of n bytes each. -/
def beWords (n : Nat) : Nat → Bytes → List (BitVec w)
  | 0, _ => []
  | k + 1, b => beWord n b :: beWords n k (b.drop n)

/-- All blocks of a padded message. -/
def blocks (t : Rot) (n : Nat) (ks : List (BitVec w)) : Nat → Bytes → List (BitVec w) → List (BitVec w)
  | 0, _, h => h
  | k + 1, b, h => blocks t n ks k (b.drop (16 * n)) (block t ks h (beWords n 16 b))

/-- The padding: 0x80, zeros, and the length in bits, big-endian, to a multiple of the block. -/
def pad (blk lenB : Nat) (b : Bytes) : Bytes :=
  let z := (2 * blk - (b.length + 1 + lenB) % blk) % blk
  b ++ 0x80#8 :: zeros z ++ (le lenB (8 * b.length)).reverse

end Sha

/-- SHA-256: 32 bytes. -/
def sha256 (b : Bytes) : Bytes :=
  let p := Sha.pad 64 8 b
  (Sha.blocks Sha.rot256 4 Sha.k256 (p.length / 64) p Sha.h256).flatMap fun x => (le 4 x.toNat).reverse

/-- SHA-384: 48 bytes. -/
def sha384 (b : Bytes) : Bytes :=
  let p := Sha.pad 128 16 b
  ((Sha.blocks Sha.rot512 8 Sha.k512 (p.length / 128) p Sha.h384).take 6).flatMap fun x => (le 8 x.toNat).reverse

/-- HMAC-SHA-256 with a key of at most 64 bytes. -/
def hmac (key msg : Bytes) : Bytes :=
  let k := key ++ zeros (64 - key.length)
  sha256 (k.map (· ^^^ 0x5C#8) ++ sha256 (k.map (· ^^^ 0x36#8) ++ msg))

/-- Eight shifts of the PEC register. -/
def crc8Bits : Nat → Byte → Byte
  | 0, c => c
  | n + 1, c => crc8Bits n (if c.getLsbD 7 then (c <<< 1) ^^^ 0x07#8 else c <<< 1)

/-- The PEC of SMBus: CRC-8 with polynomial x^8 + x^2 + x + 1 over every byte of the transaction (R494). -/
def pecOf (l : Bytes) : Byte := l.foldl (fun c b => crc8Bits 8 (c ^^^ b)) 0#8

/-- The outcome of an ECDSA P-384 signature check: public key, signature, SHA-384 digest (R559, R565). -/
opaque ecdsaOk : Bytes → Bytes → Bytes → Bool

/-- The fused key slot whose hash a digest equals, if any (R559). -/
opaque fusedKey : Bytes → Option Nat

/-- The public key whose hash is fused for debug access (R565). -/
opaque debugKey : Bytes

end Sys2Proof.Machine
end

