-- ==== Sys2Proof/Machine/Flags.lean ====
section
/-! DEFINITION. Statuses of responses (R89), saturating and wrapping counts (R9), the parity of hopper words (R101), and the
pixel formats PF12 and PF16 with their SATURATED flag (R17 to R22). -/

namespace Sys2Proof.Machine

open Sys2Proof

namespace St

/-! Status codes of R89. -/
def ok : Nat := 0x00
def accepted : Nat := 0x01
def alreadyDone : Nat := 0x02
def partialDone : Nat := 0x03
def badOpcode : Nat := 0x10
def badLength : Nat := 0x11
def badSeal : Nat := 0x12
def badState : Nat := 0x13
def badParam : Nat := 0x14
def poisoned : Nat := 0x15
def noResource : Nat := 0x20
def busy : Nat := 0x21
def tooLate : Nat := 0x22
def retry : Nat := 0x23
def conductLocked : Nat := 0x30
def stiffened : Nat := 0x31
def notPermitted : Nat := 0x32
def markLost : Nat := 0x40
def regionRevoked : Nat := 0x41
def remoteError : Nat := 0x42
def flushed : Nat := 0x43
def faulted : Nat := 0x50
def recovering : Nat := 0x51
def internal : Nat := 0xFF

end St

/-- A saturating count of w bits: it stops at all ones (R9). -/
def satAdd (w v k : Nat) : Nat := min (v + k) (2 ^ w - 1)

/-- A wrapping count of w bits: it continues from zero (R9). -/
def wrapAdd (w v k : Nat) : Nat := (v + k) % 2 ^ w

/-! ## Parity of hopper words (R101, R102) -/

/-- The number of ones among the low n bits is odd. -/
def oddOnes {w : Nat} (x : BitVec w) : Nat → Bool
  | 0 => false
  | n + 1 => xor (x.getLsbD n) (oddOnes x n)

/-- A word as the producer stores it: with the parity bit in bit 32 that makes the number of ones of the 33 bits odd (R101). -/
def withParity (x : Word) : BitVec 33 := BitVec.cons (!oddOnes x 32) x

/-- A stored word fails the check: the number of its ones is even (R102). -/
def parityFails (x : BitVec 33) : Bool := !oddOnes x 33

/-- A stored word with one bit upset. -/
def upset (x : BitVec 33) (b : Fin 33) : BitVec 33 := x ^^^ (1#33 <<< b.val)

/-- Word i of an item of bytes. -/
def itemWord (item : Bytes) (i : Nat) : Word := BitVec.ofNat 32 (leAt item (4 * i) 4)

/-- The words of an item that are read with poison (R102), each once: the stored word, with its upset, fails its check. -/
def badWords (item : Bytes) (h : Hits) : List Nat :=
  ((h.filter fun x => (h.find? fun y => y.1 == x.1) == some x && parityFails (upset (withParity (itemWord item x.1)) x.2)).map
    (·.1)).eraseDups

/-- The value of a PF code with mantissa width w (8 for PF12, 12 for PF16), R17. -/
def pfDecode (w code : Nat) : Nat :=
  if code / 2 ^ w = 0 then code % 2 ^ w else (2 ^ w + code % 2 ^ w) * 2 ^ (code / 2 ^ w - 1)

/-- The largest value of a PF format (E = 15, M all ones). -/
def pfMax (w : Nat) : Nat := (2 ^ (w + 1) - 1) * 2 ^ 14

/-- n / m rounded to the nearest integer, a tie to the even candidate (R20). -/
def roundEven (n m : Nat) : Nat :=
  if 2 * (n % m) < m then n / m
  else if 2 * (n % m) > m then n / m + 1
  else if n / m % 2 = 0 then n / m else n / m + 1

/-- The exponent E of R19 rule 4 for a value at or above 2^w: searched from 1 upward. -/
def pfExp (w num den : Nat) : Nat → Nat → Nat
  | 0, e => e
  | fuel + 1, e => if num < 2 ^ (w + 1) * 2 ^ (e - 1) * den then e else pfExp w num den fuel (e + 1)

/-- Conversion of the exact value num / den to a PF code of mantissa width w, with the SATURATED flag (R19 to R22).
A negative value gives code 0 without a flag (R19 rule 1). -/
def pfEncode (w : Nat) (num : Int) (den : Nat) : Nat × Bool :=
  if num < 0 then (0, false)
  else if num.toNat > pfMax w * den then (16 * 2 ^ w - 1, true)
  else if num.toNat < 2 ^ w * den then (roundEven num.toNat den, false)
  else (pfExp w num.toNat den 15 1 * 2 ^ w
        + (roundEven num.toNat (den * 2 ^ (pfExp w num.toNat den 15 1 - 1)) - 2 ^ w), false)

/-- PF12 code and flag of num / den. -/
def pf12 (num : Int) (den : Nat) : Nat × Bool := pfEncode 8 num den
/-- PF16 code and flag of num / den. -/
def pf16 (num : Int) (den : Nat) : Nat × Bool := pfEncode 12 num den

end Sys2Proof.Machine
end

