-- ==== Sys2Proof/Config.lean ====
section
/-! DEFINITION. What one part or one board fixes, and the values the spec leaves open: every one is an opaque constant
without a body, so that no proof can use a number for it (notes/assumptions/1.md, 2.md). -/

namespace Sys2Proof.Config

/-- Silicon step as two little-endian ASCII characters (STEP of IDENTIFY; TOP_ID[15:0]). -/
opaque stepBits : BitVec 16
/-- Fused unique device identifier (UID). -/
opaque uidBits : BitVec 64
/-- Highest conduct level of the part (CL_MAX, R25). -/
opaque clMaxBits : BitVec 8
/-- True on a TZ1680-X, false on a TZ1680-I (R23). -/
opaque gradeX : Bool
/-- Byte i of LOT, marking line 5. -/
opaque lot : Nat → Byte
/-- The straps MB_ADDR[2:0] of the board (R490). -/
opaque mbAddrBits : BitVec 3

/-- Silicon step as a number. -/
def step : Nat := stepBits.toNat
/-- Unique identifier as a number. -/
def uid : Nat := uidBits.toNat
/-- Highest conduct level as a number. -/
def clMax : Nat := clMaxBits.toNat
/-- Address straps as a number. -/
def mbAddrStrap : Nat := mbAddrBits.toNat
/-- Reset value of CNF_LIM, per grade (spec/17_conformateur_and_longevity.md). -/
def cnfLimReset : Nat := if gradeX then 0x6E320096 else 0x5F320096

/-- The free value number `n`: a value the spec does not fix. The step reads State's counter of free values,
applies this constant to it and advances it (notes/assumptions/2.md). -/
opaque freeValue : Nat → BitVec 64

/-- Which of the 32 thermal sensors are the two of stack s (R520 names them, no rule numbers them). -/
opaque stackSensor : Nat → Nat → Fin 32

/-- What a word of deep space holds before anything has written it, where the spec gives no reset content. -/
opaque deepPowerUp : Nat → Word
/-- What a word of deep space whose entry reads as uncorrectable gives where the spec does not say what its reader takes (R196,
R611, notes/assumptions/130.md). -/
opaque lostWord : Nat → Word
/-- LOAD of an image body of a length lies within the Milliner SRAM, whose extent no rule gives (R558, R559). -/
opaque loadOk : Nat → Nat → Bool
/-- Lowest firmware version that implements a conduct level (FW_MIN of LIST_CONDUCT). -/
opaque fwMin : Nat → BitVec 32
end Sys2Proof.Config
end

