-- ==== Sys2Proof/Machine/RegMap.lean ====
section
/-! DEFINITION. The register window (spec/20_address_map.md R596, R603): the named registers, block by block,
each with its offset, its instances, its reset value, its writable (RW, RWH) bits, its clear-on-read bits and
whether it is stiffened; and for every register a function that gives its address in the direct view. -/

namespace Sys2Proof.Machine

/-- One row of the register index (R603). `dims` lists (count, stride) of each index, outermost first;
`words` is 2 for a 64-bit register; `reset` takes the flat index of the instance. -/
structure RegDesc where
  name : String
  off : Nat
  dims : List (Nat × Nat)
  words : Nat
  reset : Nat → Nat
  rw : Nat
  rc : Nat
  stiff : Bool

/-- Reset value of FLT_CLASSs from the table of R462 (spec/15_faults_and_recovery.md): ALLOWED in [27:24],
ESC in [4], CLASS in [1:0]; 0 for a reserved source (R463). -/
def FaultSource.classReset (s : Nat) : Nat :=
  let row (allowed esc cls : Nat) := allowed * 0x1000000 + esc * 0x10 + cls
  if s ≤ 0x01 then row 0x8 0 3
  else if s = 0x02 then row 0xC 1 3
  else if s = 0x03 then row 0x8 0 3
  else if s = 0x04 then row 0xD 1 0
  else if s ≤ 0x07 then row 0xC 1 2
  else if s = 0x08 then row 0x1 0 0
  else if s = 0x09 then row 0xC 1 2
  else if s = 0x0A then row 0xD 1 2
  else if s < 0x10 then 0
  else if s < 0x20 then row 0xF 0 1
  else if s < 0x30 then row 0xE 1 1
  else if s < 0x40 then row 0xF 1 0
  else if s < 0x48 then row 0xE 1 1
  else if s < 0x4F then row 0xD 1 0
  else if s = 0x4F then 0
  else if s < 0x58 then row 0xD 1 0
  else if s = 0x58 then row 0xC 1 2
  else if s < 0x60 then 0
  else if s < 0x68 then row 0xF 0 1
  else if s = 0x68 then row 0xD 1 2
  else if s ≤ 0x6A then row 0xC 1 2
  else if s = 0x6B then row 0x5 1 0
  else if s = 0x6C then row 0xC 1 2
  else if s ≤ 0x6E then row 0xE 1 1
  else if s = 0x6F then 0
  else if s ≤ 0x71 then row 0xF 0 1
  else if s = 0x72 then row 0x5 0 0
  else if s ≤ 0x76 then row 0xD 0 0
  else if s < 0x80 then 0
  else if s < 0x90 then row 0xD 1 0
  else 0

/-- A reserved source (R463) is never raised and cannot be configured. -/
def FaultSource.reserved (s : Nat) : Bool := FaultSource.classReset s == 0 || s ≥ 0x90

namespace RegMap

/-- The registers of block TOP. -/
def rowsTop : List RegDesc := [
  ⟨"TOP_ID", 0, [], 1, fun _ => 0x16800000 + Config.step, 0, 0, false⟩,
  ⟨"UID", 8, [], 2, fun _ => Config.uid, 0, 0, false⟩,
  ⟨"PLANT_ADDR", 0x10, [], 1, fun _ => 0x3ffff, 0x3ffff, 0, true⟩,
  ⟨"REG_ACCESS", 0x100, [], 1, fun _ => 0, 1, 0, false⟩,
  ⟨"NEXT_BANK", 0x104, [], 1, fun _ => 0, 0, 0, false⟩,
  ⟨"NB_REFUSED", 0x108, [], 1, fun _ => 0, 0, 0x1ffff, false⟩,
  ⟨"SHD_DROP_CNT", 0x10c, [], 1, fun _ => 0, 0, 0xffffffff, false⟩,
  ⟨"LU_MAPi", 0x120, [(8, 4)], 1, fun _ => 0, 0, 0xffffffff, false⟩,
  ⟨"VIOL_CNT", 0x200, [], 1, fun _ => 0, 0, 0, false⟩,
  ⟨"VIOL_PTR", 0x204, [], 1, fun _ => 0, 0, 0, false⟩,
  ⟨"VIOL_ADDRj", 0x210, [(16, 8)], 1, fun _ => 0, 0, 0, false⟩,
  ⟨"VIOL_INFOj", 0x214, [(16, 8)], 1, fun _ => 0, 0, 0, false⟩,
  ⟨"CONDUCT", 0x20, [], 1, fun _ => Config.clMax * 0x10000, 0, 0, false⟩,
  ⟨"GPIOk_CFG", 0x300, [(8, 4)], 1, fun _ => 0, 0xc0000fff, 0, true⟩]

/-- The registers of block CLK. -/
def rowsClk : List RegDesc := [
  ⟨"CLK_STAT", 0, [], 1, fun _ => 0xf0000000, 0, 0, false⟩,
  ⟨"PD_ONi", 0x10, [(5, 4)], 1, fun i => if i = 3 then 0xFFFC00FF else if i = 4 then 0x7F else 0, 0, 0, false⟩,
  ⟨"PD_SEQ", 0x24, [], 1, fun _ => 0, 0, 0, false⟩,
  ⟨"RST_CAUSE", 0x30, [], 1, fun _ => 0, 0, 0, false⟩,
  ⟨"BOOT_STAT", 0x34, [], 1, fun _ => 0, 0, 0, false⟩,
  ⟨"DBG_STAT", 0x40, [], 1, fun _ => 0, 0, 0, false⟩]

/-- The registers of block FLT. -/
def rowsFlt : List RegDesc := [
  ⟨"FLT_STICKYi", 0, [(8, 4)], 1, fun _ => 0, 0, 0xffffffff, false⟩,
  ⟨"FLT_LIVEi", 0x20, [(8, 4)], 1, fun _ => 0, 0, 0, false⟩,
  ⟨"FLT_STATE", 0x40, [], 1, fun _ => 0x40000000, 0, 0, false⟩,
  ⟨"FLT_DEVCNT", 0x44, [], 1, fun _ => 0, 0, 0, false⟩,
  ⟨"FLT_CFG", 0x48, [], 1, fun _ => 0x2400003c, 0x3f000fff, 0, true⟩,
  ⟨"FLT_QUIET1", 0x4c, [], 1, fun _ => 0x64, 0x3fff, 0, true⟩,
  ⟨"FLT_QUIET2", 0x50, [], 1, fun _ => 0x64, 0x3fff, 0, true⟩,
  ⟨"FLT_UREC", 0x60, [], 1, fun _ => 0, 0, 0, false⟩,
  ⟨"FLT_QPREC", 0x68, [], 2, fun _ => 0, 0, 0, false⟩,
  ⟨"FLT_QPMAP", 0x70, [], 2, fun _ => 0, 0, 0xffffffffffffffff, false⟩,
  ⟨"FLT_INJECT", 0x80, [], 1, fun _ => 0, 0xff, 0, false⟩,
  ⟨"FLT_UCNTu", 0x100, [(90, 4)], 1, fun _ => 0, 0, 0, false⟩,
  ⟨"FLT_PCNTp", 0x280, [(8, 4)], 1, fun _ => 0, 0, 0, false⟩,
  ⟨"FLT_CLASSs", 0x400, [(256, 4)], 1, fun s => FaultSource.classReset s, 0x33, 0, true⟩]

/-- The registers of block MBX. -/
def rowsMbx : List RegDesc := [
  ⟨"MBX_CFG", 0, [], 1, fun _ => 0xba0e, 0xffff, 0, true⟩,
  ⟨"MBX_OCC", 8, [], 1, fun _ => 0, 0, 0, false⟩,
  ⟨"MBX_EVQ", 0xc, [], 1, fun _ => 0, 0, 0, false⟩,
  ⟨"MBX_MISROUTE_CNT", 0x10, [], 1, fun _ => 0, 0, 0xffffffff, false⟩,
  ⟨"EVT_LOST_CNT", 0x14, [], 1, fun _ => 0, 0, 0, false⟩,
  ⟨"EVT_FILTERED_CNT", 0x18, [], 1, fun _ => 0, 0, 0, false⟩,
  ⟨"MBXn_ERR", 0x100, [(8, 0x10)], 1, fun _ => 0, 0, 0xffffffff, false⟩]

/-- The registers of block IDX. -/
def rowsIdx : List RegDesc := [
  ⟨"IDX_HOLD_TIME", 0x10, [], 1, fun _ => 0x3e8, 0x1ffff, 0, false⟩,
  ⟨"IDX_DISCARD_CNT", 0x14, [], 1, fun _ => 0, 0, 0xffffffff, false⟩,
  ⟨"IDX_PERR_ADDR", 0x18, [], 1, fun _ => 0, 0, 0, false⟩,
  ⟨"IDX_PERR_CNT", 0x1c, [], 1, fun _ => 0, 0, 0xffffffff, false⟩,
  ⟨"IDX_PERR_INFO", 0x20, [], 1, fun _ => 0, 0, 0, false⟩]

/-- The registers of block SMB. -/
def rowsSmb : List RegDesc := [
  ⟨"SMB_CFG", 0, [], 1, fun _ => 0x30640020, 0xf0ffffff, 0, true⟩,
  ⟨"SMB_SLOTi", 0x10, [(4, 4)], 1, fun i => if i = 0 then 0x8000005A ^^^ Config.mbAddrStrap else 0, 0xc000007f, 0, true⟩,
  ⟨"SMB_MASK", 0x20, [], 1, fun _ => 0x7F5A ^^^ Config.mbAddrStrap, 0x7f7f, 0, true⟩,
  ⟨"SMB_STAT", 0x30, [], 1, fun _ => 0, 0, 0, false⟩,
  ⟨"MB_WSTAT", 0x34, [], 1, fun _ => 0, 0, 0, false⟩,
  ⟨"MB_PROTO_ERR", 0x40, [], 1, fun _ => 0, 0, 0xffffffff, false⟩,
  ⟨"MB_ERR", 0x44, [], 1, fun _ => 0, 0, 0xffffffff, false⟩,
  ⟨"MB_ALERT", 0x50, [], 1, fun _ => 0, 0, 0, false⟩]

/-- The registers of block POS. -/
def rowsPos : List RegDesc := [
  ⟨"POS_CTRL", 0, [], 1, fun _ => 0x80640004, 0xfbffffff, 0, true⟩,
  ⟨"POS_STAT", 4, [], 1, fun _ => 0, 0, 0, false⟩,
  ⟨"SPOS", 8, [], 2, fun _ => 0, 0, 0, false⟩,
  ⟨"SPOS_HWM", 0x10, [], 2, fun _ => 0, 0, 0, false⟩,
  ⟨"POS_RATE", 0x18, [], 1, fun _ => 0, 0, 0, false⟩,
  ⟨"BATT_CFG", 0x20, [], 1, fun _ => 0xa0000100, 0xf0ffffff, 0, true⟩,
  ⟨"LINE_ORIGIN", 0x28, [], 2, fun _ => 0, 0, 0, false⟩,
  ⟨"BATT_FIRST", 0x30, [], 2, fun _ => 0, 0, 0, false⟩,
  ⟨"BATT_LAST_USED", 0x38, [], 2, fun _ => 0xffffffffffff, 0, 0, false⟩,
  ⟨"COIL_NUM", 0x40, [], 1, fun _ => 0, 0, 0, false⟩,
  ⟨"ENCn_CFG", 0x100, [(4, 0x20)], 1, fun _ => 0x30000, 0xe0ff0000, 0, true⟩,
  ⟨"ENCn_RATIO", 0x104, [(4, 0x20)], 1, fun _ => 0, 0xffffffff, 0, true⟩,
  ⟨"ENCn_LIMIT", 0x108, [(4, 0x20)], 1, fun _ => 0, 0xffffffff, 0, true⟩,
  ⟨"ENCn_CNT", 0x10c, [(4, 0x20)], 1, fun _ => 0, 0, 0, false⟩,
  ⟨"ENCn_ERR", 0x110, [(4, 0x20)], 1, fun _ => 0, 0, 0xffffffff, false⟩,
  ⟨"ENCn_LIVE", 0x114, [(4, 0x20)], 1, fun _ => 0, 0, 0, false⟩,
  ⟨"HEADk_TRIG", 0x400, [(16, 0x20)], 1, fun _ => 0, 0xc0ffffff, 0, true⟩,
  ⟨"HEADk_OFFSET", 0x408, [(16, 0x20)], 2, fun _ => 0, 0xffffffffffff, 0, true⟩,
  ⟨"HEADk_MINP", 0x410, [(16, 0x20)], 1, fun _ => 0, 0xffff, 0, true⟩,
  ⟨"HEADk_CNT", 0x414, [(16, 0x20)], 1, fun _ => 0, 0, 0xffff, false⟩,
  ⟨"HEADk_LINES", 0x418, [(16, 0x20)], 1, fun _ => 0, 0, 0, false⟩,
  ⟨"STRBn_CFG", 0x800, [(8, 0x10)], 1, fun _ => 0, 0xcf00ffff, 0, true⟩,
  ⟨"STRBn_STAT", 0x804, [(8, 0x10)], 1, fun _ => 0, 0, 0xffff, false⟩,
  ⟨"STRBn_WIDTH", 0x808, [(8, 0x10)], 1, fun _ => 0, 0, 0, false⟩,
  ⟨"MKc_CFG", 0x900, [(2, 0x20)], 1, fun _ => 0, 0xf8ff0000, 0, true⟩,
  ⟨"MKc_OFFSET", 0x904, [(2, 0x20)], 1, fun _ => 0, 0xffffffff, 0, true⟩,
  ⟨"MKc_HOLD", 0x908, [(2, 0x20)], 1, fun _ => 0, 0xffffffff, 0, true⟩,
  ⟨"MKc_LAST", 0x910, [(2, 0x20)], 2, fun _ => 0, 0, 0, false⟩,
  ⟨"MKc_CNT", 0x918, [(2, 0x20)], 1, fun _ => 0, 0, 0xffff, false⟩]

/-- The registers of block BAND. -/
def rowsBand : List RegDesc := [
  ⟨"BAND_CFG", 0, [], 1, fun _ => 0x3e8, 0xf800ffff, 0, true⟩,
  ⟨"BAND_STAT", 4, [], 1, fun _ => 0, 0, 0, false⟩,
  ⟨"BANDp_STAT", 0x100, [(2, 0x40)], 1, fun _ => 0, 0, 0, false⟩,
  ⟨"BANDp_DELAY", 0x104, [(2, 0x40)], 1, fun _ => 0, 0, 0, false⟩,
  ⟨"BANDp_TRIM", 0x108, [(2, 0x40)], 1, fun _ => 0, 0xffffffff, 0, true⟩,
  ⟨"BANDp_ERR", 0x10c, [(2, 0x40)], 1, fun _ => 0, 0, 0xffffffff, false⟩,
  ⟨"TB_CFG", 0x200, [], 1, fun _ => 0x300, 0xf0ff0f00, 0, true⟩,
  ⟨"TB_STAT", 0x204, [], 1, fun _ => 0, 0, 0xff, false⟩,
  ⟨"TB_OFFSET", 0x208, [], 1, fun _ => 0, 0, 0, false⟩,
  ⟨"TB_MASTER", 0x210, [], 2, fun _ => 0, 0, 0, false⟩]

/-- The registers of block CNF. -/
def rowsCnf : List RegDesc := [
  ⟨"CNF_CTRL", 0, [], 1, fun _ => 0xf0000040, 0xf000ffff, 0, true⟩,
  ⟨"CNF_LIM", 4, [], 1, fun _ => Config.cnfLimReset, 0xffffffff, 0, true⟩,
  ⟨"CNF_STAT", 0x10, [], 1, fun _ => 0, 0, 0, false⟩,
  ⟨"CNF_RETIRED", 0x14, [], 1, fun _ => 0, 0, 0, false⟩,
  ⟨"CNF_UWEARu", 0x100, [(16, 4)], 1, fun _ => 0, 0, 0, false⟩,
  ⟨"CNF_EQSu", 0x200, [(16, 8)], 2, fun _ => 0, 0, 0, false⟩]

/-- The registers of block STF. -/
def rowsStf : List RegDesc := [
  ⟨"SEALn_CTRL", 0x200, [(9, 0x20)], 1, fun _ => 0, 2, 0, false⟩,
  ⟨"SEALn_RUN", 0x204, [(9, 0x20)], 1, fun _ => 0xffffffff, 0xffffffff, 0, false⟩,
  ⟨"SEALn_FOLD", 0x208, [(9, 0x20)], 2, fun _ => 0, 0xffffffffffffffff, 0, false⟩,
  ⟨"SEALn_DATA", 0x210, [(9, 0x20)], 1, fun _ => 0, 0, 0, false⟩,
  ⟨"SEALn_RESULT", 0x214, [(9, 0x20)], 1, fun _ => 0, 0, 0, false⟩,
  ⟨"SCAN_CTRL", 0x400, [], 1, fun _ => 0, 0xc0, 0, false⟩,
  ⟨"SCAN_ADDR", 0x408, [], 2, fun _ => 0, 0xffffffffffffffff, 0, false⟩,
  ⟨"SCAN_LEN", 0x410, [], 1, fun _ => 0, 0xffffffff, 0, false⟩,
  ⟨"STF_CTRL", 0, [], 1, fun _ => 0, 0, 0, false⟩,
  ⟨"STF_STAT", 4, [], 1, fun _ => 0xff00, 0, 0xff, false⟩,
  ⟨"STF_REF", 8, [], 1, fun _ => 0, 0, 0, false⟩,
  ⟨"STF_LAST", 0xc, [], 1, fun _ => 0, 0, 0, false⟩,
  ⟨"STF_MISMATCH_CNT", 0x10, [], 1, fun _ => 0, 0, 0xffffffff, false⟩,
  ⟨"STF_NREG", 0x14, [], 1, fun _ => 0x96c, 0, 0, false⟩,
  ⟨"STF_SCANS", 0x18, [], 1, fun _ => 0, 0, 0, false⟩,
  ⟨"STF_BREFk", 0x800, [(64, 8)], 1, fun _ => 0xffffffff, 0, 0, false⟩,
  ⟨"STF_BLASTk", 0x804, [(64, 8)], 1, fun _ => 0xffffffff, 0, 0, false⟩]

/-- The registers of block HOP. -/
def rowsHop : List RegDesc := [
  ⟨"HOPi_CFG", 0, [(71, 0x10)], 1, fun i => if 59 ≤ i ∧ i ≤ 66 then 4096 else if i = 68 then 256 else 0, 0xffff, 0, true⟩,
  ⟨"HOPi_STAT", 4, [(71, 0x10)], 1, fun _ => 0, 0, 0, false⟩,
  ⟨"HOPi_CNT", 8, [(71, 0x10)], 1, fun _ => 0, 0, 0xffffffff, false⟩]

/-- The registers of block HL. -/
def rowsHl : List RegDesc := [
  ⟨"HLn_CFG", 0, [], 1, fun _ => 0x8002e00, 0xfe0f3ff7, 0, true⟩,
  ⟨"HLn_GEOM", 4, [], 1, fun _ => 0x11000, 0xffffffff, 0, true⟩,
  ⟨"HLn_LANEMAP", 8, [], 1, fun _ => 0xe4, 0xff, 0, true⟩,
  ⟨"HLn_TIMEOUT", 0xc, [], 1, fun _ => 0x3e8, 0xffff, 0, true⟩,
  ⟨"HLn_STAT", 0x10, [], 1, fun _ => 0, 0, 0, false⟩,
  ⟨"HLn_ERR0", 0x20, [], 1, fun _ => 0, 0, 0xffffffff, false⟩,
  ⟨"HLn_ERR1", 0x24, [], 1, fun _ => 0, 0, 0xffffffff, false⟩,
  ⟨"HLn_ERR2", 0x28, [], 1, fun _ => 0, 0, 0xffffffff, false⟩,
  ⟨"HLn_ERR3", 0x2c, [], 1, fun _ => 0, 0, 0xffffffff, false⟩,
  ⟨"HLn_LINES", 0x30, [], 1, fun _ => 0, 0, 0, false⟩]

/-- The registers of block PIPE. -/
def rowsPipe : List RegDesc := [
  ⟨"PP_STAT", 0, [], 1, fun _ => 0, 0, 0, false⟩,
  ⟨"PP_MODE", 4, [], 1, fun _ => 0, 1, 0, true⟩,
  ⟨"PP_SWAP_BATT", 8, [], 2, fun _ => 0, 0, 0, false⟩,
  ⟨"PP_CNT", 0x10, [], 1, fun _ => 0, 0, 0xffffffff, false⟩,
  ⟨"PP_SATCNT", 0x14, [], 1, fun _ => 0, 0, 0xffffffff, false⟩,
  ⟨"PP_CFG", 0x100, [(2, 0x100)], 1, fun _ => 0x8000000, 0x7fffffff, 0, true⟩,
  ⟨"PP_BLc", 0x104, [(2, 0x100), (9, 4)], 1, fun _ => 0, 0xffffff, 0, true⟩,
  ⟨"MOS_CFG", 0x130, [(2, 0x100)], 1, fun _ => 0, 0xfff80000, 0, true⟩,
  ⟨"MOS_EDGE_T", 0x134, [(2, 0x100)], 1, fun _ => 0, 0xfffffff, 0, true⟩,
  ⟨"MOS_SITEi", 0x140, [(2, 0x100), (16, 4)], 1, fun _ => 0, 0xffffffff, 0, true⟩,
  ⟨"MAT_W0", 0x180, [(2, 0x100), (4, 0x10)], 1, fun i => if i % 4 = 0 then 0x1000 else if i % 4 = 1 then 0x10000000 else 0, 0xffffffff, 0, true⟩,
  ⟨"MAT_W1", 0x184, [(2, 0x100), (4, 0x10)], 1, fun i => if i % 4 = 2 then 0x1000 else if i % 4 = 3 then 0x10000000 else 0, 0xffffffff, 0, true⟩,
  ⟨"MAT_W2", 0x188, [(2, 0x100), (4, 0x10)], 1, fun _ => 0, 0xffff, 0, true⟩,
  ⟨"MAT_W3", 0x18c, [(2, 0x100), (4, 0x10)], 1, fun _ => 0, 0x1ffffff, 0, true⟩,
  ⟨"CD_CFG", 0x1c0, [(2, 0x100)], 1, fun _ => 0, 0xe7000000, 0, true⟩,
  ⟨"CD_TRIM", 0x1c4, [(2, 0x100)], 1, fun _ => 0, 0xffffffff, 0, true⟩,
  ⟨"CD_FPITCH", 0x1c8, [(2, 0x100)], 1, fun _ => 0x100, 0xffffff, 0, true⟩,
  ⟨"CD_DLY0", 0x1cc, [(2, 0x100)], 1, fun _ => 0, 0xffffffff, 0, true⟩,
  ⟨"CD_DLY1", 0x1d0, [(2, 0x100)], 1, fun _ => 0, 0xffffffff, 0, true⟩,
  ⟨"CD_DLY2", 0x1d4, [(2, 0x100)], 1, fun _ => 0, 0xffff, 0, true⟩,
  ⟨"BK_COL0", 0x1d8, [(2, 0x100)], 1, fun _ => 0, 0xfffff, 0, true⟩,
  ⟨"BK_CFG", 0x1dc, [(2, 0x100)], 1, fun _ => 0, 0xfffe7fff, 0, true⟩,
  ⟨"BK_ANCHOR", 0x1e0, [(2, 0x100)], 1, fun _ => 0, 0x7fff, 0, true⟩,
  ⟨"BR_CFG", 0x1e4, [(2, 0x100)], 1, fun _ => 0xd00100, 0xfbfcffff, 0, true⟩,
  ⟨"BR_THRESH", 0x1e8, [(2, 0x100)], 1, fun _ => 0x10000, 0xffffff, 0, true⟩,
  ⟨"BR_LBAND", 0x1ec, [(2, 0x100)], 1, fun _ => 0, 0xffffffff, 0, true⟩,
  ⟨"BR_RBAND", 0x1f0, [(2, 0x100)], 1, fun _ => 0, 0xffffffff, 0, true⟩,
  ⟨"BR_GATE", 0x1f4, [(2, 0x100)], 1, fun _ => 0, 0xffff, 0, true⟩,
  ⟨"CD_STAT", 0x300, [], 1, fun _ => 0, 0, 0, false⟩,
  ⟨"CARD_LINE_HWM", 0x308, [], 2, fun _ => 0xffffffffffffffff, 0, 0, false⟩,
  ⟨"CARD_ROW_LAST", 0x310, [], 2, fun _ => 0x8000000000000000, 0, 0, false⟩,
  ⟨"CARD_LATE_CNT", 0x320, [], 1, fun _ => 0, 0, 0xffffffff, false⟩,
  ⟨"CARD_WROVF_CNT", 0x324, [], 1, fun _ => 0, 0, 0xffffffff, false⟩,
  ⟨"CARD_DUP_CNT", 0x328, [], 1, fun _ => 0, 0, 0xffffffff, false⟩,
  ⟨"CARD_FBK_CNT", 0x32c, [], 1, fun _ => 0, 0, 0xffffffff, false⟩,
  ⟨"CARD_MISS_CNT", 0x330, [], 1, fun _ => 0, 0, 0xffffffff, false⟩,
  ⟨"CARD_UNLK_CNT", 0x334, [], 1, fun _ => 0, 0, 0xffffffff, false⟩,
  ⟨"BR_STAT", 0x340, [], 1, fun _ => 0, 0, 0, false⟩,
  ⟨"BR_LEDGE", 0x344, [], 1, fun _ => 0, 0, 0, false⟩,
  ⟨"BR_REDGE", 0x348, [], 1, fun _ => 0, 0, 0, false⟩,
  ⟨"BK_FBK_CNT", 0x350, [], 1, fun _ => 0, 0, 0xffffffff, false⟩,
  ⟨"BK_XEXP_CNT", 0x354, [], 1, fun _ => 0, 0, 0xffffffff, false⟩,
  ⟨"BR_REJ_CNT", 0x358, [], 1, fun _ => 0, 0, 0xffffffff, false⟩,
  ⟨"NAP_CNT", 0x360, [], 1, fun _ => 0, 0, 0xffffffff, false⟩,
  ⟨"NAP_TILES", 0x364, [], 1, fun _ => 0, 0, 0, false⟩,
  ⟨"EXP_NOW", 0x380, [], 1, fun _ => 0, 0, 0, false⟩,
  ⟨"EXP_TIME", 0x384, [], 1, fun _ => 0, 0, 0, false⟩,
  ⟨"EXP_TARGET", 0x388, [], 2, fun _ => 0xffffffffffff, 0, 0, false⟩,
  ⟨"NAP_CFG", 0x400, [(2, 0x200)], 1, fun _ => 0x20010000, 0xe81f0000, 0, true⟩,
  ⟨"NAP_HFIRST", 0x404, [(2, 0x200)], 1, fun _ => 0, 0xfffff, 0, true⟩,
  ⟨"NAP_HLAST", 0x408, [(2, 0x200)], 1, fun _ => 0xfffff, 0xfffff, 0, true⟩,
  ⟨"NAP_THR_W0", 0x410, [(2, 0x200), (4, 0x10)], 1, fun _ => 0x0FFF0000, 0xfff0fff, 0, true⟩,
  ⟨"NAP_THR_W1", 0x414, [(2, 0x200), (4, 0x10)], 1, fun _ => 0xFFFF0FFF, 0xffff0fff, 0, true⟩,
  ⟨"NAP_THR_W2", 0x418, [(2, 0x200), (4, 0x10)], 1, fun _ => 0xFFFF0000, 0xffff0fff, 0, true⟩,
  ⟨"NAP_K", 0x450, [(2, 0x200), (12, 4)], 1, fun _ => 0, 0xffffffff, 0, true⟩,
  ⟨"NAP_K12", 0x480, [(2, 0x200)], 1, fun _ => 0, 0xffff, 0, true⟩,
  ⟨"NAP_CLASSi", 0x4a0, [(2, 0x200), (34, 4)], 1, fun _ => 0, 0xffffffff, 0, true⟩]

/-- The registers of block FUL. -/
def rowsFul : List RegDesc := [
  ⟨"FULk_STAT", 0, [(8, 0x800)], 1, fun _ => 0, 0, 0, false⟩,
  ⟨"FULk_BATT", 8, [(8, 0x800)], 2, fun _ => 0xffffffffffff, 0, 0, false⟩,
  ⟨"FULk_TILES", 0x10, [(8, 0x800)], 1, fun _ => 0, 0, 0, false⟩,
  ⟨"FUL_BANK", 0x80, [], 1, fun _ => 0, 0, 0, false⟩,
  ⟨"FUL_SWAP_BATT", 0x88, [], 2, fun _ => 0, 0, 0, false⟩,
  ⟨"SEAMs_CFG", 0x100, [(2, 0x200), (16, 0x10)], 1, fun _ => 0, 0x81ffffff, 0, true⟩,
  ⟨"SEAMs_COL", 0x104, [(2, 0x200), (16, 0x10)], 1, fun _ => 0, 0xfffff, 0, true⟩,
  ⟨"OUT_CFG", 0x200, [(2, 0x200)], 1, fun _ => 0, 0xe0000007, 0, true⟩,
  ⟨"OUT_SHIFTf", 0x204, [(2, 0x200), (4, 4)], 1, fun i => if i % 4 = 0 then 0x10101010 else if i % 4 = 1 then 0x01010101 else if i % 4 = 2 then 0x08080808 else 0, 0xffffffff, 0, true⟩,
  ⟨"OUT_FILLj", 0x214, [(2, 0x200), (4, 4)], 1, fun _ => 0, 0xffffff, 0, true⟩,
  ⟨"RUNGr", 0x240, [(2, 0x200), (8, 4)], 1, fun _ => 0, 0xf8ff00ff, 0, true⟩,
  ⟨"BUDGET_CFG", 0x500, [], 1, fun _ => 0, 0x8701ffff, 0, true⟩,
  ⟨"RATE_NOM", 0x504, [], 1, fun _ => 0x17f4d, 0x1ffff, 0, false⟩,
  ⟨"SEAM_WAIT", 0x508, [], 1, fun _ => 0x14, 0x3ff, 0, true⟩,
  ⟨"LAD_STAT", 0x510, [], 1, fun _ => 0x800, 0, 0, false⟩,
  ⟨"LAD_RATE", 0x514, [], 1, fun _ => 0, 0, 0, false⟩,
  ⟨"LAD_RECALL", 0x518, [], 1, fun _ => 0, 0, 0, false⟩,
  ⟨"LAD_BUDGET", 0x520, [], 2, fun _ => 0, 0, 0, false⟩,
  ⟨"LAD_BATT", 0x528, [], 2, fun _ => 0xffffffffffff, 0, 0, false⟩,
  ⟨"LAD_SIZEr", 0x540, [(8, 8)], 2, fun _ => 0xffffffffffffffff, 0, 0, false⟩,
  ⟨"LAD_CNT", 0x580, [], 1, fun _ => 0, 0, 0xffffffff, false⟩,
  ⟨"LAD_CAPDEF", 0x584, [], 1, fun _ => 0, 0, 0xffffffff, false⟩,
  ⟨"LAD_SEAMWAIT", 0x588, [], 1, fun _ => 0, 0, 0xffffffff, false⟩,
  ⟨"GRID_W", 0x600, [], 1, fun _ => 0x10000, 0x1fffff, 0, true⟩,
  ⟨"GRID_PITCH", 0x604, [], 1, fun _ => 0x30d40, 0xfffff, 0, true⟩,
  ⟨"DEV_FIRST", 0x608, [], 1, fun _ => 0, 0xfffff, 0, true⟩,
  ⟨"DEV_LAST", 0x60c, [], 1, fun _ => 0xffff, 0xfffff, 0, true⟩,
  ⟨"CROP_CFG", 0x610, [], 1, fun _ => 0x2200080, 0xcfffffff, 0, true⟩,
  ⟨"CROP_FIX_FIRST", 0x614, [], 1, fun _ => 0, 0xfffff, 0, true⟩,
  ⟨"CROP_FIX_LAST", 0x618, [], 1, fun _ => 0xffff, 0xfffff, 0, true⟩,
  ⟨"CROP_NOW_FIRST", 0x620, [], 1, fun _ => 0, 0, 0, false⟩,
  ⟨"CROP_NOW_LAST", 0x624, [], 1, fun _ => 0xffff, 0, 0, false⟩,
  ⟨"CROP_BATT", 0x628, [], 2, fun _ => 0xffffffffffff, 0, 0, false⟩,
  ⟨"CROP_STAT", 0x630, [], 1, fun _ => 0, 0, 0, false⟩,
  ⟨"BT_DL_POS", 0x700, [], 1, fun _ => 0x40000, 0xffffffff, 0, true⟩,
  ⟨"BT_DL_TIME", 0x704, [], 1, fun _ => 0xc350, 0xffffff, 0, true⟩,
  ⟨"BT_STAT", 0x708, [], 1, fun _ => 0, 0, 0xffff0000, false⟩,
  ⟨"BT_OPEN_MIN", 0x710, [], 2, fun _ => 0xffffffffffff, 0, 0, false⟩]

/-- The registers of block FS. -/
def rowsFs : List RegDesc := [
  ⟨"FS_STAT", 0, [], 1, fun _ => 0, 0, 0, false⟩,
  ⟨"FS_LOADc", 0x10, [(5, 4)], 1, fun _ => 0, 0, 0, false⟩,
  ⟨"FS_ECC", 0x30, [], 1, fun _ => 0, 0, 0xffffffff, false⟩,
  ⟨"FS_UE_ADDR", 0x38, [], 2, fun _ => 0xffffffffffffffff, 0, 0, false⟩]

/-- The registers of block HOOD. -/
def rowsHood : List RegDesc := [
  ⟨"HOODn_CFG", 0, [(16, 0x20)], 1, fun _ => 0x579, 0xc0007fff, 0, true⟩,
  ⟨"HOODn_ROWB", 4, [(16, 0x20)], 1, fun _ => 0, 0, 0, false⟩,
  ⟨"HOODn_NSLOT", 8, [(16, 0x20)], 1, fun _ => 0, 0, 0, false⟩,
  ⟨"HOODn_WPTR", 0x10, [(16, 0x20)], 2, fun _ => 0x8000000000000000, 0, 0, false⟩,
  ⟨"HOODn_OLDEST", 0x18, [(16, 0x20)], 2, fun _ => 0xffffffffffff, 0, 0, false⟩,
  ⟨"HOOD_POOL", 0x200, [], 1, fun _ => 0x400800, 0x7fff7fff, 0, true⟩,
  ⟨"HOOD_ATT", 0x204, [], 1, fun _ => 0x10, 0x1ff, 0, true⟩,
  ⟨"HOOD_FREE", 0x210, [], 1, fun _ => 0, 0, 0, false⟩,
  ⟨"HOOD_HELD", 0x214, [], 1, fun _ => 0, 0, 0, false⟩,
  ⟨"HOOD_STG_USED", 0x218, [], 1, fun _ => 0, 0, 0, false⟩,
  ⟨"MARKm_STAT", 0x400, [(16, 0x20)], 1, fun _ => 0, 0, 0, false⟩,
  ⟨"MARKm_FIRST", 0x408, [(16, 0x20)], 2, fun _ => 0, 0, 0, false⟩,
  ⟨"MARKm_LAST", 0x410, [(16, 0x20)], 2, fun _ => 0, 0, 0, false⟩,
  ⟨"HOOD_CNT", 0x600, [], 1, fun _ => 0, 0, 0xffffffff, false⟩]

/-- The registers of block PLC. -/
def rowsPlc : List RegDesc := [
  ⟨"PLC_STAT", 0, [], 1, fun _ => 0, 0, 0, false⟩,
  ⟨"PLC_INFL_KIB", 4, [], 1, fun _ => 0, 0, 0, false⟩,
  ⟨"CC_CFG0", 0x10, [], 1, fun _ => 0x88403214, 0x8fffffff, 0, true⟩,
  ⟨"CC_CFG1", 0x14, [], 1, fun _ => 0x1f40064, 0xffffffff, 0, true⟩,
  ⟨"PLC_FAILc", 0x40, [(7, 4)], 1, fun _ => 0, 0, 0xffffffff, false⟩,
  ⟨"STRs_CFG", 0x100, [(8, 0x40)], 1, fun _ => 0xf0, 0xffbf03f0, 0, true⟩,
  ⟨"STRs_STAT", 0x104, [(8, 0x40)], 1, fun _ => 0, 0, 0, false⟩,
  ⟨"STRs_PID", 0x108, [(8, 0x40)], 1, fun _ => 0, 0, 0, false⟩,
  ⟨"STRs_PUB", 0x110, [(8, 0x40)], 2, fun _ => 0xffffffffffff, 0, 0, false⟩,
  ⟨"QPq_CFG", 0x1000, [(64, 0x20)], 1, fun _ => 0, 0xfcffffff, 0, true⟩,
  ⟨"QPq_RMAX", 0x1004, [(64, 0x20)], 1, fun _ => 0, 0x1ffff, 0, true⟩,
  ⟨"QPq_STAT", 0x1008, [(64, 0x20)], 1, fun _ => 0, 0, 0, false⟩,
  ⟨"QPq_RATE", 0x100c, [(64, 0x20)], 1, fun _ => 0, 0, 0, false⟩,
  ⟨"QPq_CNT", 0x1010, [(64, 0x20)], 1, fun _ => 0, 0, 0xffffffff, false⟩]

/-- The registers of block UMAC. -/
def rowsUmac : List RegDesc := [
  ⟨"UMAC_CFG", 0, [], 1, fun _ => 0, 0xb0ff0007, 0, true⟩,
  ⟨"UMAC_STAT", 4, [], 1, fun _ => 0, 0, 0, false⟩,
  ⟨"UMAC_DISC", 0x10, [], 1, fun _ => 0, 0, 0xffffffff, false⟩]

/-- The registers of the block that slot k of the window holds; none for an empty slot (R596, R429). -/
def slotRows (k : Nat) : Option (List RegDesc) :=
  if k = 0 then some rowsTop else
  if k = 1 then some rowsClk else
  if k = 2 then some rowsFlt else
  if k = 3 then some rowsMbx else
  if k = 4 then some rowsIdx else
  if k = 5 then some rowsSmb else
  if k = 6 then some rowsPos else
  if k = 7 then some rowsBand else
  if k = 8 then some rowsCnf else
  if k = 9 then some rowsStf else
  if k = 0xa then some rowsHop else
  if 0x10 ≤ k ∧ k < 0x20 then some rowsHl else
  if 0x20 ≤ k ∧ k < 0x30 then some rowsPipe else
  if k = 0x30 then some rowsFul else
  if k = 0x38 then some rowsFs else
  if k = 0x39 then some rowsHood else
  if k = 0x3a then some rowsPlc else
  if k = 0x3b then some rowsUmac else
  none

/-- The implemented span S of the block in slot k (R428, R596). -/
def slotSpan (k : Nat) : Nat :=
  if k = 0x00 then 0x400 else if k = 0x01 then 0x100 else if k = 0x02 then 0x800
  else if k = 0x03 then 0x200 else if k = 0x04 then 0x100 else if k = 0x05 then 0x100
  else if k = 0x06 then 0x1000 else if k = 0x07 then 0x400 else if k = 0x08 then 0x400
  else if k = 0x09 then 0x1000 else if k = 0x0A then 0x800 else if k < 0x20 then 0x100
  else if k < 0x31 then 0x4000 else if k = 0x38 then 0x100 else if k = 0x39 then 0x800
  else if k = 0x3A then 0x2000 else 0x100

/-- The instance that offset r names: the flat index and what remains below the innermost stride. -/
def locate : List (Nat × Nat) → Nat → Nat → Option (Nat × Nat)
  | [], r, acc => some (acc, r)
  | (n, st) :: ds, r, acc => if r / st < n then locate ds (r % st) (acc * n + r / st) else none

/-- Where offset o lies in a row: the flat index of the instance and the word (0 low, 1 high). -/
def rowFind (d : RegDesc) (o : Nat) : Option (Nat × Nat) :=
  if o < d.off then none
  else match locate d.dims (o - d.off) 0 with
    | some (i, r) => if r % 4 = 0 ∧ r / 4 < d.words then some (i, r / 4) else none
    | none => none

/-- The first row of a list that holds offset o, with the instance and the word. -/
def findRow : List RegDesc → Nat → Option (RegDesc × Nat × Nat)
  | [], _ => none
  | d :: ds, o => match rowFind d o with
    | some (i, w) => some (d, i, w)
    | none => findRow ds o

/-- The row of the word at window address a (direct view, below the span), if a register is defined there. -/
def descAt (a : Nat) : Option (RegDesc × Nat × Nat) :=
  match slotRows (a / 0x10000) with
  | some rows => findRow rows (a % 0x10000)
  | none => none

/-- The word w (0 low, 1 high) of a 64-bit mask or value. -/
def wordOf (v w : Nat) : Nat := v / 2 ^ (32 * w) % 2 ^ 32

/-- What the register word at address a reads at reset; 0 where no register is defined (R428). -/
def resetAt (a : Nat) : Word :=
  match descAt a with
  | some (d, i, w) => BitVec.ofNat 32 (wordOf (d.reset i) w)
  | none => 0

/-- The writable (RW and RWH) bits of the register word at address a. -/
def rwMask (a : Nat) : Word :=
  match descAt a with
  | some (d, _, w) => BitVec.ofNat 32 (wordOf d.rw w)
  | none => 0

/-- The clear-on-read bits of the register word at address a. -/
def rcMask (a : Nat) : Word :=
  match descAt a with
  | some (d, _, w) => BitVec.ofNat 32 (wordOf d.rc w)
  | none => 0

/-- Whether the register word at address a is stiffened. -/
def stiffened (a : Nat) : Bool :=
  match descAt a with
  | some (d, _, _) => d.stiff
  | none => false

/-- Whether the word at address a belongs to a 64-bit register (R437). -/
def isWide (a : Nat) : Bool :=
  match descAt a with
  | some (d, _, _) => d.words == 2
  | none => false

end RegMap

/-! Addresses of the registers in the direct view. -/

namespace Reg

/-- Address of MBX_CFG (MBX block, offset 0x0). -/
def mbxCfg : Nat := 0x30000
/-- Address of MBX_OCC (MBX block, offset 0x8). -/
def mbxOcc : Nat := 0x30008
/-- Address of MBX_EVQ (MBX block, offset 0xc). -/
def mbxEvq : Nat := 0x3000c
/-- Address of MBX_MISROUTE_CNT (MBX block, offset 0x10). -/
def mbxMisrouteCnt : Nat := 0x30010
/-- Address of EVT_LOST_CNT (MBX block, offset 0x14). -/
def evtLostCnt : Nat := 0x30014
/-- Address of EVT_FILTERED_CNT (MBX block, offset 0x18). -/
def evtFilteredCnt : Nat := 0x30018
/-- Address of MBXn_ERR (MBX block, offset 0x100). -/
def mbxErr (i : Nat) : Nat := 0x30100 + 0x10 * i
/-- Address of HOPi_CFG (HOP block, offset 0x0). -/
def hopCfg (i : Nat) : Nat := 0xa0000 + 0x10 * i
/-- Address of HOPi_STAT (HOP block, offset 0x4). -/
def hopStat (i : Nat) : Nat := 0xa0004 + 0x10 * i
/-- Address of HOPi_CNT (HOP block, offset 0x8). -/
def hopCnt (i : Nat) : Nat := 0xa0008 + 0x10 * i
/-- Address of SEALn_CTRL (STF block, offset 0x200). -/
def sealCtrl (i : Nat) : Nat := 0x90200 + 0x20 * i
/-- Address of SEALn_RUN (STF block, offset 0x204). -/
def sealRun (i : Nat) : Nat := 0x90204 + 0x20 * i
/-- Address of SEALn_FOLD (STF block, offset 0x208). -/
def sealFold (i : Nat) : Nat := 0x90208 + 0x20 * i
/-- Address of SEALn_DATA (STF block, offset 0x210). -/
def sealData (i : Nat) : Nat := 0x90210 + 0x20 * i
/-- Address of SEALn_RESULT (STF block, offset 0x214). -/
def sealResult (i : Nat) : Nat := 0x90214 + 0x20 * i
/-- Address of SCAN_CTRL (STF block, offset 0x400). -/
def scanCtrl : Nat := 0x90400
/-- Address of SCAN_ADDR (STF block, offset 0x408). -/
def scanAddr : Nat := 0x90408
/-- Address of SCAN_LEN (STF block, offset 0x410). -/
def scanLen : Nat := 0x90410
/-- Address of POS_CTRL (POS block, offset 0x0). -/
def posCtrl : Nat := 0x60000
/-- Address of POS_STAT (POS block, offset 0x4). -/
def posStat : Nat := 0x60004
/-- Address of SPOS (POS block, offset 0x8). -/
def spos : Nat := 0x60008
/-- Address of SPOS_HWM (POS block, offset 0x10). -/
def sposHwm : Nat := 0x60010
/-- Address of POS_RATE (POS block, offset 0x18). -/
def posRate : Nat := 0x60018
/-- Address of BATT_CFG (POS block, offset 0x20). -/
def battCfg : Nat := 0x60020
/-- Address of LINE_ORIGIN (POS block, offset 0x28). -/
def lineOrigin : Nat := 0x60028
/-- Address of BATT_FIRST (POS block, offset 0x30). -/
def battFirst : Nat := 0x60030
/-- Address of BATT_LAST_USED (POS block, offset 0x38). -/
def battLastUsed : Nat := 0x60038
/-- Address of COIL_NUM (POS block, offset 0x40). -/
def coilNum : Nat := 0x60040
/-- Address of ENCn_CFG (POS block, offset 0x100). -/
def encCfg (i : Nat) : Nat := 0x60100 + 0x20 * i
/-- Address of ENCn_RATIO (POS block, offset 0x104). -/
def encRatio (i : Nat) : Nat := 0x60104 + 0x20 * i
/-- Address of ENCn_LIMIT (POS block, offset 0x108). -/
def encLimit (i : Nat) : Nat := 0x60108 + 0x20 * i
/-- Address of ENCn_CNT (POS block, offset 0x10c). -/
def encCnt (i : Nat) : Nat := 0x6010c + 0x20 * i
/-- Address of ENCn_ERR (POS block, offset 0x110). -/
def encErr (i : Nat) : Nat := 0x60110 + 0x20 * i
/-- Address of ENCn_LIVE (POS block, offset 0x114). -/
def encLive (i : Nat) : Nat := 0x60114 + 0x20 * i
/-- Address of HEADk_TRIG (POS block, offset 0x400). -/
def headTrig (i : Nat) : Nat := 0x60400 + 0x20 * i
/-- Address of HEADk_OFFSET (POS block, offset 0x408). -/
def headOffset (i : Nat) : Nat := 0x60408 + 0x20 * i
/-- Address of HEADk_MINP (POS block, offset 0x410). -/
def headMinp (i : Nat) : Nat := 0x60410 + 0x20 * i
/-- Address of HEADk_CNT (POS block, offset 0x414). -/
def headCnt (i : Nat) : Nat := 0x60414 + 0x20 * i
/-- Address of HEADk_LINES (POS block, offset 0x418). -/
def headLines (i : Nat) : Nat := 0x60418 + 0x20 * i
/-- Address of STRBn_CFG (POS block, offset 0x800). -/
def strbCfg (i : Nat) : Nat := 0x60800 + 0x10 * i
/-- Address of STRBn_STAT (POS block, offset 0x804). -/
def strbStat (i : Nat) : Nat := 0x60804 + 0x10 * i
/-- Address of STRBn_WIDTH (POS block, offset 0x808). -/
def strbWidth (i : Nat) : Nat := 0x60808 + 0x10 * i
/-- Address of MKc_CFG (POS block, offset 0x900). -/
def mkCfg (i : Nat) : Nat := 0x60900 + 0x20 * i
/-- Address of MKc_OFFSET (POS block, offset 0x904). -/
def mkOffset (i : Nat) : Nat := 0x60904 + 0x20 * i
/-- Address of MKc_HOLD (POS block, offset 0x908). -/
def mkHold (i : Nat) : Nat := 0x60908 + 0x20 * i
/-- Address of MKc_LAST (POS block, offset 0x910). -/
def mkLast (i : Nat) : Nat := 0x60910 + 0x20 * i
/-- Address of MKc_CNT (POS block, offset 0x918). -/
def mkCnt (i : Nat) : Nat := 0x60918 + 0x20 * i
/-- Address of HLn_CFG (HL block, offset 0x0). -/
def hlCfg (n : Nat) : Nat := 0x100000 + 0x10000 * n
/-- Address of HLn_GEOM (HL block, offset 0x4). -/
def hlGeom (n : Nat) : Nat := 0x100004 + 0x10000 * n
/-- Address of HLn_LANEMAP (HL block, offset 0x8). -/
def hlLanemap (n : Nat) : Nat := 0x100008 + 0x10000 * n
/-- Address of HLn_TIMEOUT (HL block, offset 0xc). -/
def hlTimeout (n : Nat) : Nat := 0x10000c + 0x10000 * n
/-- Address of HLn_STAT (HL block, offset 0x10). -/
def hlStat (n : Nat) : Nat := 0x100010 + 0x10000 * n
/-- Address of HLn_ERR0 (HL block, offset 0x20). -/
def hlErr0 (n : Nat) : Nat := 0x100020 + 0x10000 * n
/-- Address of HLn_ERR1 (HL block, offset 0x24). -/
def hlErr1 (n : Nat) : Nat := 0x100024 + 0x10000 * n
/-- Address of HLn_ERR2 (HL block, offset 0x28). -/
def hlErr2 (n : Nat) : Nat := 0x100028 + 0x10000 * n
/-- Address of HLn_ERR3 (HL block, offset 0x2c). -/
def hlErr3 (n : Nat) : Nat := 0x10002c + 0x10000 * n
/-- Address of HLn_LINES (HL block, offset 0x30). -/
def hlLines (n : Nat) : Nat := 0x100030 + 0x10000 * n
/-- Address of PP_STAT (PIPE block, offset 0x0). -/
def ppStat (n : Nat) : Nat := 0x200000 + 0x10000 * n
/-- Address of PP_MODE (PIPE block, offset 0x4). -/
def ppMode (n : Nat) : Nat := 0x200004 + 0x10000 * n
/-- Address of PP_SWAP_BATT (PIPE block, offset 0x8). -/
def ppSwapBatt (n : Nat) : Nat := 0x200008 + 0x10000 * n
/-- Address of PP_CNT (PIPE block, offset 0x10). -/
def ppCnt (n : Nat) : Nat := 0x200010 + 0x10000 * n
/-- Address of PP_SATCNT (PIPE block, offset 0x14). -/
def ppSatcnt (n : Nat) : Nat := 0x200014 + 0x10000 * n
/-- Address of PP_CFG (PIPE block, offset 0x100). -/
def ppCfg (n : Nat) (i : Nat) : Nat := 0x200100 + 0x10000 * n + 0x100 * i
/-- Address of PP_BLc (PIPE block, offset 0x104). -/
def ppBl (n : Nat) (i : Nat) (j : Nat) : Nat := 0x200104 + 0x10000 * n + 0x100 * i + 4 * j
/-- Address of MOS_CFG (PIPE block, offset 0x130). -/
def mosCfg (n : Nat) (i : Nat) : Nat := 0x200130 + 0x10000 * n + 0x100 * i
/-- Address of MOS_EDGE_T (PIPE block, offset 0x134). -/
def mosEdgeT (n : Nat) (i : Nat) : Nat := 0x200134 + 0x10000 * n + 0x100 * i
/-- Address of MOS_SITEi (PIPE block, offset 0x140). -/
def mosSite (n : Nat) (i : Nat) (j : Nat) : Nat := 0x200140 + 0x10000 * n + 0x100 * i + 4 * j
/-- Address of MAT_W0 (PIPE block, offset 0x180). -/
def matW0 (n : Nat) (i : Nat) (j : Nat) : Nat := 0x200180 + 0x10000 * n + 0x100 * i + 0x10 * j
/-- Address of MAT_W1 (PIPE block, offset 0x184). -/
def matW1 (n : Nat) (i : Nat) (j : Nat) : Nat := 0x200184 + 0x10000 * n + 0x100 * i + 0x10 * j
/-- Address of MAT_W2 (PIPE block, offset 0x188). -/
def matW2 (n : Nat) (i : Nat) (j : Nat) : Nat := 0x200188 + 0x10000 * n + 0x100 * i + 0x10 * j
/-- Address of MAT_W3 (PIPE block, offset 0x18c). -/
def matW3 (n : Nat) (i : Nat) (j : Nat) : Nat := 0x20018c + 0x10000 * n + 0x100 * i + 0x10 * j
/-- Address of CD_CFG (PIPE block, offset 0x1c0). -/
def cdCfg (n : Nat) (i : Nat) : Nat := 0x2001c0 + 0x10000 * n + 0x100 * i
/-- Address of CD_TRIM (PIPE block, offset 0x1c4). -/
def cdTrim (n : Nat) (i : Nat) : Nat := 0x2001c4 + 0x10000 * n + 0x100 * i
/-- Address of CD_FPITCH (PIPE block, offset 0x1c8). -/
def cdFpitch (n : Nat) (i : Nat) : Nat := 0x2001c8 + 0x10000 * n + 0x100 * i
/-- Address of CD_DLY0 (PIPE block, offset 0x1cc). -/
def cdDly0 (n : Nat) (i : Nat) : Nat := 0x2001cc + 0x10000 * n + 0x100 * i
/-- Address of CD_DLY1 (PIPE block, offset 0x1d0). -/
def cdDly1 (n : Nat) (i : Nat) : Nat := 0x2001d0 + 0x10000 * n + 0x100 * i
/-- Address of CD_DLY2 (PIPE block, offset 0x1d4). -/
def cdDly2 (n : Nat) (i : Nat) : Nat := 0x2001d4 + 0x10000 * n + 0x100 * i
/-- Address of BK_COL0 (PIPE block, offset 0x1d8). -/
def bkCol0 (n : Nat) (i : Nat) : Nat := 0x2001d8 + 0x10000 * n + 0x100 * i
/-- Address of BK_CFG (PIPE block, offset 0x1dc). -/
def bkCfg (n : Nat) (i : Nat) : Nat := 0x2001dc + 0x10000 * n + 0x100 * i
/-- Address of BK_ANCHOR (PIPE block, offset 0x1e0). -/
def bkAnchor (n : Nat) (i : Nat) : Nat := 0x2001e0 + 0x10000 * n + 0x100 * i
/-- Address of BR_CFG (PIPE block, offset 0x1e4). -/
def brCfg (n : Nat) (i : Nat) : Nat := 0x2001e4 + 0x10000 * n + 0x100 * i
/-- Address of BR_THRESH (PIPE block, offset 0x1e8). -/
def brThresh (n : Nat) (i : Nat) : Nat := 0x2001e8 + 0x10000 * n + 0x100 * i
/-- Address of BR_LBAND (PIPE block, offset 0x1ec). -/
def brLband (n : Nat) (i : Nat) : Nat := 0x2001ec + 0x10000 * n + 0x100 * i
/-- Address of BR_RBAND (PIPE block, offset 0x1f0). -/
def brRband (n : Nat) (i : Nat) : Nat := 0x2001f0 + 0x10000 * n + 0x100 * i
/-- Address of BR_GATE (PIPE block, offset 0x1f4). -/
def brGate (n : Nat) (i : Nat) : Nat := 0x2001f4 + 0x10000 * n + 0x100 * i
/-- Address of CD_STAT (PIPE block, offset 0x300). -/
def cdStat (n : Nat) : Nat := 0x200300 + 0x10000 * n
/-- Address of CARD_LINE_HWM (PIPE block, offset 0x308). -/
def cardLineHwm (n : Nat) : Nat := 0x200308 + 0x10000 * n
/-- Address of CARD_ROW_LAST (PIPE block, offset 0x310). -/
def cardRowLast (n : Nat) : Nat := 0x200310 + 0x10000 * n
/-- Address of CARD_LATE_CNT (PIPE block, offset 0x320). -/
def cardLateCnt (n : Nat) : Nat := 0x200320 + 0x10000 * n
/-- Address of CARD_WROVF_CNT (PIPE block, offset 0x324). -/
def cardWrovfCnt (n : Nat) : Nat := 0x200324 + 0x10000 * n
/-- Address of CARD_DUP_CNT (PIPE block, offset 0x328). -/
def cardDupCnt (n : Nat) : Nat := 0x200328 + 0x10000 * n
/-- Address of CARD_FBK_CNT (PIPE block, offset 0x32c). -/
def cardFbkCnt (n : Nat) : Nat := 0x20032c + 0x10000 * n
/-- Address of CARD_MISS_CNT (PIPE block, offset 0x330). -/
def cardMissCnt (n : Nat) : Nat := 0x200330 + 0x10000 * n
/-- Address of CARD_UNLK_CNT (PIPE block, offset 0x334). -/
def cardUnlkCnt (n : Nat) : Nat := 0x200334 + 0x10000 * n
/-- Address of BR_STAT (PIPE block, offset 0x340). -/
def brStat (n : Nat) : Nat := 0x200340 + 0x10000 * n
/-- Address of BR_LEDGE (PIPE block, offset 0x344). -/
def brLedge (n : Nat) : Nat := 0x200344 + 0x10000 * n
/-- Address of BR_REDGE (PIPE block, offset 0x348). -/
def brRedge (n : Nat) : Nat := 0x200348 + 0x10000 * n
/-- Address of BK_FBK_CNT (PIPE block, offset 0x350). -/
def bkFbkCnt (n : Nat) : Nat := 0x200350 + 0x10000 * n
/-- Address of BK_XEXP_CNT (PIPE block, offset 0x354). -/
def bkXexpCnt (n : Nat) : Nat := 0x200354 + 0x10000 * n
/-- Address of BR_REJ_CNT (PIPE block, offset 0x358). -/
def brRejCnt (n : Nat) : Nat := 0x200358 + 0x10000 * n
/-- Address of NAP_CNT (PIPE block, offset 0x360). -/
def napCnt (n : Nat) : Nat := 0x200360 + 0x10000 * n
/-- Address of NAP_TILES (PIPE block, offset 0x364). -/
def napTiles (n : Nat) : Nat := 0x200364 + 0x10000 * n
/-- Address of EXP_NOW (PIPE block, offset 0x380). -/
def expNow (n : Nat) : Nat := 0x200380 + 0x10000 * n
/-- Address of EXP_TIME (PIPE block, offset 0x384). -/
def expTime (n : Nat) : Nat := 0x200384 + 0x10000 * n
/-- Address of EXP_TARGET (PIPE block, offset 0x388). -/
def expTarget (n : Nat) : Nat := 0x200388 + 0x10000 * n
/-- Address of NAP_CFG (PIPE block, offset 0x400). -/
def napCfg (n : Nat) (i : Nat) : Nat := 0x200400 + 0x10000 * n + 0x200 * i
/-- Address of NAP_HFIRST (PIPE block, offset 0x404). -/
def napHfirst (n : Nat) (i : Nat) : Nat := 0x200404 + 0x10000 * n + 0x200 * i
/-- Address of NAP_HLAST (PIPE block, offset 0x408). -/
def napHlast (n : Nat) (i : Nat) : Nat := 0x200408 + 0x10000 * n + 0x200 * i
/-- Address of NAP_THR_W0 (PIPE block, offset 0x410). -/
def napThrW0 (n : Nat) (i : Nat) (j : Nat) : Nat := 0x200410 + 0x10000 * n + 0x200 * i + 0x10 * j
/-- Address of NAP_THR_W1 (PIPE block, offset 0x414). -/
def napThrW1 (n : Nat) (i : Nat) (j : Nat) : Nat := 0x200414 + 0x10000 * n + 0x200 * i + 0x10 * j
/-- Address of NAP_THR_W2 (PIPE block, offset 0x418). -/
def napThrW2 (n : Nat) (i : Nat) (j : Nat) : Nat := 0x200418 + 0x10000 * n + 0x200 * i + 0x10 * j
/-- Address of NAP_K (PIPE block, offset 0x450). -/
def napK (n : Nat) (i : Nat) (j : Nat) : Nat := 0x200450 + 0x10000 * n + 0x200 * i + 4 * j
/-- Address of NAP_K12 (PIPE block, offset 0x480). -/
def napK12 (n : Nat) (i : Nat) : Nat := 0x200480 + 0x10000 * n + 0x200 * i
/-- Address of NAP_CLASSi (PIPE block, offset 0x4a0). -/
def napClass (n : Nat) (i : Nat) (j : Nat) : Nat := 0x2004a0 + 0x10000 * n + 0x200 * i + 4 * j
/-- Address of FULk_STAT (FUL block, offset 0x0). -/
def fulStat (i : Nat) : Nat := 0x300000 + 0x800 * i
/-- Address of FULk_BATT (FUL block, offset 0x8). -/
def fulBatt (i : Nat) : Nat := 0x300008 + 0x800 * i
/-- Address of FULk_TILES (FUL block, offset 0x10). -/
def fulTiles (i : Nat) : Nat := 0x300010 + 0x800 * i
/-- Address of FUL_BANK (FUL block, offset 0x80). -/
def fulBank : Nat := 0x300080
/-- Address of FUL_SWAP_BATT (FUL block, offset 0x88). -/
def fulSwapBatt : Nat := 0x300088
/-- Address of SEAMs_CFG (FUL block, offset 0x100). -/
def seamCfg (i : Nat) (j : Nat) : Nat := 0x300100 + 0x200 * i + 0x10 * j
/-- Address of SEAMs_COL (FUL block, offset 0x104). -/
def seamCol (i : Nat) (j : Nat) : Nat := 0x300104 + 0x200 * i + 0x10 * j
/-- Address of OUT_CFG (FUL block, offset 0x200). -/
def outCfg (i : Nat) : Nat := 0x300200 + 0x200 * i
/-- Address of OUT_SHIFTf (FUL block, offset 0x204). -/
def outShift (i : Nat) (j : Nat) : Nat := 0x300204 + 0x200 * i + 4 * j
/-- Address of OUT_FILLj (FUL block, offset 0x214). -/
def outFill (i : Nat) (j : Nat) : Nat := 0x300214 + 0x200 * i + 4 * j
/-- Address of RUNGr (FUL block, offset 0x240). -/
def rung (i : Nat) (j : Nat) : Nat := 0x300240 + 0x200 * i + 4 * j
/-- Address of BUDGET_CFG (FUL block, offset 0x500). -/
def budgetCfg : Nat := 0x300500
/-- Address of RATE_NOM (FUL block, offset 0x504). -/
def rateNom : Nat := 0x300504
/-- Address of SEAM_WAIT (FUL block, offset 0x508). -/
def seamWait : Nat := 0x300508
/-- Address of LAD_STAT (FUL block, offset 0x510). -/
def ladStat : Nat := 0x300510
/-- Address of LAD_RATE (FUL block, offset 0x514). -/
def ladRate : Nat := 0x300514
/-- Address of LAD_RECALL (FUL block, offset 0x518). -/
def ladRecall : Nat := 0x300518
/-- Address of LAD_BUDGET (FUL block, offset 0x520). -/
def ladBudget : Nat := 0x300520
/-- Address of LAD_BATT (FUL block, offset 0x528). -/
def ladBatt : Nat := 0x300528
/-- Address of LAD_SIZEr (FUL block, offset 0x540). -/
def ladSize (i : Nat) : Nat := 0x300540 + 8 * i
/-- Address of LAD_CNT (FUL block, offset 0x580). -/
def ladCnt : Nat := 0x300580
/-- Address of LAD_CAPDEF (FUL block, offset 0x584). -/
def ladCapdef : Nat := 0x300584
/-- Address of LAD_SEAMWAIT (FUL block, offset 0x588). -/
def ladSeamwait : Nat := 0x300588
/-- Address of GRID_W (FUL block, offset 0x600). -/
def gridW : Nat := 0x300600
/-- Address of GRID_PITCH (FUL block, offset 0x604). -/
def gridPitch : Nat := 0x300604
/-- Address of DEV_FIRST (FUL block, offset 0x608). -/
def devFirst : Nat := 0x300608
/-- Address of DEV_LAST (FUL block, offset 0x60c). -/
def devLast : Nat := 0x30060c
/-- Address of CROP_CFG (FUL block, offset 0x610). -/
def cropCfg : Nat := 0x300610
/-- Address of CROP_FIX_FIRST (FUL block, offset 0x614). -/
def cropFixFirst : Nat := 0x300614
/-- Address of CROP_FIX_LAST (FUL block, offset 0x618). -/
def cropFixLast : Nat := 0x300618
/-- Address of CROP_NOW_FIRST (FUL block, offset 0x620). -/
def cropNowFirst : Nat := 0x300620
/-- Address of CROP_NOW_LAST (FUL block, offset 0x624). -/
def cropNowLast : Nat := 0x300624
/-- Address of CROP_BATT (FUL block, offset 0x628). -/
def cropBatt : Nat := 0x300628
/-- Address of CROP_STAT (FUL block, offset 0x630). -/
def cropStat : Nat := 0x300630
/-- Address of BT_DL_POS (FUL block, offset 0x700). -/
def btDlPos : Nat := 0x300700
/-- Address of BT_DL_TIME (FUL block, offset 0x704). -/
def btDlTime : Nat := 0x300704
/-- Address of BT_STAT (FUL block, offset 0x708). -/
def btStat : Nat := 0x300708
/-- Address of BT_OPEN_MIN (FUL block, offset 0x710). -/
def btOpenMin : Nat := 0x300710
/-- Address of FS_STAT (FS block, offset 0x0). -/
def fsStat : Nat := 0x380000
/-- Address of FS_LOADc (FS block, offset 0x10). -/
def fsLoad (i : Nat) : Nat := 0x380010 + 4 * i
/-- Address of FS_ECC (FS block, offset 0x30). -/
def fsEcc : Nat := 0x380030
/-- Address of FS_UE_ADDR (FS block, offset 0x38). -/
def fsUeAddr : Nat := 0x380038
/-- Address of HOODn_CFG (HOOD block, offset 0x0). -/
def hoodCfg (i : Nat) : Nat := 0x390000 + 0x20 * i
/-- Address of HOODn_ROWB (HOOD block, offset 0x4). -/
def hoodRowb (i : Nat) : Nat := 0x390004 + 0x20 * i
/-- Address of HOODn_NSLOT (HOOD block, offset 0x8). -/
def hoodNslot (i : Nat) : Nat := 0x390008 + 0x20 * i
/-- Address of HOODn_WPTR (HOOD block, offset 0x10). -/
def hoodWptr (i : Nat) : Nat := 0x390010 + 0x20 * i
/-- Address of HOODn_OLDEST (HOOD block, offset 0x18). -/
def hoodOldest (i : Nat) : Nat := 0x390018 + 0x20 * i
/-- Address of HOOD_POOL (HOOD block, offset 0x200). -/
def hoodPool : Nat := 0x390200
/-- Address of HOOD_ATT (HOOD block, offset 0x204). -/
def hoodAtt : Nat := 0x390204
/-- Address of HOOD_FREE (HOOD block, offset 0x210). -/
def hoodFree : Nat := 0x390210
/-- Address of HOOD_HELD (HOOD block, offset 0x214). -/
def hoodHeld : Nat := 0x390214
/-- Address of HOOD_STG_USED (HOOD block, offset 0x218). -/
def hoodStgUsed : Nat := 0x390218
/-- Address of MARKm_STAT (HOOD block, offset 0x400). -/
def markStat (i : Nat) : Nat := 0x390400 + 0x20 * i
/-- Address of MARKm_FIRST (HOOD block, offset 0x408). -/
def markFirst (i : Nat) : Nat := 0x390408 + 0x20 * i
/-- Address of MARKm_LAST (HOOD block, offset 0x410). -/
def markLast (i : Nat) : Nat := 0x390410 + 0x20 * i
/-- Address of HOOD_CNT (HOOD block, offset 0x600). -/
def hoodCnt : Nat := 0x390600
/-- Address of PLC_STAT (PLC block, offset 0x0). -/
def plcStat : Nat := 0x3a0000
/-- Address of PLC_INFL_KIB (PLC block, offset 0x4). -/
def plcInflKib : Nat := 0x3a0004
/-- Address of CC_CFG0 (PLC block, offset 0x10). -/
def ccCfg0 : Nat := 0x3a0010
/-- Address of CC_CFG1 (PLC block, offset 0x14). -/
def ccCfg1 : Nat := 0x3a0014
/-- Address of PLC_FAILc (PLC block, offset 0x40). -/
def plcFail (i : Nat) : Nat := 0x3a0040 + 4 * i
/-- Address of STRs_CFG (PLC block, offset 0x100). -/
def strCfg (i : Nat) : Nat := 0x3a0100 + 0x40 * i
/-- Address of STRs_STAT (PLC block, offset 0x104). -/
def strStat (i : Nat) : Nat := 0x3a0104 + 0x40 * i
/-- Address of STRs_PID (PLC block, offset 0x108). -/
def strPid (i : Nat) : Nat := 0x3a0108 + 0x40 * i
/-- Address of STRs_PUB (PLC block, offset 0x110). -/
def strPub (i : Nat) : Nat := 0x3a0110 + 0x40 * i
/-- Address of QPq_CFG (PLC block, offset 0x1000). -/
def qpCfg (i : Nat) : Nat := 0x3a1000 + 0x20 * i
/-- Address of QPq_RMAX (PLC block, offset 0x1004). -/
def qpRmax (i : Nat) : Nat := 0x3a1004 + 0x20 * i
/-- Address of QPq_STAT (PLC block, offset 0x1008). -/
def qpStat (i : Nat) : Nat := 0x3a1008 + 0x20 * i
/-- Address of QPq_RATE (PLC block, offset 0x100c). -/
def qpRate (i : Nat) : Nat := 0x3a100c + 0x20 * i
/-- Address of QPq_CNT (PLC block, offset 0x1010). -/
def qpCnt (i : Nat) : Nat := 0x3a1010 + 0x20 * i
/-- Address of UMAC_CFG (UMAC block, offset 0x0). -/
def umacCfg : Nat := 0x3b0000
/-- Address of UMAC_STAT (UMAC block, offset 0x4). -/
def umacStat : Nat := 0x3b0004
/-- Address of UMAC_DISC (UMAC block, offset 0x10). -/
def umacDisc : Nat := 0x3b0010
/-- Address of TOP_ID (TOP block, offset 0x0). -/
def topId : Nat := 0
/-- Address of UID (TOP block, offset 0x8). -/
def uid : Nat := 8
/-- Address of PLANT_ADDR (TOP block, offset 0x10). -/
def plantAddr : Nat := 0x10
/-- Address of REG_ACCESS (TOP block, offset 0x100). -/
def regAccess : Nat := 0x100
/-- Address of NEXT_BANK (TOP block, offset 0x104). -/
def nextBank : Nat := 0x104
/-- Address of NB_REFUSED (TOP block, offset 0x108). -/
def nbRefused : Nat := 0x108
/-- Address of SHD_DROP_CNT (TOP block, offset 0x10c). -/
def shdDropCnt : Nat := 0x10c
/-- Address of LU_MAPi (TOP block, offset 0x120). -/
def luMap (i : Nat) : Nat := 0x120 + 4 * i
/-- Address of VIOL_CNT (TOP block, offset 0x200). -/
def violCnt : Nat := 0x200
/-- Address of VIOL_PTR (TOP block, offset 0x204). -/
def violPtr : Nat := 0x204
/-- Address of VIOL_ADDRj (TOP block, offset 0x210). -/
def violAddr (i : Nat) : Nat := 0x210 + 8 * i
/-- Address of VIOL_INFOj (TOP block, offset 0x214). -/
def violInfo (i : Nat) : Nat := 0x214 + 8 * i
/-- Address of IDX_HOLD_TIME (IDX block, offset 0x10). -/
def idxHoldTime : Nat := 0x40010
/-- Address of IDX_DISCARD_CNT (IDX block, offset 0x14). -/
def idxDiscardCnt : Nat := 0x40014
/-- Address of IDX_PERR_ADDR (IDX block, offset 0x18). -/
def idxPerrAddr : Nat := 0x40018
/-- Address of IDX_PERR_CNT (IDX block, offset 0x1c). -/
def idxPerrCnt : Nat := 0x4001c
/-- Address of IDX_PERR_INFO (IDX block, offset 0x20). -/
def idxPerrInfo : Nat := 0x40020
/-- Address of STF_CTRL (STF block, offset 0x0). -/
def stfCtrl : Nat := 0x90000
/-- Address of STF_STAT (STF block, offset 0x4). -/
def stfStat : Nat := 0x90004
/-- Address of STF_REF (STF block, offset 0x8). -/
def stfRef : Nat := 0x90008
/-- Address of STF_LAST (STF block, offset 0xc). -/
def stfLast : Nat := 0x9000c
/-- Address of STF_MISMATCH_CNT (STF block, offset 0x10). -/
def stfMismatchCnt : Nat := 0x90010
/-- Address of STF_NREG (STF block, offset 0x14). -/
def stfNreg : Nat := 0x90014
/-- Address of STF_SCANS (STF block, offset 0x18). -/
def stfScans : Nat := 0x90018
/-- Address of STF_BREFk (STF block, offset 0x800). -/
def stfBref (i : Nat) : Nat := 0x90800 + 8 * i
/-- Address of STF_BLASTk (STF block, offset 0x804). -/
def stfBlast (i : Nat) : Nat := 0x90804 + 8 * i
/-- Address of FLT_STICKYi (FLT block, offset 0x0). -/
def fltSticky (i : Nat) : Nat := 0x20000 + 4 * i
/-- Address of FLT_LIVEi (FLT block, offset 0x20). -/
def fltLive (i : Nat) : Nat := 0x20020 + 4 * i
/-- Address of FLT_STATE (FLT block, offset 0x40). -/
def fltState : Nat := 0x20040
/-- Address of FLT_DEVCNT (FLT block, offset 0x44). -/
def fltDevcnt : Nat := 0x20044
/-- Address of FLT_CFG (FLT block, offset 0x48). -/
def fltCfg : Nat := 0x20048
/-- Address of FLT_QUIET1 (FLT block, offset 0x4c). -/
def fltQuiet1 : Nat := 0x2004c
/-- Address of FLT_QUIET2 (FLT block, offset 0x50). -/
def fltQuiet2 : Nat := 0x20050
/-- Address of FLT_UREC (FLT block, offset 0x60). -/
def fltUrec : Nat := 0x20060
/-- Address of FLT_QPREC (FLT block, offset 0x68). -/
def fltQprec : Nat := 0x20068
/-- Address of FLT_QPMAP (FLT block, offset 0x70). -/
def fltQpmap : Nat := 0x20070
/-- Address of FLT_INJECT (FLT block, offset 0x80). -/
def fltInject : Nat := 0x20080
/-- Address of FLT_UCNTu (FLT block, offset 0x100). -/
def fltUcnt (i : Nat) : Nat := 0x20100 + 4 * i
/-- Address of FLT_PCNTp (FLT block, offset 0x280). -/
def fltPcnt (i : Nat) : Nat := 0x20280 + 4 * i
/-- Address of FLT_CLASSs (FLT block, offset 0x400). -/
def fltClass (i : Nat) : Nat := 0x20400 + 4 * i
/-- Address of BAND_CFG (BAND block, offset 0x0). -/
def bandCfg : Nat := 0x70000
/-- Address of BAND_STAT (BAND block, offset 0x4). -/
def bandStat : Nat := 0x70004
/-- Address of BANDp_STAT (BAND block, offset 0x100). -/
def bandpStat (i : Nat) : Nat := 0x70100 + 0x40 * i
/-- Address of BANDp_DELAY (BAND block, offset 0x104). -/
def bandpDelay (i : Nat) : Nat := 0x70104 + 0x40 * i
/-- Address of BANDp_TRIM (BAND block, offset 0x108). -/
def bandpTrim (i : Nat) : Nat := 0x70108 + 0x40 * i
/-- Address of BANDp_ERR (BAND block, offset 0x10c). -/
def bandpErr (i : Nat) : Nat := 0x7010c + 0x40 * i
/-- Address of TB_CFG (BAND block, offset 0x200). -/
def tbCfg : Nat := 0x70200
/-- Address of TB_STAT (BAND block, offset 0x204). -/
def tbStat : Nat := 0x70204
/-- Address of TB_OFFSET (BAND block, offset 0x208). -/
def tbOffset : Nat := 0x70208
/-- Address of TB_MASTER (BAND block, offset 0x210). -/
def tbMaster : Nat := 0x70210
/-- Address of SMB_CFG (SMB block, offset 0x0). -/
def smbCfg : Nat := 0x50000
/-- Address of SMB_SLOTi (SMB block, offset 0x10). -/
def smbSlot (i : Nat) : Nat := 0x50010 + 4 * i
/-- Address of SMB_MASK (SMB block, offset 0x20). -/
def smbMask : Nat := 0x50020
/-- Address of SMB_STAT (SMB block, offset 0x30). -/
def smbStat : Nat := 0x50030
/-- Address of MB_WSTAT (SMB block, offset 0x34). -/
def mbWstat : Nat := 0x50034
/-- Address of MB_PROTO_ERR (SMB block, offset 0x40). -/
def mbProtoErr : Nat := 0x50040
/-- Address of MB_ERR (SMB block, offset 0x44). -/
def mbErr : Nat := 0x50044
/-- Address of MB_ALERT (SMB block, offset 0x50). -/
def mbAlert : Nat := 0x50050
/-- Address of CNF_CTRL (CNF block, offset 0x0). -/
def cnfCtrl : Nat := 0x80000
/-- Address of CNF_LIM (CNF block, offset 0x4). -/
def cnfLim : Nat := 0x80004
/-- Address of CNF_STAT (CNF block, offset 0x10). -/
def cnfStat : Nat := 0x80010
/-- Address of CNF_RETIRED (CNF block, offset 0x14). -/
def cnfRetired : Nat := 0x80014
/-- Address of CNF_UWEARu (CNF block, offset 0x100). -/
def cnfUwear (i : Nat) : Nat := 0x80100 + 4 * i
/-- Address of CNF_EQSu (CNF block, offset 0x200). -/
def cnfEqs (i : Nat) : Nat := 0x80200 + 8 * i
/-- Address of CONDUCT (TOP block, offset 0x20). -/
def conduct : Nat := 0x20
/-- Address of CLK_STAT (CLK block, offset 0x0). -/
def clkStat : Nat := 0x10000
/-- Address of PD_ONi (CLK block, offset 0x10). -/
def pdOn (i : Nat) : Nat := 0x10010 + 4 * i
/-- Address of PD_SEQ (CLK block, offset 0x24). -/
def pdSeq : Nat := 0x10024
/-- Address of RST_CAUSE (CLK block, offset 0x30). -/
def rstCause : Nat := 0x10030
/-- Address of BOOT_STAT (CLK block, offset 0x34). -/
def bootStat : Nat := 0x10034
/-- Address of DBG_STAT (CLK block, offset 0x40). -/
def dbgStat : Nat := 0x10040
/-- Address of GPIOk_CFG (TOP block, offset 0x300). -/
def gpioCfg (i : Nat) : Nat := 0x300 + 4 * i

end Reg

end Sys2Proof.Machine
end

