-- ==== Sys2Proof/Machine/State.lean ====
section
/-! DEFINITION. The state of the block: everything spec/ gives the TZ1680, as plain data, and the state after reset. -/

namespace Sys2Proof.Machine

open Sys2Proof

/-! ## Messages, mailboxes and events (spec/02_command_interface.md) -/

/-- A message that the device sends (R54, R55): response, follow-up or event. `tag` says that its request carried a valid tag,
and as sent that a 16-byte tag goes with it (R59); `trunc` is the TRUNC flag of a ring copy. -/
structure Msg where
  code : Nat
  status : Nat
  seq : Word
  mbx : Nat
  htag : Word
  resp : Bool
  event : Bool
  followup : Bool
  tag : Bool
  trunc : Bool
  payload : Bytes
  deriving DecidableEq, Repr, Inhabited

/-- What the device holds for one mailbox (R63, R64, R69): the last sequence number, the stored response, the request
hopper (opcode and request, oldest first), where the answers of in-band requests go (sequence number, address, UDP port;
newest first), and the unstored responses of this second. -/
structure Mailbox where
  lastSeq : Option Word := none
  stored : Option Msg := none
  hopper : List (Nat × Req) := []
  srcs : List (Word × Nat × Nat) := []
  unstored : Nat := 0
  deriving DecidableEq, Repr, Inhabited

/-- The objects that a command can hold (R71). -/
inductive Obj where
  | pipe (n : Nat) | slice (k : Nat) | qp (q : Nat) | stream (s : Nat) | region (h : Nat) | hood (n : Nat)
  | bandPort (p : Nat) | eventRoute | conduct | fwImages | fulConfig | faultConfig | position | band | frameStore
  | inBandPath | uplink | ringBuffers (s : Nat) | stiffening | health | mailbox (m : Nat) | recallStream (s : Nat)
  | snapshot | bulkArea (m : Nat) | timebase | exposure
  deriving DecidableEq, Repr, Inhabited

/-- An accepted command that owes its follow-up (R66, R70, R71): its opcode and request, the objects it holds, and the
values it keeps for the follow-up. -/
structure Accepted where
  code : Nat
  req : Req
  objs : List Obj
  args : List Nat
  deriving DecidableEq, Repr

/-- A command that has begun and has not yet answered (R69): its opcode and request, the objects it holds, its kept values,
the power-domain switch that completes it, if it waits for one (R545, R550), and whether its mailbox has been reset meanwhile,
so that its response is discarded (R92). -/
structure Running where
  code : Nat
  req : Req
  objs : List Obj
  args : List Nat
  switch : Option (Nat × Bool)
  void : Bool := false
  deriving DecidableEq, Repr

/-- An event ring bound by SET_EVENT_ROUTE (R83, R84); `id` numbers the bindings. -/
structure Ring where
  id : Nat
  region : Nat
  off : Nat
  slots : Nat
  slotSize : Nat
  consOff : Nat
  written : Nat
  consumed : Nat
  deriving DecidableEq, Repr, Inhabited

/-- The event path (R81, R82, R85, R87, R94, R608). -/
structure Events where
  nextSeq : Word := 0
  hopper : List Msg := []
  q0 : List Msg := []
  ring : Option Ring := none
  /-- earlier routes that still have to take the oldest events of the hopper, oldest first: how many, and the ring (R94) -/
  past : List (Nat × Option Ring) := []
  /-- number of bindings so far -/
  bound : Nat := 0
  enable : Word := 0x1FFFE
  urgent : Word := 0x2002
  /-- events lost since the last EVENTS_LOST (R85) -/
  lostSince : Nat := 0
  /-- authentication failures of this second and the mailboxes that had them (R63) -/
  authFails : Nat := 0
  authMask : Nat := 0
  deriving DecidableEq, Repr, Inhabited

/-! ## Hoppers and seal units (spec/03_hoppers_and_seals.md) -/

/-- One hopper beside its contents, which stand with the unit they belong to (R98 to R108): whether a flush awaits its
boundary, and the tail notice. The parity bit of a stored word is `withParity` of it, with the upsets that its reading names
(R101, notes/assumptions/113.md). -/
structure Hopper where
  flushing : Bool := false
  tail : Bool := false
  deriving DecidableEq, Repr, Inhabited

/-- One scan request (R118): the space, the start address and the length. -/
structure ScanReq where
  space : Nat
  addr : Nat
  len : Nat
  /-- true for the stiffening scan started by hardware (R119) or by STIFFEN (R461) -/
  stiffening : Bool
  deriving DecidableEq, Repr, Inhabited

/-- Scan engine (R118, R119, R457 to R461). -/
structure Scan where
  running : Option ScanReq := none
  waiting : List ScanReq := []
  /-- the running values after each block slot, as the running stiffening scan found them -/
  runs : List Word := []
  /-- the running scan started after the last rebase-causing change (R460), and whether another came since -/
  rebaseThis : Bool := false
  changed : Bool := false
  /-- the running scan serves an accepted STIFFEN (R461) -/
  serves : Bool := false
  /-- SCAN or seal unit 6 registers were written while the scan ran (R120) -/
  spoiled : Bool := false
  /-- the last compared scan found no mismatch (R458) -/
  lastMatched : Bool := true
  deriving DecidableEq, Repr, Inhabited

/-! ## Position (spec/04_strip_position.md) -/

/-- One encoder input (R121 to R126): its accepted levels, its fail-safe detector, and for the slip check the ticks
of the master and of this encoder since the reference point. -/
structure Encoder where
  a : Bool := false
  b : Bool := false
  z : Bool := false
  openPair : Bool := false
  dM : Int := 0
  dC : Int := 0
  deriving DecidableEq, Repr, Inhabited

/-- An exposure setting (R151, spec/09_nap_and_exposure.md): time, gain code, strobe width and identifier. -/
structure Setting where
  time : Nat := 0
  gain : Nat := 0
  width : Nat := 0
  expid : Nat := 0
  deriving DecidableEq, Repr, Inhabited

/-- A committed exposure change that waits for its target batt (R150 to R154); `cmd` numbers the command or loop
decision that committed it, for EXPOSURE_APPLIED (R610). -/
structure Change where
  target : Nat
  setting : Setting
  cmd : Nat
  deriving DecidableEq, Repr, Inhabited

/-- The trigger generator of one head (R139 to R143, R151, R152): the next line, the cycle of the last fire, whether
the generator has stopped, the setting in force, the pending changes, and the committed changes (target, identifier)
that R272 looks up. -/
structure TrigGen where
  iNext : Nat := 0
  lastFire : Option Nat := none
  stopped : Bool := true
  /-- the highest line reached, plus 1, of the present line (R35) -/
  reached : Nat := 0
  setting : Setting := {}
  pending : List Change := []
  committed : List (Nat × Nat) := []
  deriving DecidableEq, Repr, Inhabited

/-- One strobe output (R147, R148): whether it is active. -/
structure Strobe where
  active : Bool := false
  /-- pulses due (their start cycle and width in 0.8 ns slots) -/
  due : List Nat := []
  deriving DecidableEq, Repr, Inhabited

/-- An exposure command or decision whose EXPOSURE_APPLIED is owed (R610): its number, target, SOURCE, GROUP and
CMD_SEQ; whether an entry was applied, the heads that applied late, and the heads (position x 16 + head) not resolved. -/
structure ExpTrack where
  cmd : Nat
  target : Nat
  source : Nat
  group : Nat
  seq : Nat
  applied : Bool
  late : List Nat
  waiting : List Nat
  deriving DecidableEq, Repr, Inhabited

/-- Strip position, the line and the trigger generators. -/
structure Pos where
  encs : List Encoder := List.replicate 4 {}
  /-- the integer tick count N of R127 -/
  n : Int := 0
  /-- the interpolated fraction f of R128, kept over a change of master (R127) -/
  f : Nat := 0
  fwd : Bool := true
  /-- cycle of the master's last accepted tick, and P when the last two ticks had one direction (R128) -/
  lastTick : Option Nat := none
  period : Option Nat := none
  /-- (cycle, SPOS) samples of the last 65,536 cycles, newest first (R130) -/
  hist : List (Nat × Int) := []
  /-- the largest SPOS since LINE_START, and each COIL_NUM in force since with that value as it came, newest first (R133) -/
  peak : Int := 0
  coils : List (Int × Nat) := []
  /-- the grid latched at LINE_START (R134): row pitch (Q16.8) and log2 of the height -/
  pitch : Nat := 0x100
  hlog : Nat := 10
  /-- number of the present or last line (0 before the first), and the exposure commits of R272 -/
  gen : Nat := 0
  /-- contributing heads of this device, fixed at LINE_START (R138, R241) -/
  contributing : List Nat := []
  /-- after LINE_STOP: the last batt of the line (R156) -/
  stopAfter : Option Nat := none
  firstFired : Bool := false
  /-- heads whose changes the present stop has discarded (R154) -/
  dropped : List Nat := []
  gens : List TrigGen := List.replicate 16 {}
  strobes : List Strobe := List.replicate 8 {}
  tracks : List ExpTrack := []
  nextCmd : Nat := 0
  deriving DecidableEq, Repr, Inhabited

/-! ## Register access and the bridge (spec/14_register_access.md) -/

/-- A 64-bit shadow of one block and one path (R437, R438): the block slot, the tag 8n and the high word. -/
structure Shadow where
  slot : Nat
  path : Path
  tag : Nat
  value : Word
  deriving DecidableEq, Repr, Inhabited

/-- What the last register access of a path answered (R447, R453). -/
inductive Answer where
  | none
  | done
  | value (v : DWord)
  | error (kind : Nat)
  | retry
  | waiting
  deriving DecidableEq, Repr, Inhabited

/-- A fetched value or a failed fetch held for its path (R453). -/
inductive Held where
  | value (addr : Nat) (v : Word)
  | error (addr : Nat) (kind : Nat)
  deriving DecidableEq, Repr, Inhabited

/-- The bridge registers and state of one path (R449 to R454). -/
structure Bridge where
  addr : Word := 0
  post : Bool := false
  ainc : Bool := false
  /-- IDX_DATA as last written -/
  data : Word := 0
  /-- address of a fetch in progress -/
  fetching : Option Nat := none
  held : Option Held := none
  /-- a write under way at the far side: address, data, posted -/
  writing : Option (Nat × Word × Bool) := none
  /-- an access to IDX_DATA that waits for the posted write (R452): a read, or a write with its word and POST -/
  next : Option (Option (Word × Bool)) := none
  deriving DecidableEq, Repr, Inhabited

/-- The register access paths. -/
structure Bus where
  readShadows : List Shadow := []
  writeShadows : List Shadow := []
  bridges : List Bridge := List.replicate 3 {}
  answers : List Answer := List.replicate 3 .none
  deriving DecidableEq, Repr, Inhabited

/-! ## Faults (spec/15_faults_and_recovery.md) -/

/-- A unit of the fault collector: UNIT_KIND and UNIT of R469. -/
structure FUnit where
  kind : Nat
  idx : Nat
  deriving DecidableEq, Repr, Inhabited

/-- A recovery in progress (R475 to R478): its unit, class, the time of the first occurrence it took, and the time
from which its quiet period runs, and that period's length in cycles. -/
structure Recovery where
  unit : FUnit
  cls : Nat
  first : Nat
  since : Nat
  quiet : Nat
  deriving DecidableEq, Repr, Inhabited

/-- One entry of the fault log (R469); the sticky and live bits as 256-bit numbers. -/
structure LogEntry where
  seq : Word
  kind : Nat
  cls : Nat
  unit : FUnit
  time : Nat
  spos : Int
  sticky : BitVec 256
  live : BitVec 256
  recov : Nat
  deriving DecidableEq, Repr, Inhabited

/-- The fault collector and the fault log. -/
structure Faults where
  recoveries : List Recovery := []
  /-- units whose contained recovery a device recovery has taken over (R478) -/
  absorbed : List FUnit := []
  /-- units that a class 1 occurrence has reached during the device recovery (R478) -/
  during : List FUnit := []
  /-- (unit, cycle) of the counted recoveries, newest first (R473) -/
  counted : List (FUnit × Nat) := []
  /-- (source, cycle) of the last FAULT_ENTERED with CLASS 0 (R474) -/
  noticed : List (Nat × Nat) := []
  log : List LogEntry := []
  logNext : Word := 0
  /-- the bits as last sampled (R468) -/
  lastSticky : BitVec 256 := 0
  lastLive : BitVec 256 := 0
  /-- the source that entered the safe state, if it powers domains down (R483) -/
  safeSource : Option Nat := none
  deriving DecidableEq, Repr, Inhabited

/-! ## Management bus (spec/16_management_bus.md) -/

/-- A message being read out through MBX_READ (R497, R498): whether it comes from the event queue, its bytes, how many
of them the chunks read so far have returned, and whether it still has its place in its queue (a message released
before and read again after MBX_REWIND has none). -/
structure Outbound where
  isEvent : Bool
  bytes : Bytes
  pos : Nat
  queued : Bool
  deriving DecidableEq, Repr, Inhabited

/-- A WIN_DATA transaction whose access is under way (R500, R501): a read with its address byte and the bytes that the
controller clocks in, or a write; `live` until MB_RST_N abandons the transaction (R511). -/
structure WinTx where
  write : Bool
  addr : Nat
  n : Nat
  live : Bool
  deriving DecidableEq, Repr, Inhabited

/-- The management bus port. -/
structure Smb where
  /-- the message being reassembled from chunks (R495) -/
  reasm : Option Bytes := none
  /-- discarding the chunks of a message that was too long, until the next FIRST -/
  dropping : Bool := false
  respQ : List Msg := []
  outbound : Option Outbound := none
  /-- the message released last, while no chunk of a later one has been read (R498) -/
  released : Option Outbound := none
  winAddr : Word := 0x02000000
  win : Option WinTx := none
  /-- the bytes that the last read transaction returned, and whether the last one was acknowledged -/
  lastRead : Bytes := []
  acked : Bool := true
  standby : Bool := true
  resetLow : Bool := false
  /-- a Host Notify is owed: ALERT_CAUSE has become non-zero (R505), or arbitration was lost (R506) -/
  notifyDue : Bool := false
  retryNotify : Bool := false
  deriving DecidableEq, Repr, Inhabited

/-! ## Power, clocks, boot, debug (spec/18_power_clocks_boot.md) -/

/-- What the header of a firmware image in a slot says (R558): FW_VER, ROLLBACK, LENGTH and CL_MAX. -/
structure Image where
  fwVer : Nat
  rollback : Nat
  length : Nat
  clMax : Nat
  deriving DecidableEq, Repr, Inhabited

/-- The boot control record in force (R560). -/
structure BootRec where
  seq : Word
  prefer : Nat
  trial : Bool
  tries : Nat
  valid : Nat
  deriving DecidableEq, Repr, Inhabited

/-- Where the device stands between a reset and READY (R562). -/
inductive Phase where
  /-- PWR_OK high, RST_N low -/
  | held
  /-- a power-on or device reset has taken place, start-up has not begun -/
  | reset
  /-- start-up runs, an image is being loaded -/
  | booting
  /-- an image has been accepted and its firmware runs -/
  | firmware
  /-- both images rejected (R563) -/
  | stuck
  /-- READY has been raised -/
  | ready
  deriving DecidableEq, Repr, Inhabited

/-- Power, boot and debug state outside the registers. -/
structure Power where
  phase : Phase := .reset
  /-- the running slot and the present and previous firmware versions -/
  slot : Nat := 0
  fwVer : Nat := 0
  prevFw : Nat := 0
  /-- the slot named by RESET_DEVICE for the next boot (R561) -/
  named : Option Nat := none
  /-- a device reset owed 1 ms after the response, with its RST_CAUSE (R93) -/
  resetDue : Option Nat := none
  images : List (Option Image) := [none, none]
  record : BootRec := ⟨0, 0, false, 0, 3⟩
  /-- slots still to be tried in this boot, and slots rejected -/
  rejected : List Nat := []
  fuseRollback : Nat := 0
  revoked : Nat := 0
  activated : Bool := false
  /-- domains waiting to be switched: index, on or off (R545) -/
  queue : List (Nat × Bool) := []
  /-- an image that FW_STAGE has checked and is programming: slot and header -/
  staging : Option (Nat × Image) := none
  /-- debug (R565): the nonce of the outstanding challenge -/
  nonce : Option Bytes := none
  /-- EXTEST holds the pins (R564) -/
  extest : Bool := false
  jtagIr : Nat := 0
  deriving DecidableEq, Repr, Inhabited

/-! ## Line group, band link and timebase (spec/13_band_and_timebase.md) -/

/-- A band message of a reliable kind, as numbered and kept until acknowledged (R398). -/
structure BandSent where
  lseq : Nat
  kind : Nat
  hops : Nat
  body : List Int
  attempts : Nat
  deriving DecidableEq, Repr, Inhabited

/-- One band port beside its registers. -/
structure BandPort where
  blockLock : Bool := false
  /-- the last ROLL of this training was valid (R402); one has set the sequence of received messages -/
  rollSeen : Bool := false
  synced : Bool := false
  rxSeq : Nat := 0
  txSeq : Nat := 0
  unacked : List BandSent := []
  /-- measured delays d_meas of the present window, in 1/256 ns (R404) -/
  meas : List Int := []
  measured : Bool := false
  /-- instants of the last PROBEs sent, newest first; that of the last PROBE heard and not yet answered; the last pair
  (t2, t3) (R403) -/
  sentT1 : List Int := []
  heard : Option Int := none
  t2t3 : Option (Int × Int) := none
  /-- the next POSITION starts 13 blocks later, else 12 (R407) -/
  long : Bool := false
  lastValid : Bool := false
  nbrRole : Nat := 0
  nbrPlant : Nat := 0
  nbrFirst : Nat := 0
  nbrLast : Nat := 0
  nbrSize : Nat := 0
  /-- why the port went DOWN last, as BAND_LOST.CAUSE; cause ROLE has been reported in this training -/
  cause : Nat := 0
  roleLost : Bool := false
  flagsIn : Nat := 0
  deriving DecidableEq, Repr, Inhabited

/-- A SEAM_ROW received from a neighbour (R418). -/
structure SeamRow where
  port : Nat
  batt : Nat
  row : Nat
  colFirst : Nat
  planes : List (List Nat)
  deriving DecidableEq, Repr, Inhabited

/-- A BATT_CLOSE received from a neighbour (R419). -/
structure NbrClose where
  port : Nat
  batt : Nat
  flagged : List Bool
  deriving DecidableEq, Repr, Inhabited

/-- The line group. -/
structure Band where
  ports : List BandPort := [{}, {}]
  /-- V, RATE (Q15.16 ticks per us) and the arrival time (cycle) of the last valid POSITION on the source (R408) -/
  v : Int := 0
  rate : Int := 0
  tRx : Nat := 0
  valid : Bool := false
  /-- consecutive valid messages since the hold expired (R412) -/
  run : Nat := 0
  unlockedAt : Option Nat := none
  /-- own EXTRAP and UNLOCKED, before the source's flags are ORed in (R409) -/
  ownExtrap : Bool := false
  ownUnlocked : Bool := false
  /-- group stops already acted on: originator and stop number (R420) -/
  stops : List (Nat × Nat) := []
  stopNum : Nat := 0
  /-- lead: per follower the lowest batt reported open (R417, GRP_OPEN_MIN) -/
  openReports : List (Nat × Nat) := []
  followerOffsets : List (Nat × Nat) := []
  /-- follower: OFF_MIN of the line group, as the lead gave it with the line (R138, R292) -/
  groupOffset : Option Nat := none
  seamRows : List SeamRow := []
  closes : List NbrClose := []
  /-- rows sent per port and batt (R418), and (port, batt) of a BATT_CLOSE that follows the last SEAM_ROW (R419) -/
  seamSent : List (Nat × Nat × Nat) := []
  closeDue : List (Nat × Nat) := []
  /-- after a hold, SPOS waits for the received value to reach it (R412); the port whose loss started the hold -/
  holding : Bool := false
  lostPort : Option Nat := none
  /-- CONFIG and EXPOSE messages taken on one port of a ring whose second copy is still to come: port, content -/
  seen : List (Nat × List Int) := []
  lastOffsetSent : Option Nat := none
  deriving DecidableEq, Repr, Inhabited

/-- The plant timebase (R424): the time in units of 1/30,000 ns, the correction still to be slewed in, the corrected frequency
as its difference from REF_CORE in units per 65,536 cycles with the part of a unit not yet counted, and the PTP exchange. -/
structure Timebase where
  units : Nat := 0
  slew : Int := 0
  freq : Int := 0
  part : Int := 0
  stepped : Bool := false
  good : Nat := 0
  /-- a two-step Sync waiting for its Follow_Up: receive time in ns, and cycle -/
  twoStep : Option (Int × Nat) := none
  /-- the last Sync of this master: its origin time in ns and the cycle of its receipt -/
  anchor : Option (Int × Nat) := none
  /-- rank of the master accepted under the best master clock algorithm -/
  rank : Option Nat := none
  /-- the last Sync taken: its origin time and its receive time in ns -/
  lastSync : Option (Int × Int) := none
  /-- send time of the outstanding Delay_Req, and the path delay in ns -/
  delayReq : Option Int := none
  pathDelay : Int := 0
  deriving DecidableEq, Repr, Inhabited

/-! ## Conformateur (spec/17_conformateur_and_longevity.md) -/

/-- A retired page, or one due that waits (R522, R523). -/
structure RetPage where
  page : Nat
  cause : Nat
  pending : Bool
  kind : Nat
  deriving DecidableEq, Repr, Inhabited

/-- A wear record in the boot flash (R527): sequence, UID, EQ per unit, and the retired pages with cause and kind. -/
structure WearRec where
  seq : Nat
  uid : Nat
  eq : List Nat
  retired : List RetPage
  deriving DecidableEq, Repr, Inhabited

/-- What the conformateur measures and keeps. -/
structure Cnf where
  sensors : List Int := List.replicate 32 0
  supplies : List Nat := List.replicate 24 0
  eyes : List Nat := List.replicate 74 0
  /-- fractional frequency loss of each ageing site in parts per million -/
  losses : List Nat := List.replicate 64 0
  reeqAt : List (Nat × Nat) := []
  /-- corrected words per page: (page, cycle), newest first (R522) -/
  ce : List (Nat × Nat) := []
  retired : List RetPage := []
  /-- per stack: cycle since which it is below 80 C, and since which it is doubled -/
  coolSince : List (Option Nat) := [none, none]
  doubledSince : List (Option Nat) := [none, none]
  fanLowSince : Option Nat := none
  fan3Since : Option Nat := none
  supplyLowSince : List (Option Nat) := List.replicate 24 none
  /-- EQ_u in units of 2^-64 equivalent seconds -/
  eq : List Nat := List.replicate 16 0
  powered : Nat := 0
  fecLast : Nat := 0
  wearWarned : Bool := false
  recSeq : Nat := 0
  /-- the two flash copies (R527), and which is written next -/
  copies : List (Option WearRec) := [none, none]
  /-- supplies that were outside their window at their last sample (R574) -/
  supplyOut : List Bool := List.replicate 24 false
  /-- a sensor, a site reads implausibly (source 0x8C) -/
  oddSensor : Bool := false
  oddSite : Bool := false
  /-- lanes whose margin could not be restored (source 0x83) -/
  unrestored : List Nat := []
  /-- snapshot capture (R535): generation and bytes; pieces of an import (R536) -/
  gen : Nat := 0
  capture : Option Bytes := none
  importing : Option Bytes := none
  /-- last accepted configuration commands for section CMDS (R533) -/
  cmds : List (Nat × Nat × Bytes) := []
  deriving DecidableEq, Repr, Inhabited

/-! ## Head link ports (spec/05_head_link.md) -/

namespace Cause

/-! Causes of a missing row or a lost line (R234). 0 is present. -/
def present : Nat := 0
def noLine : Nat := 1
def length : Nat := 2
def checksum : Nat := 3
def link : Nat := 4
def detached : Nat := 5
def overspeed : Nat := 6
def stopped : Nat := 7
def rxOverflow : Nat := 8
def writeOverflow : Nat := 9
def hoodFull : Nat := 10
def deadline : Nat := 11
def edge : Nat := 12
def recovery : Nat := 13

end Cause

/-- A record of the trigger table (R172): the line index of the plan, tag, stamped position, batt, the exposure
identifier sent, FIRST and NEWEXP of its message, whether POS_STAT.UNLOCKED held at the trigger (R240), how many lines
it awaits and how many it has received; whether a change for its batt came too late for it (R153). -/
structure TrigRec where
  gen : Nat
  i : Nat
  tag : Nat
  stamp : Int
  batt : Nat
  expid : Nat
  first : Bool
  newexp : Bool
  unlocked : Bool
  awaits : Nat
  got : Nat
  late : Bool := false
  deriving DecidableEq, Repr, Inhabited

/-- A line on its way from the receiver to carding (R175, R213): the line of the line group it belongs to, the trigger's
line index, its sensor or frame line, batt, exposure identifier, a lost line's cause (0 when it arrived), why it is
marked EXPOSURE_UNCONFIRMED (0 not; else 1 plus the CAUSE of EXPOSURE_UNCONFIRMED), its other marks, the bank epoch in
which it was pounced, and its samples and saturation marks per plane. -/
structure Line where
  gen : Nat
  i : Nat
  sub : Nat
  batt : Nat
  expid : Nat
  cause : Nat
  why : Nat
  unlocked : Bool
  damaged : Bool
  epoch : Nat
  planes : List (List Nat)
  sats : List (List Bool)
  deriving DecidableEq, Repr, Inhabited

/-- The line being received (R170): its record and sub-line, packets so far, its planes so far, and whether the RX
hopper has dropped part of it. -/
structure OpenLine where
  rcd : TrigRec
  sub : Nat
  packets : Nat
  planes : List (List Nat)
  why : Nat
  overflow : Bool
  deriving DecidableEq, Repr, Inhabited

/-- One head link port beside its registers. -/
structure Port where
  table : List TrigRec := []
  inUse : Option TrigRec := none
  line : Option OpenLine := none
  /-- a Frame Start has arrived since the previous line: its echo (R174) -/
  echo : Option Nat := none
  /-- a Frame Start without Frame End (R173) -/
  frameOpen : Bool := false
  /-- the batts whose further lines are marked EXPOSURE_UNCONFIRMED, each with why and the identifiers expected and echoed
  (R174) -/
  unconf : List (Nat × Nat × Nat × Nat) := []
  /-- last valid marker count and run of good markers per logical lane (R163) -/
  mcount : List (Option Nat) := [none, none, none, none]
  runs : List Nat := [0, 0, 0, 0]
  lastDown : Option Int := none
  /-- HEAD_DETACH has committed (R188) -/
  halted : Bool := false
  /-- the highest batt of which this head has fired a line, and the batts of the line below it of which it has fired none, for
  FIRST (R180) -/
  lastFiredBatt : Option Nat := none
  unfired : List Nat := []
  deriving DecidableEq, Repr, Inhabited

/-! ## Pipelines (spec/06 to spec/09) -/

/-- The grid of one line (R134), fixed at LINE_START: `gen` numbers the lines since reset, origin in 1/256 tick. -/
structure Grid where
  gen : Nat := 0
  origin : Int := 0
  pitch : Nat := 0x100
  hlog : Nat := 10
  first : Nat := 0
  deriving DecidableEq, Repr, Inhabited

/-- The registers and tables of a bank as they stood when a swap ended their use (R215, R233). -/
structure View where
  bank : Nat
  regs : List (Nat × Word)
  deep : List (Nat × Word)
  /-- the entries of the calibration, defect and kernel RAM that read as uncorrectable, as deep-space addresses (R196, R611) -/
  lost : List Nat := []
  deriving DecidableEq, Repr, Inhabited

/-- A swap that took place: its target batt, and the bank used before it. -/
structure Swap where
  target : Nat
  old : View
  deriving DecidableEq, Repr, Inhabited

/-- A carded or blocked row (R234, R257): its row number, status, why it is EXPOSURE_UNCONFIRMED, identifier, values and
saturation marks per plane; for a blocked row the carded rows it was formed from. -/
structure Row where
  r : Nat
  status : Nat
  why : Nat
  expid : Nat
  planes : List (List Nat)
  sats : List (List Bool)
  src : List Nat := []
  deriving DecidableEq, Repr, Inhabited

/-- The filter of one brim side (R262). -/
structure Brim where
  valid : Bool := false
  s : Nat := 0
  miss : Nat := 0
  deriving DecidableEq, Repr, Inhabited

/-- What one side of a batt's edge record gathers (R264). -/
structure EdgeAcc where
  batt : Nat
  side : Nat
  last : Option Nat := none
  min : Option Nat := none
  max : Option Nat := none
  found : Nat := 0
  rej : Nat := 0
  miss : Nat := 0
  lost : Bool := true
  deriving DecidableEq, Repr, Inhabited

/-- Statistics of one batt (R282 to R286), with the lowest cause of EXPOSURE_UNCONFIRMED (R290) as 1 plus CAUSE. -/
structure Stat where
  batt : Nat
  expid : Nat
  hmode : Nat
  hshift : Nat
  npix : Nat
  excl : Nat
  why : Nat
  bins : List (List Nat)
  deriving DecidableEq, Repr, Inhabited

/-- The tile records of one tile row (R273), in ascending TCOL. -/
structure TileRow where
  batt : Nat
  trow : Nat
  recs : List Bytes
  deriving DecidableEq, Repr, Inhabited

/-- One head's share of one line, from mosaic to the card hood: the grid and the head's plan at LINE_START, with the lines that a
trigger awaits; the lines reached when the generator stopped and LAST_BATT; the highest line index that has reached carding;
losses reported by the trigger generator that wait for earlier lines; the lines that have arrived; the next row and the carded
rows; the blocked rows formed at a deadline for want of a row (R238); the next blocked row and the blocked rows; the tile rows;
the rows written. -/
structure Card where
  grid : Grid
  mode : Nat
  pitch : Nat
  offset : Nat
  awaits : Nat := 1
  stopped : Option Nat := none
  last : Option Nat := none
  hwm : Option Nat := none
  early : List Line := []
  lines : List Line := []
  rowNext : Nat := 0
  carded : List Row := []
  late : List Nat := []
  blkNext : Nat := 0
  blocked : List Row := []
  napNext : Nat := 0
  tiles : List TileRow := []
  /-- rows below `written` and the rows `ahead` have been written -/
  written : Nat := 0
  ahead : List Nat := []
  /-- rows written whose report to the batt tracker was read with poison (R109) -/
  unrep : List Nat := []
  /-- duplicates: line index, and the lowest batt not yet open at that moment (R237) -/
  resc : List (Nat × Nat) := []
  deriving DecidableEq, Repr, Inhabited

/-- One pipeline beside its registers and tables. -/
structure Pipe where
  /-- lines from the receiver, waiting for pouncing (RX hopper), oldest first -/
  rx : List Line := []
  /-- pounced lines waiting for mosaic, oldest first -/
  mosQ : List Line := []
  /-- pounced lines kept as window rows and neighbours, newest first -/
  pounced : List Line := []
  /-- number of swaps so far, and the swaps that earlier batts still need, oldest first -/
  epoch : Nat := 0
  swaps : List Swap := []
  /-- WIDTH for which the tables were loaded (R219); none before the first HEAD_ATTACH -/
  width : Option Nat := none
  cards : List Card := []
  brims : List Brim := [{}, {}]
  edges : List EdgeAcc := []
  stats : List Stat := []
  /-- kept statistics, newest first, and the slot of deep space for the next (R285, R599) -/
  kept : List Stat := []
  keptSlot : Nat := 0
  /-- UNLOCKED rows are being marked (R240) -/
  unlk : Bool := false
  /-- rows late since the last LATE_ROWS (R238), and the lowest batt concerned -/
  lateRows : Nat := 0
  deriving DecidableEq, Repr, Inhabited

/-- One automatic exposure loop group (R291): its parameters as given by EXPOSURE_AUTO, and its state: the exposure
product x, the last identifier and target committed, the lead L, batts skipped and the decision pending at the lead. -/
structure Loop where
  on : Bool := false
  params : Bytes := []
  x : Nat := 0
  gain : Nat := 0
  width : Nat := 0
  lastId : Nat := 0
  nextId : Nat := 0x80
  lastTarget : Nat := 0
  decided : Bool := false
  lead : Nat := 0
  skipped : Nat := 0
  /-- the last batt examined, plus 1 -/
  seen : Nat := 0
  deriving DecidableEq, Repr, Inhabited

/-! ## Batts, fulling and hoods (spec/01, spec/10, spec/11) -/

/-- The states of R35, and FAILED of R36. CLOSED covers waiting, the decision and fulling. -/
inductive BState where
  | opened | closed | fulled | placed | published | released | failed
  deriving DecidableEq, Repr, Inhabited

/-- What the decision point of a batt fixes (R297, R299, R306, R321, R323): rung, the flags of its output tiles in order,
OVERRUN_DEFERRED, exhausted, FIXED mode, an expired seam wait, the bytes reserved, S_rung, position and time of the
decision, the fulling bank in force and the remote rows taken. -/
structure Decision where
  rung : Nat
  flags : List Nat
  overrun : Bool
  exhausted : Bool
  fixed : Bool
  late : Bool
  need : Nat
  size : Nat
  spos : Int
  time : Nat
  view : View
  remote : List SeamRow
  deriving DecidableEq, Repr, Inhabited

/-- A batt, live or recalled. -/
structure Batt where
  num : Nat
  grid : Grid
  heads : List Nat
  state : BState := .opened
  cause : Nat := 0
  coil : Nat := 0
  expired : Bool := false
  missing : Nat := 0
  closedAt : Nat := 0
  closeTime : Nat := 0
  edge : Bytes := []
  cropFirst : Nat := 0
  cropLast : Nat := 0
  /-- the batt's missing-row map (R236), as its map entries -/
  map : List Nat := []
  seamExpired : Bool := false
  decision : Option Decision := none
  slice : Option Nat := none
  /-- deferred list, tile index and tile data in output staging -/
  data : Bytes := []
  index : Bytes := []
  deferred : Bytes := []
  /-- bytes of output staging held -/
  staged : Nat := 0
  /-- the slice whose FUL hopper still holds the ends of its sections, until its tail notice (R374) -/
  cutter : Option Nat := none
  notHooded : Bool := false
  /-- statistics blocks of the pipelines whose bank has HPUB set, fixed at the close (R369) -/
  stats : List (Nat × Bytes) := []
  /-- tiles deferred by cap in the present fulling (R319) -/
  capped : Nat := 0
  /-- the batt was FULLED before: it is re-fulled (R299) -/
  again : Bool := false
  /-- LIVE streams that still owe its descriptor (R367), and whether one has been written -/
  owed : List Nat := []
  described : Bool := false
  /-- a recall batt: the number of its RECALL, its rung and whether sealed pages are verified -/
  recalled : Option (Nat × Nat × Bool) := none
  deriving DecidableEq, Repr, Inhabited

/-- A running RECALL (R350): its number, mark, stream, the batts left to start, and what its follow-up counts. -/
structure RecallRun where
  id : Nat
  mark : Nat
  stream : Nat
  rung : Nat
  verify : Bool
  todo : List Nat
  count : Nat
  failed : Nat
  unverified : Nat
  deriving DecidableEq, Repr, Inhabited

/-- What the achieved rate is measured from (R320), at a decision point or LINE_START: cycle, cycles with a parcel in
flight, bytes DONE, bytes DONE on recall streams. -/
structure RateMark where
  cycle : Nat
  busy : Nat
  done : Nat
  recalled : Nat
  deriving DecidableEq, Repr, Inhabited

/-- The batt tracker and fulling. -/
structure Ful where
  batts : List Batt := []
  recalls : List RecallRun := []
  nextRecall : Nat := 0
  /-- a batt number for the next batt to open -/
  nextOpen : Nat := 0
  /-- the rung of the previous batt (R321) -/
  lastRung : Nat := 0
  /-- the lowest batt concerned by the late rows of this millisecond (R238) -/
  lateBatt : Option Nat := none
  /-- cnt_l and cnt_r stand in CROP_STAT; the records of the last 16 CLOSED batts, newest first (R265) -/
  edges : List Bytes := []
  /-- crop settings of a BRIM_CONFIG that await their target batt (R269) -/
  cropPending : List (Nat × Bytes) := []
  /-- crop window of every closed batt still hooded (R268) -/
  crops : List (Nat × Nat × Nat) := []
  cur : Nat := 0
  cPrev : Nat := 8
  marks : List RateMark := []
  inFlightSince : Option Nat := none
  busy : Nat := 0
  done : Nat := 0
  doneRecall : Nat := 0
  exhausted : Nat := 0
  overrun : Nat := 0
  exhaustEv : Option (Nat × Nat × Nat × Nat) := none
  overrunEv : Option (Nat × Nat × Nat) := none
  loops : List Loop := List.replicate 8 {}
  deriving DecidableEq, Repr, Inhabited

/-- An area of the frame store (R331, R333): KIND, OWNER, first physical page, pages; the areas of one kind and owner make
up its virtual pages in their order. -/
structure Area where
  kind : Nat
  owner : Nat
  first : Nat
  count : Nat
  deriving DecidableEq, Repr, Inhabited

/-- What the page check of a lap found for a virtual page (R347): the physical page its rows go to, none with the reserve
exhausted; for a lap of an earlier line, whether the write pointer had passed the page when that line gave way to the next. -/
structure LapPage where
  pipe : Nat
  lap : Nat
  v : Nat
  phys : Option Nat
  past : Option Bool := none
  deriving DecidableEq, Repr, Inhabited

/-- A row that the frame store holds: pipeline, virtual byte and length of its slot, row, batt, and the physical pages its
slot lies on (R335, R343). -/
structure SlotRec where
  pipe : Nat
  off : Nat
  len : Nat
  row : Nat
  batt : Nat
  pages : List Nat
  deriving DecidableEq, Repr, Inhabited

/-- Hoods: the frame store's bytes by address; its areas; withdrawn pages and what stands in for them (R522); VALID
pages as intervals (first, count); the page checks of present laps; the rows held; batts lost (R343); pipelines whose
exhausted reserve has been reported (R347); sealed pages (R353); pages on which output staging or the attachment reserve has been
written, as intervals, whose layout there no rule gives (R41, R118, notes/assumptions/136.md). -/
structure Hoods where
  fs : List (Nat × Byte) := []
  areas : List Area := (List.range 16).map (fun n => ⟨1, n, 1401 * n, 1401⟩)
    ++ [⟨2, 0, 22416, 64⟩, ⟨3, 0, 22480, 2048⟩, ⟨4, 0, 24528, 16⟩] ++ (List.range 8).map (fun m => ⟨5, m, 24544 + 4 * m, 4⟩)
  repl : List (Nat × Nat) := []
  retired : List Nat := []
  valid : List (Nat × Nat) := []
  laps : List LapPage := []
  slots : List SlotRec := []
  lost : List (Nat × Nat) := []
  exhausted : List Nat := []
  sealed : List Nat := []
  soiled : List (Nat × Nat) := []
  deriving DecidableEq, Repr, Inhabited

/-! ## Placement (spec/12_placement.md) -/

/-- A slot of the region table (R365). -/
structure Region where
  gen : Nat := 0
  live : Bool := false
  qp : Nat := 0
  access : Nat := 0
  rkey : Nat := 0
  va : Nat := 0
  len : Nat := 0
  deriving DecidableEq, Repr, Inhabited

/-- What an RDMA request of a queue pair carries. -/
inductive WKind where
  | parcel (stream pid : Nat)
  | item (stream place : Nat) (descriptor : Bool)
  | event (ring : Nat)
  | bulkWrite (m : Nat)
  | bulkRead (m : Nat)
  | eventCount (ring : Nat)
  | streamCounts (stream : Nat)
  deriving DecidableEq, Repr, Inhabited

/-- A request posted to a queue pair and not yet acknowledged (R360, R361, R377): region, offset and length; the bytes
of a write; the immediate; SEND in place of WRITE; the PSN of its first packet once that has left, and how many of its
packets have left; whether its record exists already (R389). -/
structure Wqe where
  kind : WKind
  region : Nat
  off : Nat
  len : Nat
  bytes : Bytes
  imm : Option Nat := none
  send : Bool := false
  /-- start value of its running seal: the fold word of a parcel -/
  fold : Option Nat := none
  psn : Option Nat := none
  sent : Nat := 0
  overran : Bool := false
  /-- the registers of its seal unit were written while it was being sent (R120) -/
  spoiled : Bool := false
  deriving DecidableEq, Repr, Inhabited

/-- A queue pair beside its registers (R361, R362, R364): the connection that QP_CREATE gives, the requests not yet
acknowledged, attempts made, RNR retries and whether an RNR wait runs; tokens (in 1/300 byte) and when they were counted;
the last cut, the present period, n and the cuts of this millisecond; the last CNP received and sent; the oldest
unacknowledged PSN; whether it is in a contained recovery (R475). -/
structure QPair where
  timeout : Nat := 0
  retry : Nat := 0
  rnrRetry : Nat := 0
  dscp : Nat := 0
  vlan : Option Nat := none
  destMac : Nat := 0
  destIp : Bytes := []
  srcIp : Bytes := []
  sq : List Wqe := []
  tries : Nat := 0
  rnrs : Nat := 0
  rnrWait : Bool := false
  tokens : Nat := 0
  tokensAt : Nat := 0
  tCut : Option Nat := none
  n : Nat := 0
  cuts : Nat := 0
  cnpAt : Option Nat := none
  cnpSent : Option Nat := none
  periodCnp : Bool := false
  una : Nat := 0
  held : Bool := false
  deriving DecidableEq, Repr, Inhabited

/-- A posted buffer (R366): its sequence number, region, length and offset. -/
structure Buf where
  seq : Nat
  region : Nat
  len : Nat
  off : Nat
  deriving DecidableEq, Repr, Inhabited

/-- One issue of a parcel that has no completion record yet (R375, R384): PID, in-flight slot, batt key, parcel index,
queue pair, region, length, offset in the image, issue number. -/
structure Issue where
  pid : Nat
  slot : Nat
  batt : Nat × Option Nat
  idx : Nat
  qp : Nat
  region : Nat
  len : Nat
  try_ : Nat
  deriving DecidableEq, Repr, Inhabited

/-- A completion record or a descriptor, from the completion hopper until its write is acknowledged (R373, R378, R380): its
issue (none for a descriptor), batt key, cause (0 DONE) and bytes; its ring position once written; whether a write of it
is on its way; whether the cause of a FAILED record has been acted on (R384); whether it has been read out of the hopper. -/
structure CmpItem where
  issue : Option Issue
  batt : Nat × Option Nat
  cause : Nat
  bytes : Bytes
  place : Option Nat := none
  posted : Bool := false
  acted : Bool := false
  read : Bool := false
  deriving DecidableEq, Repr, Inhabited

/-- A batt on one stream (R368, R374, R384): its key, its buffer once given, whether it has been cut into parcels
and how many, the indices not yet issued, to be re-issued and done, issue numbers, remote failures per index, FAILED records, its FAILED
cause, and whether it is PLACED. -/
structure Placed where
  batt : Nat × Option Nat
  buf : Option Buf := none
  cut : Bool := false
  total : Nat := 0
  todo : List Nat := []
  re : List Nat := []
  done : List Nat := []
  tries : List (Nat × Nat) := []
  remote : List (Nat × Nat) := []
  pfailed : Nat := 0
  reissued : Bool := false
  fail : Nat := 0
  placed : Bool := false
  deriving DecidableEq, Repr, Inhabited

/-- What RING_BIND binds to a stream (R372), and its ring positions: records and descriptors written, and the consumer
counts last read. -/
structure Binding where
  bufSlots : Nat
  descRegion : Nat
  descSlots : Nat
  descOff : Nat
  cmpRegion : Nat
  cmpSlots : Nat
  cmpOff : Nat
  consOff : Nat
  bufLow : Nat
  cmpWritten : Nat := 0
  descWritten : Nat := 0
  cmpRead : Nat := 0
  descRead : Nat := 0
  deriving DecidableEq, Repr, Inhabited

/-- An output stream beside its registers (R366 to R373): binding, posted buffers, next buffer sequence, first batt of the
order still without a descriptor, its batts in the stream's order, issues, records in the completion hopper (oldest
first), parcels of this stream already recorded (PID), and the LAST_BATT of a STREAM_STOP. -/
structure Stream where
  bind : Option Binding := none
  bufs : List Buf := []
  nextSeq : Nat := 0
  first : Nat := 0
  batts : List Placed := []
  issues : List Issue := []
  cmp : List CmpItem := []
  ended : List Nat := []
  stop : Option Nat := none
  deriving DecidableEq, Repr, Inhabited

/-- A REGION_REVOKE whose fence is not complete (R387): handle, REMOVED, WITHDRAWN. -/
structure Fence where
  region : Nat
  removed : Nat
  withdrawn : Nat
  deriving DecidableEq, Repr, Inhabited

/-- Placement and the uplink: the management address; paused priorities (R357: port, PCP, cycle at which the pause ends);
the turns of R377: per engine and class the port served last, per engine, class and port the queue pair served last. -/
structure Place where
  regions : List Region := List.replicate 1024 {}
  qps : List QPair := List.replicate 64 {}
  streams : List Stream := List.replicate 8 {}
  fences : List Fence := []
  mgmtPort : Nat := 0
  mgmtMac : Nat := 0
  mgmtVlan : Nat := 0
  mgmtIp : Bytes := []
  paused : List (Nat × Nat × Nat) := []
  portTurn : List Nat := List.replicate 8 0
  qpTurn : List Nat := List.replicate 64 0
  deriving DecidableEq, Repr, Inhabited

/-! ## The whole device -/

/-- What the headers of a RoCE packet say (R360): opcode of the base transport header, destination queue pair, partition key,
RKEY and virtual address where it carries them, UDP source port, IPv6, DSCP, hop limit, ECN field, DF (IPv4), VLAN tag,
destination MAC and IP, source IP. -/
structure RoceHead where
  opcode : Nat
  destQpn : Nat
  pkey : Nat := 0xFFFF
  rkey : Nat
  va : Nat
  srcPort : Nat
  v6 : Bool
  dscp : Nat
  hops : Nat := 64
  ecn : Nat := 2
  df : Bool
  vlan : Option Nat
  destMac : Nat
  destIp : Bytes
  srcIp : Bytes
  deriving DecidableEq, Repr, Inhabited

/-- What leaves the device: the messages, writes and signals it has driven onto its pins and links (the newest first).
It records the effects whose place is outside the block (notes/assumptions/5.md). -/
inductive Out where
  /-- an in-band mailbox message, to an address and UDP port (R52) -/
  | message (m : Msg) (tag : Bytes) (dst dstPort : Nat)
  /-- one packet of an RDMA WRITE or SEND: its headers, queue pair, PSN, region handle, offset, bytes, the immediate, SEND,
  AckReq (R360, R361) -/
  | packet (head : RoceHead) (qp psn region off : Nat) (bytes : Bytes) (imm : Option Nat) (send ackReq : Bool)
  /-- an RDMA READ request: its headers, queue pair, PSN, region handle, offset, length (R77, R84) -/
  | rdmaRead (head : RoceHead) (qp psn region off len : Nat)
  /-- a TRIGGER message to a head: tag, exposure identifier, FIRST and NEWEXP, PHASE, CRC-8 (R177, R178, R180) -/
  | trigger (head tag expid : Nat) (first newexp : Bool) (phase crc : Nat)
  /-- another back-channel message to a head: 2 EXPSET, 3 HMSG, 4 LINKCTL, and its characters with their CRC-8 (R177) -/
  | backChannel (head kind : Nat) (body : List Nat)
  /-- a strobe output changes (R147) -/
  | strobe (n : Nat) (active : Bool)
  /-- a band message: port, KIND, HOPS, LSEQ, fields (R395, R397) -/
  | band (port kind hops lseq : Nat) (body : List Int)
  /-- a Host Notify: device address byte and data word (R505) -/
  | hostNotify (dev data : Nat)
  /-- a frame other than RoCE: its Ethertype, or UDP port 319 of PTP, and fields (R358, R359, R423) -/
  | frame (kind : Nat) (body : List Int)
  /-- a RoCE packet of control kind: queue pair, kind, value (R361, R362, R377) -/
  | roce (qp kind value : Nat)
  /-- a flash area is written: address, bytes or a record number (R527, R560) -/
  | flash (addr : Nat) (what : Nat)
  /-- bytes shifted out on the debug port (R564, R565) -/
  | debug (bytes : Bytes)
  deriving DecidableEq, Repr, Inhabited

/-- The device: everything of the state but the queue of waiting commands. `regs` is the register window, `deep` deep
space, `lost` the entries of its pixel RAMs that read as uncorrectable (R196, R611), and `bulk` the mailboxes' bulk areas, each a sparse memory in canonical form; `now` counts CK_CTL cycles since
the last power-on or device reset; `free` numbers the next free value; `cause` is the mailbox whose request the present step
carries out, for the MBX field of the events it causes (R54). -/
structure Dev where
  regs : List (Nat × Word) := []
  deep : List (Nat × Word) := []
  lost : List Nat := []
  bulk : List (Nat × Byte) := []
  now : Nat := 0
  free : Nat := 0
  cause : Option Nat := none
  boxes : List Mailbox := List.replicate 8 {}
  authKey : Option Bytes := none
  accepted : List Accepted := []
  running : List Running := []
  ev : Events := {}
  hoppers : List Hopper := List.replicate 71 {}
  scan : Scan := {}
  pos : Pos := {}
  bus : Bus := {}
  flt : Faults := {}
  smb : Smb := {}
  pwr : Power := {}
  band : Band := {}
  tb : Timebase := {}
  cnf : Cnf := {}
  ports : List Port := List.replicate 16 {}
  pipes : List Pipe := List.replicate 16 {}
  ful : Ful := {}
  hood : Hoods := {}
  plc : Place := {}
  out : List Out := []
  deriving DecidableEq, Repr, Inhabited

/-- The input pins of power and reset (R552, R553, R555). -/
structure Pins where
  pwrOk : Bool := true
  rstN : Bool := true
  deriving DecidableEq, Repr, Inhabited

/-- The block's state: the device, its pins of power and reset, and the queue of the commands that are waiting, first in first
out. -/
structure State where
  dev : Dev
  pins : Pins
  pending : List Instr
  deriving DecidableEq, Repr

/-- Why the block stops with a fault: never reached by a command of the table (every command answers a next state);
kept so that the interface has a closed type of reasons. -/
inductive Fault where
  /-- raised by no command: the block itself never stops (safe) -/
  | none
  deriving DecidableEq, Repr

/-- Why a command has no meaning. -/
inductive Refusal where
  /-- the command of that mnemonic has no meaning yet: raised by exec's arm for it (safe: nothing can be proved) -/
  | notModelled (mnemonic : String)
  deriving DecidableEq, Repr

/-- The block right after a power-on reset, PWR_OK and RST_N high, before start-up begins (R554, R562): every register
at its reset value, every queue empty, SPOS 0, time 0. -/
def State.reset : State := ⟨{}, {}, []⟩

end Sys2Proof.Machine
end

