-- ==== Sys2Proof/Machine/Ops.lean ====
section
/-! DEFINITION. The named operations over registers, sparse memories, counts, free values, time and events, and the
CRC-32C of the seal units. -/

namespace Sys2Proof.Machine

open Sys2Proof

/-! ## Sparse memories in canonical form: keys strictly rising, no entry equal to what an unlisted key reads as -/

/-- What key k reads as. -/
def Sparse.get {β : Type} (dflt : Nat → β) : List (Nat × β) → Nat → β
  | [], k => dflt k
  | (a, v) :: t, k => if a = k then v else Sparse.get dflt t k

/-- List v at key k, in its place. -/
def Sparse.put {β : Type} : List (Nat × β) → Nat → β → List (Nat × β)
  | [], k, v => [(k, v)]
  | (a, w) :: t, k, v =>
    if k < a then (k, v) :: (a, w) :: t else if k = a then (k, v) :: t else (a, w) :: Sparse.put t k v

/-- Write v at key k; writing what an unlisted key reads as removes the entry. -/
def Sparse.set {β : Type} [DecidableEq β] (dflt : Nat → β) (l : List (Nat × β)) (k : Nat) (v : β) : List (Nat × β) :=
  if v = dflt k then l.filter fun p => p.1 != k else Sparse.put l k v

/-- The canonical form above a lower bound: every key is at least b, keys strictly rise, no entry is the default. -/
def Sparse.wfFrom {β : Type} [DecidableEq β] (dflt : Nat → β) : Nat → List (Nat × β) → Bool
  | _, [] => true
  | b, (a, v) :: t => decide (b ≤ a) && decide (v ≠ dflt a) && Sparse.wfFrom dflt (a + 1) t

/-- The canonical form. -/
def Sparse.wf {β : Type} [DecidableEq β] (dflt : Nat → β) (m : List (Nat × β)) : Bool := Sparse.wfFrom dflt 0 m

/-- Write a list of values at consecutive keys from k. -/
def Sparse.setMany {β : Type} [DecidableEq β] (dflt : Nat → β) (m : List (Nat × β)) (k : Nat) (l : List β) :
    List (Nat × β) :=
  match l with
  | [] => m
  | v :: t => Sparse.setMany dflt (Sparse.set dflt m k v) (k + 1) t

/-- The n values at consecutive keys from k. -/
def Sparse.getMany {β : Type} (dflt : Nat → β) (m : List (Nat × β)) (k n : Nat) : List β :=
  (List.range n).map fun i => Sparse.get dflt m (k + i)

/-! ## The register window -/

/-- The register word at window address a (its value in the direct view, without side effects). -/
def Dev.rd (d : Dev) (a : Nat) : Word := Sparse.get RegMap.resetAt d.regs a

/-- Store a register word. -/
def Dev.wr (d : Dev) (a : Nat) (v : Word) : Dev := { d with regs := Sparse.set RegMap.resetAt d.regs a v }

/-- A register word as a number. -/
def Dev.rdN (d : Dev) (a : Nat) : Nat := (d.rd a).toNat

/-- Store a number in a register word. -/
def Dev.wrN (d : Dev) (a v : Nat) : Dev := d.wr a (BitVec.ofNat 32 v)

/-- A 64-bit register as a number: low word at a, high word at a + 4 (R437). -/
def Dev.rd64 (d : Dev) (a : Nat) : Nat := d.rdN a + 2 ^ 32 * d.rdN (a + 4)

/-- Store a 64-bit register. -/
def Dev.wr64 (d : Dev) (a v : Nat) : Dev := (d.wrN a v).wrN (a + 4) (v / 2 ^ 32)

/-- A signed 64-bit register. -/
def Dev.rdI64 (d : Dev) (a : Nat) : Int := signed 64 (d.rd64 a)

/-- Store a signed 64-bit register. -/
def Dev.wrI64 (d : Dev) (a : Nat) (i : Int) : Dev := d.wr64 a (unsigned 64 i)

/-- The field of w bits at bit lo of the register at a. -/
def Dev.fld (d : Dev) (a lo w : Nat) : Nat := bits (d.rdN a) lo w

/-- Replace a field of a register, keeping its other bits. -/
def Dev.setFld (d : Dev) (a lo w v : Nat) : Dev :=
  d.wrN a (d.rdN a - d.fld a lo w * 2 ^ lo + v % 2 ^ w * 2 ^ lo)

/-- Add to a saturating count field (R9). -/
def Dev.incSat (d : Dev) (a lo w k : Nat) : Dev := d.setFld a lo w (satAdd w (d.fld a lo w) k)

/-- Add to a wrapping count field (R9). -/
def Dev.incWrap (d : Dev) (a lo w k : Nat) : Dev := d.setFld a lo w (wrapAdd w (d.fld a lo w) k)

/-- A flag of a register. -/
def Dev.flag (d : Dev) (a i : Nat) : Bool := bit (d.rdN a) i

/-- Set or clear a flag of a register. -/
def Dev.setFlag (d : Dev) (a i : Nat) (b : Bool) : Dev := d.setFld a i 1 (b2n b)

/-! ## Deep space and bulk areas -/

/-- Catmull-Rom weights w-1, w0, w1, w2 of the phase p in 1/1,024 (R228). -/
def fourTap (p : Nat) : List Int :=
  let x : Int := p
  let rnd := fun (n : Int) => floorDiv (2 * n + 2097152) 4194304
  let a := rnd (-(x * x * x) + 2048 * x * x - 1048576 * x)
  let b := rnd (3 * x * x * x - 5120 * x * x + 2097152 * 1024)
  let c := rnd (-3 * x * x * x + 4096 * x * x + 1048576 * x)
  [a, b, c, 1024 - a - b - c]

/-- Coefficient t (0 to 3) of phase p of the reset kernel k (R252). -/
def resetKernel (k p t : Nat) : Int :=
  match k with
  | 0 => ([0, 1024 - 16 * (p : Int), 16 * (p : Int), 0] : List Int).getD t 0
  | 2 => (if p < 32 then [0, 1024, 0, 0] else [0, 0, 1024, 0] : List Int).getD t 0
  | _ => (fourTap (16 * p)).getD t 0

/-- Two coefficients of the reset block kernel table from coefficient i (R252). -/
def resetKernelWord (i : Nat) : Nat :=
  unsigned 16 (resetKernel (i / 256) (i % 256 / 4) (i % 4))
    + 2 ^ 16 * unsigned 16 (resetKernel ((i + 1) / 256) ((i + 1) % 256 / 4) ((i + 1) % 4))

/-- What a deep-space word reads as before it is written: the pipeline tables are set to identity before READY (R219,
R251), and ramps, page table and seal table to 0; the rest is not given (R601). -/
def deepDefault (a : Nat) : Word :=
  if 0x10000000 ≤ a ∧ a < 0x12000000 then
    let o := (a - 0x10000000) % 0x200000
    if o < 0x60000 then 0x40000000#32
    else if 0x74000 ≤ o ∧ o < 0x75000 then BitVec.ofNat 32 (resetKernelWord ((o - 0x74000) % 0x800 / 2))
    else 0#32
  else if 0x14000000 ≤ a ∧ a < 0x14004000 then 0#32
  else if 0x18000000 ≤ a ∧ a < 0x18038000 then 0#32
  else Config.deepPowerUp a

/-- The deep-space word at address a. -/
def Dev.deepRd (d : Dev) (a : Nat) : Word := Sparse.get deepDefault d.deep a

/-- The entry of a pipeline's calibration, defect or kernel RAM that holds a deep-space word, by its address (R195, R197, R599). -/
def ramEntry (a : Nat) : Option Nat :=
  let o := (a - 0x10000000) % 0x200000
  if a < 0x10000000 ∨ 0x12000000 ≤ a ∨ 0x74000 ≤ o then none
  else if 0x60000 ≤ o ∧ o < 0x70000 then some (a / 8 * 8)
  else some (a / 4 * 4)

/-- Store a deep-space word, with fresh check bits (R611). -/
def Dev.deepWr (d : Dev) (a : Nat) (v : Word) : Dev :=
  { d with deep := Sparse.set deepDefault d.deep a v, lost := d.lost.filter fun x => ramEntry a != some x }

/-- Store consecutive deep-space words from address a. -/
def Dev.deepWrMany (d : Dev) (a : Nat) : List Word → Dev
  | [] => d
  | v :: t => (d.deepWr a v).deepWrMany (a + 4) t

/-- The deep-space half word at address a (a multiple of 2). -/
def Dev.deepRd16 (d : Dev) (a : Nat) : Nat := (d.deepRd (a / 4 * 4)).toNat / 2 ^ (8 * (a % 4)) % 2 ^ 16

/-- The deep-space byte at address a. -/
def Dev.deepRd8 (d : Dev) (a : Nat) : Nat := (d.deepRd (a / 4 * 4)).toNat / 2 ^ (8 * (a % 4)) % 2 ^ 8

/-- Bytes as little-endian words, the last padded with 0. -/
def wordsOf : Nat → Bytes → List Word
  | 0, _ => []
  | n + 1, b => BitVec.ofNat 32 (leAt b 0 4) :: wordsOf n (b.drop 4)

/-- Store bytes in deep space from address a (a multiple of 4). -/
def Dev.deepWrBytes (d : Dev) (a : Nat) (b : Bytes) : Dev := d.deepWrMany a (wordsOf ((b.length + 3) / 4) b)

/-- Bytes of a page. -/
def pageSize : Nat := 2097152

/-- Pages that are not bulk pages (R333). -/
def usablePages : Nat := 24544

/-- What a frame store byte reads as before it is written: a page that is not VALID reads zeros, and is initialised with zeros
(R332), those of the bulk areas too (notes/assumptions/134.md). -/
def fsZero (_ : Nat) : Byte := 0#8

/-- Size of a mailbox's bulk area in bytes (R79). -/
def bulkSize : Nat := 0x800000

/-- The n bytes of mailbox m's bulk area from offset o. -/
def Dev.bulkRd (d : Dev) (m o n : Nat) : Bytes := Sparse.getMany fsZero d.bulk (m * bulkSize + o) n

/-- Store bytes in mailbox m's bulk area from offset o. -/
def Dev.bulkWr (d : Dev) (m o : Nat) (b : Bytes) : Dev :=
  { d with bulk := Sparse.setMany fsZero d.bulk (m * bulkSize + o) b }

/-- The page of an area that a page stands for: itself, unless it replaces one. -/
def Hoods.home (h : Hoods) (p : Nat) : Nat := ((h.repl.find? fun r => r.2 == p).map (·.1)).getD p

/-- The bytes of page p of the frame store from offset o (R118): those of a bulk area stand with its mailbox. None where no rule
fixes them: output staging or the attachment reserve has been written there, or the page is a withdrawn one of a bulk area. -/
def Dev.pageBytes (d : Dev) (p o n : Nat) : Option Bytes :=
  let h := d.hood.home p
  if d.hood.soiled.any fun x => decide (x.1 ≤ p ∧ p < x.1 + x.2) then none
  else if h ≥ usablePages then
    if d.hood.retired.contains p then none else some (Sparse.getMany fsZero d.bulk ((h - usablePages) * pageSize + o) n)
  else some (Sparse.getMany fsZero d.hood.fs (p * pageSize + o) n)

/-- The n bytes of the frame store from address a, at most a page of them. -/
def Dev.storeBytes (d : Dev) (a n : Nat) : Option Bytes :=
  let first := min n (pageSize - a % pageSize)
  (d.pageBytes (a / pageSize) (a % pageSize) first).bind fun x =>
    if first = n then some x else (d.pageBytes (a / pageSize + 1) 0 (n - first)).map (x ++ ·)

/-! ## Free values, time -/

/-- Take a free value of w bits (notes/assumptions/2.md). -/
def Dev.fresh (d : Dev) (w : Nat) : Nat × Dev := ((Config.freeValue d.free).toNat % 2 ^ w, { d with free := d.free + 1 })

/-- CK_CTL cycles in one microsecond, millisecond and second (R539, R608). -/
def cyclesUs : Nat := 300
def cyclesMs : Nat := 300000
def cyclesS : Nat := 300000000

/-- IEEE 1588 time in ns. -/
def Dev.timeNs (d : Dev) : Nat := d.tb.units / 30000

/-- SPOS, signed Q57.6 (R13). -/
def Dev.spos (d : Dev) : Int := d.rdI64 Reg.spos

/-- Whether the line is started (POS_STAT.LINE). -/
def Dev.lineStarted (d : Dev) : Bool := d.flag Reg.posStat 31

/-- Whether the device is a follower (BAND_CFG.ROLE = 2). -/
def Dev.isFollower (d : Dev) : Bool := d.fld Reg.bandCfg 30 2 == 2

/-- Whether stiffening is active (STF_CTRL.ACTIVE). -/
def Dev.stiffActive (d : Dev) : Bool := d.flag Reg.stfCtrl 31

/-- Whether the device is in the safe state (FLT_STATE.SAFE). -/
def Dev.safe (d : Dev) : Bool := d.flag Reg.fltState 31

/-- Whether a device recovery is in progress (FLT_STATE.DEV_REC). -/
def Dev.devRec (d : Dev) : Bool := d.flag Reg.fltState 29

/-- Whether READY has been raised since the last reset. -/
def Dev.isReady (d : Dev) : Bool := d.pwr.phase == .ready

/-- Record something that leaves the device. -/
def Dev.emit (d : Dev) (o : Out) : Dev := { d with out := o :: d.out }

/-- Change element i of a list; a list that ends before i is filled up with default elements. -/
def modAt {α : Type} [Inhabited α] : List α → Nat → (α → α) → List α
  | [], 0, f => [f default]
  | [], n + 1, f => default :: modAt [] n f
  | a :: t, 0, f => f a :: t
  | a :: t, n + 1, f => a :: modAt t n f

/-! ## Hoppers: flush and tail notice (R104 to R108), and what starts a rebase (R460) -/

/-- Change hopper i. -/
def Dev.modHop (d : Dev) (i : Nat) (f : Hopper → Hopper) : Dev := { d with hoppers := modAt d.hoppers i f }

/-- A flush of hopper i is requested (R104, R106): FLUSH counts and the tail notice falls; with an item in progress the
flush awaits that item's end marker. -/
def Dev.flushHop (d : Dev) (i : Nat) (inProgress : Bool) : Dev :=
  if ((d.hoppers.getD i {}).flushing) then d
  else (d.modHop i fun _ => { flushing := inProgress, tail := false }).incSat (Reg.hopCnt i) 0 8 1

/-- The consumer of hopper i reads it: the tail notice falls (R107). -/
def Dev.hopRead (d : Dev) (i : Nat) : Dev := d.modHop i fun h => { h with tail := false }

/-- The device changes a stiffened register by its own rules: a rebase is due (R460). -/
def Dev.rebase (d : Dev) : Dev :=
  { d.setFlag Reg.stfStat 30 true with scan := { d.scan with changed := true } }

/-! ## CRC-32C (R112) -/

/-- Eight shifts of the CRC register for one byte already folded in. -/
def crcBits : Nat → Word → Word
  | 0, c => c
  | n + 1, c => crcBits n (if c.getLsbD 0 then (c >>> 1) ^^^ 0x82F63B78#32 else c >>> 1)

/-- One byte through the CRC register. -/
def crcByte (c : Word) (b : Byte) : Word := crcBits 8 (c ^^^ b.zeroExtend 32)

/-- The CRC register after bytes (R114). -/
def crcRun (c : Word) (l : Bytes) : Word := l.foldl crcByte c

/-- The seal of bytes with a fold word of 8 bytes (R112, R113). -/
def sealOf (fold : Nat) (l : Bytes) : Word := crcRun (crcRun 0xFFFFFFFF#32 (le 8 fold)) l ^^^ 0xFFFFFFFF#32

/-- Data followed by its seal, little-endian (R113). -/
def withSeal (fold : Nat) (l : Bytes) : Bytes := l ++ le 4 (sealOf fold l).toNat

/-- Check and strip a seal (R113). -/
def checkSeal (fold : Nat) (l : Bytes) : Option Bytes :=
  let data := l.take (l.length - 4)
  if l.length < 4 then none
  else if leAt l data.length 4 = (sealOf fold data).toNat then some data else none

/-! ## Events (R80 to R85, R88) -/

/-- All ones: no batt, none (R80). -/
def noBatt : Nat := 0xFFFFFFFFFFFFFFFF

/-- The 32-byte preamble of an event or follow-up payload (R80). -/
def Dev.preamble (d : Dev) (batt : Option Nat) : Bytes :=
  le 4 (d.fld Reg.plantAddr 0 18) ++ zeros 4 ++ sle 8 d.spos ++ le 8 d.timeNs ++ le 8 (batt.getD noBatt)

/-- Record a cause of attention in ALERT_CAUSE (R504); when it changes from 0 a Host Notify is owed, if NOTIFY is 1 (R505). -/
def Dev.alert (d : Dev) (i : Nat) : Dev :=
  let d1 := d.setFlag Reg.mbAlert i true
  if d.rdN Reg.mbAlert = 0 ∧ d.flag Reg.smbCfg 28 = true then { d1 with smb := { d1.smb with notifyDue := true } } else d1

/-- The group of an event or command code (R90). -/
def groupOf (code : Nat) : Nat := code / 0x100 % 0x80

/-- Events of the group are created: its enable bit is set, or it is group 1 or 13 (R82). -/
def Dev.groupOn (d : Dev) (g : Nat) : Bool := bit d.ev.enable.toNat g || g == 1 || g == 13

/-- An event is lost (R85): EVT_LOST_CNT counts it, and so does the next EVENTS_LOST. -/
def Dev.loseEvent (d : Dev) : Dev :=
  ({ d with ev := { d.ev with lostSince := d.ev.lostSince + 1 } } : Dev).incWrap Reg.evtLostCnt 0 32 1

/-- Hopper i drops an item under its DISCARD rule (R100): OVERFLOW counts. -/
def Dev.hopDrop (d : Dev) (i : Nat) : Dev := d.incSat (Reg.hopCnt i) 8 8 1

/-- A new event finds room (R85): the hopper holds fewer than 256, and the mailbox 0 queue, if it is the route, fewer than
64. -/
def Dev.eventRoom (d : Dev) : Bool :=
  decide (d.ev.hopper.length < 256) && (d.ev.ring.isSome || decide (d.ev.q0.length < 64))

/-- Enter a message into the event hopper, or lose it when there is no room. -/
def Dev.enterEvent (d : Dev) (m : Msg) : Dev :=
  if d.eventRoom then { d with ev := { d.ev with hopper := d.ev.hopper ++ [m] } }
  else (d.hopDrop (if d.ev.hopper.length < 256 then 9 else 8)).loseEvent

/-- Create a spontaneous event (R81, R82): filtered when its group is off; else it takes the next event sequence and
enters the event hopper, and an urgent group sets its alert cause (R88). MBX is that of the request that caused it, 0xFF where
none did and for what the fault collector raises (R54, notes/assumptions/114.md). -/
def Dev.event (d : Dev) (code : Nat) (batt : Option Nat) (extra : Bytes) : Dev :=
  if d.groupOn (groupOf code) = false then d.incWrap Reg.evtFilteredCnt 0 32 1
  else
    let mbx := if groupOf code = 13 then 0xFF else d.cause.getD 0xFF
    let m : Msg := ⟨code, 0, d.ev.nextSeq, mbx, 0, false, true, false, false, false, d.preamble batt ++ extra⟩
    let d1 := ({ d with ev := { d.ev with nextSeq := d.ev.nextSeq + 1 } } : Dev).enterEvent m
    if bit d.ev.urgent.toNat (groupOf code) then d1.alert (groupOf code - 1) else d1

/-- An event that a request of mailbox m causes (R54). -/
def Dev.eventFor (d : Dev) (m : Nat) (code : Nat) (batt : Option Nat) (extra : Bytes) : Dev :=
  { ({ d with cause := some m } : Dev).event code batt extra with cause := d.cause }

/-- The bytes of a message as sent: header, payload, tag, seal (R54, R57). The tag bytes are given by the caller. -/
def Msg.bytes (m : Msg) (tagBytes : Bytes) : Bytes :=
  let flags := 0x20 * b2n m.trunc + 0x10 * b2n m.tag + 4 * b2n m.followup + 2 * b2n m.event + b2n m.resp
  let body := le 2 m.code ++ le 1 flags ++ le 1 m.status ++ le 4 m.seq.toNat ++ le 2 m.payload.length
    ++ le 1 m.mbx ++ zeros 1 ++ le 4 m.htag.toNat ++ m.payload ++ tagBytes
  withSeal (m.mbx + 2 ^ 32 * m.seq.toNat) body

end Sys2Proof.Machine
end

