-- ==== Sys2Proof/Machine/Reply.lean ====
section
/-! DEFINITION. Responses and follow-ups (R56, R59, R62 to R67, R69 to R73, R606), and the objects that an accepted
command holds (R71). -/

namespace Sys2Proof.Machine

open Sys2Proof

/-- A message on the back-channel of head n, 2 EXPSET, 3 HMSG, 4 LINKCTL: its data characters and their CRC-8 (R177). -/
def Dev.sendChars (d : Dev) (n kind : Nat) (data : Bytes) : Dev :=
  d.emit (.backChannel n kind ((data ++ [pecOf data]).map (·.toNat)))

/-- A LINKCTL message: CODE and ARG. -/
def Dev.linkctl (d : Dev) (n code arg : Nat) : Dev := d.sendChars n 4 (le 1 code ++ le 1 arg)

/-- Authentication mode of mailboxes 1 to 7 (MBX_CFG.AUTH_MODE): 0 OFF, 1 OPTIONAL, 2 REQUIRED. -/
def Dev.authMode (d : Dev) : Nat := d.fld Reg.mbxCfg 16 2

/-- What the HMAC covers: fold word, header and payload (R57, R58). -/
def Msg.covered (m : Msg) : Bytes :=
  le 1 m.mbx ++ zeros 3 ++ le 4 m.seq.toNat ++ (m.bytes []).take (16 + m.payload.length)

/-- The tag of a message: the first 16 bytes of HMAC-SHA-256 under the loaded key (R58); 16 zero bytes while no key is loaded
(DESIGN CHOICE, notes/assumptions/115.md). -/
def Dev.tagOf (d : Dev) (m : Msg) : Bytes :=
  match d.authKey with
  | some k => (hmac k m.covered).take 16
  | none => zeros 16

/-- The box of mailbox m. -/
def Dev.box (d : Dev) (m : Nat) : Mailbox := d.boxes.getD m {}

/-- Change the box of mailbox m. -/
def Dev.modBox (d : Dev) (m : Nat) (f : Mailbox → Mailbox) : Dev := { d with boxes := modAt d.boxes m f }

/-- Seal unit n has run over the fold word and the covered bytes of a message or of bulk data (R114, R116). -/
def Dev.unitRun (d : Dev) (n fold : Nat) (covered : Bytes) : Dev :=
  d.wr (Reg.sealRun n) (crcRun (crcRun 0xFFFFFFFF#32 (le 8 fold)) covered)

/-- Seal unit 3 seals a message that leaves: the bytes before its seal (R57, R116). -/
def Dev.sealOut (d : Dev) (m : Msg) (tag : Bytes) : Dev :=
  let b := m.bytes tag
  d.unitRun 3 (m.mbx + 2 ^ 32 * m.seq.toNat) (b.take (b.length - 4))

/-- Put a message into the response queue of mailbox 0, where no message carries a tag (R59); at a full queue of 8 the oldest
that is not being read out is dropped and counted (R496, R498). -/
def Dev.queueResp (d0 : Dev) (m0 : Msg) : Dev :=
  let m := { m0 with tag := false }
  let d := d0.sealOut m []
  if d.smb.respQ.length < 8 then { d with smb := { d.smb with respQ := d.smb.respQ ++ [m] } }
  else
    let k := if (d.smb.outbound.any fun o => !o.isEvent && o.queued) = true then 1 else 0
    ({ d with smb := { d.smb with respQ := d.smb.respQ.eraseIdx k ++ [m] } } : Dev).incSat Reg.mbErr 0 8 1

/-- Where the answers of a sequence of mailbox m go (R52): the source address and port of its request. -/
def Dev.srcOf (d : Dev) (m : Nat) (seq : Word) : Nat × Nat :=
  (((d.box m).srcs.find? fun x => x.1 == seq).map (·.2)).getD (0, 0)

/-- Send a message in-band, tagged when the mode is now REQUIRED or its request carried a valid tag (R59); in the safe state
mailboxes 1 to 7 send nothing (R74, R480). -/
def Dev.sendTo (d : Dev) (m0 : Msg) (dst : Nat × Nat) : Dev :=
  if d.safe then d
  else
    let m := { m0 with tag := d.authMode == 2 || m0.tag }
    let t := if m.tag then d.tagOf m else []
    (d.sealOut m t).emit (.message m t dst.1 dst.2)

/-- Send a message on its mailbox: mailbox 0 into the response queue, mailboxes 1 to 7 to the request's source. -/
def Dev.send (d : Dev) (m : Msg) : Dev :=
  if m.mbx = 0 then d.queueResp m else d.sendTo m (d.srcOf m.mbx m.seq)

/-- The response to a request (R56). -/
def response (code : Nat) (r : Req) (status : Nat) (payload : Bytes) : Msg :=
  ⟨code, status, r.seq, r.mbx.val, r.htag, true, false, false, r.auth, false, payload⟩

/-- Store the response for replay (R62, R64) and send it unless NORESP (R67); what happens next is no longer this request's
doing. -/
def Dev.answer (d : Dev) (code : Nat) (r : Req) (status : Nat) (payload : Bytes) : Dev :=
  let m := response code r status payload
  let d1 := ({ d with cause := none } : Dev).modBox r.mbx.val fun b => { b with stored := some m }
  if r.noresp then d1 else d1.send m

/-- A running command has ended with a status (R69, R70): it answers, unless its mailbox was reset meanwhile (R92). -/
def Dev.answerRunning (d : Dev) (x : Running) (status : Nat) (payload : Bytes) : Dev :=
  let d1 : Dev := { d with running := d.running.erase x }
  if x.void then d1 else d1.answer x.code x.req status payload

/-- A response that is not stored (R60), to the source of an in-band request or into the response queue: within the limit
of 1,000 per second (R63), which a message counts against the mailbox that its MBX field names, even where its transport has no
such mailbox (DESIGN CHOICE, notes/assumptions/116.md). -/
def Dev.answerUnstored (d : Dev) (m : Msg) (noresp : Bool) (dst : Option (Nat × Nat)) : Dev :=
  if (d.box m.mbx).unstored < 1000 then
    if noresp then d
    else
      let d1 := d.modBox m.mbx fun b => { b with unstored := b.unstored + 1 }
      match dst with
      | some a => d1.sendTo m a
      | none => d1.queueResp m
  else d

/-- The follow-up of an accepted command (R56, R66, R67, R72, R80): it replaces the stored response of its sequence, is
sent on the mailbox unless NORESP, and is written to the event ring when one is bound and the group is enabled. Its payload
begins with the preamble (R80); one of a status that carries no payload is empty (R606, notes/assumptions/111.md). -/
def Dev.followUp (d : Dev) (a : Accepted) (status : Nat) (payload : Bytes) : Dev :=
  let bare := status != St.ok && status != St.alreadyDone && status != St.partialDone && payload.isEmpty
  let body := if bare then [] else d.preamble none ++ payload
  let m : Msg := ⟨a.code, status, a.req.seq, a.req.mbx.val, a.req.htag, true, true, true, a.req.auth, false, body⟩
  let d1 := { d with accepted := d.accepted.erase a }
  let d2 := d1.modBox a.req.mbx.val fun b =>
    if b.lastSeq = some a.req.seq then { b with stored := some m } else b
  let d3 := if a.req.noresp then d2 else d2.send m
  if d.ev.ring.isSome && d.groupOn (groupOf a.code) then d3.enterEvent { m with tag := false } else d3

/-- The first accepted command of an opcode, if any still owes its follow-up. -/
def Dev.owed (d : Dev) (code : Nat) : Option Accepted := d.accepted.find? fun a => a.code == code

/-- The first accepted command of an opcode for which a condition on its kept values holds. -/
def Dev.owedArgs (d : Dev) (code : Nat) (p : List Nat → Bool) : Option Accepted :=
  d.accepted.find? fun a => a.code == code && p a.args

/-- Give the follow-up of a command if it is owed; nothing otherwise. -/
def Dev.finish (d : Dev) (a : Option Accepted) (status : Nat) (payload : Bytes) : Dev :=
  match a with
  | some a => d.followUp a status payload
  | none => d

/-- Objects conflict when they are the same; an executing SNAPSHOT_IMPORT holds everything (R538). -/
def Obj.conflicts (a b : Obj) : Bool := a == b || a == .snapshot || b == .snapshot

/-- What the commands of each mailbox hold that have begun and not ended (R71): mailbox, objects. -/
def Dev.holds (d : Dev) : List (Nat × List Obj) :=
  (d.accepted.map fun a => (a.req.mbx.val, a.objs)) ++ d.running.map fun x => (x.req.mbx.val, x.objs)

/-- A command of another mailbox holds one of the objects (R71: BUSY). -/
def Dev.heldByOther (d : Dev) (m : Nat) (objs : List Obj) : Bool :=
  d.holds.any fun a => a.1 != m && a.2.any fun x => x == .snapshot || objs.any (Obj.conflicts x)

/-- An accepted command of the same mailbox holds one of the objects (R71: the command waits). -/
def Dev.heldBySame (d : Dev) (m : Nat) (objs : List Obj) : Bool :=
  d.holds.any fun a => a.1 == m && a.2.any fun x => objs.any (Obj.conflicts x)

end Sys2Proof.Machine
end

