-- ==== Sys2Proof/Machine/BandOps.lean ====
section
/-! DEFINITION. Sending on the band ports, and a band port going DOWN (spec/13_band_and_timebase.md), shared by the line
group's commands and the fault collector. -/

namespace Sys2Proof.Machine

open Sys2Proof

namespace Band.Kind

/-! KIND codes of R397. -/
def position : Nat := 1
def time : Nat := 2
def roll : Nat := 3
def config : Nat := 4
def expose : Nat := 5
def report : Nat := 6
def seamRow : Nat := 7
def battClose : Nat := 8
def battOpen : Nat := 9
def groupStop : Nat := 10
def safeStop : Nat := 11
def probe : Nat := 12
def ack : Nat := 13

end Band.Kind

/-- Band port p. -/
def Dev.bport (d : Dev) (p : Nat) : BandPort := d.band.ports.getD p {}
/-- Change band port p. -/
def Dev.modBport (d : Dev) (p : Nat) (f : BandPort → BandPort) : Dev :=
  { d with band := { d.band with ports := modAt d.band.ports p f } }

/-- State of band port p (R402): 0 OFF, 2 TRAIN, 3 UP, 4 DOWN. -/
def Dev.bstate (d : Dev) (p : Nat) : Nat := d.fld (Reg.bandpStat p) 29 3
/-- Change the state of band port p. -/
def Dev.setBstate (d : Dev) (p st : Nat) : Dev := d.setFld (Reg.bandpStat p) 29 3 st

/-- Position of the device in its group (0 for a lead). -/
def Dev.position (d : Dev) : Nat := d.fld Reg.bandStat 24 6

/-- The port that gives a follower its SPOS: 0 BAND_UP, 1 BAND_DN, none (BAND_STAT.SOURCE). -/
def Dev.source (d : Dev) : Option Nat :=
  match d.fld Reg.bandStat 30 2 with
  | 1 => some 0
  | 2 => some 1
  | _ => none

/-- Hops from the lead of a value that this device sends (R395): SPOS and time have come over the source port; a ROLL counts the
hop it makes, since it gives its receiver its position (R401); anything else of its own lies at its position
(notes/assumptions/127.md). -/
def Dev.hopsOf (d : Dev) (kind : Nat) : Nat :=
  if kind = Band.Kind.roll then d.position + 1
  else if kind = Band.Kind.position ∨ kind = Band.Kind.time then
    match d.source with
    | some q => min 63 (d.fld (Reg.bandpStat q) 16 6 + 1)
    | none => d.position
  else d.position

/-- Send a message of an unreliable kind on a port. -/
def Dev.bandSend (d : Dev) (p kind : Nat) (body : List Int) : Dev :=
  d.emit (.band p kind (d.hopsOf kind) 0 body)

/-- Send a message under the next LSEQ of its port and keep it until it is acknowledged (R398). -/
def Dev.bandNumbered (d : Dev) (p kind hops : Nat) (body : List Int) : Dev :=
  let n := (d.bport p).txSeq
  (d.modBport p fun b => { b with txSeq := (n + 1) % 65536, unacked := b.unacked ++ [⟨n, kind, hops, body, 1⟩] }).emit
    (.band p kind hops n body)

/-- Send a message of a reliable kind on a port that is UP; in the safe state a port sends IDLE (R421). -/
def Dev.bandReliable (d : Dev) (p kind : Nat) (body : List Int) : Dev :=
  if d.bstate p = 3 ∧ d.safe = false then d.bandNumbered p kind (d.hopsOf kind) body else d

/-- Send a reliable message on every UP port. -/
def Dev.bandBoth (d : Dev) (kind : Nat) (body : List Int) : Dev :=
  (d.bandReliable 0 kind body).bandReliable 1 kind body

/-- Pass a reliable message on, away from the port it came from (R397, R420): what comes from the lead is one hop further. -/
def Dev.bandForward (d : Dev) (p kind hops : Nat) (body : List Int) : Dev :=
  if d.bstate (1 - p) = 3 ∧ d.safe = false then d.bandNumbered (1 - p) kind (min 63 hops) body else d

/-- A band port goes DOWN (R402): LOSS counts, its messages in flight are dropped. -/
def Dev.bandDown (d : Dev) (p : Nat) : Dev :=
  if d.bstate p = 0 ∨ d.bstate p = 4 then d
  else ((d.setBstate p 4).incSat (Reg.bandpErr p) 0 8 1).modBport p fun b =>
    { b with
      blockLock := false, rollSeen := false, synced := false, unacked := [], meas := [], measured := false, lastValid := false
      sentT1 := [], heard := none, t2t3 := none, roleLost := false, flagsIn := 0 }

/-- BAND_LOST (R414): port, cause (0 block lock, 1 RETRY, 2 SAFE_STOP, 3 ROLE), HOLD. -/
def Dev.bandLost (d : Dev) (p cause hold : Nat) : Dev :=
  d.event 0x8C02 none (le 1 p ++ le 1 cause ++ le 1 hold ++ zeros 1)

/-- The device leads a line group (BAND_CFG.ROLE = 1). -/
def Dev.isLead (d : Dev) : Bool := d.fld Reg.bandCfg 30 2 == 1

/-- A change committed at the lead goes outward as CONFIG: the command's code, its fields, the lead's SPOS (R397, R415). -/
def Dev.fanOut (d : Dev) (code : Nat) (body : List Int) : Dev :=
  if d.isLead then d.bandBoth Band.Kind.config ((code : Int) :: body ++ [d.spos]) else d

end Sys2Proof.Machine
end

