-- ==== Sys2Proof/Machine/PosOps.lean ====
section
/-! DEFINITION. Operations on the strip position, the batt grid, the trigger generators and the line
(spec/04_strip_position.md), shared by the commands that move them. -/

namespace Sys2Proof.Machine

open Sys2Proof

/-! ## SPOS -/

/-- The master encoder of the device, if POS_CTRL.MASTER_EN. -/
def Dev.master (d : Dev) : Option Nat := if d.flag Reg.posCtrl 27 then some (d.fld Reg.posCtrl 28 2) else none

/-- REV_HYST in ticks. -/
def Dev.revHyst (d : Dev) : Nat := d.fld Reg.posCtrl 0 16

/-- The interpolated fraction in 1/64 tick (R128): with INTERP and two last ticks of one direction, P cycles apart. -/
def Dev.fraction (d : Dev) : Nat :=
  match d.pos.lastTick, d.pos.period with
  | some t, some p => if d.flag Reg.posCtrl 31 then min 63 (64 * (d.now - t) / (max p 1)) else 0
  | some _, none => 0
  | none, _ => d.pos.f

/-- SPOS of a lead or a device without a band in 1/64 tick: N plus or minus the fraction (R127, R128). -/
def Dev.ownSpos (d : Dev) : Int :=
  if d.pos.fwd then 64 * d.pos.n + (d.fraction : Int) else 64 * d.pos.n - (d.fraction : Int)

/-- SPOS of a follower from the last valid POSITION (R408): V + RATE x (t - t_rx + d), rounded toward minus infinity to
1/64 tick, `after` 1/256 ns into the present cycle; RATE is Q15.16 ticks per us, d in 1/256 ns, 300 cycles per us. -/
def Dev.bandSposAt (d : Dev) (after : Nat) : Int :=
  let src := d.fld Reg.bandStat 30 2
  let delay := signed 32 (d.rdN (Reg.bandpDelay (src - 1)))
  d.band.v + floorDiv (64 * d.band.rate * (2560 * ((d.now : Int) - d.band.tRx) + 3 * (delay + after))) (65536 * 768000)

/-- The same in the present cycle itself. -/
def Dev.bandSpos (d : Dev) : Int := d.bandSposAt 0

/-- The SPOS that the present cycle gives: R408, R410 to R412 on a follower, R127 otherwise. -/
def Dev.computedSpos (d : Dev) : Int :=
  if d.isFollower then
    if d.band.valid = false then d.spos
    else
      let v := d.bandSpos
      let floor := d.rdI64 Reg.sposHwm - 64 * ((d.revHyst : Int) - 1)
      -- an extrapolated fall stops REV_HYST - 1 ticks below HWM (R408); after a hold SPOS waits to be reached (R412)
      if d.band.holding then max d.spos v
      else if d.band.ownExtrap then (if v < floor then min (max v d.spos) floor else v)
      else v
  else d.ownSpos

/-- POS_RATE (R130): the change over the last 65,536 cycles in 1/16 tick per second, rounded toward zero. -/
def rateOf (delta : Int) : Int := Int.tdiv (delta * 4800000000) 4194304

/-- SPOS as it was at cycle t: the newest sample at or before t, else the oldest kept. -/
def sposAt (hist : List (Nat × Int)) (t : Nat) (dflt : Int) : Int :=
  match hist with
  | [] => dflt
  | (c, v) :: rest => if c ≤ t then v else sposAt rest t v

/-- Values of SPOS still needed at cycle now, each with the cycle from which it held: those newer than 65,536 cycles
and one older. -/
def trimHist (now : Nat) : List (Nat × Int) → List (Nat × Int)
  | [] => []
  | (c, v) :: rest => if c + 65536 ≤ now then [(c, v)] else (c, v) :: trimHist now rest

/-- REVERSAL event (R129). -/
def Dev.reversal (d : Dev) (kind : Nat) : Dev :=
  d.event 0x8303 none (le 1 kind ++ zeros 7 ++ le 8 (d.rd64 Reg.sposHwm))

/-- Set SPOS with all that follows it in the cycle: HWM and REVERSED (R129), POS_RATE (R130). -/
def Dev.setSpos (d : Dev) (v : Int) : Dev :=
  let d1 := d.wrI64 Reg.spos v
  let d2 := if v > d1.rdI64 Reg.sposHwm then d1.wrI64 Reg.sposHwm v else d1
  let hwm := d2.rdI64 Reg.sposHwm
  let rev := d2.flag Reg.posStat 30
  let d3 :=
    if rev = false ∧ v ≤ hwm - 64 * (d2.revHyst : Int) ∧ v < hwm then (d2.setFlag Reg.posStat 30 true).reversal 0
    else if rev = true ∧ v ≥ hwm then (d2.setFlag Reg.posStat 30 false).reversal 1
    else d2
  let hist := trimHist d3.now (if d3.pos.hist.head?.map (·.2) = some v then d3.pos.hist else (d3.now, v) :: d3.pos.hist)
  let delta := v - sposAt hist (d3.now - 65536) v
  ({ d3 with pos := { d3.pos with hist := hist, peak := max d3.pos.peak v } } : Dev).wrN Reg.posRate (unsigned 32 (rateOf delta))

/-- The timebase in one CK_CTL cycle (R424): it runs at the corrected frequency and slews a remaining offset in, both together
within 100 us per second of REF_CORE. -/
def Timebase.tick (t : Timebase) : Timebase :=
  let acc := t.part + t.freq
  let own := floorDiv acc 65536
  let corr := clampI (-10) 10 (own + t.slew)
  { t with
    units := ((t.units : Int) + 100000 + corr).toNat
    slew := t.slew - (corr - own)
    part := acc - 65536 * own }

/-- The clocks of one CK_CTL cycle. -/
def Dev.clock (d : Dev) : Dev := { d with now := d.now + 1, tb := d.tb.tick }

/-- SPOS as the present cycle gives it. -/
def Dev.formSpos (d : Dev) : Dev := d.setSpos d.computedSpos

/-- One CK_CTL cycle passes: time runs, SPOS is formed anew. -/
def Dev.cycle (d : Dev) : Dev := d.clock.formSpos

/-- n CK_CTL cycles pass. -/
def Dev.advance (d : Dev) : Nat → Dev
  | 0 => d
  | n + 1 => (d.cycle).advance n

/-! ## The batt grid (R134 to R138) -/

/-- Origin O of the present or last line in 1/256 tick. -/
def Dev.origin256 (d : Dev) : Int := 4 * d.rdI64 Reg.lineOrigin

/-- B_first. -/
def Dev.battFirst (d : Dev) : Nat := d.rd64 Reg.battFirst % 2 ^ 48

/-- H x ROW_PITCH of the line's grid in 1/256 tick. -/
def Dev.battLen256 (d : Dev) : Nat := 2 ^ d.pos.hlog * d.pos.pitch

/-- SPOS_row(r) in 1/256 tick (R134). -/
def Dev.row256 (d : Dev) (r : Int) : Int := d.origin256 + r * (d.pos.pitch : Int)

/-- First row of batt b on the line's grid. -/
def Dev.firstRow (d : Dev) (b : Nat) : Int := ((b : Int) - d.battFirst) * (2 ^ d.pos.hlog : Nat)

/-- The batt of a strip row (R134). -/
def Dev.battOfRow (d : Dev) (r : Int) : Int := d.battFirst + floorDiv r (2 ^ d.pos.hlog)

/-- Mount offset of head k in 1/256 tick (HEADk_OFFSET, Q40.8). -/
def Dev.offset256 (d : Dev) (k : Nat) : Nat := d.rd64 (Reg.headOffset k) % 2 ^ 48

/-- MODE of head k: 0 OFF, 1 LINE, 2 FRAME. -/
def Dev.mode (d : Dev) (k : Nat) : Nat := d.fld (Reg.headTrig k) 30 2

/-- PITCH of head k, Q16.8. -/
def Dev.pitch (d : Dev) (k : Nat) : Nat := d.fld (Reg.headTrig k) 0 24

/-- The distance of two lines of head k in 1/256 tick: PITCH in LINE mode, a batt in FRAME mode (R139). -/
def Dev.linePitch256 (d : Dev) (k : Nat) : Nat := if d.mode k = 2 then d.battLen256 else d.pitch k

/-- T_k(i) in 1/256 tick (R139). -/
def Dev.trigPos (d : Dev) (k i : Nat) : Int := d.origin256 + d.offset256 k + ((i * d.linePitch256 k : Nat) : Int)

/-- The grid of the present or last line. -/
def Dev.grid (d : Dev) : Grid := ⟨d.pos.gen, d.origin256, d.pos.pitch, d.pos.hlog, d.battFirst⟩

/-- The batt of line i of head k (R139). -/
def Dev.battOfLine (d : Dev) (k i : Nat) : Nat :=
  if d.mode k = 2 then d.battFirst + i else d.battFirst + i * d.pitch k / (max 1 d.battLen256)

/-- The first line of head k in batt b: the least i with batt at least b (R139). -/
def Dev.firstLine (d : Dev) (k b : Nat) : Nat :=
  if d.mode k = 2 then b - d.battFirst else ceilDiv ((b - d.battFirst) * d.battLen256) (max 1 (d.pitch k))

/-- Stamp of line i: T_k(i) rounded toward minus infinity to 1/64 tick (R140). -/
def Dev.stamp (d : Dev) (k i : Nat) : Int := floorDiv (d.trigPos k i) 4

/-- Heads enabled on this device: MODE not OFF (R138). -/
def Dev.enabledHeads (d : Dev) : List Nat := (List.range 16).filter fun k => d.mode k != 0

/-- Heads that count for the guard: contributing while the line is started, enabled otherwise (R138). -/
def Dev.guardHeads (d : Dev) : List Nat := if d.lineStarted then d.pos.contributing else d.enabledHeads

/-- The position guard g in ticks (R137). -/
def Dev.guard (d : Dev) : Nat :=
  max 1 (ceilDiv ((signed 32 (d.rdN Reg.posRate)).natAbs * d.fld Reg.posCtrl 16 10) 16000000)

/-- Smallest mount offset among the enabled heads of the line group, in 1/256 tick (R138). -/
def Dev.minOffset (d : Dev) : Option Nat :=
  minOf ((d.guardHeads.map d.offset256) ++ d.band.followerOffsets.map (·.2)
    ++ if d.isFollower then d.band.groupOffset.toList else [])

/-- A command naming batt b is too late (R138): SPOS + g >= E(b). With no enabled head there is no earliest point. -/
def Dev.tooLate (d : Dev) (b : Nat) : Bool :=
  match d.minOffset with
  | none => false
  | some o => decide (4 * d.spos + 256 * (d.guard : Int) ≥ d.row256 (d.firstRow b) + o)

/-- A follower reports its smallest enabled mount offset when it has changed (R417); -1 stands for no enabled head. -/
def Dev.reportOffset (d : Dev) : Dev :=
  let o := minOf (d.enabledHeads.map d.offset256)
  if d.isFollower ∧ (d.source.any fun p => d.bstate p == 3) = true ∧ d.band.lastOffsetSent ≠ some (o.elim 0 (· + 1)) then
    ({ d with band := { d.band with lastOffsetSent := some (o.elim 0 (· + 1)) } } : Dev).bandReliable (d.source.getD 0) Band.Kind.report
      [0, d.position, o.elim (-1) (fun x => (x : Int))]
  else d

/-! ## Trigger generators, exposure changes and the end of a line -/

/-- The generator of head k. -/
def Dev.gen (d : Dev) (k : Nat) : TrigGen := d.pos.gens.getD k {}

/-- Change the generator of head k. -/
def Dev.modGen (d : Dev) (k : Nat) (f : TrigGen → TrigGen) : Dev :=
  { d with pos := { d.pos with gens := modAt d.pos.gens k f } }

/-- Commands of the lead are numbered from here on a follower (R417). -/
def leadCmd : Nat := 2 ^ 64

/-- EXPOSURE_APPLIED of a finished command or decision, when at least one entry was applied (R610). -/
def Dev.trackEvent (d : Dev) (t : ExpTrack) : Dev :=
  if t.applied = false then d
  else d.event 0x8801 (some t.target) (le 1 t.source ++ le 1 t.group ++ le 2 (listMask t.late) ++ le 4 t.seq)

/-- The entry of a head (position in the line group x 16 + head) of command cmd is resolved: applied, late or in time,
or replaced or discarded (R610). A follower reports an entry that the lead committed (R417). -/
def Dev.resolveEntry (d : Dev) (cmd head : Nat) (applied late : Bool) : Dev :=
  match d.pos.tracks.find? fun t => t.cmd == cmd with
  | none =>
    if cmd ≥ leadCmd then d.bandReliable (d.source.getD 0) Band.Kind.report
      [1, (cmd : Int) - leadCmd, head, b2n applied, b2n late]
    else d
  | some t =>
    let t1 : ExpTrack := { t with
      waiting := t.waiting.erase head
      applied := t.applied || applied
      late := if late then t.late ++ [head % 16] else t.late }
    let rest := d.pos.tracks.erase t
    if t1.waiting = [] then ({ d with pos := { d.pos with tracks := rest } } : Dev).trackEvent t1
    else { d with pos := { d.pos with tracks := t1 :: rest } }

/-- The device's position in its line group x 16 + head k, the key of head k in R610. -/
def Dev.headKey (d : Dev) (k : Nat) : Nat := d.fld Reg.bandStat 24 6 * 16 + k

/-- Show the exposure setting in force and the pending changes of head k (EXP_NOW, EXP_TIME, EXP_TARGET), and the strobe
width in force at its outputs. -/
def Dev.showExp (d : Dev) (k : Nat) : Dev :=
  let g := d.gen k
  let d1 := (d.wrN (Reg.expNow k) (g.setting.expid * 2 ^ 24 + g.pending.length * 2 ^ 16 + g.setting.gain)).wrN
    (Reg.expTime k) g.setting.time
  let d2 := d1.wr64 (Reg.expTarget k) (((g.pending.getLast?.map (·.target)).getD noBatt) % 2 ^ 48)
  (List.range 8).foldl (fun d n =>
    if d.flag (Reg.strbCfg n) 31 && d.fld (Reg.strbCfg n) 24 4 == k then d.wrN (Reg.strbWidth n) g.setting.width else d) d2

/-- The identifier of head k for batt b, EXPID_k(B) (R272). -/
def Dev.expidOf (d : Dev) (k b : Nat) : Nat :=
  ((d.gen k).committed.foldl (fun (acc : Option (Nat × Nat)) p =>
    if p.1 ≤ b then (match acc with
      | some q => if p.1 ≥ q.1 then some p else some q
      | none => some p) else acc) none).elim 0 (·.2)

end Sys2Proof.Machine
end

