-- ==== Sys2Proof/Machine/LineOps.lean ====
section
/-! DEFINITION. Operations that the trigger generators, the head link ports and carding share: the ports and pipelines,
lost lines on their way to carding, the opening of batts, the firing of a line and the end of a line. -/

namespace Sys2Proof.Machine

open Sys2Proof

/-- The port of head n. -/
def Dev.port (d : Dev) (n : Nat) : Port := d.ports.getD n {}
/-- Change the port of head n. -/
def Dev.modPort (d : Dev) (n : Nat) (f : Port → Port) : Dev := { d with ports := modAt d.ports n f }
/-- The pipeline n. -/
def Dev.pipe (d : Dev) (n : Nat) : Pipe := d.pipes.getD n {}
/-- Change pipeline n. -/
def Dev.modPipe (d : Dev) (n : Nat) (f : Pipe → Pipe) : Dev := { d with pipes := modAt d.pipes n f }

/-- State of port n (R183): 0 DETACHED, 2 TRAIN, 3 UP, 4 DOWN. -/
def Dev.portState (d : Dev) (n : Nat) : Nat := d.fld (Reg.hlStat n) 29 3

/-- Change the state of port n. -/
def Dev.setPortState (d : Dev) (n st : Nat) : Dev := d.setFld (Reg.hlStat n) 29 3 st

/-- Lines that a trigger of head n awaits (R171): LPT in LINE mode, FRAME_H in FRAME mode. -/
def Dev.awaits (d : Dev) (n : Nat) : Nat :=
  if d.mode n = 2 then d.fld (Reg.hlGeom n) 16 16 else d.fld (Reg.hlCfg n) 0 3 + 1

/-- WIDTH of port n. -/
def Dev.width (d : Dev) (n : Nat) : Nat := d.fld (Reg.hlGeom n) 0 16

/-- Pass a line, complete or lost, towards pouncing (R175). -/
def Dev.passLine (d : Dev) (n : Nat) (l : Line) : Dev := d.modPipe n fun p => { p with rx := p.rx ++ [l] }

/-- The lines of a record come marked EXPOSURE_UNCONFIRMED: 3, a change came too late for them (R153). -/
def TrigRec.why (t : TrigRec) : Nat := if t.late then 3 else 0

/-- A line of a trigger record. -/
def TrigRec.line (t : TrigRec) (sub cause why : Nat) (planes : List (List Nat)) : Line :=
  ⟨t.gen, t.i, sub, t.batt, t.expid, cause, why, t.unlocked, false, 0, planes, []⟩

/-- The lines that a record still awaits are reported lost (R172, R175). -/
def Dev.loseRecord (d : Dev) (n : Nat) (t : TrigRec) (cause : Nat) : Dev :=
  (List.range (t.awaits - t.got)).foldl (fun d j => d.passLine n (t.line (t.got + j) cause t.why [])) d

/-- A record is retired: its awaited lines are lost with cause NO_LINE, and TRIG_MISS counts (R172). -/
def Dev.retire (d : Dev) (n : Nat) (t : TrigRec) : Dev :=
  (d.loseRecord n t Cause.noLine).incSat (Reg.hlErr2 n) 16 8 1

/-! ## Carding's input (R223, R237) -/

/-- Index of a line among all lines of its head: trigger by trigger, sensor or frame line by line. -/
def Line.index (l : Line) (awaits : Nat) : Nat := l.i * awaits + l.sub

/-- The early losses whose turn has come: every earlier line has reached carding. -/
def Card.takeEarly (c : Card) (awaits : Nat) : Nat → Card
  | 0 => c
  | n + 1 =>
    let next := c.hwm.elim 0 (· + 1)
    match c.early.find? fun l => l.i * awaits == next with
    | some l =>
      let ls := (List.range awaits).map fun s => { l with sub := s }
      ({ c with early := c.early.erase l, lines := c.lines ++ ls, hwm := some (next + awaits - 1) }).takeEarly awaits n
    | none => c

/-- Change the card of line `gen` of pipeline n. -/
def Dev.modCard (d : Dev) (n gen : Nat) (f : Card → Card) : Dev :=
  d.modPipe n fun p => { p with cards := p.cards.map fun c => if c.grid.gen = gen then f c else c }

/-- The card of line `gen` of pipeline n, if the head contributes to it. -/
def Dev.card (d : Dev) (n gen : Nat) : Option Card := (d.pipe n).cards.find? fun c => c.grid.gen == gen

/-- Lines that a trigger of line `gen` of head n awaits: as its card has it, which keeps them when the head's plan or its port
changes after the line (DEDUCED, notes/assumptions/138.md). -/
def Dev.lineAwaits (d : Dev) (n gen : Nat) : Nat := (d.card n gen).elim (max 1 (d.awaits n)) (·.awaits)

/-- A head that is attached while its line is started has `a` lines per trigger from then on: what is already lost counts with
them. -/
def Card.withAwaits (c : Card) (a : Nat) : Card :=
  { c with
    awaits := a
    hwm := c.hwm.map fun m => (m / max 1 c.awaits + 1) * a - 1
    lines := c.lines ++ (c.lines.filter fun l => l.sub + 1 == c.awaits).flatMap fun l =>
      (List.range (a - c.awaits)).map fun j => { l with sub := c.awaits + j } }

/-- Show the line high-water mark (CARD_LINE_HWM) of the card of line `gen`. -/
def Dev.showHwm (d : Dev) (n gen : Nat) : Dev :=
  match (d.card n gen).bind (·.hwm) with
  | some m => d.wr64 (Reg.cardLineHwm n) (m / d.lineAwaits n gen)
  | none => d

/-- The trigger generator reports line i lost: skipped or suppressed (R142, R607). It reaches carding after the lines
before it. -/
def Dev.genLoss (d : Dev) (n i batt cause : Nat) : Dev :=
  let a := d.lineAwaits n d.pos.gen
  let l : Line := ⟨d.pos.gen, i, 0, batt, 0, cause, 0, false, false, 0, [], []⟩
  (d.modCard n d.pos.gen fun c =>
    if c.hwm.any (fun m => decide (i * a ≤ m)) then c
    else ({ c with early := c.early ++ [l] }).takeEarly a (c.early.length + 1)).showHwm n d.pos.gen

/-- The device is unlocked (POS_STAT.UNLOCKED). -/
def Dev.unlocked (d : Dev) : Bool := d.flag Reg.posStat 27

/-! ## Opening of batts (R35) -/

/-- Batts of this device that are OPEN, and the lowest not CLOSED (BT_STAT.OPEN, BT_OPEN_MIN). -/
def Dev.showBatts (d : Dev) : Dev :=
  let opened := d.ful.batts.filter fun b => b.state == .opened && b.recalled.isNone
  (d.setFld Reg.btStat 0 16 (min 65535 opened.length)).wr64 Reg.btOpenMin
    (((minOf (opened.map (·.num))).getD noBatt) % 2 ^ 48)

/-- COIL_NUM in force at the trigger position of the first row of batt b (R133): that position is taken for the head that
reaches it first (DEDUCED, notes/assumptions/30.md). -/
def Dev.coilOf (d : Dev) (b : Nat) : Nat :=
  let e := d.row256 (d.firstRow b) + d.minOffset.getD 0
  match d.pos.coils.find? fun c => decide (4 * c.1 < e) with
  | some c => c.2
  | none => (d.pos.coils.getLast?.map (·.2)).getD (d.rdN Reg.coilNum)

/-- Open every batt of the line up to b, in ascending order, each with its COIL_NUM (R35, R133); a follower reports it to the
lead (R397). -/
def Dev.openBatts (d : Dev) (b : Nat) : Dev :=
  if b < d.ful.nextOpen then d
  else
    let new := (List.range (b + 1 - d.ful.nextOpen)).map fun j =>
      ({ num := d.ful.nextOpen + j, grid := d.grid, heads := d.pos.contributing, coil := d.coilOf (d.ful.nextOpen + j) } : Batt)
    let d1 := ({ d with ful := { d.ful with batts := d.ful.batts ++ new, nextOpen := b + 1 } } : Dev).showBatts
    if d1.isFollower then d1.bandReliable (d1.source.getD 0) Band.Kind.battOpen [(d1.position : Int), (b : Int)] else d1

/-! ## Firing a line (R141, R151, R153, R172, R180) -/

/-- Send the EXPSETs of every change pending for head k, in ascending target (R181). The back-channel runs while the port
is attached (R176), and they go out in TRAIN and DOWN too (DEDUCED, notes/assumptions/122.md). -/
def Dev.sendExpsets (d : Dev) (k : Nat) : Dev :=
  if d.portState k = 0 then d
  else (d.gen k).pending.foldl (fun d c =>
    d.sendChars k 2 (le 1 c.setting.expid ++ le 3 c.setting.time ++ le 2 c.setting.gain)) d

/-- The rows of batt b whose lines come before line i are marked EXPOSURE_UNCONFIRMED, those still awaited from the head too
(R153, R180). -/
def Dev.markLate (d : Dev) (k b i : Nat) : Dev :=
  let g := d.pos.gen
  let f := fun (l : Line) =>
    if l.gen = g ∧ l.batt = b ∧ l.i < i ∧ l.cause = 0 ∧ (l.why = 0 ∨ l.why > 3) then { l with why := 3 } else l
  let h := fun (lo hi : Nat) (r : Row) =>
    if lo ≤ r.r ∧ r.r < hi ∧ r.status % 16 = 0 then
      { r with why := if r.why = 0 ∨ r.why > 3 then 3 else r.why,
               status := if bit r.status 8 then r.status else r.status + 256 } else r
  let r := fun (t : TrigRec) => if t.gen = g ∧ t.batt = b ∧ t.i < i then { t with late := true } else t
  let o := fun (l : OpenLine) =>
    if l.rcd.gen = g ∧ l.rcd.batt = b ∧ l.rcd.i < i ∧ (l.why = 0 ∨ l.why > 3) then { l with rcd := r l.rcd, why := 3 } else l
  (d.modPort k fun p => { p with table := p.table.map r, inUse := p.inUse.map r, line := p.line.map o }).modPipe k fun p => { p with
    rx := p.rx.map f, mosQ := p.mosQ.map f, pounced := p.pounced.map f
    cards := p.cards.map fun c =>
      if c.grid.gen = g then
        let lo := (b - c.grid.first) * 2 ^ c.grid.hlog
        let hi := lo + 2 ^ c.grid.hlog
        { c with lines := c.lines.map f, carded := c.carded.map (h lo hi), blocked := c.blocked.map (h lo hi) }
      else c }

/-- The changes of head k that take effect at a fired line of batt b apply, in ascending target; those whose batt the
head has already fired are late (R151, R153). -/
def Dev.applyChanges (d : Dev) (k b i : Nat) : Dev :=
  let due := (d.gen k).pending.filter fun c => decide (c.target ≤ b)
  let fired := (d.port k).lastFiredBatt
  due.foldl (fun d c =>
    let late := fired.any fun m => decide (m ≥ c.target)
    let d1 := d.modGen k fun g => { g with setting := c.setting, pending := g.pending.erase c }
    let d2 := if late then (d1.markLate k c.target i).incSat (Reg.headCnt k) 0 8 1 else d1
    d2.resolveEntry c.cmd (d2.headKey k) true late) d

/-- A record enters the trigger table of head k (R172): of the records that still await lines, that in use among them, the
1,024 most recent stay and the older ones are retired. -/
def Dev.enterRecord (d : Dev) (k : Nat) (t : TrigRec) : Dev :=
  let p := d.port k
  let used := p.inUse.filter fun t => decide (t.got < t.awaits)
  let all := used.toList ++ p.table ++ [t]
  let out := all.length - 1024
  let d1 := d.modPort k fun p => { p with
    table := all.drop (max out used.toList.length)
    inUse := if 0 < out ∧ used.isSome = true then none else p.inUse }
  (all.take out).foldl (fun d t => d.retire k t) d1

/-- A head fires a line of batt b (R180): whether it is its first of that batt. -/
def Dev.firstOf (d : Dev) (k b : Nat) : Bool :=
  (d.port k).unfired.contains b || (d.port k).lastFiredBatt.all fun m => decide (m < b)

/-- Batt b has a fired line of head k; the batts between it and the highest before it have none (R180). -/
def Dev.noteFired (d : Dev) (k b : Nat) : Dev :=
  let first := d.battFirst
  d.modPort k fun p =>
    let from_ := p.lastFiredBatt.elim first (· + 1)
    { p with
      unfired := (p.unfired.erase b) ++ (List.range (b - from_)).map (from_ + ·)
      lastFiredBatt := some (p.lastFiredBatt.elim b (max b)) }

/-- A TRIGGER leaves (R177, R178): its characters CTL, TAG and EXPID give its CRC-8. -/
def Dev.sendTrigger (d : Dev) (k tag id : Nat) (first newexp : Bool) (phase : Nat) : Dev :=
  let ctl := 32 * b2n newexp + 16 * b2n first + phase
  d.emit (.trigger k tag id first newexp phase (pecOf (le 1 ctl ++ le 2 tag ++ le 1 id)).toNat)

/-- Fire line i of head k (R141, R144, R151, R172, R180): the setting due takes effect, unless its EXPSET is still on
its way; a record enters the trigger table; the TRIGGER is sent, its epoch `phase` slots of 0.8 ns after a character boundary;
strobes of the head are due. -/
def Dev.fireLine (d : Dev) (k i b : Nat) (expsetLate : Bool) (phase : Nat) : Dev :=
  let newexp := !expsetLate && (d.gen k).pending.any fun c => decide (c.target ≤ b)
  let d1 := if newexp then d.applyChanges k b i else d
  let first := d1.firstOf k b
  let id := (d1.gen k).setting.expid
  let t : TrigRec := ⟨d1.pos.gen, i, i % 65536, d1.stamp k i, b, id, first, newexp, d1.unlocked, d1.lineAwaits k d1.pos.gen, 0, false⟩
  let d3 := (d1.noteFired k b).enterRecord k t
  let d4 := (d3.modGen k fun g => { g with lastFire := some d3.now }).sendTrigger k (i % 65536) id first newexp phase
  let d5 := (d4.setFld (Reg.headCnt k) 16 16 (i % 65536)).incWrap (Reg.headLines k) 0 32 1
  let d6 := (List.range 8).foldl (fun d n =>
    if d.flag (Reg.strbCfg n) 31 && d.fld (Reg.strbCfg n) 24 4 == k && decide ((d.gen k).setting.width > 0) then
      { d with pos := { d.pos with strobes := modAt d.pos.strobes n fun s => { s with due := s.due ++ [(d.gen k).setting.width] } } }
    else d) d5
  let d7 := d6.showExp k
  if d7.pos.firstFired then d7
  else ({ d7 with pos := { d7.pos with firstFired := true } } : Dev).event 0x8301 none
    (sle 8 (d7.rdI64 Reg.lineOrigin) ++ le 8 d7.battFirst)

/-! ## The end of a line (R154, R156) -/

/-- Head k stops at the end of the line: its pending changes for batts from `lim` up are discarded, which LINE_STOPPED will
say (R154). -/
def Dev.dropChanges (d : Dev) (k lim : Nat) : Dev :=
  let gone := (d.gen k).pending.filter fun c => decide (c.target ≥ lim)
  let d1 := d.modGen k fun g => { g with
    pending := g.pending.filter fun c => decide (c.target < lim)
    committed := g.committed.filter fun p => decide (p.1 < lim)
    stopped := true }
  let d2 := (gone.foldl (fun d c => d.resolveEntry c.cmd (d.headKey k) false false) d1).showExp k
  { d2 with pos := { d2.pos with dropped := if gone = [] ∨ d2.pos.dropped.contains k = true then d2.pos.dropped
                                            else d2.pos.dropped ++ [k] } }

/-- Code and factor of gain entry g of a loop group, and its heads (R291). -/
def Loop.gainCode (l : Loop) (g : Nat) : Nat := leAt l.params (36 + 4 * g) 2
def Loop.factor (l : Loop) (g : Nat) : Nat := max 1 (leAt l.params (38 + 4 * g) 2)
def Loop.heads (l : Loop) : List Nat := maskList 16 (leAt l.params 4 2)

/-- A loop group takes a setting in force as its own (R294): x, gain entry, width and identifier. -/
def Loop.adopt (l : Loop) (st : Setting) : Loop :=
  let e := ((List.range (leAt l.params 33 1)).find? fun i => l.gainCode i == st.gain).getD 0
  { l with x := st.time * l.factor e / 256, gain := e, width := st.width, lastId := st.expid }

/-- The loop groups after a stop: where the last committed change was discarded, the group goes on from the setting in force at
its lowest-numbered head (R154, R294). -/
def Dev.loopsAtStop (d : Dev) : Dev :=
  { d with ful := { d.ful with loops := d.ful.loops.map fun l =>
      match l.heads.head? with
      | some k =>
        let st := (d.gen k).setting
        if l.on = true ∧ st.expid ≠ l.lastId then { l.adopt st with lastTarget := 0 } else l
      | none => l } }

/-- LAST_BATT as a bound on batt numbers: B_first - 1 modulo 2^48 lies below every batt of the line. -/
def Dev.lineEmpty (d : Dev) (last : Nat) : Bool := last == (d.battFirst + (2 ^ 48 - 1)) % 2 ^ 48

/-- No device of the line group still has a line started, as far as POSITION shows it to the lead (R156, R397,
notes/assumptions/27.md). -/
def Dev.groupStopped (d : Dev) : Bool :=
  !d.isLead || [0, 1].all fun p => d.bstate p != 3 || !bit (d.bport p).flagsIn 0

/-- The follow-up of a LINE_STOP, once every head of the line group has stopped (R156). -/
def Dev.settleStop (d : Dev) : Dev :=
  if d.lineStarted || !d.groupStopped then d else d.finish (d.owed 0x0306) St.ok (le 8 (d.rd64 Reg.battLastUsed))

/-- The end of a line (R154, R156): every head stops with its changes above LAST_BATT discarded; batts through LAST_BATT
are used; LINE clears; BATT_LAST_USED becomes LAST_BATT; strobes end (R149); LINE_STOPPED is raised with its cause; a
LINE_STOP gets its follow-up. -/
def Dev.finishStop (d : Dev) (cause last : Nat) : Dev :=
  let d0 := if d.lineEmpty last then d else d.openBatts last
  let lim := if d.lineEmpty last then d.battFirst else last + 1
  let e := (List.range 16).foldl (fun d k => d.dropChanges k lim) d0
  let e1 := (List.range 16).foldl (fun d k => d.modCard k d.pos.gen fun c =>
    { c with stopped := some (d.gen k).reached, last := some last }) e
  let d1 := ((e1.loopsAtStop).setFlag Reg.posStat 31 false).wr64 Reg.battLastUsed last
  let d2 := { d1 with pos := { d1.pos with stopAfter := some last, strobes := d1.pos.strobes.map fun _ => {} } }
  let extra := le 1 cause ++ zeros 1 ++ le 2 (listMask d2.pos.dropped) ++ zeros 4 ++ le 8 last
  let d4 := match d2.owed 0x0306 with
    | some a => if cause = 0 then d2.eventFor a.req.mbx.val 0x8302 none extra else d2.event 0x8302 none extra
    | none => d2.event 0x8302 none extra
  d4.settleStop

/-- LAST_BATT of a stop that takes effect at once (R156): the highest batt that any head of the line group has reached a
line of, or B_first - 1 modulo 2^48 if none. -/
def Dev.lastReached (d : Dev) : Nat :=
  match maxOf ((if d.ful.nextOpen > d.battFirst then [d.ful.nextOpen - 1] else [])
      ++ (d.band.openReports.map (·.2)).filter fun b => decide (b ≥ d.battFirst)) with
  | some b => b
  | none => (d.battFirst + (2 ^ 48 - 1)) % 2 ^ 48

/-- Stop the line in this cycle, as LINE_STOP NOW does (R156, R413, R421, R480). -/
def Dev.stopNow (d : Dev) (cause : Nat) : Dev :=
  if d.lineStarted then d.finishStop cause d.lastReached else d

/-- A head whose next line lies beyond LAST_BATT stops, and its changes above it are discarded (R154, R156). -/
def Dev.stopHead (d : Dev) (k : Nat) : Dev :=
  match d.pos.stopAfter with
  | some last =>
    if d.lineStarted && !(d.gen k).stopped && decide (d.battOfLine k (d.gen k).iNext > last) then
      (d.dropChanges k (last + 1)).modCard k d.pos.gen fun c => { c with stopped := some (d.gen k).reached }
    else d
  | none => d

/-- The line stops once every contributing head has stopped after LAST_BATT (R156). -/
def Dev.checkStopped (d : Dev) : Dev :=
  match d.pos.stopAfter with
  | some last =>
    if d.lineStarted && d.pos.contributing.all (fun k => (d.gen k).stopped) then d.finishStop 0 last else d
  | none => d

end Sys2Proof.Machine
end

