-- ==== Sys2Proof/Machine/Bank.lean ====
section
/-! DEFINITION. The two configuration banks of a pipeline: what their registers and deep-space tables say
(spec/06 to spec/09, spec/20_address_map.md R599), which bank serves a line or a batt, and swaps. -/

namespace Sys2Proof.Machine

open Sys2Proof

/-- A register of a view. -/
def View.rd (v : View) (a : Nat) : Nat := (Sparse.get RegMap.resetAt v.regs a).toNat
/-- A field of a register of a view. -/
def View.fld (v : View) (a lo w : Nat) : Nat := bits (v.rd a) lo w
/-- An entry of a view's RAMs reads as uncorrectable (R611). -/
def View.isLost (v : View) (a : Nat) : Bool := v.lost.any fun x => ramEntry a == some x
/-- A deep-space word of a view; that of an uncorrectable entry is a free value. -/
def View.deepN (v : View) (a : Nat) : Nat := (if v.isLost a then Config.lostWord a else Sparse.get deepDefault v.deep a).toNat
/-- A half word of deep space. -/
def View.deep16 (v : View) (a : Nat) : Nat := v.deepN (a / 4 * 4) / 2 ^ (8 * (a % 4)) % 2 ^ 16
/-- A signed half word of deep space. -/
def View.deepS16 (v : View) (a : Nat) : Int := signed 16 (v.deep16 a)

/-- The registers and tables as they stand, with bank b. -/
def Dev.liveView (d : Dev) (b : Nat) : View := ⟨b, d.regs, d.deep, d.lost⟩

/-- Base of pipeline n's tables (R598). -/
def tableBase (n : Nat) : Nat := 0x10000000 + n * 0x200000

/-! ## Pouncing and mosaic -/

def View.calRows (v : View) (n : Nat) : Nat := v.fld (Reg.ppCfg n v.bank) 28 3 + 1
def View.darkShift (v : View) (n : Nat) : Nat := v.fld (Reg.ppCfg n v.bank) 24 4
def View.satCode (v : View) (n : Nat) : Nat := v.fld (Reg.ppCfg n v.bank) 0 24
def View.blackLevel (v : View) (n ch : Nat) : Nat := v.fld (Reg.ppBl n v.bank ch) 0 24
def View.fused (v : View) (n : Nat) : Bool := v.fld (Reg.ppMode n) 0 1 == 1
/-- Where calibration entry e stands. -/
def View.calAddr (v : View) (n e : Nat) : Nat := tableBase n + (if v.fused n then 0 else v.bank * 0x30000) + 4 * e
/-- Calibration entry e: DARK and GAIN (R195); an uncorrectable one is GAIN 0x4000 and DARK 0 (R196). -/
def View.cal (v : View) (n e : Nat) : Int × Nat :=
  if v.isLost (v.calAddr n e) then (0, 0x4000)
  else
    let w := v.deepN (v.calAddr n e)
    (signed 16 w, w / 2 ^ 16)
def View.defCount (v : View) (n : Nat) : Nat := v.fld (Reg.mosCfg n v.bank) 0 13
/-- Where defect entry e stands. -/
def View.defectAddr (v : View) (n e : Nat) : Nat := tableBase n + 0x60000 + v.bank * 0x8000 + 8 * e
/-- Defect entry e: key ROW x 65,536 + COL, and PATTERN (R197). -/
def View.defect (v : View) (n e : Nat) : Nat × Nat :=
  let a := v.defectAddr n e
  (v.deepN a, v.deepN (a + 4) % 16)
def View.mosMode (v : View) (n : Nat) : Nat := v.fld (Reg.mosCfg n v.bank) 30 2
def View.px (v : View) (n : Nat) : Nat := v.fld (Reg.mosCfg n v.bank) 27 3 + 1
def View.py (v : View) (n : Nat) : Nat := v.fld (Reg.mosCfg n v.bank) 24 3 + 1
def View.nplanes (v : View) (n : Nat) : Nat := v.fld (Reg.mosCfg n v.bank) 22 2 + 1
def View.nin (v : View) (n : Nat) : Nat := v.fld (Reg.mosCfg n v.bank) 19 3
def View.edgeT (v : View) (n : Nat) : Nat := v.fld (Reg.mosEdgeT n v.bank) 0 28
/-- SITE byte (y, x): class and channel code (R201). -/
def View.site (v : View) (n y x : Nat) : Nat × Nat :=
  let b := v.fld (Reg.mosSite n v.bank ((8 * y + x) / 4)) (8 * ((8 * y + x) % 4)) 8
  (b / 16, b % 16)
/-- Where the kernel of plane j, class m, direction h stands. -/
def View.kernelAddr (v : View) (n j m h : Nat) : Nat := tableBase n + 0x70000 + v.bank * 0x2000 + ((j * 16 + m) * 2 + h) * 64
/-- Coefficient of the kernel of plane j, class m, direction h at window index w (R208). -/
def View.kernel (v : View) (n j m h w : Nat) : Int := v.deepS16 (v.kernelAddr n j m h + 2 * w)
/-- Matrix coefficient M[j][i], signed Q3.12. -/
def View.matrix (v : View) (n j i : Nat) : Int :=
  match i with
  | 0 => signed 16 (v.fld (Reg.matW0 n v.bank j) 0 16)
  | 1 => signed 16 (v.fld (Reg.matW0 n v.bank j) 16 16)
  | 2 => signed 16 (v.fld (Reg.matW1 n v.bank j) 0 16)
  | 3 => signed 16 (v.fld (Reg.matW1 n v.bank j) 16 16)
  | _ => signed 16 (v.fld (Reg.matW2 n v.bank j) 0 16)
def View.bias (v : View) (n j : Nat) : Int := signed 25 (v.fld (Reg.matW3 n v.bank j) 0 25)

/-! ## Carding -/

def View.fourtap (v : View) (n : Nat) : Bool := v.fld (Reg.cdCfg n v.bank) 31 1 == 1
def View.lptSelect (v : View) (n : Nat) : Bool := v.fld (Reg.cdCfg n v.bank) 30 1 == 1
def View.frameRev (v : View) (n : Nat) : Bool := v.fld (Reg.cdCfg n v.bank) 29 1 == 1
def View.lineSel (v : View) (n : Nat) : Nat := v.fld (Reg.cdCfg n v.bank) 24 3
def View.trim (v : View) (n : Nat) : Int := signed 32 (v.rd (Reg.cdTrim n v.bank))
def View.framePitch (v : View) (n : Nat) : Nat := v.fld (Reg.cdFpitch n v.bank) 0 24
/-- DLY_s, Q8.8 triggers. -/
def View.delay (v : View) (n s : Nat) : Nat :=
  match s with
  | 0 => v.fld (Reg.cdDly0 n v.bank) 0 16
  | 1 => v.fld (Reg.cdDly0 n v.bank) 16 16
  | 2 => v.fld (Reg.cdDly1 n v.bank) 0 16
  | 3 => v.fld (Reg.cdDly1 n v.bank) 16 16
  | _ => v.fld (Reg.cdDly2 n v.bank) 0 16

/-! ## Blocking and brim -/

def View.col0 (v : View) (n : Nat) : Nat := v.fld (Reg.bkCol0 n v.bank) 0 20
def View.mapped (v : View) (n : Nat) : Bool := v.fld (Reg.bkCfg n v.bank) 31 1 == 1
def View.skewHi (v : View) (n : Nat) : Int := signed 7 (v.fld (Reg.bkCfg n v.bank) 24 7)
def View.skewLo (v : View) (n : Nat) : Int := signed 7 (v.fld (Reg.bkCfg n v.bank) 17 7)
def View.anchor (v : View) (n : Nat) : Nat := v.fld (Reg.bkAnchor n v.bank) 0 15
/-- WIDTH of the port in a view. -/
def View.width (v : View) (n : Nat) : Nat := v.fld (Reg.hlGeom n) 0 16
/-- NCOL: of the map, or WIDTH in identity (R249, R251). -/
def View.ncol (v : View) (n : Nat) : Nat := if v.mapped n then v.fld (Reg.bkCfg n v.bank) 0 15 + 1 else v.width n
/-- Block map entry u: source column in 1/4,096 column, skew in 1/16 row, kernel (R249 to R251). -/
def View.mapEntry (v : View) (n u : Nat) : Nat × Int × Nat :=
  if v.mapped n then
    let a := tableBase n + 0x80000 + v.bank * 0x40000 + 8 * u
    let lo := v.deepN a
    let hi := v.deepN (a + 4)
    (bits lo 24 3 * 4096 * 4096 + lo % 2 ^ 24, signed 11 hi, bits hi 14 2)
  else (u * 4096, 0, 0)
/-- Block kernel coefficient of kernel k, phase p, tap t (R252). -/
def View.blockKernel (v : View) (n k p t : Nat) : Int :=
  v.deepS16 (tableBase n + 0x74000 + v.bank * 0x800 + ((k * 64 + p) * 4 + t) * 2)
def View.brLeft (v : View) (n : Nat) : Bool := v.fld (Reg.brCfg n v.bank) 31 1 == 1
def View.brRight (v : View) (n : Nat) : Bool := v.fld (Reg.brCfg n v.bank) 30 1 == 1
/-- Side s (0 left, 1 right) is searched. -/
def View.searches (v : View) (n s : Nat) : Bool := if s = 0 then v.brLeft n else v.brRight n

/-! ## Nap scoring and statistics -/

def View.scorePlane (v : View) (n : Nat) : Nat := v.fld (Reg.napCfg n v.bank) 30 2
def View.hmode (v : View) (n : Nat) : Nat := v.fld (Reg.napCfg n v.bank) 29 1
def View.hpub (v : View) (n : Nat) : Bool := v.fld (Reg.napCfg n v.bank) 27 1 == 1
def View.hshift (v : View) (n : Nat) : Nat := v.fld (Reg.napCfg n v.bank) 16 5
def View.napK (v : View) (n i : Nat) : Int :=
  signed 16 (if i = 24 then v.fld (Reg.napK12 n v.bank) 0 16 else v.fld (Reg.napK n v.bank (i / 2)) (16 * (i % 2)) 16)
/-- Class of map entry t: 0 beyond entry 543 (R279). -/
def View.tileClass (v : View) (n t : Nat) : Nat :=
  if t > 543 then 0 else v.fld (Reg.napClass n v.bank (t / 16)) (2 * (t % 16)) 2

/-! ## Which bank serves what -/

/-- The active bank of pipeline n. -/
def Dev.activeBank (d : Dev) (n : Nat) : Nat := d.fld (Reg.ppStat n) 31 1

/-- The bank in force for batt b (R233): that of the first later swap whose target lies above b; the inactive one where a swap
waits for its target batt and b is not below it (R215, R260); else the active one. -/
def Dev.viewOf (d : Dev) (n b : Nat) : View :=
  match (d.pipe n).swaps.find? fun s => decide (b < s.target) with
  | some s => s.old
  | none =>
    if d.flag (Reg.ppStat n) 30 && decide (d.rd64 (Reg.ppSwapBatt n) % 2 ^ 48 ≤ b) then d.liveView (1 - d.activeBank n)
    else d.liveView (d.activeBank n)

/-- The bank in which a line of epoch e was pounced. -/
def Dev.viewAt (d : Dev) (n e : Nat) : View :=
  let p := d.pipe n
  if e < p.epoch then ((p.swaps.drop (p.swaps.length - (p.epoch - e))).head?.map (·.old)).getD (d.liveView (d.activeBank n))
  else d.liveView (d.activeBank n)

/-- The part of a view that belongs to pipeline n: its registers, its port's, its tables. -/
def Dev.snapshot (d : Dev) (n b : Nat) : View :=
  ⟨b, d.regs.filter fun p => (decide (Reg.ppStat n ≤ p.1 ∧ p.1 < Reg.ppStat n + 0x10000))
        || (decide (Reg.hlCfg n ≤ p.1 ∧ p.1 < Reg.hlCfg n + 0x10000)),
     d.deep.filter fun p => decide (tableBase n ≤ p.1 ∧ p.1 < tableBase n + 0x200000),
     d.lost.filter fun a => decide (tableBase n ≤ a ∧ a < tableBase n + 0x200000)⟩

/-- Number of tile columns for which a head forms records (R270), and the first of them: tiles within the device range
that hold at least one covered column. -/
def Dev.tileCols (d : Dev) (v : View) (n : Nat) : Nat × Nat :=
  let lo := max (v.col0 n) (d.fld Reg.devFirst 0 20)
  let hi := min (v.col0 n + v.ncol n - 1) (d.fld Reg.devLast 0 20)
  if hi < lo then (lo / 64, 0) else (lo / 64, hi / 64 - lo / 64 + 1)

/-- Round up to a multiple of 64. -/
def up64 (x : Nat) : Nat := (x + 63) / 64 * 64

/-- ROW_BYTES that a bank needs (R335). -/
def Dev.rowBytes (d : Dev) (v : View) (n : Nat) : Nat :=
  let k := ((d.tileCols v n).2 + 63) / 64
  let sb := if d.flag (Reg.hoodCfg n) 30 then 3 else 2
  64 + up64 (32 * k) + v.nplanes n * (up64 (v.ncol n * sb) + up64 ((v.ncol n + 7) / 8))

/-! ## Swaps (R214 to R217, R253, R336) -/

/-- A pipeline's bank cannot be written: a swap is pending or a copy is running. -/
def Dev.bankBusy (d : Dev) (n : Nat) : Bool := d.flag (Reg.ppStat n) 30 || d.flag (Reg.ppStat n) 29

/-- The bank commands write. -/
def Dev.inactive (d : Dev) (n : Nat) : Nat := 1 - d.activeBank n

/-- SKEW_LO and SKEW_HI of a bank; 0 for an identity bank (R253). -/
def View.skews (v : View) (n : Nat) : Int × Int := if v.mapped n then (v.skewLo n, v.skewHi n) else (0, 0)

/-- A commit of the inactive bank is acceptable (R253, R336): its skew buffer fits, and during the line its rows fit the
row slot. -/
def Dev.commitOk (d : Dev) (n : Nat) : Bool :=
  let v := d.liveView (d.inactive n)
  decide (((v.skews n).2 - (v.skews n).1 + 2) * (v.width n * v.nplanes n : Nat) ≤ 1081344)
  && (!d.lineStarted || d.rdN (Reg.hoodRowb n) == 0 || decide (d.rowBytes v n ≤ d.rdN (Reg.hoodRowb n)))

/-- The lowest batt that is not too late under R138; none when no batt is. -/
def Dev.lowestInTime (d : Dev) : Nat :=
  match d.minOffset with
  | none => d.battFirst
  | some o =>
    -- E(B) > SPOS + g, in 1/256 tick
    let x : Int := 4 * d.spos + 256 * (d.guard : Int) - d.origin256 - o
    if x < 0 then d.battFirst else d.battFirst + (x.toNat / max 1 d.battLen256 + 1)

/-- The target of a swap (R215): given, or the lowest batt that is not too late. -/
def Dev.swapTarget (d : Dev) (t : Nat) : Nat := if t = noBatt then d.lowestInTime else t

/-- A swap's target has passed. -/
def Dev.targetLate (d : Dev) (t : Nat) : Bool := d.lineStarted && t != noBatt && d.tooLate t

/-- A swap of pipeline n takes effect (R215, R217): the banks change places, the copy begins, CAL_BANK_SWAPPED is raised.
`batt` is the target batt, none with the line not started. -/
def Dev.swapNow (d : Dev) (n : Nat) (batt : Option Nat) : Dev :=
  let old := d.activeBank n
  let from_ := match batt with
    | some b => b
    | none => if d.rd64 Reg.battLastUsed % 2 ^ 48 = 2 ^ 48 - 1 then 0 else d.rd64 Reg.battLastUsed % 2 ^ 48 + 1
  let v := d.snapshot n old
  let d1 := d.modPipe n fun p => { p with epoch := p.epoch + 1, swaps := p.swaps ++ [⟨from_, v⟩] }
  let d2 := ((d1.setFld (Reg.ppStat n) 31 1 (1 - old)).setFlag (Reg.ppStat n) 30 false).setFlag (Reg.ppStat n) 29 true
  let d3 := d2.wr64 (Reg.ppSwapBatt n) (batt.getD noBatt % 2 ^ 48)
  d3.event 0x8501 batt (le 1 n ++ le 1 (1 - old) ++ zeros 2)

/-- Commit the inactive bank of pipeline n with a target (R215): at once while the line is not started, else pending. -/
def Dev.commitBank (d : Dev) (n t : Nat) : Dev :=
  if d.lineStarted then
    (d.setFlag (Reg.ppStat n) 30 true).wr64 (Reg.ppSwapBatt n) (d.swapTarget t % 2 ^ 48)
  else d.swapNow n none

/-! ## The common part of the pixel commands (spec/06 Pixel commands) -/

/-- HEAD, COMMIT and TARGET of a pixel command. -/
def pxHead (p : Bytes) : Nat := leAt p 0 1
def pxCommit (p : Bytes) : Bool := bit (leAt p 1 1) 0
def pxTarget (p : Bytes) : Nat := leAt p 8 8

/-- Reserved bits of the common 16 bytes; `flags` is the mask of FLAGS bits in use. -/
def pxReserved (flags : Nat) (p : Bytes) : Bool :=
  (leAt p 1 1 &&& (255 - flags)) == 0 && zeroAt p 2 6 && (pxTarget p == noBatt || bits (pxTarget p) 48 16 == 0)

/-- The checks that every pixel command shares: HEAD, recovery, stiffening when it writes stiffened registers, a bank
that cannot be written, a target that has passed. `bad` are the command's own BAD_PARAM and BAD_STATE checks. -/
def Dev.pxChecks (d : Dev) (p : Bytes) (bad : Option Nat) : Option Nat :=
  if pxHead p > 15 then some St.badParam
  else if d.devRec || d.flag (Reg.fltUrec) (pxHead p) then some St.recovering
  else match bad with
    | some st => some st
    | none =>
      if d.stiffActive then some St.stiffened
      else if d.bankBusy (pxHead p) then some St.retry
      else if pxCommit p && d.targetLate (pxTarget p) then some St.tooLate
      else none

/-- Finish a pixel command whose tables stand in the inactive bank: commit if asked; the status of the commit (R214,
R253). -/
def Dev.pxFinish (d : Dev) (p : Bytes) : Dev × Nat :=
  if !pxCommit p then (d, St.ok)
  else if d.targetLate (pxTarget p) then (d, St.tooLate)
  else if d.commitOk (pxHead p) = false then (d, St.badParam)
  else (d.commitBank (pxHead p) (pxTarget p), St.ok)

end Sys2Proof.Machine
end

