-- ==== Sys2Proof/Machine/DataOps.lean ====
section
/-! DEFINITION. Operations on the data path that the fault collector, the event route, bulk data and several families
share: regions, queue pairs and their requests, streams and the ends of parcel issues (spec/12_placement.md), and what a
recovery does to a pipeline, a slice, a queue pair and the whole output (spec/15_faults_and_recovery.md R475, R477). -/

namespace Sys2Proof.Machine

open Sys2Proof

/-! ## Regions (R365) -/

/-- The region that a handle names, if it is live. -/
def Dev.region? (d : Dev) (h : Nat) : Option Region :=
  (d.plc.regions[h % 65536]?).bind fun r => if r.live && r.gen == h / 65536 then some r else none
/-- A handle names a live region. -/
def Dev.regionLive (d : Dev) (h : Nat) : Bool := (d.region? h).isSome
/-- Length and queue pair of a live region. -/
def Dev.regionLen (d : Dev) (h : Nat) : Nat := (d.region? h).elim 0 (·.len)
def Dev.regionQp (d : Dev) (h : Nat) : Nat := (d.region? h).elim 0 (·.qp)
/-- Change the placement part of the state. -/
def Dev.modPlc (d : Dev) (f : Place → Place) : Dev := { d with plc := f d.plc }

/-! ## Queue pairs (R364, R475) -/

/-- Queue pair q. -/
def Dev.qp (d : Dev) (q : Nat) : QPair := d.plc.qps.getD q {}
/-- Change queue pair q. -/
def Dev.modQp (d : Dev) (q : Nat) (f : QPair → QPair) : Dev := d.modPlc fun p => { p with qps := modAt p.qps q f }
/-- State of queue pair q: 0 FREE, 1 READY, 2 ERROR. -/
def Dev.qpState (d : Dev) (q : Nat) : Nat := d.fld (Reg.qpStat q) 30 2
/-- Queue pair q is READY and in no contained recovery (R386, R475). -/
def Dev.qpReady (d : Dev) (q : Nat) : Bool := d.qpState q == 1 && !(d.qp q).held
/-- Uplink port of queue pair q. -/
def Dev.qpPort (d : Dev) (q : Nat) : Nat := d.fld (Reg.qpCfg q) 29 3
/-- Ports of the uplink configuration (R356). -/
def Dev.uplinkPorts (d : Dev) : Nat := 2 ^ d.fld Reg.umacCfg 28 2
/-- The queue pairs on a port that are not FREE. -/
def Dev.qpsOfPort (d : Dev) (p : Nat) : List Nat := (List.range 64).filter fun q => d.qpState q != 0 && d.qpPort q == p
/-- Post a request to queue pair q. -/
def Dev.post (d : Dev) (q : Nat) (w : Wqe) : Dev := d.modQp q fun p => { p with sq := p.sq ++ [w] }
/-- Post a write of bytes into a region on the region's queue pair. -/
def Dev.postWrite (d : Dev) (k : WKind) (region off : Nat) (bytes : Bytes) : Dev :=
  d.post (d.regionQp region) { kind := k, region := region, off := off, len := bytes.length, bytes := bytes }
/-- Post a READ of a region on the region's queue pair. -/
def Dev.postRead (d : Dev) (k : WKind) (region off len : Nat) : Dev :=
  d.post (d.regionQp region) { kind := k, region := region, off := off, len := len, bytes := [] }
/-- A request is a READ. -/
def Wqe.isRead (w : Wqe) : Bool := match w.kind with
  | .bulkRead _ => true
  | .eventCount _ => true
  | .streamCounts _ => true
  | _ => false
/-- Packets of a request, and PSNs that it takes (R360: a READ takes those of its responses). -/
def Wqe.psns (w : Wqe) : Nat := max 1 (ceilDiv w.len 4096)
def Wqe.packets (w : Wqe) : Nat := if w.isRead then 1 else w.psns

/-! ## Streams (R367 to R373) -/

/-- Stream s. -/
def Dev.str (d : Dev) (s : Nat) : Stream := d.plc.streams.getD s {}
/-- Change stream s. -/
def Dev.modStr (d : Dev) (s : Nat) (f : Stream → Stream) : Dev := d.modPlc fun p => { p with streams := modAt p.streams s f }
/-- Change the batts of stream s that have a key. -/
def Dev.modPlaced (d : Dev) (s : Nat) (k : Nat × Option Nat) (f : Placed → Placed) : Dev :=
  d.modStr s fun t => { t with batts := t.batts.map fun b => if b.batt = k then f b else b }
/-- Stream s is started; it is a RECALL stream; its current queue pair; its PARCEL_SIZE. -/
def Dev.started (d : Dev) (s : Nat) : Bool := d.flag (Reg.strCfg s) 31
def Dev.isRecall (d : Dev) (s : Nat) : Bool := d.flag (Reg.strCfg s) 30
def Dev.curQp (d : Dev) (s : Nat) : Nat := d.fld (Reg.strCfg s) 24 6
def Dev.parcelSize (d : Dev) (s : Nat) : Nat := (d.fld (Reg.strCfg s) 4 4 + 1) * 4096
/-- Any stream is started. -/
def Dev.anyStream (d : Dev) : Bool := (List.range 8).any d.started
/-- Highest batt with a descriptor issued on any stream; all ones if none (GET_STATE). -/
def Dev.pubMax (d : Dev) : Nat :=
  (maxOf (((List.range 8).map fun s => d.rd64 (Reg.strPub s) % 2 ^ 48).filter fun b => b != 2 ^ 48 - 1)).getD noBatt

/-- In-flight slots in use (R46, R373): issues without a record, and records not delivered. -/
def Dev.slotsUsed (d : Dev) : List Nat :=
  d.plc.streams.flatMap fun s => s.issues.map (·.slot) ++ s.cmp.filterMap fun c => c.issue.map (·.slot)
/-- Entries that PLC_CMP and what waits before it hold (R100, R111): one per record, four per descriptor, until it is read. -/
def Dev.cmpLoad (d : Dev) : Nat :=
  d.plc.streams.foldl (fun n (t : Stream) => t.cmp.foldl (fun n (c : CmpItem) =>
    if c.read then n else n + (if c.issue.isNone then 4 else 1)) n) 0
/-- Bytes in flight (R46). -/
def Dev.bytesInFlight (d : Dev) : Nat :=
  d.plc.streams.foldl (fun n s => s.issues.foldl (fun n i => n + i.len) n) 0
/-- Show the in-flight load (PLC_STAT, PLC_INFL_KIB, STRs_STAT). -/
def Dev.showPlc (d : Dev) (s : Nat) : Dev :=
  ((d.setFld Reg.plcStat 0 15 d.slotsUsed.length).wrN Reg.plcInflKib (d.bytesInFlight / 1024)).wrN (Reg.strStat s)
    ((d.str s).bufs.length * 2 ^ 16 + min 65535 (d.str s).issues.length)
/-- The lowest free in-flight slot. -/
def Dev.freeSlot (d : Dev) : Nat :=
  let used := d.slotsUsed
  ((List.range 16384).find? fun k => !used.contains k).getD 0

/-- Time with a parcel in flight is counted for R320: `before` and `after` say whether any was. -/
def Dev.countBusy (d : Dev) (before : Bool) : Dev :=
  let after := d.plc.streams.any fun s => s.issues != []
  if before == after then d
  else if after then { d with ful := { d.ful with inFlightSince := some d.now } }
  else { d with ful := { d.ful with busy := d.ful.busy + d.ful.inFlightSince.elim 0 (d.now - ·), inFlightSince := none } }

/-- Some parcel is in flight. -/
def Dev.anyInFlight (d : Dev) : Bool := d.plc.streams.any fun s => s.issues != []

/-! ## Completion records (R376, R378, R384) -/

/-- The fold word of a parcel (R376). -/
def parcelFold (batt idx : Nat) : Nat := batt % 2 ^ 48 + idx % 2 ^ 16 * 2 ^ 48

/-- The completion record of an issue (R378). -/
def Dev.recordBytes (d : Dev) (s : Nat) (i : Issue) (cause pseal : Nat) : Bytes :=
  let plant := d.fld Reg.plantAddr 0 18
  let where_ := i.batt.1 % 2 ^ 48 + s * 2 ^ 48 + b2n i.batt.2.isSome * 2 ^ 51 + i.qp * 2 ^ 52 + plant / 2 ^ 16 * 2 ^ 58
  let body := le 4 (i.idx + i.slot * 2 ^ 16) ++ le 4 i.pid ++ le 8 where_ ++ le 4 (i.idx + plant % 2 ^ 16 * 2 ^ 16)
    ++ le 2 (i.len - 1) ++ le 1 (if cause = 0 then 0 else 0x80 + cause) ++ le 1 (min 15 i.try_)
    ++ le 4 (if cause = 0 then pseal else 0)
  withSeal (parcelFold i.batt.1 i.idx) body

/-- The end of an issue (R384, R385, R389): its completion record enters the completion hopper, FAILED records are counted,
a DONE index is done; a batt whose indices are all done, or that is FAILED with no issue left, is PLACED. -/
def Dev.endIssue (d : Dev) (s : Nat) (i : Issue) (cause pseal : Nat) : Dev :=
  let before := d.anyInFlight
  let item : CmpItem := { issue := some i, batt := i.batt, cause := cause, bytes := d.recordBytes s i cause pseal }
  let d1 := d.modStr s fun t => { t with
    issues := t.issues.erase i, cmp := t.cmp ++ [item], ended := i.pid :: t.ended
    batts := t.batts.map fun b =>
      if b.batt = i.batt then
        let c := if cause = 0 then { b with done := i.idx :: b.done } else { b with pfailed := satAdd 16 b.pfailed 1 }
        let left := (t.issues.erase i).any fun x => x.batt == i.batt
        { c with placed := c.placed || (c.fail != 0 && !left) || (c.fail == 0 && c.cut && decide (c.done.length = c.total)) }
      else b }
  let d2 := if cause = 0 then
      { d1 with ful := { d1.ful with done := d1.ful.done + i.len,
                                      doneRecall := d1.ful.doneRecall + (if i.batt.2.isSome then i.len else 0) } }
    else d1.incSat (Reg.plcFail (cause - 1)) 0 32 1
  (d2.countBusy before).showPlc s

/-- The request of an issue on its queue pair: withdrawn if no packet of it has left, else sent to its end with its
acknowledgement ignored (R389). -/
def Dev.dropWqe (d : Dev) (q s pid : Nat) : Dev :=
  d.modQp q fun p => { p with
    sq := (p.sq.filter fun w => !(w.kind == .parcel s pid && w.psn.isNone)).map fun w =>
      if w.kind = .parcel s pid then { w with overran := true } else w }

/-- Issues of stream s that satisfy p end FAILED, in ascending PID. -/
def Dev.failIssues (d : Dev) (s cause : Nat) (p : Issue → Bool) : Dev :=
  let l := ((d.str s).issues.filter p).mergeSort fun a b => a.pid ≤ b.pid
  l.foldl (fun d i => (d.endIssue s i cause 0).dropWqe i.qp s i.pid) d

/-! ## The standby queue pair (R386) -/

/-- A stream whose current queue pair is not READY takes its READY standby: STANDBY_TAKEN with the number of indices to be
re-issued. -/
def Dev.takeStandby (d : Dev) (s : Nat) : Dev :=
  let cur := d.curQp s
  let sb := d.fld (Reg.strCfg s) 16 6
  if d.started s && !d.qpReady cur && d.flag (Reg.strCfg s) 23 && d.qpReady sb then
    let flying := fun (b : Placed) (k : Nat) => (d.str s).issues.any fun i => i.batt == b.batt && i.idx == k
    let n := (d.str s).batts.foldl (fun n b => if b.fail ≠ 0 then n
      else n + (b.tries.filter fun x => !b.done.contains x.1 && !flying b x.1).length) 0
    (((d.setFld (Reg.strCfg s) 24 6 sb).setFld (Reg.strCfg s) 16 6 cur).rebase).event 0x8B02 none
      (le 1 s ++ le 1 cur ++ le 1 sb ++ zeros 1 ++ le 4 n)
  else d

/-- Every stream looks to its standby. -/
def Dev.takeStandbys (d : Dev) : Dev := (List.range 8).foldl (fun d s => d.takeStandby s) d

/-- The write of a completion record or descriptor at ring position k is kept, to be made again. -/
def Stream.keep (t : Stream) (k : Nat) (ds : Bool) : Stream :=
  { t with cmp := t.cmp.map fun (c : CmpItem) =>
      if c.place == (some k) && (c.issue.isNone == ds) then { c with posted := false } else c }

/-- The writes of completion records and descriptors on queue pair q are kept, to be made again (R373). -/
def Dev.keepItems (d : Dev) (q : Nat) : Dev :=
  (d.qp q).sq.foldl (fun d w => match w.kind with
    | .item s k ds => d.modStr s fun t => t.keep k ds
    | _ => d) d

/-! ## What a recovery does to placement and fulling (R43, R299, R390, R475, R477) -/

/-- A batt goes back on one stream to before its parcels were cut, unless it has FAILED there: they are issued anew from output
staging (R43). -/
def Placed.rollback (p : Placed) : Placed :=
  if p.fail ≠ 0 then p else { p with cut := false, todo := [], re := [], done := [], placed := false }

/-- The batts of stream s that satisfy p and are not PUBLISHED on it are rolled back; their issues end FLUSHED (R43, R390). -/
def Dev.rollbackOn (d : Dev) (s : Nat) (p : Nat × Option Nat → Bool) : Dev :=
  (d.failIssues s 4 fun i => p i.batt).modStr s fun t => { t with
    batts := t.batts.map fun b => if p b.batt then b.rollback else b }

/-- Queue pair q is quiesced: its in-flight parcels end FLUSHED, and the batts of the streams it serves are rolled back (R43, R45,
R390); its other requests are kept for the resumption. -/
def Dev.quiesceQp (d : Dev) (q : Nat) : Dev :=
  let d1 := (List.range 8).foldl (fun d s =>
    if (d.started s && d.curQp s == q) || ((d.str s).issues.any fun i => i.qp == q) then
      (d.failIssues s 4 fun i => i.qp == q).rollbackOn s fun _ => true
    else d) d
  (d1.modQp q fun p => { p with held := true }).takeStandbys

/-- Queue pair q is READY again: it resumes at the PSN after the last acknowledged one (R475). -/
def Dev.resumeQp (d : Dev) (q : Nat) : Dev :=
  let u := (d.qp q).una
  let d1 := d.modQp q fun p => { p with
    held := false
    sq := p.sq.map fun w => match w.psn with
      | some k => if (k + 2 ^ 24 - u) % 2 ^ 24 < 2 ^ 23 then { w with sent := 0 }
                  else { w with sent := (u + 2 ^ 24 - k) % 2 ^ 24 }
      | none => w }
  d1.takeStandbys

/-- The batt in a slice goes back to waiting for one, to be fulled again (R43, R299). -/
def Batt.rollback (b : Batt) : Batt :=
  if b.slice.isSome then { b with slice := none, data := [], index := [], deferred := [], capped := 0, cutter := none } else b

/-- The batt of fulling slice k is rolled back: the parcels of it already issued end FLUSHED and are issued anew after the
next fulling. -/
def Dev.rollbackSlice (d : Dev) (k : Nat) : Dev :=
  match d.ful.batts.find? fun b => b.slice == some k with
  | none => d
  | some b =>
    let key := (b.num, b.recalled.map (·.1))
    let d1 := (List.range 8).foldl (fun d s => d.rollbackOn s (· == key)) d
    ({ d1 with ful := { d1.ful with batts := d1.ful.batts.map fun (x : Batt) => if x.slice = some k then x.rollback else x } } :
      Dev).setFlag (Reg.fulStat k) 31 false

/-! ## A pipeline in a contained recovery (R239, R475) -/

/-- A line on its way is lost with cause RECOVERY; one already lost keeps its cause. -/
def Line.flushed (l : Line) : Line :=
  if l.cause = 0 then { l with cause := Cause.recovery, planes := [], sats := [] } else l

/-- A tile record whose data are gone: marked DAMAGED and FLAGGED (R109). -/
def damagedRecord (rec : Bytes) : Bytes := rec.take 12 ++ le 2 0x8080 ++ zeros 18

/-- Row r of a card has been written to its hood. -/
def Card.rowWritten (c : Card) (r : Nat) : Bool := decide (r < c.written) || c.ahead.contains r

/-- A formed row that has not been written is lost with cause RECOVERY. -/
def Card.flushRow (c : Card) (x : Row) : Row :=
  if x.status % 16 = 0 ∧ c.rowWritten x.r = false then
    { x with status := x.status + Cause.recovery, planes := [], sats := [] } else x

/-- The card of a pipeline whose RX, TR and CW hoppers are flushed. -/
def Card.flush (c : Card) : Card :=
  { c with
    carded := c.carded.map fun x => if (c.blocked.find? fun y => y.r == x.r).isSome then x else c.flushRow x
    blocked := c.blocked.map c.flushRow
    tiles := c.tiles.map fun t =>
      let r0 := (t.batt - c.grid.first) * 2 ^ c.grid.hlog + 64 * t.trow
      if (List.range 64).all fun j => c.rowWritten (r0 + j) then t else { t with recs := t.recs.map damagedRecord } }

/-- What hopper i holds is discarded (R104): requests and events go; lines are lost with cause RECOVERY; the rows and records of
a card go as `Card.flush` says, TR and CW together; the batt of a slice goes back (R475). BTR, PLC_DESC, PLC_CMP and BAND_RX hold
nothing that a flush meets: no rule flushes the first three, and a band message is taken in the step in which it comes. -/
def Dev.discardHop (d : Dev) (i : Nat) : Dev :=
  if i < 8 then d.modBox i fun b => { b with hopper := [] }
  else if i = 8 then { d with ev := { d.ev with hopper := [], past := [] } }
  else if i = 9 then { d with ev := { d.ev with q0 := [] } }
  else if i < 26 then d.modPipe (i - 10) fun p => { p with rx := p.rx.map Line.flushed }
  else if i < 58 then d.modPipe (if i < 42 then i - 26 else i - 42) fun p => { p with cards := p.cards.map Card.flush }
  else if 59 ≤ i ∧ i < 67 then
    { d with ful := { d.ful with batts := d.ful.batts.map fun x => if x.slice = some (i - 59) then x.rollback else x } }
  else d

/-- A flush of hopper i (R104, R106): with an item in progress it waits for that item's end marker, else what the hopper holds
is discarded at once; one asked for while another waits does nothing. -/
def Dev.flush (d : Dev) (i : Nat) (inProgress : Bool) : Dev :=
  if (d.hoppers.getD i {}).flushing then d
  else if inProgress then d.flushHop i true
  else (d.flushHop i false).discardHop i

/-- Rows of a card that a flush makes missing: the blocked ones, and the carded ones not yet blocked, that are present and not
written. -/
def Card.flushed (c : Card) : Nat :=
  let goes := fun (x : Row) => x.status % 16 == 0 && !c.rowWritten x.r
  c.blocked.countP goes + c.carded.countP fun x => goes x && !(c.blocked.any fun y => y.r == x.r)

/-- Pipeline n is quiesced (R475): RX n, TR n and CW n are flushed; what they held is missing with cause RECOVERY. -/
def Dev.flushPipe (d : Dev) (n : Nat) : Dev :=
  let gone := (d.pipe n).cards.foldl (fun k c => k + c.flushed) 0
  let d1 := (d.modPipe n fun p => { p with mosQ := p.mosQ.map Line.flushed }).incSat (Reg.cardMissCnt n) 0 32 gone
  ((d1.flush (10 + n) (d1.port n).line.isSome).flush (26 + n) false).flush (42 + n) false

/-- Pipeline n takes lines again with the first after the end (R475); its card writer first writes the headers and record shares
of the flushed rows, which are its next rows (R239). -/
def Dev.resumePipe (d : Dev) (_n : Nat) : Dev := d

/-! ## A slice and the whole output in recovery -/

/-- Fulling slice k is quiesced (R475): FUL k is flushed, and with it the sections that its cutter has not closed are closed;
the batt in the slice is rolled back. -/
def Dev.quiesceSlice (d : Dev) (k : Nat) : Dev :=
  let d1 := d.rollbackSlice k
  ({ d1 with ful := { d1.ful with batts := d1.ful.batts.map fun x => if x.cutter = some k then { x with cutter := none } else x } } :
    Dev).flush (59 + k) false

/-- A device recovery quiesces every slice and placement, ends every parcel in flight FLUSHED, and rolls back every batt that is
not PUBLISHED (R477, R390, R43, R45). -/
def Dev.quiesceOutput (d : Dev) : Dev :=
  let d1 := (List.range 8).foldl (fun d s => d.rollbackOn s fun _ => true) d
  ((List.range 8).foldl (fun d k => d.quiesceSlice k) d1).setFlag Reg.plcStat 31 true

/-- Fulling and placement resume (R477). -/
def Dev.resumeOutput (d : Dev) : Dev := d.setFlag Reg.plcStat 31 false

end Sys2Proof.Machine
end

