-- ==== Sys2Proof/Machine/Fault.lean ====
section
/-! DEFINITION. The fault collector (spec/15_faults_and_recovery.md): occurrences, the four classes of reaction,
escalation, recoveries and their ends, the safe state, the fault pair and the fault log. -/

namespace Sys2Proof.Machine

open Sys2Proof

/-- The device as a unit (R469). -/
def FUnit.device : FUnit := ⟨0, 0⟩

/-- The units that a source's reaction reaches (R462, R612); `qps` is the latch of queue pairs for 0x6D and 0x6E. -/
def Dev.unitsOf (d : Dev) (s qps : Nat) : List FUnit :=
  if 0x10 ≤ s ∧ s < 0x20 then [⟨1, s - 0x10⟩]
  else if 0x20 ≤ s ∧ s < 0x30 then [⟨1, s - 0x20⟩]
  else if 0x30 ≤ s ∧ s < 0x40 then [⟨1, s - 0x30⟩]
  else if 0x40 ≤ s ∧ s < 0x48 then [⟨2, s - 0x40⟩]
  else if 0x60 ≤ s ∧ s < 0x68 then [⟨6, (s - 0x60) / (8 / d.uplinkPorts)⟩]
  else if s = 0x6D ∨ s = 0x6E then (maskList 64 qps).map fun q => ⟨3, q⟩
  else if s = 0x70 ∨ s = 0x71 then [⟨4, s - 0x70⟩]
  else [FUnit.device]

/-- Configured class, ESC and GRP of a source (FLT_CLASSs). -/
def Dev.cfgClass (d : Dev) (s : Nat) : Nat := d.fld (Reg.fltClass s) 0 2
def Dev.escBit (d : Dev) (s : Nat) : Bool := d.flag (Reg.fltClass s) 4
def Dev.grpBit (d : Dev) (s : Nat) : Bool := d.flag (Reg.fltClass s) 5

/-- The recovery count register of a unit: address and width. -/
def FUnit.cntReg (u : FUnit) : Nat × Nat :=
  match u.kind with
  | 1 => (Reg.fltUcnt u.idx, 16)
  | 2 => (Reg.fltUcnt (16 + u.idx), 16)
  | 3 => (Reg.fltUcnt (24 + u.idx), 16)
  | 4 => (Reg.fltUcnt (88 + u.idx), 16)
  | 6 => (Reg.fltPcnt u.idx, 16)
  | _ => (Reg.fltDevcnt, 32)

/-- RECOV_CNT of a unit. -/
def Dev.recovCnt (d : Dev) (u : FUnit) : Nat := d.fld u.cntReg.1 0 u.cntReg.2

/-- Count a recovery of a unit (R473, R475, R477). -/
def Dev.countRecov (d : Dev) (u : FUnit) : Dev :=
  ({ d with flt := { d.flt with counted := (u, d.now) :: d.flt.counted } } : Dev).incSat u.cntReg.1 0 u.cntReg.2 1

/-- Counted recoveries of a unit that began within the last ESC_WINDOW (R473). -/
def Dev.recentRecov (d : Dev) (u : FUnit) : Nat :=
  (d.flt.counted.filter fun p => p.1 == u && decide (d.now ≤ p.2 + max 1 (d.fld Reg.fltCfg 0 12) * cyclesS)).length

/-- ESC_COUNT; 0 is taken as 1. -/
def Dev.escCount (d : Dev) : Nat := max 1 (d.fld Reg.fltCfg 24 4)

/-- The sticky and live bits as 256-bit numbers. -/
def Dev.faultBits (d : Dev) (base : Nat) : BitVec 256 :=
  (List.range 8).foldl (fun acc i => acc ||| (BitVec.ofNat 256 (d.rdN (base + 4 * i)) <<< (32 * i))) 0
def Dev.stickyBits (d : Dev) : BitVec 256 := d.faultBits (Reg.fltSticky 0)
def Dev.liveBits (d : Dev) : BitVec 256 := d.faultBits (Reg.fltLive 0)

/-- Sticky bit, live bit of a source. -/
def Dev.setSticky (d : Dev) (s : Nat) : Dev := d.setFlag (Reg.fltSticky (s / 32)) (s % 32) true
def Dev.live (d : Dev) (s : Nat) : Bool := d.flag (Reg.fltLive (s / 32)) (s % 32)
def Dev.setLive (d : Dev) (s : Nat) (b : Bool) : Dev := d.setFlag (Reg.fltLive (s / 32)) (s % 32) b

/-- Whether power domain j is on (PD_ONi, R543). -/
def Dev.domainOn (d : Dev) (j : Nat) : Bool := d.flag (Reg.pdOn (j / 32)) (j % 32)

/-- A stage of the data path works: its power domain j is on, and the device is not in the safe state, in which pipelines, fulling
and placement are stopped (R480, R546). -/
def Dev.stageOn (d : Dev) (j : Nat) : Bool := d.domainOn j && !d.safe

/-- Both Milliner pairs are stopped: PD_MIL0 to PD_MIL3 are off (R470, R549). -/
def Dev.millinerOff (d : Dev) : Bool := !([122, 123, 124, 125].any d.domainOn)

/-- Milliner pair 1 is stopped: PD_MIL2 and PD_MIL3 are off (R31, R549). -/
def Dev.pair1Off (d : Dev) : Bool := !([124, 125].any d.domainOn)

/-- Append a log entry, unless both Milliner pairs are stopped; the log keeps the 1,024 most recent (R468 to R470). -/
def Dev.logEntry (d : Dev) (kind cls : Nat) (u : FUnit) : Dev :=
  if d.millinerOff then d else
  let e : LogEntry := ⟨d.flt.logNext, kind, cls, u, d.timeNs, d.spos, d.stickyBits, d.liveBits,
    if kind = 0 ∨ kind = 5 then 0 else d.recovCnt u⟩
  let l := d.flt.log ++ [e]
  { d with flt := { d.flt with log := l.drop (l.length - 1024), logNext := d.flt.logNext + 1 } }

/-- The fault pair (R484, R485): fault in the safe state, before READY, and while a recovery of class PIN_MIN or above
is in progress; a change from health to fault is an alert cause (R504). -/
def Dev.updatePin (d : Dev) : Dev :=
  let pinMin := max 1 (d.fld Reg.fltCfg 28 2)
  let f := d.safe || !d.isReady || d.flt.recoveries.any fun r => decide (r.cls ≥ pinMin)
  let was := d.flag Reg.fltState 30
  let d1 := d.setFlag Reg.fltState 30 f
  if f && !was then d1.alert 16 else d1

/-- The units in a contained recovery, those among them that a device recovery has taken over. -/
def Dev.recUnits (d : Dev) : List FUnit := d.flt.recoveries.map (·.unit) ++ d.flt.absorbed

/-- Queue pair q is in a contained recovery, its own or its port's (R475). -/
def Dev.qpInRec (d : Dev) (q : Nat) : Bool :=
  d.qpState q != 0 && d.recUnits.any fun u => u == (⟨3, q⟩ : FUnit) || u == (⟨6, d.qpPort q⟩ : FUnit)

/-- Show the queue pairs in recovery in FLT_QPREC. -/
def Dev.showQps (d : Dev) : Dev :=
  d.wr64 Reg.fltQprec ((List.range 64).foldl (fun n q => n + b2n (d.qpInRec q) * 2 ^ q) 0)

/-- Show or clear a unit in FLT_UREC and FLT_QPREC. -/
def Dev.showUnit (d : Dev) (u : FUnit) (b : Bool) : Dev :=
  match u.kind with
  | 1 => d.setFlag Reg.fltUrec u.idx b
  | 2 => d.setFlag Reg.fltUrec (16 + u.idx) b
  | 4 => d.setFlag Reg.fltUrec (24 + u.idx) b
  | 0 => d
  | _ => d.showQps

/-- Whether a unit is in a contained recovery, or the device in a device recovery. -/
def Dev.inRecovery (d : Dev) (u : FUnit) : Bool := d.recUnits.contains u || (u.kind == 3 && d.qpInRec u.idx)

/-- Quiesce a unit as the table of R475 gives. -/
def Dev.quiesce (d : Dev) (u : FUnit) : Dev :=
  match u.kind with
  | 1 => d.flushPipe u.idx
  | 2 => d.quiesceSlice u.idx
  | 3 => d.quiesceQp u.idx
  | 4 => if d.band.ownUnlocked ∨ d.bstate u.idx = 2 then d else d.bandDown u.idx
  | 6 => (d.qpsOfPort u.idx).foldl (fun d q => d.quiesceQp q) d
  | _ => d

/-- The end of a unit's quiescence (R475). -/
def Dev.resume (d : Dev) (u : FUnit) : Dev :=
  match u.kind with
  | 1 => d.resumePipe u.idx
  | 3 => if d.qpInRec u.idx then d else d.resumeQp u.idx
  | 6 => (d.qpsOfPort u.idx).foldl (fun d q => if d.qpInRec q then d else d.resumeQp q) d
  | _ => d

/-- QUIET1 or QUIET2 in cycles; 0 is taken as 1 ms. -/
def Dev.quiet (d : Dev) (cls : Nat) : Nat :=
  max 1 (d.fld (if cls = 1 then Reg.fltQuiet1 else Reg.fltQuiet2) 0 14) * cyclesMs

/-- The quiet period of a unit's recovery runs anew from this cycle, at the present QUIET setting (R472, R476, R478). -/
def Dev.restartQuiet (d : Dev) (u : FUnit) (cls : Nat) : Dev :=
  let f := fun (r : Recovery) => if r.unit = u then { r with since := d.now, quiet := d.quiet cls } else r
  { d with flt := { d.flt with recoveries := d.flt.recoveries.map f } }

/-- A recovery of a unit begins in this cycle (R475, R477). -/
def Dev.beginRecovery (d : Dev) (u : FUnit) (cls : Nat) : Dev :=
  { d with flt := { d.flt with recoveries := d.flt.recoveries ++ [⟨u, cls, d.now, d.now, d.quiet cls⟩] } }

/-- An occurrence of class 1 or 2 on a unit is counted and logged (R470, R473). -/
def Dev.countUnit (d : Dev) (cls : Nat) (u : FUnit) : Dev := (d.countRecov u).logEntry 1 cls u

/-- One unit reacts to a class 1 occurrence (R475, R478). -/
def Dev.containUnit (d : Dev) (u : FUnit) : Dev :=
  if d.devRec then { d with flt := { d.flt with during := if d.flt.during.contains u then d.flt.during else d.flt.during ++ [u] } }
  else if d.inRecovery u then d.restartQuiet u 1
  else ((d.quiesce u).beginRecovery u 1).showUnit u true

/-- Restart of a Milliner pair (R487): a command executing on the reset pair ends with FAULTED (commands execute on pair 0, as
spec/01_architecture.md has it), and commands whose follow-up is owed get the follow-up FAULTED. A decision of the exposure loop is one step, so none is
ever pending (notes/assumptions/110.md). -/
def Dev.restartMilliner (d : Dev) (pair0 : Bool) : Dev :=
  let d1 := if pair0 then d.running.foldl (fun d x => d.answerRunning x St.faulted []) d else d
  d1.accepted.foldl (fun d a => d.followUp a St.faulted []) d1

/-- The device reacts to a class 2 occurrence (R477, R478). -/
def Dev.deviceRecovery (d : Dev) (srcs : List Nat) : Dev :=
  let d2 :=
    if d.devRec then
      d.restartQuiet FUnit.device 2
    else
      let e := d.quiesceOutput
      -- the class 1 quiet periods are abandoned; those units end with the device (R478)
      (({ e with flt := { e.flt with recoveries := [], absorbed := e.flt.recoveries.map (·.unit) } } : Dev).beginRecovery FUnit.device 2).setFlag Reg.fltState 29 true
  let d3 := if srcs.any (fun s => s == 0x05 || s == 0x06 || s == 0x07 || s == 0x09) then d2.restartMilliner (srcs.any fun s => s == 0x05 || s == 0x07 || s == 0x09) else d2
  match srcs.find? d3.grpBit with
  | some s =>
    let n := d3.band.stopNum + 1
    ({ d3 with band := { d3.band with stopNum := n, stops := (d3.position, n) :: d3.band.stops } } : Dev).bandBoth
      Band.Kind.groupStop [d3.position, s, n]
  | none => d3

/-- Domains of R549 in the order in which the safe state under R483 powers them down; the domains R483 names are left
out. `mgmt` is the list of lanes of the management port. -/
def safeDomains (mgmt : List Nat) : List Nat :=
  ((List.range 16).reverse.flatMap fun n => [80 + n, 64 + n, 48 + n, 32 + n, 16 + n, n])
  ++ ((List.range 8).reverse.map (96 + ·)) ++ ((List.range 4).reverse.map (118 + ·)) ++ [113, 112]
  ++ (((List.range 8).reverse.filter fun l => !mgmt.contains l).map (104 + ·))
  ++ ((List.range 4).reverse.map (114 + ·)) ++ [134, 133, 131] ++ ((List.range 4).reverse.map (122 + ·))

/-- Show the domain switch under way and the domains waiting (PD_SEQ). -/
def Dev.showSeq (d : Dev) : Dev :=
  match d.pwr.queue with
  | [] => d.wrN Reg.pdSeq 0
  | (j, on) :: t => d.wrN Reg.pdSeq (2 ^ 31 + b2n on * 2 ^ 30 + j * 2 ^ 16 + min 255 t.length * 2 ^ 8)

/-- Queue power domains to be switched (R545): those not already so. -/
def Dev.requestDomains (d : Dev) (on : Bool) (l : List Nat) : Dev :=
  ({ d with pwr := { d.pwr with queue := d.pwr.queue ++ (l.filter fun j => d.domainOn j != on).map fun j => (j, on) } } : Dev).showSeq

/-- LINKCTL HALT three times on a head's back-channel (R187). -/
def Dev.haltHead (d : Dev) (n : Nat) : Dev :=
  if d.portState n = 0 then d
  else (List.range 3).foldl (fun d _ => d.linkctl n 3 0) d

/-- SAFE_STOP three times on an enabled band port (R421). -/
def Dev.safeStopPort (d : Dev) (p : Nat) : Dev :=
  if d.bstate p = 0 then d
  else (List.range 3).foldl (fun d _ => d.bandSend p Band.Kind.safeStop [d.position, d.fld Reg.bandCfg 30 2]) d

/-- Entry to the safe state discards the domain requests behind the switch under way (R550); a command whose own switch is
discarded ends with FAULTED. `off` are the domains to power down instead. -/
def Dev.cutSwitches (d : Dev) (off : List Nat) : Dev :=
  let now := d.pwr.queue.take 1
  let q := now ++ off.map fun j => (j, false)
  let lost := d.running.filter fun x => match x.switch with
    | some sw => !now.contains sw
    | none => false
  let d1 := ({ d with pwr := { d.pwr with queue := q } } : Dev).showSeq
  lost.foldl (fun d x => d.answerRunning x St.faulted []) d1

/-- Entry to the safe state (R480, R481, R483): SAFE_STATE is raised, the line stops with cause 2, heads are halted, the
band is told; sources 0x01 to 0x03 also queue the domains to power down, after the switch under way (R550). `mgmtLanes` are the
lanes of the management port. A head message under way ends with BAD_STATE (spec/05 HEAD_MESSAGE). -/
def Dev.enterSafe (d : Dev) (src : Nat) (mgmtLanes : List Nat) : Dev :=
  if d.safe then d
  else
    let d1 := (((d.setFlag Reg.fltState 31 true).setFlag Reg.fltState 29 false).wrN Reg.fltUrec 0).wr64 Reg.fltQprec 0
    let d2 := { d1 with flt := { d1.flt with recoveries := [], absorbed := [], during := [], safeSource := some src } }
    let d3 := d2.logEntry 4 3 FUnit.device
    let d4 := d3.event 0x8D04 none (le 1 src ++ zeros 3 ++ le 32 d3.stickyBits.toNat)
    let d5 := d4.stopNow 2
    let d6 := (List.range 16).foldl (fun d n => d.haltHead n) d5
    let d7 := (d6.safeStopPort 0).safeStopPort 1
    let d8 := { d7 with pos := { d7.pos with strobes := d7.pos.strobes.map fun _ => {} } }
    let d9 := (d8.running.filter fun x => x.code == 0x0404).foldl (fun d x => d.answerRunning x St.badState []) d8
    let d10 := d9.cutSwitches (if 1 ≤ src ∧ src ≤ 3 then (safeDomains mgmtLanes).filter d8.domainOn else [])
    d10.updatePin

/-- What one occurring source means: source, effective class, class before escalation, the units. -/
structure Occurrence where
  src : Nat
  cls : Nat
  base : Nat
  units : List FUnit
  deriving DecidableEq, Repr, Inhabited

/-- Counted recoveries, within the window, of the unit of an occurrence of configured class c (R473): of the device for class 2. -/
def Dev.recentOf (d : Dev) (c : Nat) (units : List FUnit) : Nat :=
  if c = 2 then d.recentRecov FUnit.device else (units.map d.recentRecov).foldl max 0

/-- The effective class of an occurrence (R472, R473). -/
def Dev.classify (d : Dev) (s qps : Nat) : Occurrence :=
  let units := d.unitsOf s qps
  let c := d.cfgClass s
  let count := d.recentOf c units
  let dev := units.all fun u => u.kind == 0
  let c' := if s = 0 then 3
    else if d.escBit s && decide (count ≥ d.escCount) then (if c = 0 ∧ dev = true then 2 else min 3 (c + 1)) else c
  ⟨s, c', if s = 0 then 3 else c, units⟩

/-- The unit an event names: the source's own at class 0 and 1, the device above. -/
def Occurrence.unit (o : Occurrence) : FUnit := if o.cls ≥ 2 then FUnit.device else o.units.headD FUnit.device

/-- FAULT_ENTERED (R471, R474): at class 0 at most once per source and second. -/
def Dev.entered (d : Dev) (o : Occurrence) : Dev :=
  let ev := fun (d : Dev) => d.event 0x8D01 none
    (le 1 o.src ++ le 1 o.cls ++ le 1 o.unit.kind ++ le 1 o.unit.idx ++ le 4 (d.recovCnt o.unit))
  if o.cls = 0 then
    if d.flt.noticed.any fun p => p.1 == o.src && decide (d.now < p.2 + cyclesS) then d
    else
      let d1 := ev d
      { d1 with flt := { d1.flt with noticed := (o.src, d1.now) :: d1.flt.noticed.filter fun p => p.1 != o.src } }
  else ev d

/-- FAULT_ESCALATED and its log entry (R473): the unit whose recoveries were counted, the device for class 2, and `recent`, their
number when the occurrence was escalated. -/
def Dev.escalated (d : Dev) (o : Occurrence) (recent : Nat) : Dev :=
  if o.cls = o.base then d
  else
    let u := if o.base = 2 then FUnit.device else o.units.headD FUnit.device
    (d.logEntry 3 o.cls u).event 0x8D03 none
      (le 1 o.src ++ le 1 o.base ++ le 1 o.cls ++ le 1 u.kind ++ le 1 u.idx ++ zeros 3 ++ le 4 recent)

/-- The units that the reaction of effective class c counts (R466, R473). -/
def countedUnits (c : Nat) (occs : List Occurrence) : List FUnit :=
  if c = 1 then ((occs.flatMap (·.units)).eraseDups).filter fun u => u.kind != 0
  else if c = 2 then [FUnit.device] else []

/-- The reaction of effective class 1 or 2 to sources that occurred (R475, R477). -/
def Dev.react (d : Dev) (c : Nat) (srcs : List Nat) (units : List FUnit) : Dev :=
  if c = 1 then units.foldl Dev.containUnit d
  else if c = 2 then d.deviceRecovery srcs
  else d

/-- Sources that occur in one cycle (R466): all sticky bits are set; one reaction, that of the gravest effective class,
is applied to the union of the units. The collector's events enter before any that the reaction brings (R98, R605), in ascending
event code, then ascending source. -/
def Dev.occur (d : Dev) (srcs : List Nat) (qps : Nat) : Dev :=
  let ss := (srcs.filter fun s => !FaultSource.reserved s).mergeSort (· ≤ ·)
  if ss = [] then d
  else
    let st := ss.foldl (fun d s => d.setSticky s) d
    let d0 := if qps = 0 then st else st.wr64 Reg.fltQpmap (st.rd64 Reg.fltQpmap ||| qps)
    if d0.safe then d0
    else
      let occs := ss.map fun s => d0.classify s qps
      let gravest := (occs.map (·.cls)).foldl max 0
      let units := countedUnits gravest occs
      let d1 := units.foldl (fun d u => d.countUnit gravest u) d0
      let d2 := occs.foldl (fun d o => d.entered o) d1
      let d3 := occs.foldl (fun d o => d.escalated o (d0.recentOf o.base o.units)) d2
      let d4 := d3.react gravest ((occs.filter fun o => o.cls == gravest).map (·.src)) units
      let d5 :=
        if gravest = 3 then
          let n := 8 / d4.uplinkPorts
          d4.enterSafe ((occs.find? fun o => o.cls == 3).map (·.src) |>.getD 0)
            ((List.range n).map (d4.plc.mgmtPort * n + ·))
        else d4
      d5.updatePin

/-- A source whose condition is a single occurrence (R464). -/
def Dev.fault (d : Dev) (s : Nat) : Dev := d.occur [s] 0

/-- A condition begins: its live bit rises, which is an occurrence (R465); while it already holds, only its sticky bit is
set (R464). -/
def Dev.faultOn (d : Dev) (s : Nat) : Dev :=
  if d.live s then d.setSticky s else (d.setLive s true).occur [s] 0

/-- A condition ends: its live bit falls (R464). -/
def Dev.faultOff (d : Dev) (s : Nat) : Dev := d.setLive s false

/-- Some source tied to a unit is live with a configured class of 1 or more (R476). -/
def Dev.unitLive (d : Dev) (u : FUnit) : Bool :=
  (List.range 0x90).any fun s =>
    !FaultSource.reserved s && d.live s && decide (d.cfgClass s ≥ 1) && (d.unitsOf s 0).contains u

/-- A unit whose recovery the device's took over, or that a class 1 occurrence reached meanwhile, at the end of the device
recovery (R478): with a source still live it enters a contained recovery of its own, else it ends with the device. -/
def Dev.endWithDevice (d : Dev) (was : List FUnit) (u : FUnit) : Dev :=
  if d.unitLive u then
    let d1 := if was.contains u then d else d.quiesce u
    ((d1.beginRecovery u 1).showUnit u true).logEntry 1 1 u
  else if was.contains u then ((d.showUnit u false).resume u).logEntry 2 1 u
  else d

/-- The end of a recovery: FAULT_RECOVERED, log entry, the unit resumes (R475, R476, R478). -/
def Dev.endRecovery (d : Dev) (r : Recovery) : Dev :=
  let was := d.flt.absorbed
  let units := was ++ d.flt.during.filter fun u => !was.contains u
  let d1 := { d with flt := { d.flt with recoveries := d.flt.recoveries.erase r } }
  let d2 := if r.cls = 2 then
      ({ d1 with flt := { d1.flt with absorbed := [], during := [] } } : Dev).setFlag Reg.fltState 29 false
    else d1.showUnit r.unit false
  let d3 := (d2.logEntry 2 r.cls r.unit).event 0x8D02 none
    (le 1 r.unit.kind ++ le 1 r.unit.idx ++ le 1 r.cls ++ zeros 1 ++ le 4 (d2.recovCnt r.unit)
      ++ le 4 ((d2.now - r.first) / cyclesUs))
  let d4 := if r.cls = 2 then (units.foldl (fun d u => d.endWithDevice was u) d3).resumeOutput else d3.resume r.unit
  d4.updatePin

/-- Microseconds left in the device's quiet period (FLT_STATE.QUIET_LEFT). -/
def Dev.quietLeft (d : Dev) : Nat :=
  match d.flt.recoveries.find? fun r => r.unit == FUnit.device with
  | some r => (r.since + r.quiet - d.now) / cyclesUs
  | none => 0

end Sys2Proof.Machine
end

