-- ==== Sys2Proof/Machine/Command.lean ====
section
/-! DEFINITION. How the Milliner takes a request and checks it, in the order of R62, and how it answers (R69 to R74). -/

namespace Sys2Proof.Machine

open Sys2Proof

/-- What a command's description fixes beside its effect: the opcode, the payload lengths it takes, which fields must
be 0, whether a device recovery refuses it (R74), and the objects it needs (R71). -/
structure Spec where
  code : Nat
  len : Bytes → Bool
  reserved : Bytes → Bool := fun _ => true
  recov : Bool := false
  objs : Bytes → List Obj := fun _ => []

/-- The outcome of a command's own checks and effect: a status, the payload that goes with it, the device after; for
ACCEPTED the objects held and the values kept until the follow-up. -/
structure Result where
  status : Nat
  payload : Bytes
  dev : Dev
  held : List Obj := []
  args : List Nat := []
  /-- the device keeps what the command did before it was refused (a register command's items) -/
  keep : Bool := false

/-- The command is done: OK with a payload. -/
def Result.ok (d : Dev) (payload : Bytes) : Result := ⟨St.ok, payload, d, [], [], false⟩
/-- The command is refused with a status and changes nothing (R606: the payload is empty). -/
def Result.err (d : Dev) (status : Nat) : Result := ⟨status, [], d, [], [], false⟩
/-- The command has begun (ACCEPTED): it holds objects and keeps values until its follow-up. -/
def Result.acc (d : Dev) (held : List Obj) (args : List Nat) : Result := ⟨St.accepted, [], d, held, args, false⟩

/-- A payload length equal to n. -/
def lenIs (n : Nat) (p : Bytes) : Bool := p.length == n

/-- The narrowing of the command set in three device states (R74). -/
def Dev.narrow (d : Dev) (code : Nat) (recov : Bool) : Option Nat :=
  if d.safe then
    if code = 0x0101 ∨ code = 0x0102 ∨ code = 0x0D02 ∨ code = 0x0D03 then none else some St.faulted
  else if !d.isReady then
    if code = 0x0101 ∨ code = 0x0102 then none else some St.retry
  else if d.devRec && recov then some St.recovering
  else none

/-- An entry of a request hopper is this request, whatever upsets its reading meets. -/
def isReq (code : Nat) (r : Req) (x : Nat × Req) : Bool := x.1 == code && { x.2 with hits := [] } == { r with hits := [] }

/-- Take a request from the head of its hopper; a request that is not there has arrived and is taken at once, and its
sequence becomes LAST_SEQ (notes/assumptions/6.md). What follows is the request's doing until it is answered (R54). -/
def Dev.takeReq (d : Dev) (code : Nat) (r : Req) : Dev :=
  ({ d.hopRead r.mbx.val with cause := some r.mbx.val } : Dev).modBox r.mbx.val fun b =>
    match b.hopper with
    | x :: t => if isReq code r x then { b with hopper := t } else { b with lastSeq := some r.seq }
    | [] => { b with lastSeq := some r.seq }

/-- A command of mailbox m has begun and has not answered (R69). -/
def Dev.runs (d : Dev) (m : Nat) : Bool := d.running.any fun x => x.req.mbx.val == m

/-- A mailbox is not served in the safe state: mailboxes 1 to 7, and mailbox 0 once PD_MIL is off (R74, R549). -/
def Dev.unserved (d : Dev) (m : Nat) : Bool :=
  d.safe && (m != 0 || d.millinerOff)

/-- A request that may not begin yet stays in its hopper, or enters it: at 8 messages it is refused with NO_RESOURCE, which is
not stored (R60, R69, R71); in the safe state mailboxes 1 to 7 take nothing (R74). -/
def Dev.parkReq (d : Dev) (code : Nat) (r : Req) : Dev :=
  if (d.box r.mbx.val).hopper.any (isReq code r) then d
  else if d.safe && r.mbx.val != 0 then d
  else if (d.box r.mbx.val).hopper.length ≥ 8 then
    d.answerUnstored (response code r St.noResource []) r.noresp
      (if r.mbx.val = 0 then none else some (d.srcOf r.mbx.val r.seq))
  else d.modBox r.mbx.val fun b => { b with hopper := b.hopper ++ [(code, { r with hits := [] })], lastSeq := some r.seq }

/-- Other requests have entered the hopper before this one (R69). -/
def Dev.behind (d : Dev) (code : Nat) (r : Req) : Bool :=
  match (d.box r.mbx.val).hopper with
  | x :: _ => !isReq code r x
  | [] => false

/-- Whether a request must wait: one before it waits too or has not answered, an accepted predecessor of its mailbox holds what
it needs (R69, R71), or its mailbox is not served in the safe state (R74). -/
def Dev.mustWait (d : Dev) (sp : Spec) (r : Req) : Bool :=
  d.runs r.mbx.val || d.behind sp.code r || d.heldBySame r.mbx.val (sp.objs r.payload) || d.unserved r.mbx.val

/-- The words of a request that are read with poison (R102): those of its header and payload (R54). -/
def poisonWords (code : Nat) (r : Req) : List Nat :=
  badWords (le 2 code ++ le 1 (8 * b2n r.noresp + 16 * b2n r.auth) ++ zeros 1 ++ le 4 r.seq.toNat ++ le 2 r.payload.length
    ++ le 1 r.mbx.val ++ zeros 1 ++ le 4 r.htag.toNat ++ r.payload) r.hits

/-- The first check of R62 and R71 that a request fails, if any: poison, length, reserved fields, the narrowing of R74,
an object held by another mailbox. (The opcode is known: it is the row's own, R609.) -/
def Dev.firstFailure (d : Dev) (sp : Spec) (r : Req) : Option Nat :=
  if poisonWords sp.code r != [] then some St.poisoned
  else if sp.len r.payload = false then some St.badLength
  else if sp.reserved r.payload = false then some St.badParam
  else match d.narrow sp.code sp.recov with
    | some st => some st
    | none => if d.heldByOther r.mbx.val (sp.objs r.payload) then some St.busy else none

/-- n words are read with poison from hopper h (R102): POISON counts each of them. -/
def Dev.countPoison (d : Dev) (h n : Nat) : Dev := d.incSat (Reg.hopCnt h) 16 16 n

/-- The words `bad` of an item are read with poison from hopper h of poison group g: POISON counts them, and source 0x48 + g
occurs (R102); nothing with no such word. -/
def Dev.poisonRead (d : Dev) (h g : Nat) (bad : List Nat) : Dev :=
  if bad = [] then d else (d.countPoison h bad.length).fault (0x48 + g)

/-- Which settings a configuration command that a snapshot records replaces (R533, CMDS): the encoder, channel, head or group
it names; a HOOD_CONFIG by its form. -/
def cmdKey (code : Nat) (p : Bytes) : Option Nat :=
  if code = 0x0301 ∨ code = 0x0307 ∨ code = 0x0401 ∨ code = 0x0804 ∨ code = 0x0A01 then some (leAt p 0 1)
  else if code = 0x0904 ∨ code = 0x0B01 ∨ code = 0x0C01 ∨ code = 0x0C02 ∨ code = 0x0C03 ∨ code = 0x0E03 then some 0
  else none

/-- Keep the last accepted configuration commands in ascending opcode (R533); a detached head and a disabled loop group have
none. -/
def Dev.record (d : Dev) (code : Nat) (p : Bytes) : Dev :=
  let put := fun (l : List (Nat × Nat × Bytes)) => { d with cnf := { d.cnf with cmds := l } }
  if code = 0x0402 then put (d.cnf.cmds.filter fun x => !(x.1 == 0x0401 && x.2.1 == leAt p 0 1))
  else match cmdKey code p with
    | none => d
    | some k =>
      let rest := d.cnf.cmds.filter fun x => !(x.1 == code && x.2.1 == k)
      if code = 0x0804 ∧ leAt p 1 1 = 0 then put rest
      else put ((rest.filter fun x => decide (x.1 < code ∨ (x.1 = code ∧ x.2.1 < k))) ++ [(code, k, p)]
        ++ rest.filter fun x => decide (code < x.1 ∨ (x.1 = code ∧ k < x.2.1)))

/-- Give a command's result as its response; an accepted command is entered with what it holds (R66, R71). -/
def Dev.conclude (d : Dev) (sp : Spec) (r : Req) (res : Result) : Dev :=
  if res.status = St.accepted then
    (({ res.dev with accepted := res.dev.accepted ++ [⟨sp.code, r, res.held, res.args⟩] } : Dev).record sp.code r.payload).answer
      sp.code r St.accepted res.payload
  else if res.status = St.ok then (res.dev.record sp.code r.payload).answer sp.code r res.status res.payload
  else
    (if res.status = St.alreadyDone ∨ res.status = St.partialDone ∨ res.payload ≠ [] ∨ res.keep = true then res.dev
     else d).answer sp.code r res.status res.payload

/-- Whether an opcode is one of R90. -/
def knownOpcode (c : Nat) : Bool :=
  let n := [0, 9, 4, 7, 4, 4, 4, 4, 5, 5, 5, 11, 4, 4, 4, 5, 4].getD (c / 0x100) 0
  decide (1 ≤ c % 0x100 ∧ c % 0x100 ≤ n)

/-- Requests of unknown opcode at the head of a hopper are taken and answered at once: POISONED, else BAD_OPCODE (R62 steps 1
and 2). -/
def Dev.drainUnknown (d : Dev) (m : Nat) : Nat → Dev
  | 0 => d
  | n + 1 =>
    match (d.box m).hopper with
    | (c, r) :: t =>
      if knownOpcode c || d.runs m || d.unserved m then d
      else
        let bad := poisonWords c r
        let d1 := ((d.modBox m fun b => { b with hopper := t }).hopRead m).poisonRead m 0 bad
        (d1.answer c r (if bad = [] then St.badOpcode else St.poisoned) []).drainUnknown m n
    | [] => d

/-- The outcome of a command that goes on before it answers: the device after, what it holds, its kept values and the
power-domain switch that completes it. -/
structure Begun where
  dev : Dev
  objs : List Obj
  args : List Nat
  switch : Option (Nat × Bool)

/-- What follows a command's own checks and effect on device d: its end with a response, or its going on, when later events are
no longer the doing of this step's request. -/
def Dev.after (d : Dev) (sp : Spec) (r : Req) : Result ⊕ Begun → Dev
  | .inl res => (d.conclude sp r res).drainUnknown r.mbx.val 8
  | .inr b => { b.dev with
      cause := none, running := b.dev.running ++ [{ code := sp.code, req := r, objs := b.objs, args := b.args, switch := b.switch }] }

/-- Run a command on a request: wait, fail a check, or do the command's own checks and effect, and answer or go on. A
status other than OK, ALREADY_DONE, PARTIAL or ACCEPTED changes nothing (R89). -/
def Dev.commandOr (d : Dev) (sp : Spec) (r : Req) (body : Dev → Result ⊕ Begun) : Dev :=
  if d.mustWait sp r then d.parkReq sp.code r
  else
    let d1 := d.takeReq sp.code r
    match d1.firstFailure sp r with
    | some st => ((d1.poisonRead r.mbx.val 0 (poisonWords sp.code r)).answer sp.code r st []).drainUnknown r.mbx.val 8
    | none => d1.after sp r (body d1)

/-- Run a command that answers at once. -/
def Dev.command (d : Dev) (sp : Spec) (r : Req) (body : Dev → Result) : Dev :=
  d.commandOr sp r fun d => .inl (body d)

/-- A running command answers with a status; ACCEPTED enters it with what it holds. -/
def Dev.endRunning (d : Dev) (x : Running) (status : Nat) (payload : Bytes) : Dev :=
  let d2 := if status = St.accepted then { d with accepted := d.accepted ++ [⟨x.code, x.req, x.objs, x.args⟩] } else d
  let d3 := if status = St.accepted ∨ status = St.ok then d2.record x.code x.req.payload else d2
  (d3.answerRunning x status payload).drainUnknown x.req.mbx.val 8

/-- Refuse while stiffening is active: the command would change a stiffened register (R459). -/
def Result.stiff (d : Dev) (k : Result) : Result := if d.stiffActive then Result.err d St.stiffened else k

end Sys2Proof.Machine
end

