-- ==== Sys2Proof/Machine/Device.lean ====
section
/-! DEFINITION. The device commands (spec/02_command_interface.md): identity, state, plant address, resets, the event
route, the authentication key, bulk chunks. -/

namespace Sys2Proof.Machine

open Sys2Proof

/-- Without power, while RST_N holds the device in reset, and until start-up begins, nothing but the pins of power, reset and
test acts (R553, R554, R562). -/
def State.dead (s : State) : Bool := !s.pins.pwrOk || s.dev.pwr.phase == .held || s.dev.pwr.phase == .reset

/-- What one command or event does to the device gives the next state; the queue is left alone. -/
def State.upd (s : State) (f : Dev → Dev) : Host.Outcome State Fault Refusal :=
  .next { s with dev := if s.dead then s.dev else f s.dev }

/-- What a stage of the data path in power domain j does, as long as it works. -/
def State.updStage (s : State) (j : Nat) (f : Dev → Dev) : Host.Outcome State Fault Refusal :=
  s.upd fun d => if d.stageOn j then f d else d

/-- What fulling, placement or the batt tracker does, which are stopped in the safe state (R480). -/
def State.updData (s : State) (f : Dev → Dev) : Host.Outcome State Fault Refusal :=
  s.upd fun d => if d.safe then d else f d

/-- What a pin of power, reset or test does to the pins and the device, dead or not. -/
def State.updPin (s : State) (p : Pins) (f : Dev → Dev) : Host.Outcome State Fault Refusal :=
  .next { s with dev := f s.dev, pins := p }

/-- The device state code of GET_STATE and STATUS: 0 BOOTING, 1 READY, 2 RUNNING, 3 RECOVERING, 4 SAFE. -/
def Dev.stateCode (d : Dev) : Nat :=
  if d.safe then 4 else if d.devRec then 3 else if !d.isReady then 0 else if d.lineStarted then 2 else 1

/-- Response of IDENTIFY. -/
def Dev.identity (d : Dev) : Bytes :=
  le 2 0x1680 ++ le 2 Config.step ++ le 1 Config.clMax ++ le 1 (if Config.gradeX then 0x58 else 0x49) ++ zeros 2
  ++ le 8 Config.uid ++ (List.range 16).map Config.lot ++ le 4 d.pwr.fwVer ++ le 1 d.pwr.slot
  ++ le 1 d.pwr.fuseRollback ++ zeros 2 ++ le 4 (d.fld Reg.plantAddr 0 18) ++ zeros 4

/-- IDENTIFY returns the identity of the part and of its firmware (R25). -/
def execIdentify (r : Req) (s : State) : Host.Outcome State Fault Refusal :=
  s.upd fun d => d.command { code := 0x0101, len := lenIs 0 } r fun d => .ok d d.identity

/-- Accepted commands still awaiting their follow-up. -/
def Dev.pendingCount (d : Dev) : Nat := d.accepted.length

/-- Units in a class 1 recovery, also where a device recovery has taken it over (R478). -/
def Dev.unitsRec (d : Dev) : Nat := (d.flt.recoveries.filter fun r => r.cls == 1).length + d.flt.absorbed.length

/-- Response of GET_STATE. -/
def Dev.stateReport (d : Dev) : Bytes :=
  le 1 d.stateCode ++ le 1 (b2n d.lineStarted) ++ le 1 (d.fld Reg.conduct 0 8)
  ++ le 1 (b2n d.stiffActive + 2 * b2n d.ev.ring.isSome) ++ le 2 d.unitsRec ++ le 2 d.pendingCount
  ++ sle 8 d.spos ++ le 8 d.timeNs ++ le 8 (d.rd64 Reg.btOpenMin) ++ le 8 d.pubMax
  ++ le 2 (d.fld Reg.cnfStat 0 16) ++ zeros 2

/-- GET_STATE returns a summary of the device's state. -/
def execGetState (r : Req) (s : State) : Host.Outcome State Fault Refusal :=
  s.upd fun d => d.command { code := 0x0102, len := lenIs 0 } r fun d => .ok d d.stateReport

/-- SET_PLANT_ADDRESS sets the plant address (R91). -/
def execSetPlantAddress (r : Req) (s : State) : Host.Outcome State Fault Refusal :=
  s.upd fun d => d.command { code := 0x0103, len := lenIs 8 } r fun d =>
    let addr := leAt r.payload 0 4
    let expect := leAt r.payload 4 4
    let now := d.fld Reg.plantAddr 0 18
    if addr ≥ 0x3FFFF ∨ (expect ≠ 0xFFFFFFFF ∧ expect ≠ now) then .err d St.badParam
    else if d.anyStream then .err d St.badState
    else if addr = now then ⟨St.alreadyDone, le 4 now, d, [], [], false⟩
    else Result.stiff d (.ok (d.setFld Reg.plantAddr 0 18 addr) (le 4 now))

/-- The object and the fault unit that RESET_UNIT names. -/
def resetObj (kind idx : Nat) : Obj :=
  if kind = 1 then .pipe idx else if kind = 2 then .slice idx else if kind = 3 then .qp idx
  else if kind = 4 then .bandPort idx else .mailbox idx

/-- Number of units of each KIND of RESET_UNIT. -/
def resetLimit (kind : Nat) : Nat := [0, 16, 8, 64, 2, 8].getD kind 0

/-- Reset of a mailbox: its hopper is flushed, LAST_SEQ and stored response go; the response of a command that executes is
discarded (R92, R106). -/
def Dev.resetMailbox (d : Dev) (m : Nat) : Dev :=
  (({ d with running := d.running.map fun x =>
      if x.req.mbx.val = m then { x with void := true } else x } : Dev).flush m false).modBox m fun b =>
    { b with lastSeq := none, stored := none }

/-- RESET_UNIT quiesces one unit and flushes its hoppers; batts are affected as in a class 1 fault of it (R43, R92). -/
def execResetUnit (r : Req) (s : State) : Host.Outcome State Fault Refusal :=
  s.upd fun d =>
    let kind := leAt r.payload 0 1
    let idx := leAt r.payload 2 2
    let bad := decide (kind = 0 ∨ 5 < kind ∨ idx ≥ resetLimit kind ∨ (kind = 5 ∧ (idx = 0 ∨ idx = r.mbx.val)))
    d.command { code := 0x0104, len := lenIs 4, recov := true, reserved := fun p => zeroAt p 1 1,
                objs := fun _ => if bad then [] else [resetObj kind idx] } r fun d =>
      if bad then .err d St.badParam
      else if kind ≤ 4 ∧ d.inRecovery ⟨kind, idx⟩ = true then .err d St.recovering
      else
        let d1 := if kind = 5 then d.resetMailbox idx
          else if kind = 4 then (d.quiesce ⟨4, idx⟩).flush (69 + idx) false else d.quiesce ⟨kind, idx⟩
        .acc d1 [resetObj kind idx] [kind, idx]

/-- A unit reset by RESET_UNIT returns to service: the event UNIT_RESET and the follow-up, OK, or FAULTED when a fault
arose in the unit during the reset (R92). -/
def execUnitResetDone (m : Fin 8) (faulted : Bool) (s : State) : Host.Outcome State Fault Refusal :=
  s.upd fun d =>
    match d.accepted.find? fun a => a.code == 0x0104 && a.req.mbx == m with
    | none => d
    | some a =>
      let kind := a.args.getD 0 0
      let idx := a.args.getD 1 0
      let d1 := if kind = 5 then d else d.resume ⟨kind, idx⟩
      let d2 := d1.followUp a (if faulted then St.faulted else St.ok) []
      d2.eventFor m.val 0x8105 none (le 1 kind ++ zeros 1 ++ le 2 idx)

/-- RESET_DEVICE answers OK and a device reset begins 1 ms later (R93); IMAGE names the slot of that boot. -/
def execResetDevice (r : Req) (s : State) : Host.Outcome State Fault Refusal :=
  s.upd fun d => d.command { code := 0x0105, len := lenIs 8, reserved := fun p => zeroAt p 5 3 } r fun d =>
    let img := leAt r.payload 4 1
    if leAt r.payload 0 4 ≠ 0x1680 ∨ img > 2 ∨ (img ≠ 0 ∧ bit d.pwr.record.valid (img - 1) = false) then
      .err d St.badParam
    else if d.authMode = 2 ∧ r.mbx.val ≠ 0 ∧ r.auth = false then .err d St.notPermitted
    else .ok { d with pwr := { d.pwr with resetDue := some 3, named := if img = 0 then none else some (img - 1) } } []

/-- A message cut to a ring slot of n bytes: the header stays, the payload is cut to n - 20 bytes with TRUNC (R83). -/
def Msg.fitSlot (m : Msg) (n : Nat) : Msg :=
  if m.payload.length + 20 ≤ n then m else { m with payload := m.payload.take (n - 20), trunc := true }

/-- The route of the oldest event of the hopper: that of an earlier binding while that still has events to take, else the present
one (R94). -/
def Events.route (e : Events) : Option Ring :=
  match e.past with
  | (_, g) :: _ => g
  | [] => e.ring

/-- The oldest event leaves the hopper; g is its route as it then stands. -/
def Events.advance (e : Events) (g : Option Ring) : Events :=
  match e.past with
  | (n, _) :: rest => { e with hopper := e.hopper.drop 1, past := if n ≤ 1 then rest else (n - 1, g) :: rest }
  | [] => { e with hopper := e.hopper.drop 1, ring := g }

/-- Write the oldest event of the hopper to its route (R82 to R85): into the ring's next slot by RDMA WRITE, into the mailbox 0
queue when no ring is bound, sealed by unit 3 (R116); a full ring or queue holds it back. -/
def Dev.writeEvent (d : Dev) : Option Dev :=
  match d.ev.hopper with
  | [] => none
  | m :: _ =>
    match d.ev.route with
    | some g =>
      if g.written - g.consumed ≥ g.slots then none
      else
        let m1 := { m with tag := false }.fitSlot g.slotSize
        some ((({ d with ev := d.ev.advance (some { g with written := g.written + 1 }) } : Dev).sealOut m1 []).postWrite
          (.event g.id) g.region (g.off + g.slotSize * (g.written % g.slots)) (m1.bytes []))
    | none =>
      if d.ev.q0.length < 64 then
        some (({ d with ev := { d.ev.advance none with q0 := d.ev.q0 ++ [m] } } : Dev).sealOut m [])
      else none

/-- Write up to n events of the hopper to their routes while these have room. -/
def Dev.drainEvents (d : Dev) : Nat → Dev
  | 0 => d
  | n + 1 =>
    match d.writeEvent with
    | some d1 => d1.drainEvents n
    | none => d

/-- The events now in the hopper belong to the present route, whichever is bound next (R94). -/
def Events.keepRoute (e : Events) : Events :=
  let n := e.hopper.length - (e.past.map (·.1)).foldl (· + ·) 0
  if n = 0 then e else { e with past := e.past ++ [(n, e.ring)] }

/-- SET_EVENT_ROUTE binds or unbinds the event ring and sets the masks, checked in the order of R94. -/
def execSetEventRoute (r : Req) (s : State) : Host.Outcome State Fault Refusal :=
  s.upd fun d => d.command
    { code := 0x0106, len := lenIs 40,
      objs := fun p => .eventRoute :: if leAt p 0 4 = 0xFFFFFFFF then [] else [.region (leAt p 0 4)],
      reserved := fun p => zeroAt p 4 4 && zeroAt p 21 3 && bits (leAt p 32 4) 17 15 == 0 && !bit (leAt p 32 4) 0
        && bits (leAt p 36 4) 17 15 == 0 && !bit (leAt p 36 4) 0 } r fun d =>
    let region := leAt r.payload 0 4
    let off := leAt r.payload 8 8
    let n := leAt r.payload 16 4
    let sz := leAt r.payload 20 1
    let cons := leAt r.payload 24 8
    let slot := 512 * 2 ^ sz
    let unbind := region = 0xFFFFFFFF
    let masks := fun (d : Dev) (ring : Option Ring) =>
      { d with ev := { d.ev.keepRoute with
          ring := ring, bound := d.ev.bound + 1, enable := BitVec.ofNat 32 (leAt r.payload 32 4 ||| 0x2002), urgent := BitVec.ofNat 32 (leAt r.payload 36 4) } }
    let reply := le 4 d.ev.nextSeq.toNat ++ le 4 (d.rdN Reg.evtLostCnt)
    if unbind then
      if off ≠ 0 ∨ n ≠ 0 ∨ sz ≠ 0 ∨ cons ≠ 0 then .err d St.badParam else .ok (masks d none) reply
    else if sz > 3 ∨ !(List.range 13).any (fun k => n == 16 * 2 ^ k) ∨ off % slot ≠ 0 ∨ cons % 8 ≠ 0
        ∨ (cons < off + n * slot ∧ off < cons + 4) then .err d St.badParam
    else if d.regionLive region = false then .err d St.regionRevoked
    else if off + n * slot > d.regionLen region ∨ cons + 4 > d.regionLen region then .err d St.badParam
    else .ok (masks d (some ⟨d.ev.bound, region, off, n, slot, cons, 0, 0⟩)) reply

/-- SET_AUTH_KEY, on mailbox 0 only, loads the HMAC key and sets the mode (R95); with MODE 0 no key is loaded afterwards (DESIGN
CHOICE, notes/assumptions/115.md). -/
def execSetAuthKey (r : Req) (s : State) : Host.Outcome State Fault Refusal :=
  s.upd fun d => d.command { code := 0x0107, len := lenIs 36, reserved := fun p => zeroAt p 1 3 } r fun d =>
    let mode := leAt r.payload 0 1
    let key := slice r.payload 4 32
    let zero := key.all (· == 0)
    if r.mbx.val ≠ 0 then .err d St.notPermitted
    else if mode > 2 ∨ (mode ≠ 0 ∧ zero = true) ∨ (mode = 0 ∧ zero = false) then .err d St.badParam
    else if d.stiffActive && mode != d.authMode then .err d St.stiffened
    else
      let d1 := (d.setFld Reg.mbxCfg 16 2 mode)
      .ok { d1 with authKey := if mode = 0 then none else some key } ((hmac key []).take 4)

/-- A command of this mailbox that awaits its follow-up uses the bulk area: it holds it, or is a SNAPSHOT_IMPORT that fetches
from it. -/
def Dev.bulkBusy (d : Dev) (m : Nat) : Bool :=
  d.accepted.any fun a => a.req.mbx.val == m
    && (a.objs.contains (.bulkArea m) || (a.code == 0x0204 && leAt a.req.payload 12 4 == 0xFFFFFFFF))

/-- The check of a chunk's OFFSET and LEN (R97). -/
def chunkOk (off len : Nat) : Bool :=
  decide (off % 4 = 0 ∧ len % 4 = 0 ∧ 4 ≤ len ∧ len ≤ 4068 ∧ off + len ≤ bulkSize)

/-- BULK_PUT writes one chunk into the bulk area of the requesting mailbox (R79, R97). -/
def execBulkPut (r : Req) (s : State) : Host.Outcome State Fault Refusal :=
  s.upd fun d => d.command
    { code := 0x0108, len := fun p => decide (p.length ≥ 8 ∧ p.length = 8 + leAt p 4 2), reserved := fun p => zeroAt p 6 2 } r fun d =>
    let off := leAt r.payload 0 4
    let len := leAt r.payload 4 2
    if chunkOk off len = false then .err d St.badParam
    else if d.bulkBusy r.mbx.val then .err d St.busy
    else .ok (d.bulkWr r.mbx.val off (r.payload.drop 8)) (le 4 (off + len))

/-- BULK_GET reads one chunk of the bulk area, sealed or not (R97); a response of more than 4,060 bytes is tagged all the same
(DESIGN CHOICE, notes/assumptions/119.md). -/
def execBulkGet (r : Req) (s : State) : Host.Outcome State Fault Refusal :=
  s.upd fun d => d.command { code := 0x0109, len := lenIs 8, reserved := fun p => zeroAt p 6 2 } r fun d =>
    let off := leAt r.payload 0 4
    let len := leAt r.payload 4 2
    if chunkOk off len = false then .err d St.badParam
    else if d.bulkBusy r.mbx.val then .err d St.busy
    else .ok d (le 4 off ++ le 2 len ++ zeros 2 ++ d.bulkRd r.mbx.val off len)

end Sys2Proof.Machine
end

