-- ==== Sys2Proof/Machine/Position.lean ====
section
/-! DEFINITION. The position commands and the events of encoders, coil marks, trigger generators and strobes
(spec/04_strip_position.md). -/

namespace Sys2Proof.Machine

open Sys2Proof

/-- The role of encoder e: 0 OFF, 1 MASTER, 2 CHECK. -/
def Dev.encRole (d : Dev) (e : Nat) : Nat := d.fld (Reg.encCfg e) 30 2

/-- The settings of ENCODER_CONFIG in their registers. A change of master keeps SPOS and f until the new master's first
tick (R127). -/
def Dev.setEncoder (d : Dev) (e role flags filter ratio limit hyst guard : Nat) : Dev :=
  let old := d.master
  let d1 := d.wrN (Reg.encCfg e) (role * 2 ^ 30 + bits flags 0 1 * 2 ^ 29 + filter * 2 ^ 16)
  let d2 := (d1.wrN (Reg.encRatio e) ratio).wrN (Reg.encLimit e) limit
  let d3 :=
    if role = 1 then
      d2.wrN Reg.posCtrl (bits flags 1 1 * 2 ^ 31 + bits flags 2 1 * 2 ^ 30 + e * 2 ^ 28 + 2 ^ 27 + guard * 2 ^ 16 + hyst)
    else if old = some e then d2.setFlag Reg.posCtrl 27 false
    else d2
  if d3.master = old then d3
  else { d3 with pos := { d3.pos with f := d.fraction, lastTick := none, period := none } }

/-- ENCODER_CONFIG sets the role, filter and options of one encoder, and the device-wide settings with a MASTER (R125). -/
def execEncoderConfig (r : Req) (s : State) : Host.Outcome State Fault Refusal :=
  s.upd fun d => d.command { code := 0x0301, len := lenIs 16, objs := fun _ => [.position],
                             reserved := fun p => bits (leAt p 3 1) 3 5 == 0 } r fun d =>
    let p := r.payload
    let e := leAt p 0 1
    let role := leAt p 1 1
    let ratio := leAt p 4 4
    let limit := leAt p 8 4
    if e > 3 ∨ role > 2 ∨ (role = 2 ∧ (ratio = 0 ∨ limit = 0 ∨ limit ≥ 2 ^ 31)) ∨ (role ≠ 2 ∧ (ratio ≠ 0 ∨ limit ≠ 0))
        ∨ (role = 1 ∧ leAt p 14 2 > 1000) ∨ (role = 1 ∧ (List.range 4).any fun x => x != e && d.encRole x == 1) then
      .err d St.badParam
    else if (d.lineStarted && (d.master == some e) != (role == 1)) || (role == 1 && d.isFollower) then .err d St.badState
    else Result.stiff d (.ok (d.setEncoder e role (leAt p 3 1) (leAt p 2 1) ratio limit (leAt p 12 2) (leAt p 14 2)) [])

/-- Whether the strobe settings of a plan are those in force for head k. -/
def Dev.strobesEqual (d : Dev) (k mask pol delay : Nat) : Bool :=
  (List.range 8).all fun n =>
    let c := d.rdN (Reg.strbCfg n)
    let held := bit c 31 && bits c 24 4 == k
    held == bit mask n && (!bit mask n || (bit c 30 == bit pol n && bits c 0 16 == delay))

/-- Bind and unbind the strobe outputs of head k (R147). -/
def Dev.bindStrobes (d : Dev) (k mask pol delay : Nat) : Dev :=
  ((List.range 8).foldl (fun d n =>
    let c := d.rdN (Reg.strbCfg n)
    if bit mask n then d.wrN (Reg.strbCfg n) (2 ^ 31 + b2n (bit pol n) * 2 ^ 30 + k * 2 ^ 24 + delay)
    else if bit c 31 && bits c 24 4 == k then
      ({ d with pos := { d.pos with strobes := modAt d.pos.strobes n fun _ => {} } } : Dev).wrN (Reg.strbCfg n) 0
    else d) d).showExp k

/-- TRIGGER_PLAN sets one head's trigger plan and the strobe outputs it drives (R139, R147). -/
def execTriggerPlan (r : Req) (s : State) : Host.Outcome State Fault Refusal :=
  s.upd fun d => d.command { code := 0x0302, len := lenIs 20, objs := fun _ => [.position],
                             reserved := fun p => bits (leAt p 4 4) 24 8 == 0 && bits (leAt p 8 8) 48 16 == 0 } r fun d =>
    let p := r.payload
    let k := leAt p 0 1
    let mode := leAt p 1 1
    let minp := leAt p 2 2
    let pitch := leAt p 4 4
    let off := leAt p 8 8
    let mask := leAt p 16 1
    let pol := leAt p 17 1
    let delay := leAt p 18 2
    if k > 15 ∨ mode > 2 ∨ (mode = 1 ∧ pitch < 0x100) ∨ (mode ≠ 1 ∧ pitch ≠ 0) then .err d St.badParam
    else
      let same := d.mode k == mode && d.pitch k == pitch && d.offset256 k == off
        && d.rdN (Reg.headMinp k) == minp && d.strobesEqual k mask pol delay
      if same then ⟨St.alreadyDone, [], d, [], [], false⟩
      else if d.lineStarted && (d.mode k != 0 || mode != 0) then .err d St.badState
      else
        let d1 := ((d.wrN (Reg.headTrig k) (mode * 2 ^ 30 + pitch)).wr64 (Reg.headOffset k) off).wrN (Reg.headMinp k) minp
        Result.stiff d (.ok (d1.bindStrobes k mask pol delay).reportOffset [])

/-- The batt of the row at SPOS on the grid of R134; none before the first line. -/
def Dev.refBatt (d : Dev) : Nat :=
  if d.pos.gen = 0 then noBatt
  else (d.battOfRow (floorDiv (4 * d.spos - d.origin256) (max 1 d.pos.pitch)) % (2 ^ 48 : Nat)).toNat

/-- Response of POSITION_READ. -/
def Dev.positionReport (d : Dev) : Bytes :=
  sle 8 d.spos ++ le 8 d.timeNs ++ le 8 (d.rd64 Reg.sposHwm) ++ le 4 (d.rdN Reg.posRate)
  ++ le 1 (b2n d.lineStarted + 2 * b2n (d.flag Reg.posStat 30) + 4 * b2n d.isFollower + 8 * b2n (d.flag Reg.posStat 28)
      + 16 * b2n d.unlocked)
  ++ le 1 (d.master.getD 0xFF) ++ zeros 2 ++ le 8 (d.rd64 Reg.lineOrigin) ++ le 8 d.refBatt ++ le 4 (d.rdN Reg.coilNum)
  ++ zeros 4 ++ ((List.range 4).map fun e => le 4 (d.rdN (Reg.encCnt e))).flatten

/-- POSITION_READ returns the position state, all from one cycle (R131). -/
def execPositionRead (r : Req) (s : State) : Host.Outcome State Fault Refusal :=
  s.upd fun d => d.command { code := 0x0303, len := lenIs 0, objs := fun _ => [.position] } r fun d => .ok d d.positionReport

/-- BATT_GEOMETRY sets the row pitch and the batt height on the lead, which fans them out (R134, R415). -/
def execBattGeometry (r : Req) (s : State) : Host.Outcome State Fault Refusal :=
  s.upd fun d => d.command { code := 0x0304, len := lenIs 8, recov := true, objs := fun _ => [.position],
                             reserved := fun p => bits (leAt p 0 4) 24 8 == 0 && zeroAt p 5 3 } r fun d =>
    let pitch := leAt r.payload 0 4
    let h := leAt r.payload 4 1
    if pitch < 0x100 ∨ h < 6 ∨ h > 13 then .err d St.badParam
    else if d.lineStarted || d.isFollower then .err d St.badState
    else Result.stiff d (.ok ((d.wrN Reg.battCfg (h * 2 ^ 28 + pitch)).fanOut 0x0304 [(pitch : Int), (h : Int)]) [])

/-- The write pointer of pipeline n has passed virtual page v in a lap. -/
def Dev.pagePassed (d : Dev) (n lap v : Nat) : Bool :=
  let w := signed 64 (d.rd64 (Reg.hoodWptr n))
  let ns := max 1 (d.rdN (Reg.hoodNslot n))
  if w < 0 then false
  else
    let next := w.toNat + 1
    decide (next / ns > lap) || (next / ns == lap && decide (next % ns * d.rdN (Reg.hoodRowb n) / pageSize > v))

/-- ROW_BYTES and NSLOT of pipeline n are fixed for the line (R336); its rows count from 0 again, so that its write pointer starts
anew and the laps so far are those of an earlier line (R343, R347, notes/assumptions/57.md). -/
def Dev.fixHood (d0 : Dev) (n : Nat) : Dev :=
  let d := ({ d0 with hood := { d0.hood with laps := d0.hood.laps.map fun l =>
    if l.pipe = n ∧ l.past.isNone = true then { l with past := some (d0.pagePassed n l.lap l.v) } else l } } : Dev).wr64
      (Reg.hoodWptr n) (2 ^ 63)
  let rb := max (d.rowBytes (d.liveView 0) n) (d.rowBytes (d.liveView 1) n)
  (d.wrN (Reg.hoodRowb n) rb).wrN (Reg.hoodNslot n) (d.fld (Reg.hoodCfg n) 0 15 * 2097152 / rb)

/-- The lead L of a loop group (R292). -/
def Dev.loopLead (d : Dev) (l : Loop) : Nat :=
  let heads := maskList 16 (leAt l.params 4 2)
  let offMax := (maxOf (heads.map d.offset256)).getD 0
  1 + ceilDiv (offMax - d.minOffset.getD 0 + 256 * leAt l.params 28 4) (max 1 d.battLen256)

/-- NRUNGS of the active fulling bank. -/
def Dev.nrungs (d : Dev) : Nat := d.fld (Reg.outCfg (d.fld Reg.fulBank 31 1)) 0 3 + 1

/-- What the achieved rate is measured from, now (R320). -/
def Dev.rateMark (d : Dev) : RateMark :=
  ⟨d.now, d.ful.busy + d.ful.inFlightSince.elim 0 (d.now - ·), d.ful.done, d.ful.doneRecall⟩

/-- The generator of a contributing head at LINE_START: line 0 is next, the minimum period still runs from its last fire (R141),
and changes without a target take the first batt of the line (R289). -/
def TrigGen.start (g : TrigGen) (first : Nat) (on : Bool) : TrigGen :=
  let f := fun (t : Nat) => if t = noBatt then first else t
  { g with iNext := 0, stopped := !on, reached := 0
           pending := g.pending.map fun c => { c with target := f c.target }
           committed := g.committed.map fun p => (f p.1, p.2) }

/-- LINE_START at its commit (R134, R241, R262, R267, R321, R336): origin and first batt are fixed, the contributing heads
are those whose MODE is not OFF, generators, hoods, brim, crop and ladder start anew. -/
def Dev.startLine (d : Dev) (origin : Int) (first : Nat) : Dev :=
  let heads := d.enabledHeads
  let d1 := ((d.wrI64 Reg.lineOrigin origin).wr64 Reg.battFirst first).setFlag Reg.posStat 31 true
  let gens := (d1.pos.gens.zip (List.range 16)).map fun p => p.1.start first (heads.contains p.2)
  let encs := d1.pos.encs.map fun e => { e with dM := 0, dC := 0 }
  let tracks := d1.pos.tracks.map fun t => if t.target = noBatt then { t with target := first } else t
  let d2 := { d1 with pos := { d1.pos with
    pitch := d1.fld Reg.battCfg 0 24, hlog := d1.fld Reg.battCfg 28 4, contributing := heads, stopAfter := none,
    firstFired := false, dropped := [], peak := d1.spos, coils := [(d1.spos, d1.rdN Reg.coilNum)], gen := d1.pos.gen + 1,
    gens := gens, encs := encs, tracks := tracks } }
  let g := d2.grid
  let d3 := heads.foldl (fun d n => (((d.fixHood n).modPipe n fun p => { p with
      cards := p.cards ++ [{ grid := g, mode := d.mode n, pitch := d.pitch n, offset := d.offset256 n, awaits := max 1 (d.awaits n) }],
      brims := [{}, {}] }).wr64 (Reg.cardLineHwm n) (2 ^ 64 - 1)).wr64 (Reg.cardRowLast n) (2 ^ 63)) d2
  let d4 := (List.range 16).foldl (fun d n => ((d.modPort n fun p => { p with lastFiredBatt := none, unfired := [] }).setFld
    (Reg.brStat n) 30 2 0).showExp n) d3
  let d5 := ((({ d4 with band := { d4.band with openReports := [] } } : Dev).wrN Reg.cropNowFirst (d4.rdN Reg.devFirst)).wrN
    Reg.cropNowLast (d4.rdN Reg.devLast)).wrN Reg.cropStat 0
  { d5 with ful := { d5.ful with
      nextOpen := first, cur := 0, cPrev := d5.nrungs, lastRung := 0, marks := [d5.rateMark],
      loops := d5.ful.loops.map fun l => { l with lead := d5.loopLead l } } }

/-- LINE_START fixes the origin and the first batt number and starts the line (R155). -/
def execLineStart (r : Req) (s : State) : Host.Outcome State Fault Refusal :=
  s.upd fun d => d.command { code := 0x0305, len := lenIs 24, recov := true, objs := fun _ => [.position],
                             reserved := fun p => zeroAt p 1 7 } r fun d =>
    let when_ := leAt r.payload 0 1
    let org := sleAt r.payload 8 8
    let fb := leAt r.payload 16 8
    let last := d.rd64 Reg.battLastUsed % 2 ^ 48
    let none_ := last = 2 ^ 48 - 1
    let first := if fb = 2 ^ 48 - 1 then (if none_ then 0 else last + 1) else fb
    let edge : Int := d.spos + 64 * (d.guard : Int)
    let o : Int := if when_ = 1 then -(floorDiv (-edge) 64) * 64 else org
    if when_ > 1 ∨ (when_ = 1 ∧ org ≠ 0) ∨ fb ≥ 2 ^ 48 ∨ (fb ≠ 2 ^ 48 - 1 ∧ ¬ none_ ∧ fb ≤ last) then .err d St.badParam
    else if d.lineStarted || d.isFollower || d.master.isNone then .err d St.badState
    else if o < edge then .err d St.tooLate
    else .ok ((d.startLine o first).fanOut 0x0305 [o, (first : Int)]) (sle 8 o ++ le 8 first)

/-- After LINE_STOP AFTER_BATT: heads whose next line lies beyond LAST_BATT stop, and the line stops with the last. -/
def Dev.commitStop (d : Dev) (last : Nat) : Dev :=
  let d1 := { d with pos := { d.pos with stopAfter := some last } }
  ((List.range 16).foldl (fun d k => d.stopHead k) d1).checkStopped

/-- LINE_STOP commits a stop of triggering, now or after a named batt (R156). -/
def execLineStop (r : Req) (s : State) : Host.Outcome State Fault Refusal :=
  s.upd fun d => (d.command { code := 0x0306, len := lenIs 16, recov := true, objs := fun _ => [.position],
                              reserved := fun p => zeroAt p 1 7 } r fun d =>
    let when_ := leAt r.payload 0 1
    let last := leAt r.payload 8 8
    if when_ > 1 ∨ (when_ = 0 ∧ (last ≥ 2 ^ 48 ∨ last < d.battFirst)) ∨ (when_ = 1 ∧ last ≠ 0) then .err d St.badParam
    else if !d.lineStarted || d.isFollower then .err d St.badState
    else if when_ = 0 ∧ d.tooLate (last + 1) then .err d St.tooLate
    else
      let l := if when_ = 0 then last else d.lastReached
      let d1 := d.fanOut 0x0306 [(when_ : Int), (l : Int)]
      .acc (if when_ = 0 then d1.commitStop l else d1.stopNow 0) [.position] []).settleStop

/-- COIL_MARK_CONFIG configures one mark channel (R132). -/
def execCoilMarkConfig (r : Req) (s : State) : Host.Outcome State Fault Refusal :=
  s.upd fun d => d.command { code := 0x0307, len := lenIs 16, objs := fun _ => [.position],
                             reserved := fun p => bits (leAt p 2 1) 2 6 == 0 && zeroAt p 12 4 } r fun d =>
    let p := r.payload
    let c := leAt p 0 1
    let src := leAt p 1 1
    let fl := leAt p 2 1
    let filt := leAt p 3 1
    if c > 1 ∨ src > 6 ∨ (1 ≤ src ∧ src ≤ 4 ∧ filt ≠ 0) ∨ leAt p 8 4 ≥ 2 ^ 31 then .err d St.badParam
    else Result.stiff d (.ok
      (((d.wrN (Reg.mkCfg c) (src * 2 ^ 29 + bits fl 0 1 * 2 ^ 28 + bits fl 1 1 * 2 ^ 27 + filt * 2 ^ 16)).wrN
        (Reg.mkOffset c) (leAt p 4 4)).wrN (Reg.mkHold c) (leAt p 8 4)) [])

/-! ## Encoders -/

/-- Encoder e. -/
def Dev.enc (d : Dev) (e : Nat) : Encoder := d.pos.encs.getD e {}
/-- Change encoder e. -/
def Dev.modEnc (d : Dev) (e : Nat) (f : Encoder → Encoder) : Dev :=
  { d with pos := { d.pos with encs := modAt d.pos.encs e f } }

/-- Quadrature phase of the levels of (A, B): 00, 10, 11, 01 in forward order (R123). -/
def phaseOf (a b : Bool) : Nat :=
  match a, b with
  | false, false => 0
  | true, false => 1
  | true, true => 2
  | false, true => 3

/-- An encoder's fault, unless its role is OFF (R123, R124, R125, R126). -/
def Dev.encFault (d : Dev) (e : Nat) : Dev := if d.encRole e = 0 then d else d.fault (0x73 + e)

/-- The slip check of encoder e (R126). Before the first reference point the counts run from reset, and an encoder that takes the
role CHECK is compared from the last reference point (DESIGN CHOICE, notes/assumptions/123.md). -/
def Dev.slipCheck (d : Dev) (e : Nat) : Dev :=
  let x := d.enc e
  let diff := (x.dM * 65536 - x.dC * (d.rdN (Reg.encRatio e) : Int)).natAbs
  if d.encRole e = 2 ∧ diff > d.rdN (Reg.encLimit e) * 65536 then
    ((d.modEnc e fun x => { x with dM := 0, dC := 0 }).incSat (Reg.encErr e) 0 8 1).encFault e
  else d

/-- The master's tick moves N and f (R127, R128), and every check encoder's count of master ticks. -/
def Dev.masterTick (d : Dev) (fwd : Bool) : Dev :=
  let step : Int := if fwd then 1 else -1
  let period := match d.pos.lastTick with
    | some t => if fwd = d.pos.fwd then some (d.now - t) else none
    | none => none
  let encs := d.pos.encs.map fun x => { x with dM := x.dM + step }
  { d with pos := { d.pos with
    n := d.pos.n + step, f := 0, fwd := fwd, lastTick := some d.now, period := period, encs := encs } }

/-- An accepted change of the levels of encoder e: one tick, or an illegal transition when both change (R123). A tick
shows that the pair is no longer open (R124). -/
def Dev.levels (d : Dev) (e : Nat) (a b : Bool) : Dev :=
  let x := d.enc e
  let delta := (phaseOf a b + 4 - phaseOf x.a x.b) % 4
  let d1 := d.modEnc e fun x => { x with a := a, b := b }
  if delta = 0 then d
  else if delta = 2 then (d1.incSat (Reg.encErr e) 16 16 1).encFault e
  else
    let fwd := (delta == 1) != d1.flag (Reg.encCfg e) 29
    let step : Int := if fwd then 1 else -1
    let d2 := ((d1.modEnc e fun x => { x with dC := x.dC + step, openPair := false }).wrN (Reg.encCnt e)
      (unsigned 32 ((d1.rdN (Reg.encCnt e) : Int) + step))).faultOff (0x73 + e)
    let d3 := if d2.master = some e ∧ d2.isFollower = false then (d2.masterTick fwd).formSpos else d2
    if d3.master.isSome then (List.range 4).foldl (fun d i => d.slipCheck i) d3 else d3

/-- FILTER of encoder e (R121). -/
def Dev.encFilter (d : Dev) (e : Nat) : Nat := d.fld (Reg.encCfg e) 16 8

/-- The glitch filter (R121): a level that the synchronised input has held for `held` samples is accepted from FILTER + 1 on. Two
stages of the synchroniser come before it, so that an edge is accepted FILTER + 3 cycles after it came to the pins. -/
def filtered (filter held : Nat) : Bool := decide (held ≥ filter + 1)

/-- Some cycles after the previous command, the synchronised inputs of encoder enc have shown the levels a and b
(R121 to R128). SPOS takes the fraction 0 in the cycle of a tick (R128, R129). -/
def execEncoderTick (enc : Fin 4) (a b : Bool) (run : LevelRun) (s : State) : Host.Outcome State Fault Refusal :=
  s.upd fun d =>
    let d1 := d.advance (run.dt - 1)
    let d2 := if run.dt = 0 then d1 else d1.clock
    (if filtered (d2.encFilter enc.val) run.held then d2.levels enc.val a b else d2).formSpos

/-- An open or shorted pair of an encoder has lasted 1 us (R124). -/
def execEncoderOpen (enc : Fin 4) (s : State) : Host.Outcome State Fault Refusal :=
  s.upd fun d =>
    let d1 := (d.modEnc enc.val fun x => { x with openPair := true }).incSat (Reg.encErr enc.val) 8 8 1
    if d1.encRole enc.val = 0 then d1 else d1.faultOn (0x73 + enc.val)

/-- COIL_NUM counts; it is in force for the positions above those reached so far (R133). -/
def Dev.newCoil (d : Dev) : Dev :=
  let d1 := d.incWrap Reg.coilNum 0 32 1
  { d1 with pos := { d1.pos with coils := (d1.pos.peak, d1.rdN Reg.coilNum) :: d1.pos.coils } }

/-- A mark channel's source has shown its selected edge for some samples: accepted through the filter of its encoder, or of the
channel for COIL_MK0 and COIL_MK1 (R121, R132, R133). -/
def execMarkEdge (x : MarkSample) (s : State) : Host.Outcome State Fault Refusal :=
  s.upd fun d =>
    let c := x.ch.val
    let cfg := d.rdN (Reg.mkCfg c)
    let src := bits cfg 29 3
    if src = 0 ∨ src = 7 ∨ filtered (if src ≤ 4 then d.encFilter (src - 1) else bits cfg 16 8) x.held = false then d
    else
      let d0 := if src ≤ 4 then d.modEnc (src - 1) fun x => { x with z := !bit cfg 28 } else d
      let st := d0.spos - 64 * signed 32 (d0.rdN (Reg.mkOffset c))
      if st > d0.rdI64 (Reg.mkLast c) + 64 * (d0.rdN (Reg.mkHold c) : Int) then
        let d1 := (d0.wrI64 (Reg.mkLast c) st).incWrap (Reg.mkCnt c) 16 16 1
        let d2 := if bit cfg 27 then d1.newCoil else d1
        d2.event 0x8304 none (le 1 c ++ zeros 3 ++ le 4 (d2.rdN Reg.coilNum) ++ sle 8 st)
      else d0.incSat (Reg.mkCnt c) 0 16 1

/-! ## Triggers and strobes -/

/-- Minimum distance of two fires in cycles (R142, R179). -/
def Dev.minPeriod (d : Dev) (k : Nat) : Nat :=
  if d.portState k = 0 then d.rdN (Reg.headMinp k) % 65536 else max (d.rdN (Reg.headMinp k) % 65536) 17

/-- SPOS has reached the next trigger position of a head (R141): its line is suppressed while the port is detached or
halted (R607), skipped within the minimum period (R142), else fired; the batt opens (R35) and the generator advances. -/
def execTriggerFire (head : Fin 16) (x : FireAt) (s : State) : Host.Outcome State Fault Refusal :=
  s.upd fun d =>
    let k := head.val
    let g := d.gen k
    let i := g.iNext
    if !d.lineStarted || d.mode k == 0 || g.stopped || decide (4 * d.spos < d.trigPos k i) then d
    else
      let b := d.battOfLine k i
      let soon := g.lastFire.any fun t => decide (d.now < t + d.minPeriod k)
      let d1 := d.openBatts b
      let d2 :=
        if d1.portState k = 0 ∨ (d1.port k).halted = true then d1.genLoss k i b Cause.detached
        else if soon then (d1.incSat (Reg.headCnt k) 8 8 1).genLoss k i b Cause.overspeed
        else d1.fireLine k i b x.expsetLate x.phase.val
      ((d2.modGen k fun g => { g with iNext := i + 1, reached := max g.reached (i + 1) }).stopHead k).checkStopped

/-- SPOS has fallen far enough below the last line: the generator is re-armed to the smallest line above SPOS (R141,
R143). -/
def execTriggerRearm (head : Fin 16) (s : State) : Host.Outcome State Fault Refusal :=
  s.upd fun d =>
    let k := head.val
    let g := d.gen k
    let sp := 4 * d.spos
    if !d.lineStarted || d.mode k == 0 || g.stopped || d.flag Reg.posCtrl 30 || g.iNext == 0
        || decide (sp > d.trigPos k (g.iNext - 1) - 256 * (d.revHyst : Int)) then d
    else
      let x := sp - d.trigPos k 0
      let i := if x < 0 then 0 else x.toNat / max 1 (d.linePitch256 k) + 1
      d.modGen k fun g => { g with iNext := i }

/-- A strobe pulse begins: its output goes active, or stays active with its width count restarted (R147, R148). -/
def execStrobeActive (out : Fin 8) (s : State) : Host.Outcome State Fault Refusal :=
  s.upd fun d =>
    let n := out.val
    let st := d.pos.strobes.getD n {}
    match st.due with
    | [] => d
    | _ :: rest =>
      if !d.lineStarted || !d.flag (Reg.strbCfg n) 31 || d.safe then d
      else
        let d1 := { d with pos := { d.pos with strobes := modAt d.pos.strobes n fun _ => ⟨true, rest⟩ } }
        if st.active then d1.incSat (Reg.strbStat n) 0 16 1 else d1.emit (.strobe n true)

/-- A strobe output's width count expires (R147). -/
def execStrobeEnd (out : Fin 8) (s : State) : Host.Outcome State Fault Refusal :=
  s.upd fun d =>
    let n := out.val
    if (d.pos.strobes.getD n {}).active then
      ({ d with pos := { d.pos with strobes := modAt d.pos.strobes n fun x => { x with active := false } } } : Dev).emit
        (.strobe n false)
    else d

/-- The block idles for one CK_CTL cycle: time and the interpolated SPOS go on (notes/assumptions/3.md). -/
def idle (s : State) : Host.Outcome State Fault Refusal := s.upd fun d => d.cycle

end Sys2Proof.Machine
end

