-- ==== Sys2Proof/Machine/Head.lean ====
section
/-! DEFINITION. The head commands and the events of the head link ports (spec/05_head_link.md). -/

namespace Sys2Proof.Machine

open Sys2Proof

/-! ## Attaching and detaching -/

/-- The power domains of head link port and pipeline n, in the order in which HEAD_ATTACH switches them on (R548). -/
def pipeDomains (n : Nat) : List Nat := [n, 16 + n, 32 + n, 48 + n, 64 + n, 80 + n]

/-- A queue switch of the last of a list of domains that will in fact be switched. -/
def Dev.lastSwitch (d : Dev) (on : Bool) (l : List Nat) : Option (Nat × Bool) :=
  (l.filter fun j => d.domainOn j != on).getLast?.map fun j => (j, on)

/-- Active lanes of port n. -/
def Dev.laneCount (d : Dev) (n : Nat) : Nat := 2 ^ d.fld (Reg.hlCfg n) 26 2
/-- Physical lane of logical lane k. -/
def Dev.laneMap (d : Dev) (n k : Nat) : Nat := d.fld (Reg.hlLanemap n) (2 * k) 2

/-- LANES of HEAD_ATTACH as the L code. -/
def lcodeOf (lanes : Nat) : Nat := if lanes = 1 then 0 else if lanes = 2 then 1 else 2

/-- The registers that a HEAD_ATTACH request gives: HLn_CFG, HLn_GEOM, HLn_LANEMAP, HLn_TIMEOUT. -/
def attachRegs (p : Bytes) : Nat × Nat × Nat × Nat :=
  let fl := leAt p 5 1
  (2 ^ 31 + leAt p 1 1 * 2 ^ 28 + lcodeOf (leAt p 2 1) * 2 ^ 26 + bits fl 0 1 * 2 ^ 25 + leAt p 3 1 * 2 ^ 16
    + leAt p 4 1 * 2 ^ 8 + bits fl 1 4 * 2 ^ 4 + (leAt p 7 1 - 1),
   leAt p 10 2 * 2 ^ 16 + leAt p 8 2, leAt p 6 1, leAt p 12 2)

/-- A HEAD_ATTACH request is within its ranges. -/
def attachOk (p : Bytes) : Bool :=
  let lanes := leAt p 2 1
  let dt := leAt p 4 1
  let lpt := leAt p 7 1
  let w := leAt p 8 2
  let maps := (List.range lanes).map fun k => bits (leAt p 6 1) (2 * k) 2
  decide (leAt p 0 1 ≤ 15 ∧ leAt p 1 1 ≤ 4 ∧ (lanes = 1 ∨ lanes = 2 ∨ lanes = 4) ∧ leAt p 3 1 ≤ 15
    ∧ (dt = 0x27 ∨ (0x2A ≤ dt ∧ dt ≤ 0x2F)) ∧ 1 ≤ lpt ∧ lpt ≤ 8 ∧ 64 ≤ w ∧ w ≤ 32768 ∧ w % 8 = 0
    ∧ 1 ≤ leAt p 10 2 ∧ 1 ≤ leAt p 12 2 ∧ maps.eraseDups.length = maps.length)

/-- The registers of bank b of pipeline n that the identity of R219 and R251 sets: black levels, mosaic descriptor, matrix,
block map settings. -/
def identityRegs (n b : Nat) : List Nat :=
  (List.range 9).map (Reg.ppBl n b) ++ [Reg.mosCfg n b] ++ (List.range 4).flatMap (fun j =>
      [Reg.matW0 n b j, Reg.matW1 n b j, Reg.matW2 n b j, Reg.matW3 n b j])
    ++ [Reg.bkCol0 n b, Reg.bkCfg n b, Reg.bkAnchor n b]

/-- The identity of R219 and R251 in both banks of pipeline n: the tables and these registers stand as before READY. -/
def Dev.identityTables (d : Dev) (n : Nat) : Dev :=
  let base := tableBase n
  let mine := fun (a : Nat) => decide (base ≤ a ∧ a < base + 0x100000)
  let d1 := { d with deep := d.deep.filter fun p => !mine p.1, lost := d.lost.filter fun a => !mine a }
  (identityRegs n 0 ++ identityRegs n 1).foldl (fun d a => d.wr a (RegMap.resetAt a)) d1

/-- HEAD_ATTACH takes effect: the port's registers, its tables when WIDTH changes, a fresh link state, and no exposure
change since the attach (R272, R287); a started line awaits its lines. -/
def Dev.attachPort (d : Dev) (n : Nat) (p : Bytes) : Dev :=
  let g := attachRegs p
  let d1 := (((d.wrN (Reg.hlCfg n) g.1).wrN (Reg.hlGeom n) g.2.1).wrN (Reg.hlLanemap n) g.2.2.1).wrN (Reg.hlTimeout n) g.2.2.2
  let w := leAt p 8 2
  let d2 := if (d1.pipe n).width.any (· != w) then d1.identityTables n else d1
  let d3 := (d2.modPipe n fun q => { q with width := some w }).modPort n fun q => { lastDown := q.lastDown }
  let d4 := (d3.modGen n fun g => { g with setting := {}, pending := [], committed := [] }).showExp n
  let d5 := d4.wrN (Reg.hlStat n) 0
  if d5.lineStarted then d5.modCard n d5.pos.gen fun c => c.withAwaits (max 1 (d5.awaits n)) else d5

/-- The domains of an attached port are on: its back-channel runs, it trains (R183, R548). -/
def Dev.portPowered (d : Dev) (n : Nat) : Dev := d.setPortState n 2

/-- HEAD_ATTACH configures and powers a port and starts training; ACCEPTED comes with its domains (R184, R550). -/
def execHeadAttach (r : Req) (s : State) : Host.Outcome State Fault Refusal :=
  s.upd fun d => d.commandOr
    { code := 0x0401, len := lenIs 16, recov := true, objs := fun p => [.pipe (leAt p 0 1)],
      reserved := fun p => bits (leAt p 5 1) 5 3 == 0 && zeroAt p 14 2 } r fun d =>
    let p := r.payload
    let n := leAt p 0 1
    let g := attachRegs p
    if attachOk p = false then .inl (.err d St.badParam)
    else if d.portState n ≠ 0 then
      if d.rdN (Reg.hlCfg n) = g.1 ∧ d.rdN (Reg.hlGeom n) = g.2.1 ∧ d.rdN (Reg.hlLanemap n) = g.2.2.1
          ∧ d.rdN (Reg.hlTimeout n) = g.2.2.2 then .inl ⟨St.alreadyDone, [], d, [], [], false⟩
      else .inl (.err d St.badState)
    else if d.stiffActive then .inl (.err d St.stiffened)
    else if d.flag Reg.fltUrec n then .inl (.err d St.recovering)
    else
      let d1 := d.attachPort n p
      match d1.lastSwitch true (pipeDomains n) with
      | some sw => .inr ⟨d1.requestDomains true (pipeDomains n), [.pipe n], [n], some sw⟩
      | none => .inl (.acc (d1.portPowered n) [.pipe n] [n])

/-- The line in progress and the awaiting records of a port are lost with a cause (R186, R188). -/
def Dev.dropTable (d : Dev) (n cause : Nat) : Dev :=
  let p := d.port n
  let d1 := match p.line with
    | some l => d.passLine n (l.rcd.line l.sub cause l.why [])
    | none => d
  let d2 := match p.inUse with
    | some t => d1.loseRecord n t cause
    | none => d1
  let d3 := p.table.foldl (fun d t => d.loseRecord n t cause) d2
  d3.modPort n fun q => { q with table := [], inUse := none, line := none, echo := none }

/-- A HEAD_MESSAGE in progress ends: its fragments not yet sent are not sent (spec/05 HEAD_MESSAGE). -/
def Dev.abortMessage (d : Dev) (n : Nat) : Dev :=
  match d.running.find? fun x => x.code == 0x0404 && x.args == [n] with
  | some x => d.endRunning x St.badState []
  | none => d

/-- HEAD_DETACH takes effect at its commit: HALT, the records lost with cause DETACHED; no TRIGGER follows (R188). -/
def Dev.detachPort (d : Dev) (n : Nat) : Dev :=
  let d1 := ((d.haltHead n).dropTable n Cause.detached).modPort n fun q => { q with halted := true }
  (d1.setFlag (Reg.hlCfg n) 31 false).abortMessage n

/-- A detached port's domains are off: DETACHED (R183). -/
def Dev.portOff (d : Dev) (n : Nat) : Dev :=
  ((d.wrN (Reg.hlStat n) (d.fld (Reg.hlStat n) 0 8)).setPortState n 0).faultOff (0x10 + n)

/-- HEAD_DETACH sends HALT, discards the line in progress and its records, and powers the port down (R188). -/
def execHeadDetach (r : Req) (s : State) : Host.Outcome State Fault Refusal :=
  s.upd fun d => d.commandOr { code := 0x0402, len := lenIs 4, reserved := fun p => zeroAt p 1 3,
                               objs := fun p => [.pipe (leAt p 0 1)] } r fun d =>
    let n := leAt r.payload 0 1
    if n > 15 then .inl (.err d St.badParam)
    else if d.portState n = 0 then .inl ⟨St.alreadyDone, [], d, [], [], false⟩
    else if d.lineStarted && d.mode n != 0 then .inl (.err d St.badState)
    else if d.stiffActive then .inl (.err d St.stiffened)
    else
      let d1 := d.detachPort n
      let off := (pipeDomains n).reverse
      match d1.lastSwitch false off with
      | some sw => .inr ⟨d1.requestDomains false off, [.pipe n], [n], some sw⟩
      | none => .inl (.ok (d1.portOff n) [])

/-- Response of HEAD_LINK_STATUS. -/
def Dev.linkReport (d : Dev) (n : Nat) : Bytes :=
  let st := d.rdN (Reg.hlStat n)
  le 1 (bits st 29 3) ++ le 1 (bits st 24 4) ++ le 1 (bits st 23 1) ++ le 1 (bits st 0 8) ++ le 1 (bits st 8 6)
  ++ le 1 (d.fld (Reg.hlCfg n) 28 3) ++ le 1 (d.laneCount n) ++ zeros 1 ++ le 4 (d.rdN (Reg.hlLines n))
  ++ le 4 (d.rdN (Reg.hlErr0 n)) ++ le 4 (d.rdN (Reg.hlErr1 n)) ++ le 4 (d.rdN (Reg.hlErr2 n)) ++ le 4 (d.rdN (Reg.hlErr3 n))
  ++ zeros 4 ++ (match (d.port n).lastDown with
    | some x => sle 8 x
    | none => le 8 noBatt)

/-- HEAD_LINK_STATUS reports a port's state and counters without clearing them. -/
def execHeadLinkStatus (r : Req) (s : State) : Host.Outcome State Fault Refusal :=
  s.upd fun d => d.command { code := 0x0403, len := lenIs 4, reserved := fun p => zeroAt p 1 3,
                             objs := fun p => [.pipe (leAt p 0 1)] } r fun d =>
    if leAt r.payload 0 1 > 15 then .err d St.badParam else .ok d (d.linkReport (leAt r.payload 0 1))

/-- HEAD_MESSAGE starts sending a message to the head; it answers when the last fragment has left (R182). -/
def execHeadMessage (r : Req) (s : State) : Host.Outcome State Fault Refusal :=
  s.upd fun d => d.commandOr
    { code := 0x0404, len := fun p => decide (p.length ≥ 4 ∧ p.length = 4 + leAt p 2 2), reserved := fun p => zeroAt p 1 1,
      objs := fun p => [.pipe (leAt p 0 1)] } r fun d =>
    let n := leAt r.payload 0 1
    let len := leAt r.payload 2 2
    if n > 15 ∨ len < 1 ∨ len > 256 then .inl (.err d St.badParam)
    else if d.portState n ≠ 3 ∨ d.safe = true then .inl (.err d St.badState)
    else .inr ⟨d, [.pipe n], [n], none⟩

/-- HMSG fragments of a message: CTL, LEN and data (R177, R182). -/
def fragments (total : Nat) : Nat → Bytes → List Bytes
  | 0, _ => []
  | m + 1, data =>
    let idx := total - (m + 1)
    let piece := data.take 16
    (le 1 ((if idx = 0 then 0x80 else 0) + (if m = 0 then 0x40 else 0) + idx) ++ le 1 piece.length ++ piece)
      :: fragments total m (data.drop 16)

/-- The last fragment of a head message leaves the pins: HEAD_MESSAGE answers OK (R182). -/
def execHmsgSent (head : Fin 16) (s : State) : Host.Outcome State Fault Refusal :=
  s.upd fun d =>
    match d.running.find? fun x => x.code == 0x0404 && x.args == [head.val] with
    | some x =>
      let data := x.req.payload.drop 4
      let n := (data.length + 15) / 16
      ((fragments n n data).foldl (fun d f => d.sendChars head.val 3 f) d).endRunning x St.ok []
    | none => d

/-! ## Link state -/

/-- The logical lane that a physical lane of port n carries, if it is active; unused lanes are powered down (R157, R159). -/
def Dev.logicalLane (d : Dev) (n lane : Nat) : Option Nat := (List.range (d.laneCount n)).find? fun k => d.laneMap n k == lane

/-- An active receive lane gains block lock (R157, R163). -/
def execLaneBlockLock (head : Fin 16) (lane : Fin 4) (s : State) : Host.Outcome State Fault Refusal :=
  s.upd fun d =>
    if d.portState head.val = 0 ∨ d.logicalLane head.val lane.val = none then d
    else d.setFlag (Reg.hlStat head.val) (24 + lane.val) true

/-- Marker lock and the marker runs are lost (R163, R185, R186). -/
def Dev.clearLock (d : Dev) (n : Nat) : Dev :=
  (d.setFlag (Reg.hlStat n) 23 false).modPort n fun p =>
    { p with mcount := [none, none, none, none], runs := [0, 0, 0, 0] }

/-- An UP port goes DOWN (R186): the line in progress and the records are lost with cause LINK, LOSS counts, SPOS is
recorded, source 0x10 + n and HEAD_LINK_DOWN are raised. The frame ends with the link (DESIGN CHOICE,
notes/assumptions/124.md). -/
def Dev.linkDown (d : Dev) (n cause : Nat) : Dev :=
  if d.portState n ≠ 3 then d
  else
    let d1 := (d.dropTable n Cause.link).incSat (Reg.hlErr3 n) 0 8 1
    let d2 := ((d1.setPortState n 4).clearLock n).modPort n fun p =>
      { p with lastDown := some d1.spos, frameOpen := false }
    ((d2.abortMessage n).faultOn (0x10 + n)).event 0x8402 none (le 1 n ++ le 1 cause ++ zeros 2)

/-- Marker periods since the last valid marker of a lane, from the stream blocks between the two (R161): none where the spacing is
not right. -/
def markerPeriods (blocks : Nat) : Option Nat :=
  if blocks % 16384 = 16383 then some (blocks / 16384 + 1) else none

/-- A LANE_MARKER is received on a physical lane (R161 to R163): a
bad CRC-8 is counted; a valid one gives HEAD_ID and SKEW, extends the run of good markers in training, and takes an UP port down
when it disagrees, when two before it were missed, or when the skew exceeds 32. -/
def execLaneMarker (head : Fin 16) (lane : Fin 4) (marker : Bytes) (x : MarkerAt) (s : State) :
    Host.Outcome State Fault Refusal :=
  s.upd fun d =>
    let n := head.val
    let k := d.logicalLane n lane.val
    if d.portState n = 0 ∨ k = none then d
    else if pecOf (marker.take 7) ≠ marker.getD 7 0 then d.incSat (Reg.hlErr2 n) 0 8 1
    else
      let d1 := (d.setFld (Reg.hlStat n) 0 8 (byteAt marker 4)).setFld (Reg.hlStat n) 8 6 (min x.skew 32)
      match k with
      | none => d
      | some k =>
        let mc := leAt marker 2 2
        let prev := (d1.port n).mcount.getD k none
        let good := byteAt marker 1 / 64 == lcodeOf (d1.laneCount n) && byteAt marker 1 % 4 == k
        let gap := markerPeriods x.blocks
        let follows := prev.isNone || (prev.any fun p => gap.any fun g => (p + g) % 65536 == mc)
        let next := gap == some 1 && prev.isSome && follows
        let d2 := d1.modPort n fun p => { p with mcount := p.mcount.set k (some mc) }
        if d1.portState n = 3 then
          if x.skew > 32 then d1.linkDown n 3
          else if (gap.any fun g => decide (g > 2)) = true then d1.linkDown n 1
          else if !good || !follows then d1.linkDown n 2
          else d2
        else d2.modPort n fun p => { p with
          runs := p.runs.set k (if good && decide (x.skew ≤ 32) then (if next then p.runs.getD k 0 + 1 else 1) else 0) }

/-- Every active lane of a training port is in block lock and has two good markers in a row (R163). -/
def Dev.markersGood (d : Dev) (n : Nat) : Bool :=
  (List.range (d.laneCount n)).all fun k =>
    d.flag (Reg.hlStat n) (24 + d.laneMap n k) && decide ((d.port n).runs.getD k 0 ≥ 2)

/-- A training port gains marker lock: LINKCTL RUN three times, UP, HEAD_LINK_UP, the follow-up of HEAD_ATTACH (R163,
R184); in the safe state the back-channel only idles, and no port comes UP (R187). -/
def execMarkerLock (head : Fin 16) (s : State) : Host.Outcome State Fault Refusal :=
  s.upd fun d =>
    let n := head.val
    if d.portState n ≠ 2 ∨ d.markersGood n = false ∨ d.safe = true then d
    else
      let d1 := ((d.setPortState n 3).setFlag (Reg.hlStat n) 23 true).faultOff (0x10 + n)
      let d2 := (List.range 3).foldl (fun d _ => d.linkctl n 2 0) d1
      let d3 := d2.event 0x8401 none
        (le 1 n ++ le 1 (d2.fld (Reg.hlCfg n) 28 3) ++ le 1 (d2.laneCount n) ++ le 1 (d2.fld (Reg.hlStat n) 0 8))
      d3.finish (d3.owedArgs 0x0401 (· == [n])) St.ok (le 1 3 ++ zeros 3)

/-- A port loses the block lock of a lane (cause 0, in any state) or its marker lock (R163, R186): an UP port goes DOWN. -/
def execPortDown (head : Fin 16) (x : LinkLoss) (s : State) : Host.Outcome State Fault Refusal :=
  s.upd fun d =>
    let n := head.val
    if d.portState n = 0 ∨ (x.cause = 0 ∧ d.logicalLane n x.lane.val = none) then d
    else (if x.cause = 0 then d.setFlag (Reg.hlStat n) (24 + x.lane.val) false else d).linkDown n x.cause.val

/-- A DOWN port returns to TRAIN after 1 ms (R186). -/
def execPortRetrain (head : Fin 16) (s : State) : Host.Outcome State Fault Refusal :=
  s.upd fun d => if d.portState head.val = 4 then (d.setPortState head.val 2).clearLock head.val else d

/-- A port not UP 100 ms after entering TRAIN restarts training; an owed HEAD_ATTACH ends REMOTE_ERROR (R185). -/
def execTrainRestart (head : Fin 16) (s : State) : Host.Outcome State Fault Refusal :=
  s.upd fun d =>
    let n := head.val
    if d.portState n = 2 then
      let d1 := (d.setFld (Reg.hlStat n) 24 4 0).clearLock n
      d1.finish (d1.owedArgs 0x0401 (· == [n])) St.remoteError (le 1 2 ++ zeros 3)
    else d

/-- A training port sends LINKCTL TRAIN every 10 us (R177, R183). -/
def execLinkctlTrain (head : Fin 16) (s : State) : Host.Outcome State Fault Refusal :=
  s.upd fun d =>
    if d.portState head.val = 2 ∧ d.safe = false then
      d.linkctl head.val 1 (d.fld (Reg.hlCfg head.val) 28 3 + 16 * lcodeOf (d.laneCount head.val))
    else d

/-! ## Blocks and packets -/

/-- An error block is counted in every state of an attached port (R160); inside a packet it truncates the packet, as a START does (R165). `kind`: 0 a control
block of unknown type, 1 an invalid sync header, 2 a START. -/
def execErrorBlock (head : Fin 16) (kind : Fin 3) (inPacket : Bool) (s : State) : Host.Outcome State Fault Refusal :=
  s.upd fun d =>
    let n := head.val
    if d.portState n = 0 then d
    else
      let d1 := if kind.val = 1 then d.incSat (Reg.hlErr3 n) 16 16 1
        else if kind.val = 0 then d.incSat (Reg.hlErr2 n) 0 8 1 else d
      if inPacket = true ∧ d.portState n = 3 then d1.incSat (Reg.hlErr2 n) 0 8 1 else d1

/-- A data block outside a packet is discarded and counted (R165). -/
def execStrayDataBlock (head : Fin 16) (s : State) : Host.Outcome State Fault Refusal :=
  s.upd fun d => if d.portState head.val = 0 then d else d.incSat (Reg.hlErr2 head.val) 8 8 1

/-- The check bits of CSI-2 for the 26 header bits (R166, R167; PRESUMED, notes/assumptions/125.md): the code of each bit. -/
def eccCodes : List (BitVec 6) :=
  [0x07, 0x0B, 0x0D, 0x0E, 0x13, 0x15, 0x16, 0x19, 0x1A, 0x1C, 0x23, 0x25, 0x26] ++
  [0x29, 0x2A, 0x2C, 0x31, 0x32, 0x34, 0x38, 0x1F, 0x2F, 0x37, 0x3B, 0x3D, 0x3E]

/-- The 26 protected bits of a header word: data identifier, data field or word count, then VCX. -/
def eccBits (w : Word) : Nat := w.toNat % 2 ^ 24 + bits w.toNat 30 2 * 2 ^ 24

/-- The ECC of a header word. -/
def eccOf (w : Word) : BitVec 6 :=
  (eccCodes.zip (List.range 26)).foldl (fun e c => if bit (eccBits w) c.2 then e ^^^ c.1 else e) 0

/-- A header as its ECC leaves it (R167): the word, and whether a bit was corrected; none with an uncorrectable error. -/
def eccCheck (w : Word) : Option (Word × Bool) :=
  let syn := eccOf w ^^^ BitVec.ofNat 6 (bits w.toNat 24 6)
  if syn = 0 then some (w, false)
  else match eccCodes.findIdx? (· == syn) with
    | some i => some (w ^^^ (1#32 <<< (if i < 24 then i else i + 6)), true)
    | none => if (List.range 6).any fun i => syn == 1#6 <<< i then some (w, true) else none

/-- Fields of a checked header (R166): data type, virtual channel (VCX above VC), data field or word count. -/
def hdrType (w : Word) : Nat := bits w.toNat 0 6
def hdrVc (w : Word) : Nat := bits w.toNat 30 2 * 4 + bits w.toNat 6 2
def hdrField (w : Word) : Nat := bits w.toNat 8 16

/-- A packet header: packets are taken only in UP (R183); the ECC (R167) and the virtual channel (R168) are checked. The
corrected word of a packet that is kept. -/
def Dev.header (d : Dev) (n : Nat) (h : Word) : Dev × Option Word :=
  if d.portState n ≠ 3 ∨ d.safe = true then (d, none)
  else match eccCheck h with
    | none => (d.incSat (Reg.hlErr0 n) 16 8 1, none)
    | some (w, fixed) =>
      let d1 := if fixed then d.incSat (Reg.hlErr0 n) 24 8 1 else d
      if hdrVc w ≠ d1.fld (Reg.hlCfg n) 16 4 then (d1.incSat (Reg.hlErr1 n) 16 16 1, none) else (d1, some w)

/-- Run a packet's treatment, given its corrected header, when that header is kept and its data type is one of the row's. -/
def Dev.packet (d : Dev) (n : Nat) (h : Word) (types : Nat → Bool) (f : Dev → Word → Dev) : Dev :=
  match d.header n h with
  | (d1, some w) => if types (hdrType w) then f d1 w else d
  | (d1, none) => d1

/-- The footer of a long packet (R167): the 16-bit CRC that CSI-2 defines, over the payload (PRESUMED,
notes/assumptions/125.md). -/
def csiCrc (l : Bytes) : BitVec 16 :=
  l.foldl (fun c b => (List.range 8).foldl (fun c _ => if c.getLsbD 0 then (c >>> 1) ^^^ 0x8408#16 else c >>> 1)
    (c ^^^ b.setWidth 16)) 0xFFFF#16

/-- A Frame Start: its echo is kept for the frame's first line; one without a Frame End before it is counted (R173). -/
def execFrameStart (head : Fin 16) (h : Word) (s : State) : Host.Outcome State Fault Refusal :=
  s.upd fun d => d.packet head.val h (· == 0) fun d w =>
    let d1 := if (d.port head.val).frameOpen then d.incSat (Reg.hlErr1 head.val) 0 8 1 else d
    d1.modPort head.val fun p => { p with frameOpen := true, echo := some (hdrField w % 256) }

/-- A Frame End (R173). -/
def execFrameEnd (head : Fin 16) (h : Word) (s : State) : Host.Outcome State Fault Refusal :=
  s.upd fun d => d.packet head.val h (· == 1) fun d _ => d.modPort head.val fun p => { p with frameOpen := false }

/-- The open line is discarded and reported lost with a cause; `ctr` counts it: bit position in HLn_ERR0 (R170). -/
def Dev.failLine (d : Dev) (n cause ctr : Nat) : Dev :=
  match (d.port n).line with
  | some l =>
    ((d.incSat (Reg.hlErr0 n) ctr 8 1).passLine n (l.rcd.line l.sub cause l.why [])).modPort n fun p =>
      { p with line := none }
  | none => d

/-- A line loses its completeness: cause LENGTH, LEN_ERR (R170). -/
def Dev.lengthError (d : Dev) (n : Nat) : Dev := d.failLine n Cause.length 0

/-- Mark a batt's further lines of this head EXPOSURE_UNCONFIRMED (R174): why 1 echo mismatch, 2 no Frame Start. -/
def Port.setUnconf (p : Port) (batt why expected echoed : Nat) : Port :=
  if p.unconf.any fun u => u.1 == batt && decide (u.2.1 ≤ why) then p
  else { p with unconf := (batt, why, expected, echoed) :: p.unconf.filter fun u => u.1 != batt }

/-- The first line of a frame: the echo of its Frame Start is compared; a trigger with FIRST or NEWEXP needs a Frame Start before
its first line (R173, R174). -/
def Dev.echoCheck (d : Dev) (n : Nat) (t : TrigRec) : Dev :=
  match (d.port n).echo with
  | some e =>
    if e ≠ t.expid then (d.incSat (Reg.hlErr3 n) 8 8 1).modPort n fun p => p.setUnconf t.batt 1 t.expid e else d
  | none => if t.got = 0 ∧ (t.first || t.newexp) = true then d.modPort n fun p => p.setUnconf t.batt 2 t.expid 0 else d

/-- Open a line of a record. -/
def Dev.openLine (d : Dev) (n : Nat) (t : TrigRec) : Dev :=
  d.modPort n fun p => { p with
    inUse := some { t with got := t.got + 1 }
    echo := none
    line := some ⟨t, t.got, 0, [], ((p.unconf.find? fun u => u.1 == t.batt).map (·.2.1)).getD t.why, false⟩ }

/-- A Line Start consumes or continues a trigger record, retiring older ones (R170, R172). -/
def execLineStartPacket (head : Fin 16) (h : Word) (s : State) : Host.Outcome State Fault Refusal :=
  s.upd fun d => d.packet head.val h (· == 2) fun d0 w =>
    let n := head.val
    let tag := hdrField w
    let d := d0.lengthError n
    let p := d.port n
    let cont := p.inUse.filter fun t => t.tag == tag && decide (t.got < t.awaits)
    match cont with
    | some t => (d.echoCheck n t).openLine n t
    | none =>
      match p.table.find? fun t => t.tag == tag with
      | none => d.incSat (Reg.hlErr2 n) 24 8 1
      | some t =>
        let older := p.table.takeWhile fun x => x.tag != tag
        let retired := (p.inUse.filter fun t => decide (t.got < t.awaits)).toList ++ older
        let d1 := d.modPort n fun p => { p with table := p.table.drop (older.length + 1), inUse := none }
        let d2 := retired.foldl (fun d t => d.retire n t) d1
        (d2.echoCheck n t).openLine n t

/-- A Line End with the open line's tag has no effect; any other counts FRAME_ERR (R168). -/
def execLineEnd (head : Fin 16) (h : Word) (s : State) : Host.Outcome State Fault Refusal :=
  s.upd fun d => d.packet head.val h (· == 3) fun d w =>
    if (d.port head.val).line.any fun l => l.rcd.tag == hdrField w then d else d.incSat (Reg.hlErr1 head.val) 0 8 1

/-- Bits per pixel of a data type (R189). -/
def depthOf (dt : Nat) : Nat :=
  match dt with
  | 0x2A => 8 | 0x2B => 10 | 0x2C => 12 | 0x2D => 14 | 0x2E => 16 | 0x2F => 20 | _ => 24

/-- One packing unit's bytes and pixels per data type, as CSI-2 packs them (R169; notes/assumptions/12.md). -/
def unitBytes (dt : Nat) : Nat :=
  match dt with
  | 0x2A => 1 | 0x2B => 5 | 0x2C => 3 | 0x2D => 7 | 0x2E => 2 | 0x2F => 5 | _ => 3

/-- The pixels of one packing unit, head columns ascending. -/
def unpackUnit (dt : Nat) (b : Bytes) : List Nat :=
  let x := byteAt b
  match dt with
  | 0x2A => [x 0]
  | 0x2B => (List.range 4).map fun i => x i * 4 + bits (x 4) (2 * i) 2
  | 0x2C => [x 0 * 16 + x 2 % 16, x 1 * 16 + x 2 / 16]
  | 0x2D => [x 0 * 64 + x 4 % 64, x 1 * 64 + x 4 / 64 + x 5 % 16 * 4, x 2 * 64 + x 5 / 16 + x 6 % 4 * 16, x 3 * 64 + x 6 / 4]
  | 0x2E => [x 0 * 256 + x 1]
  | 0x2F => [(x 0 * 4 + bits (x 4) 0 2) * 1024 + x 1 * 4 + bits (x 4) 2 2,
             (x 2 * 4 + bits (x 4) 4 2) * 1024 + x 3 * 4 + bits (x 4) 6 2]
  | _ => [(x 0 * 16 + x 2 % 16) * 4096 + x 1 * 16 + x 2 / 16]

/-- The pixels of a packet's payload. -/
def unpack (dt : Nat) : Nat → Bytes → List Nat
  | 0, _ => []
  | m + 1, b => unpackUnit dt (b.take (unitBytes dt)) ++ unpack dt m (b.drop (unitBytes dt))

/-- The plane that a data type carries on port n: 0 for the port's own, 1 to 4 under MPLANE below NIN (R168, R201). -/
def Dev.planeOf (d : Dev) (n dt : Nat) : Option Nat :=
  if dt = d.fld (Reg.hlCfg n) 8 6 then some 0
  else if d.flag (Reg.hlCfg n) 25 && decide (0x30 ≤ dt ∧ dt ≤ 0x33) then some (dt - 0x2F) else none

/-- Planes that a line of port n has: NIN with MPLANE, else 1 (R203). -/
def Dev.planesIn (d : Dev) (n : Nat) : Nat :=
  if d.flag (Reg.hlCfg n) 25 then max 1 ((d.liveView (d.activeBank n)).nin n) else 1

/-- A complete line passes to pouncing, or is lost in a full RX hopper (R109, R170). -/
def Dev.completeLine (d : Dev) (n : Nat) (l : OpenLine) : Dev :=
  let d1 := d.modPort n fun p => { p with line := none }
  if l.overflow then (d1.hopDrop (10 + n)).passLine n (l.rcd.line l.sub Cause.rxOverflow l.why [])
  else (d1.incWrap (Reg.hlLines n) 0 32 1).passLine n (l.rcd.line l.sub 0 l.why l.planes)

/-- The data types of pixel data (R168). -/
def pixelType (dt : Nat) : Bool := dt == 0x27 || decide (0x2A ≤ dt ∧ dt ≤ 0x2F) || decide (0x30 ≤ dt ∧ dt ≤ 0x33)

/-- A long packet of pixel data joins the open line, which completes at WIDTH pixels in each plane (R168 to R170, R203). A packet
of a plane at or above NIN loses the line with cause LENGTH (DESIGN CHOICE, notes/assumptions/126.md). -/
def execPixelPacket (head : Fin 16) (h : Word) (p : Pixels) (s : State) : Host.Outcome State Fault Refusal :=
  s.upd fun d => d.packet head.val h pixelType fun d wd =>
    let n := head.val
    match d.planeOf n (hdrType wd) with
    | none => d.incSat (Reg.hlErr1 n) 8 8 1
    | some q =>
      match (d.port n).line with
      | none => d.incSat (Reg.hlErr0 n) 0 8 1
      | some l =>
        if p.footer ≠ csiCrc p.payload then d.failLine n Cause.checksum 8
        else
          let dt := d.fld (Reg.hlCfg n) 8 6
          let px := unpack dt (p.payload.length / unitBytes dt) p.payload
          let old := l.planes.getD q []
          let grown := (l.planes ++ List.replicate (q + 1 - l.planes.length) []).set q (old ++ px)
          let w := d.width n
          let pk := if q = 0 then l.packets + 1 else l.packets
          let l1 : OpenLine := { l with planes := grown, packets := pk, overflow := l.overflow || p.overflow }
          if old.length + px.length > w ∨ q ≥ d.planesIn n ∨ (pk ≥ 8 ∧ (grown.getD 0 []).length < w) then d.lengthError n
          else if (List.range (d.planesIn n)).all fun j => (grown.getD j []).length == w then d.completeLine n l1
          else d.modPort n fun q => { q with line := some l1 }

/-- A user-defined 8 packet is a message from the head: WC 1 to 256 raises HEAD_MESSAGE_RX (R168); one whose footer fails is
discarded and counted (R167; DEDUCED, notes/assumptions/125.md). -/
def execHeadMessagePacket (head : Fin 16) (h : Word) (x : HeadData) (s : State) :
    Host.Outcome State Fault Refusal :=
  s.upd fun d => d.packet head.val h (· == 0x37) fun d _ =>
    if x.data.length = 0 ∨ x.data.length > 256 then d.incSat (Reg.hlErr1 head.val) 8 8 1
    else if x.footer ≠ csiCrc x.data then d.incSat (Reg.hlErr0 head.val) 8 8 1
    else d.event 0x8403 none (le 1 head.val ++ zeros 1 ++ le 2 x.data.length ++ x.data)

/-- A packet of another data type is discarded with its payload and counted (R168). -/
def execDiscardedPacket (head : Fin 16) (h : Word) (_payload : Bytes) (s : State) : Host.Outcome State Fault Refusal :=
  s.upd fun d => d.packet head.val h (fun t => decide (t > 3) && t != 0x37 && (d.planeOf head.val t).isNone) fun d _ =>
    d.incSat (Reg.hlErr1 head.val) 8 8 1

/-- A line is not complete within LINE_TIMEOUT of its Line Start (R170). -/
def execLineTimeout (head : Fin 16) (s : State) : Host.Outcome State Fault Refusal :=
  s.upd fun d => d.lengthError head.val

end Sys2Proof.Machine
end

