-- ==== Sys2Proof/Machine/PixelOps.lean ====
section
/-! DEFINITION. Pixel correction and mosaic reconstruction as arithmetic on lines (spec/06_pouncing_and_mosaic.md). -/

namespace Sys2Proof.Machine

open Sys2Proof

/-- Full scale of the 24-bit linear values. -/
def fullScale : Nat := 0xFFFFFF

/-- Clamp an exact value to 24 bits; the flag says that it lay above full scale (R207, R210, R229). -/
def clamp24 (x : Int) : Nat × Bool := if x < 0 then (0, false) else if x > fullScale then (fullScale, true) else (x.toNat, false)

/-- Arithmetic shift right. -/
def shr (x : Int) (n : Nat) : Int := floorDiv x (2 ^ n)

/-! ## Pouncing (R192, R193) -/

/-- One sample: code x of depth D through black level, dark offset and gain; its value and saturation mark. -/
def pounceSample (depth satCode darkShift bl : Nat) (dark : Int) (gain x : Nat) : Nat × Bool :=
  let satEff := if satCode = 0 then 2 ^ depth - 1 else satCode
  if x ≥ satEff then (fullScale, true)
  else
    let a : Int := ((x * 2 ^ (24 - depth) : Nat) : Int) - bl
    let b := a - dark * (2 ^ darkShift : Nat)
    clamp24 (shr (b * gain + 8192) 14)

/-- The head's mode on a line: that of LINE_START while the line's card stands. -/
def Dev.lineMode (d : Dev) (n gen : Nat) : Nat := (d.card n gen).elim (d.mode n) (·.mode)

/-- Calibration row of a line's plane q (R190). -/
def Dev.calRow (d : Dev) (v : View) (n : Nat) (l : Line) (q : Nat) : Nat :=
  if d.lineMode n l.gen = 2 then l.sub * v.calRows n / d.lineAwaits n l.gen
  else if v.mosMode n = 3 then q else l.sub % v.calRows n

/-- Site row y of a line (R202). -/
def View.siteRow (v : View) (n : Nat) (l : Line) : Nat :=
  match v.mosMode n with
  | 1 => l.sub % v.py n
  | 2 => l.sub
  | _ => 0

/-- Channel code of column c of plane q of a line (R192, R201, R202). -/
def View.channel (v : View) (n : Nat) (l : Line) (q c : Nat) : Nat :=
  if v.mosMode n = 3 then (v.site n 0 q).2 else (v.site n (v.siteRow n l) (c % v.px n)).2

/-- The calibration entries that a line's samples take, by their addresses. -/
def Dev.calRead (d : Dev) (v : View) (n : Nat) (l : Line) : List Nat :=
  (List.range l.planes.length).flatMap fun q => (List.range (d.width n)).map fun c => v.calAddr n (d.calRow v n l q * d.width n + c)

/-- Pounce one plane of a line. -/
def Dev.pouncePlane (d : Dev) (v : View) (n : Nat) (l : Line) (q : Nat) : List (Nat × Bool) :=
  let depth := depthOf (d.fld (Reg.hlCfg n) 8 6)
  let k := d.calRow v n l q
  let w := d.width n
  ((l.planes.getD q []).zip (List.range w)).map fun p =>
    let e := v.cal n (k * w + p.2)
    pounceSample depth (v.satCode n) (v.darkShift n) (v.blackLevel n (v.channel n l q p.2)) e.1 e.2 p.1

/-- Pounce a line that arrived: values, marks, and how many samples were clipped (R193). -/
def Dev.pounce (d : Dev) (v : View) (n : Nat) (l : Line) : Line × Nat :=
  let planes := (List.range l.planes.length).map (d.pouncePlane v n l)
  let depth := depthOf (d.fld (Reg.hlCfg n) 8 6)
  let satEff := if v.satCode n = 0 then 2 ^ depth - 1 else v.satCode n
  ({ l with planes := planes.map (·.map (·.1)), sats := planes.map (·.map (·.2)) },
   (l.planes.flatMap id).countP fun x => decide (x ≥ satEff))

/-! ## Defective pixels (R197 to R199) -/

/-- The defect map of a bank: key and pattern. -/
def View.defects (v : View) (n : Nat) : List (Nat × Nat) := (List.range (v.defCount n)).map (v.defect n)

/-- Mean of the available neighbours (R198). -/
def meanOf (l : List Nat) : Nat := (l.foldl (· + ·) 0 + l.length / 2) / l.length

/-- Mean of the middle two of four, the middle of three, else the mean (R198 MEDIAN4). -/
def medianOf (l : List Nat) : Nat :=
  let s := l.mergeSort (· ≤ ·)
  if s.length = 4 then meanOf [s.getD 1 0, s.getD 2 0] else if s.length = 3 then s.getD 1 0 else meanOf s

/-- Value and mark of column c of plane q of a line, if the column exists. -/
def Line.at? (l : Line) (q c : Nat) : Option (Nat × Bool) :=
  ((l.planes.getD q [])[c]?).map fun x => (x, (l.sats.getD q []).getD c false)

/-- The frame line at distance dy (sites) of a line, when it has arrived. -/
def frameLine (kept : List Line) (l : Line) (f : Int) : Option Line :=
  if f < 0 then none else kept.find? fun x => x.gen == l.gen && x.i == l.i && x.sub == f.toNat && x.cause == 0

/-- A line with its defective sites replaced, and how many could not be (R198, R199). `frame`: the head is in FRAME mode;
`rowKey q` the ROW of the map for plane q of this line. MEDIAN4 takes all its available neighbours as used: the mark is the OR of
all of theirs, also where only the middle values enter (DESIGN CHOICE, notes/assumptions/131.md). -/
def View.repair (v : View) (n : Nat) (frame : Bool) (kept : List Line) (rowKey : Line → Nat → Nat) (l : Line) : Line × Nat :=
  let defs := v.defects n
  if defs = [] then (l, 0)
  else
    let area := v.mosMode n == 1
    let px := if area then v.px n else 1
    let py : Int := if area then v.py n else 1
    let isDef := fun (x : Line) (q c : Nat) => defs.any fun e => e.1 == rowKey x q * 65536 + c
    let horiz : Nat → Nat → Int → Option (Nat × Bool) := fun q c dc =>
      let cc := (c : Int) + dc * px
      if cc < 0 then none else if isDef l q cc.toNat then none else l.at? q cc.toNat
    let vert : Nat → Nat → Int → Option (Nat × Bool) := fun q c s =>
      match frameLine kept l ((l.sub : Int) + s * py) with
      | some x => if isDef x q c then none else x.at? q c
      | none => none
    let fix : Nat → Nat → Nat → Option (Nat × Bool) := fun q c pat =>
      let hs := [horiz q c (-1), horiz q c 1]
      let vs := if frame then [vert q c (-1), vert q c 1] else []
      let ns : List (Option (Nat × Bool)) := match pat with
        | 1 => [horiz q c (-1)]
        | 2 => [horiz q c 1]
        | 3 => if frame then vs else hs
        | 4 => hs ++ vs
        | 5 => hs ++ vs
        | _ => hs
      let av := ns.filterMap id
      if av = [] then none
      else some ((if pat = 5 then medianOf else meanOf) (av.map (·.1)), av.any (·.2))
    let planes := (List.range l.planes.length).map fun q =>
      ((l.planes.getD q []).zip (List.range (l.planes.getD q []).length)).map fun p =>
        match defs.find? fun e => e.1 == rowKey l q * 65536 + p.2 with
        | none => ((p.1, (l.sats.getD q []).getD p.2 false), 0)
        | some e => match fix q p.2 e.2 with
          | some r => (r, 0)
          | none => ((p.1, (l.sats.getD q []).getD p.2 false), 1)
    ({ l with planes := planes.map (·.map (·.1.1)), sats := planes.map (·.map (·.1.2)) },
     (planes.map fun r => (r.map (·.2)).foldl (· + ·) 0).foldl (· + ·) 0)

/-! ## Mosaic (R204 to R212) -/

/-- Column c + dx of a window, moved inside by the smallest multiple of PX (R204). -/
def windowCol (px w c : Nat) (dx : Int) : Nat :=
  let x := (c : Int) + dx
  if x < 0 then (x + ((ceilDiv x.natAbs px * px : Nat) : Int)).toNat
  else if x ≥ w then (x - ((ceilDiv (x.toNat + 1 - w) px * px : Nat) : Int)).toNat
  else x.toNat

/-- The two gradient sums of a window of 25 values, row by row (R206). -/
def gradients (v : List Nat) : Nat × Nat :=
  let a := fun (r c : Nat) => v.getD (5 * r + c) 0
  let diff := fun (x y : Nat) => (x - y) + (y - x)
  (((List.range 5).map fun r => diff (a r 3) (a r 1) + diff (a r 4) (a r 0)).foldl (· + ·) 0,
   ((List.range 5).map fun c => diff (a 3 c) (a 1 c) + diff (a 4 c) (a 0 c)).foldl (· + ·) 0)

/-- Accumulator of a kernel over a window, and whether a marked sample entered with a non-zero coefficient. -/
def kernelSum (k : Nat → Int) (v : List Nat) (m : List Bool) : Int × Bool :=
  (((List.range v.length).map fun i => k i * (v.getD i 0 : Int)).foldl (· + ·) 0,
   (List.range v.length).any fun i => k i != 0 && m.getD i false)

/-- Plane j of a site of class m from its window (R207, R212). -/
def View.planeValue (v : View) (n j m : Nat) (win : List Nat) (marks : List Bool) : Nat × Bool :=
  let g := gradients win
  let h := kernelSum (v.kernel n j m 0) win marks
  let k := kernelSum (v.kernel n j m 1) win marks
  let t := v.edgeT n
  let r := if g.1 + t < g.2 then (clamp24 (shr (h.1 + 512) 10), h.2)
    else if g.2 + t < g.1 then (clamp24 (shr (k.1 + 512) 10), k.2)
    else (clamp24 (shr (h.1 + k.1 + 1024) 11), h.2 || k.2)
  (r.1.1, r.1.2 || r.2)

/-- The channel matrix: output plane j from five inputs with their marks (R210, R212). -/
def View.matrixOut (v : View) (n j : Nat) (ins : List (Nat × Bool)) : Nat × Bool :=
  let acc := ((List.range 5).map fun i => v.matrix n j i * ((ins.getD i (0, false)).1 : Int)).foldl (· + ·) 0
    + v.bias n j * 4096
  let r := clamp24 (shr (acc + 2048) 12)
  (r.1, r.2 || (List.range 5).any fun i => v.matrix n j i != 0 && (ins.getD i (0, false)).2)

/-- Split a list of output planes of (value, mark) columns into a line. -/
def Line.ofPlanes (l : Line) (p : List (List (Nat × Bool))) : Line :=
  { l with planes := p.map (·.map (·.1)), sats := p.map (·.map (·.2)) }

/-- The defect and kernel entries that a line's reconstruction reads, by their addresses: the whole map, and the kernels of the
classes of its site row (R196, R207, R209). -/
def View.mosaicRead (v : View) (n : Nat) (l : Line) : List Nat :=
  let cls := ((List.range (v.px n)).map fun x => (v.site n (v.siteRow n l) x).1).eraseDups
  let words := fun (j m h lo cnt : Nat) => (List.range cnt).map fun w => v.kernelAddr n j m h + 4 * (lo + w)
  (List.range (v.defCount n)).map (v.defectAddr n)
    ++ (match v.mosMode n with
      | 1 => (List.range (v.nplanes n)).flatMap fun j => cls.flatMap fun m => words j m 0 0 13 ++ words j m 1 0 13
      | 2 => cls.flatMap fun m => words 0 m 0 5 3
      | _ => [])

/-- What stands at a row offset of an AREA window (R204, R205): a line, nothing, or a line still on its way. -/
inductive Window where
  | line (l : Line)
  | unavailable
  | waiting
  deriving DecidableEq, Repr

/-- The line at offset dy of line l in its head's order (R204): FRAME heads within the frame, LINE heads across triggers. -/
def Dev.windowRow (d : Dev) (n : Nat) (l : Line) (dy : Int) : Window :=
  let p := d.pipe n
  let card := d.card n l.gen
  let a := d.lineAwaits n l.gen
  let find := fun (i s : Nat) =>
    match p.pounced.find? fun x => x.gen == l.gen && x.i == i && x.sub == s with
    | some x => if x.cause = 0 then Window.line x else Window.unavailable
    | none =>
      if (card.elim [] fun c => c.early ++ c.lines).any fun x => x.i == i && x.cause != 0 then Window.unavailable
      else Window.waiting
  if dy = 0 then .line l
  else if d.lineMode n l.gen = 2 then
    let f := (l.sub : Int) + dy
    if f < 0 ∨ f ≥ a then .unavailable else find l.i f.toNat
  else
    let g := ((l.i * a + l.sub : Nat) : Int) + dy
    let reached := ((card.bind (·.stopped)).getD (if d.pos.gen = l.gen then (d.gen n).reached else 0))
    if g < 0 ∨ g.toNat / a ≥ reached then .unavailable else find (g.toNat / a) (g.toNat % a)

/-- The offset that replaces an unavailable row (R204): the first available dy - sign(dy) x m x PY within -2 to 2, else
the centre. -/
def substitute (ok : Int → Bool) (py : Int) (dy : Int) : Int :=
  let s : Int := if dy < 0 then -1 else 1
  match ([1, 2, 3, 4] : List Int).find? fun m =>
      decide (-2 ≤ dy - s * m * py ∧ dy - s * m * py ≤ 2) && ok (dy - s * m * py) with
  | some m => dy - s * m * py
  | none => 0

/-- The five lines of an AREA window after replacement, and how many rows were replaced; none while one is awaited. -/
def Dev.window (d : Dev) (v : View) (n : Nat) (l : Line) : Option (List Line × Nat) :=
  let at_ := fun (dy : Int) => d.windowRow n l dy
  let dys : List Int := [-2, -1, 0, 1, 2]
  if dys.any fun dy => at_ dy == .waiting then none
  else
    let ok := fun (dy : Int) => match at_ dy with
      | .line _ => true
      | _ => false
    let pick := fun (dy : Int) => match at_ (if ok dy then dy else substitute ok (v.py n) dy) with
      | .line x => x
      | _ => l
    some (dys.map pick, (dys.filter fun dy => !ok dy).length)

/-- Reconstruct a line by AREA kernels and the matrix (R204 to R210). -/
def View.areaLine (v : View) (n w : Nat) (l : Line) (rows : List Line) : Line :=
  let cols := (List.range w).map fun c =>
    let win := rows.flatMap fun r => ([-2, -1, 0, 1, 2] : List Int).map fun dx =>
      (r.at? 0 (windowCol (v.px n) w c dx)).getD (0, false)
    let vals := win.map (·.1)
    let marks := win.map (·.2)
    let cls := (v.site n (v.siteRow n l) (c % v.px n)).1
    let ks := (List.range 4).map fun j => if j < v.nplanes n then v.planeValue n j cls vals marks else (0, false)
    let ins := ks ++ [(l.at? 0 c).getD (0, false)]
    (List.range (v.nplanes n)).map fun j => v.matrixOut n j ins
  l.ofPlanes ((List.range (v.nplanes n)).map fun j => cols.map fun x => x.getD j (0, false))

/-- Interpolate a MULTILINE sensor line along itself (R209). -/
def View.multiLine (v : View) (n w : Nat) (l : Line) : Line :=
  l.ofPlanes [(List.range w).map fun c =>
    let win := ([-2, -1, 0, 1, 2] : List Int).map fun dx => (l.at? 0 (windowCol (v.px n) w c dx)).getD (0, false)
    let cls := (v.site n (v.siteRow n l) (c % v.px n)).1
    let h := kernelSum (fun i => v.kernel n 0 cls 0 (10 + i)) (win.map (·.1)) (win.map (·.2))
    let r := clamp24 (shr (h.1 + 512) 10)
    (r.1, r.2 || h.2)]

/-- The matrix over the planes of a MULTIPLANE line (R210). -/
def View.multiPlane (v : View) (n w : Nat) (l : Line) : Line :=
  let cols := (List.range w).map fun c =>
    let ins := (List.range 5).map fun q => if q < v.nin n then (l.at? q c).getD (0, false) else (0, false)
    (List.range (v.nplanes n)).map fun j => v.matrixOut n j ins
  l.ofPlanes ((List.range (v.nplanes n)).map fun j => cols.map fun x => x.getD j (0, false))

end Sys2Proof.Machine
end

