-- ==== Sys2Proof/Machine/CardOps.lean ====
section
/-! DEFINITION. Carding (spec/07_carding.md): where a row lies among the lines of a head, its taps, the forming of a row,
and the reception of a line. -/

namespace Sys2Proof.Machine

open Sys2Proof

/-- Pipeline n is in a class 1 recovery. -/
def Dev.pipeRecov (d : Dev) (n : Nat) : Bool := d.flag Reg.fltUrec n

/-! ## Rows and batts of a card -/

/-- Rows per batt of a card's line. -/
def Card.height (c : Card) : Nat := 2 ^ c.grid.hlog
/-- The batt of row r. -/
def Card.battOf (c : Card) (r : Nat) : Nat := c.grid.first + r / c.height
/-- The first row of batt b. -/
def Card.first (c : Card) (b : Nat) : Nat := (b - c.grid.first) * c.height
/-- Row r belongs to the line: its batt is not above LAST_BATT (R156). -/
def Card.inLine (c : Card) (r : Nat) : Bool :=
  c.last.all fun l => decide (r < (l + 1 + (2 ^ 48 - c.grid.first)) % 2 ^ 48 * c.height)
/-- The carded row r, the blocked row r. -/
def Card.cardedRow (c : Card) (r : Nat) : Option Row := c.carded.find? fun x => x.r == r
def Card.blockedRow (c : Card) (r : Nat) : Option Row := c.blocked.find? fun x => x.r == r
/-- Row r has been written to the card hood. -/
def Card.isWritten (c : Card) (r : Nat) : Bool := decide (r < c.written) || c.ahead.contains r

/-- The next number at or above k that p does not hold of. -/
def nextNot (p : Nat → Bool) (k : Nat) : Nat → Nat
  | 0 => k
  | n + 1 => if p k then nextNot p (k + 1) n else k

/-! ## Geometry and weights (R220 to R222, R227, R228) -/

/-- i0 and phi of a row (R227). -/
def View.rowTap (v : View) (n : Nat) (c : Card) (r : Nat) : Int × Nat :=
  let rr := if c.mode = 2 then r % c.height else r
  let num : Int := ((rr * c.grid.pitch : Nat) : Int) - v.trim n
  let den := max 1 (if c.mode = 2 then v.framePitch n else c.pitch)
  let i0 := floorDiv num den
  (i0, (num - i0 * den).toNat * 1024 / den)

/-- The inner taps: those of linear interpolation with non-zero weight (R228, R231). -/
def innerTaps (i0 : Int) (phi : Nat) : List (Int × Int) :=
  if phi = 0 then [(i0, 1024)] else [(i0, 1024 - (phi : Int)), (i0 + 1, phi)]

/-- The four taps with non-zero weight (R228, R229). -/
def fourTaps (i0 : Int) (phi : Nat) : List (Int × Int) :=
  ((([-1, 0, 1, 2] : List Int).map (i0 + ·)).zip (fourTap phi)).filter fun p => p.2 != 0

/-- The reference tap (R230). -/
def refTap (i0 : Int) (phi : Nat) : Int := if phi < 512 then i0 else i0 + 1

/-- Every tap a row may need: the four of FOURTAP, and the inner ones. -/
def View.rowTaps (v : View) (n : Nat) (c : Card) (r : Nat) : List Int :=
  let x := v.rowTap n c r
  ((if v.fourtap n then (fourTaps x.1 x.2).map (·.1) else []) ++ (innerTaps x.1 x.2).map (·.1)).eraseDups

/-- Triggers whose sensor lines make up set i of a MULTILINE head: sensor line, trigger, weight of 256 (R224). -/
def View.members (v : View) (n : Nat) (i : Int) : List (Nat × Int × Nat) :=
  (List.range (v.py n)).flatMap fun s =>
    let a : Int := i + (v.delay n s / 256 : Nat)
    let f := v.delay n s % 256
    (s, a, 256 - f) :: (if f = 0 then [] else [(s, a + 1, f)])

/-- The line indices a row needs (R237): triggers of a LINE head, frame lines counted through all frames of a FRAME head. -/
def Dev.needs (d : Dev) (n : Nat) (c : Card) (r : Nat) : List Int :=
  let v := d.viewOf n (c.battOf r)
  let h := c.awaits
  (v.rowTaps n c r).flatMap fun (j : Int) =>
    if c.mode = 2 then
      if j < 0 ∨ j ≥ h then []
      else [(((r / c.height) * h : Nat) : Int) + (if v.frameRev n then (h : Int) - 1 - j else j)]
    else if v.mosMode n = 2 then (v.members n j).map (·.2.1)
    else [j]

/-- The highest line that any row of batt b needs in the head's mode (R243). -/
def Dev.lastNeeded (d : Dev) (n : Nat) (c : Card) (b : Nat) : Int :=
  if c.mode = 2 then (b - c.grid.first : Nat)
  else
    ((List.range c.height).flatMap fun j => d.needs n c (c.first b + j)).foldl max (-1)

/-- L(B) in 1/256 tick (R243): the greatest trigger position over the contributing heads of the highest lines needed. -/
def Dev.lastPoint (d : Dev) (b : Batt) : Int :=
  let pos := fun (n : Nat) => (d.card n b.grid.gen).map fun c =>
    let p := if c.mode = 2 then 2 ^ c.grid.hlog * c.grid.pitch else c.pitch
    c.grid.origin + c.offset + d.lastNeeded n c b.num * p
  (b.heads.filterMap pos).foldl max b.grid.origin

/-! ## Taps (R223 to R225, R230, R232, R244) -/

/-- A tap: still awaited, lost, or a line. -/
inductive Tap where
  | waiting
  | lost (cause : Nat)
  | line (l : Line)
  deriving DecidableEq, Repr

/-- The lower of two reasons for EXPOSURE_UNCONFIRMED, 0 being none (R290). -/
def whyMin (a b : Nat) : Nat := if a = 0 then b else if b = 0 then a else min a b

/-- Plane-by-plane combination of lines: value and mark of every column from those of the lines. -/
def combine (ls : List Line) (f : List (Nat × Bool) → Nat × Bool) : List (List (Nat × Bool)) :=
  match ls with
  | [] => []
  | l0 :: _ => (List.range l0.planes.length).map fun q =>
    (List.range (l0.planes.getD q []).length).map fun c => f (ls.map fun l => (l.at? q c).getD (0, false))

/-- MEAN of sensor lines (R223). -/
def meanLine (ls : List Line) : List (List (Nat × Bool)) :=
  combine ls fun xs => (((xs.map (·.1)).foldl (· + ·) 0 + xs.length / 2) / xs.length, xs.any (·.2))

/-- A line with the marks of all the lines it is made of, and one reason more (R223, R225, R234). -/
def Line.marked (l : Line) (ls : List Line) (why : Nat) : Line :=
  { l with why := whyMin ((ls.map (·.why)).foldl whyMin 0) why, damaged := ls.any (·.damaged), unlocked := ls.any (·.unlocked) }

/-- A raw line of a card: trigger i, sensor or frame line s (R230, R232). -/
def Card.raw (c : Card) (i : Int) (s : Nat) : Tap :=
  if i < 0 then .lost Cause.edge
  else match c.lines.find? fun l => l.i == i.toNat && l.sub == s with
    | some l => if l.cause = 0 then .line l else .lost l.cause
    | none => if c.stopped.any fun x => decide (x ≤ i.toNat) then .lost Cause.stopped else .waiting

/-- The sensor lines of one trigger reduced to one line (R223). -/
def Dev.reduced (d : Dev) (n : Nat) (c : Card) (i : Int) : Tap :=
  let parts := (List.range c.awaits).map (c.raw i)
  if parts.contains .waiting then .waiting
  else match parts.findSome? fun t => match t with | .lost x => some x | _ => none with
    | some x => .lost x
    | none =>
      let ls := parts.filterMap fun t => match t with | .line l => some l | _ => none
      match ls with
      | [] => .waiting
      | l0 :: _ =>
        let v := d.viewOf n l0.batt
        if ls.length = 1 then .line l0
        else if v.lptSelect n then .line (ls.getD (v.lineSel n) l0)
        else .line ((l0.marked ls 0).ofPlanes (meanLine ls))

/-- Set i of a MULTILINE head with its channel matrix (R211, R224, R225). -/
def Dev.lineSet (d : Dev) (n : Nat) (c : Card) (v : View) (i : Int) : Tap :=
  let ms := (v.members n i).map fun m => (m, c.raw m.2.1 m.1)
  if i < 0 then .lost Cause.edge
  else if ms.any fun m => m.2 == .waiting then .waiting
  else match ms.findSome? fun m => match m.2 with | .lost x => some x | _ => none with
    | some x => .lost x
    | none =>
      let ls := ms.filterMap fun m => match m.2 with | .line l => some (m.1, l) | _ => none
      match ls.find? fun m => v.delay n m.1.1 == 0 with
      | none => .waiting
      | some z =>
        let mixed := ls.any fun m => m.2.expid != z.2.expid
        let value := fun (s col : Nat) =>
          let xs := (ls.filter fun m => m.1.1 == s).map fun m => (m.1.2.2, (m.2.at? 0 col).getD (0, false))
          (((xs.map fun x => x.1 * x.2.1).foldl (· + ·) 0 + 128) / 256, xs.any fun x => x.2.2)
        let cols := (List.range (d.width n)).map fun col =>
          let ins := (List.range 5).map fun s => if s < v.py n then value s col else (0, false)
          (List.range (v.nplanes n)).map fun j => v.matrixOut n j ins
        let all := ls.map (·.2)
        .line (Line.ofPlanes { z.2.marked all (if mixed then 4 else 0) with i := i.toNat, sub := 0 } ((List.range (v.nplanes n)).map fun j => cols.map fun (x : List (Nat × Bool)) => x.getD j (0, false)))

/-- Tap j of a row of batt b; at a deadline an awaited tap is lost for the rows of that batt (R244). -/
def Dev.tap (d : Dev) (n : Nat) (c : Card) (v : View) (b : Nat) (force : Bool) (j : Int) : Tap :=
  let t :=
    if c.mode = 2 then
      let h : Int := c.awaits
      if j < 0 ∨ j ≥ h then .lost Cause.edge
      else c.raw (b - c.grid.first : Nat) (if v.frameRev n then h - 1 - j else j).toNat
    else if v.mosMode n = 2 then d.lineSet n c v j
    else d.reduced n c j
  if force && t == .waiting then .lost Cause.deadline else t

/-! ## The forming of a row (R229 to R231, R234) -/

/-- Row status bits of R234. -/
def stUnconf : Nat := 256
def stUnlocked : Nat := 512
def stDamaged : Nat := 1024
def stFallback : Nat := 2048
def stRescanned : Nat := 4096

/-- The weighted sum of lines (R229, R212). -/
def blend (use : List (Int × Line)) : List (List (Nat × Bool)) :=
  combine (use.map (·.2)) fun xs =>
    let zs := (use.map (·.1)).zip xs
    let r := clamp24 (shr ((zs.map fun z => z.1 * (z.2.1 : Int)).foldl (· + ·) 0 + 512) 10)
    (r.1, r.2 || zs.any fun z => z.2.2)

/-- Strip row r of a head (R227 to R234), once every needed tap is resolved. -/
def Dev.formRow (d : Dev) (n : Nat) (c : Card) (r : Nat) (force : Bool) : Option Row :=
  let b := c.battOf r
  let v := d.viewOf n b
  let x := v.rowTap n c r
  let tapOf := d.tap n c v b force
  let inner := (innerTaps x.1 x.2).map fun p => (p, tapOf p.1)
  let four := if v.fourtap n then (fourTaps x.1 x.2).map fun p => (p, tapOf p.1) else []
  if (inner ++ four).any fun p => p.2 == .waiting then none
  else
    let ref := tapOf (refTap x.1 x.2)
    let refId := match ref with | .line l => some l.expid | _ => none
    let usable := fun (t : Tap) => match t with | .line l => refId == some l.expid | _ => false
    let foreign := fun (t : Tap) => match t with | .line l => refId != some l.expid | _ => false
    let lines := fun (ps : List ((Int × Int) × Tap)) => ps.filterMap fun p => match p.2 with
      | .line l => some (p.1.2, l)
      | _ => none
    let resc := c.resc.any fun e => decide (b < e.2) && (d.needs n c r).contains e.1
    let st0 := if resc then stRescanned else 0
    let form := fun (use : List (Int × Line)) (fb : Bool) =>
      let ls := use.map (·.2)
      let why := (ls.map (·.why)).foldl whyMin 0
      let out := blend use
      ({ r := r, why := why, expid := refId.getD 0,
         status := st0 + (if fb then stFallback else 0) + (if why = 0 then 0 else stUnconf)
           + (if ls.any (·.damaged) then stDamaged else 0) + (if ls.any (·.unlocked) then stUnlocked else 0),
         planes := out.map (·.map (·.1)), sats := out.map (·.map (·.2)), src := [r] } : Row)
    if v.fourtap n && four.all fun p => usable p.2 then some (form (lines four) false)
    else if inner.all fun p => usable p.2 then some (form (lines inner) (v.fourtap n))
    else if usable ref && inner.all fun p => usable p.2 || foreign p.2 then
      match ref with
      | .line l => some (form [(1024, l)] true)
      | _ => none
    else
      let cause := (inner.findSome? fun p => match p.2 with | .lost x => some x | _ => none).getD Cause.edge
      some ⟨r, st0 + cause, 0, refId.getD (d.expidOf n b), [], [], [r]⟩

/-- UNLOCKED_ROWS when marking begins or ends with this row (R240); only present rows are formed from a tap. -/
def Dev.markUnlocked (d : Dev) (n : Nat) (row : Row) (batt : Nat) : Dev :=
  let u := bit row.status 9
  if row.status % 16 ≠ 0 ∨ u = (d.pipe n).unlk then d
  else ((d.modPipe n fun p => { p with unlk := u }).setFlag (Reg.cdStat n) 31 u).event 0x8603 (some batt)
    (le 1 (b2n (!u)) ++ zeros 7 ++ le 8 row.r)

/-- Row r of the card of line `gen` is resolved: it joins the carded rows, the counters and CARD_ROW_LAST follow. -/
def Dev.putRow (d : Dev) (n gen : Nat) (row : Row) (batt : Nat) : Dev :=
  let d1 := d.modCard n gen fun c =>
    let cs := c.carded ++ [row]
    { c with carded := cs, rowNext := nextNot (fun k => cs.any fun x => x.r == k) c.rowNext (cs.length + 1) }
  let d2 := d1.wr64 (Reg.cardRowLast n) row.r
  let d3 := if row.status % 16 ≠ 0 then d2.incSat (Reg.cardMissCnt n) 0 32 1 else d2
  let d4 := if bit row.status 11 then d3.incSat (Reg.cardFbkCnt n) 0 32 1 else d3
  let d5 := if bit row.status 9 then d4.incSat (Reg.cardUnlkCnt n) 0 32 1 else d4
  d5.markUnlocked n row batt

/-- Resolve row r of a card, at a deadline if `force` says so. -/
def Dev.resolveRow (d : Dev) (n gen r : Nat) (force : Bool) : Option Dev :=
  match d.card n gen with
  | none => none
  | some c =>
    if c.inLine r = false ∨ (c.cardedRow r).isSome then none
    else (d.formRow n c r force).map fun row => d.putRow n gen row (c.battOf r)

/-- Resolve the next row of a card. -/
def Dev.resolveNext (d : Dev) (n gen : Nat) : Option Dev :=
  match d.card n gen with
  | some c => d.resolveRow n gen c.rowNext false
  | none => none

/-- Numbers of the lines for which pipeline n has a card, oldest first. -/
def Dev.cardGens (d : Dev) (n : Nat) : List Nat := (d.pipe n).cards.map (·.grid.gen)

/-- Do the first that can be done. -/
def firstDone (d : Dev) (l : List Nat) (f : Nat → Option Dev) : Dev := (l.findSome? f).getD d

/-- Repeat what can be done, at most k times. -/
def Dev.drain (f : Dev → Option Dev) : Nat → Dev → Dev
  | 0, d => d
  | k + 1, d => match f d with
    | some d1 => Dev.drain f k d1
    | none => d

end Sys2Proof.Machine
end

