-- ==== Sys2Proof/Machine/BlockOps.lean ====
section
/-! DEFINITION. Blocking, brim tracking and the histograms (spec/08_blocking_and_brim.md, spec/09_nap_and_exposure.md R282,
R283): the forming of a blocked row and what each one does to the filters and the statistics of its batt. -/

namespace Sys2Proof.Machine

open Sys2Proof

/-! ## Blocked rows (R254 to R259) -/

/-- What blocking knows of carded row k: a row; missing EDGE below the line, STOPPED above its last row, and, at a
deadline, missing DEADLINE when it is not resolved (R258, R259). -/
def Card.source (c : Card) (force : Bool) (k : Int) : Option Row :=
  if k < 0 then some ⟨0, Cause.edge, 0, 0, [], [], []⟩
  else match c.cardedRow k.toNat with
    | some x => some x
    | none =>
      if c.inLine k.toNat = false then some ⟨k.toNat, Cause.stopped, 0, 0, [], [], []⟩
      else if force then some ⟨k.toNat, Cause.deadline, 0, 0, [], [], []⟩
      else none

/-- A row is present. -/
def Row.present (x : Row) : Bool := x.status % 16 == 0

/-- Value and mark of column c of plane q of a row. -/
def Row.pix (x : Row) (q c : Nat) : Nat × Bool := ((x.planes.getD q []).getD c 0, (x.sats.getD q []).getD c false)

/-- One column of a blocked row: its rows r0 and r0 + 1 with the weight of the second in 1/16, taps around the source
column, kernel and phase (R254, R255, R212). -/
def View.column (v : View) (n w q : Nat) (a b : Row) (g i p k : Nat) : Nat × Bool :=
  let taps := (List.range 4).map fun (t : Nat) =>
    let c := (clampI 0 ((w : Int) - 1) ((i : Int) + t - 1)).toNat
    let x := a.pix q c
    let y := b.pix q c
    if g = 0 then x else ((x.1 * (16 - g) + y.1 * g + 8) / 16, x.2 || y.2)
  let ks := (List.range 4).map fun t => v.blockKernel n k p t
  let r := clamp24 (shr ((((ks.zip taps).map fun z => z.1 * (z.2.1 : Int)).foldl (· + ·) 0) + 512) 10)
  (r.1, r.2 || (ks.zip taps).any fun z => z.1 != 0 && z.2.2)

/-- How a column is formed (R257): from both rows, from the reference row with FALLBACK, from a foreign reference row, or
missing with the status of that row (the reference row, R257). -/
inductive ColCase where
  | full (a b : Row) (g : Nat)
  | fallback (x : Row)
  | foreign (x : Row)
  | missing (x : Row)
  deriving DecidableEq, Repr

/-- The case of column u (R256, R257). -/
def Card.colCase (c : Card) (force : Bool) (v : View) (n r u anchorId : Nat) : ColCase :=
  let e := v.mapEntry n u
  let r0 : Int := (r : Int) + floorDiv e.2.1 16
  let g := (e.2.1 % 16).toNat
  let a := (c.source force r0).getD ⟨0, Cause.deadline, 0, 0, [], [], []⟩
  let b := if g = 0 then a else (c.source force (r0 + 1)).getD ⟨0, Cause.deadline, 0, 0, [], [], []⟩
  let ref := if g < 8 then a else b
  let usable := fun (x : Row) => x.present && x.expid == anchorId
  if usable a && usable b then .full a b g
  else if usable ref then .fallback ref
  else if ref.present then .foreign ref
  else .missing ref

/-- Blocked row r of a head: none while a carded row it needs is awaited. The flags tell of cases 2 and 3 (R257). A reference row
of the anchor that does not exist, or is not resolved at a deadline, has the identifier of the row's batt (R230). -/
def Dev.formBlocked (d : Dev) (n : Nat) (c : Card) (r : Nat) (force : Bool) : Option (Row × Bool × Bool) :=
  let v := d.viewOf n (c.battOf r)
  let sk := v.skews n
  let span := (List.range (sk.2 - sk.1 + 1).toNat).map fun (j : Nat) => (r : Int) + sk.1 + j
  if span.any fun k => (c.source force k).isNone then none
  else
    let w := d.width n
    let ae := v.mapEntry n (if v.mapped n then v.anchor n else 0)
    let ar : Int := (r : Int) + floorDiv ae.2.1 16 + (if ae.2.1 % 16 < 8 then 0 else 1)
    let anchorId := ((if ar < 0 then none else c.cardedRow ar.toNat).map (·.expid)).getD (d.expidOf n (c.battOf r))
    let cases := (List.range (v.ncol n)).map fun u => c.colCase force v n r u anchorId
    match cases.findSome? fun k => match k with | .missing x => some x | _ => none with
    | some x => some (⟨r, x.status, 0, anchorId, [], [], x.src⟩, false, false)
    | none =>
      let used := cases.flatMap fun k => match k with
        | .full a b _ => [a, b]
        | .fallback x => [x]
        | .foreign x => [x]
        | .missing _ => []
      let fb := cases.any fun k => match k with | .fallback _ => true | _ => false
      let fo := cases.any fun k => match k with | .foreign _ => true | _ => false
      let planes := ((used.head?.map fun x => x.planes.length).getD 0)
      let out := (List.range planes).map fun q =>
        ((List.range (v.ncol n)).zip cases).map fun z =>
          let e := v.mapEntry n z.1
          let i := e.1 / 4096
          let p := e.1 % 4096 / 64
          if v.mapped n then
            match z.2 with
            | .full a b g => v.column n w q a b g i p e.2.2
            | .fallback x => v.column n w q x x 0 i p e.2.2
            | .foreign x => v.column n w q x x 0 i p e.2.2
            | .missing _ => (0, false)
          else match z.2 with
            | .full a _ _ => a.pix q i
            | .fallback x => x.pix q i
            | .foreign x => x.pix q i
            | .missing _ => (0, false)
      let has := fun (k : Nat) => used.any fun x => bit x.status k
      let why := whyMin ((used.map (·.why)).foldl whyMin 0) (if fo then 5 else 0)
      let status := (if has 8 || fo then stUnconf else 0) + (if has 9 then stUnlocked else 0)
        + (if has 10 then stDamaged else 0) + (if has 11 || fb then stFallback else 0) + (if has 12 then stRescanned else 0)
      some (⟨r, status, why, anchorId, out.map (·.map (·.1)), out.map (·.map (·.2)), (used.flatMap (·.src)).eraseDups⟩, fb, fo)

/-! ## Brim tracking (R260 to R264) -/

/-- Detector settings of a view. -/
def View.brStep (v : View) (n : Nat) : Nat := v.fld (Reg.brCfg n v.bank) 22 4 + 1
def View.brShift (v : View) (n : Nat) : Nat := v.fld (Reg.brCfg n v.bank) 18 4
def View.brLost (v : View) (n : Nat) : Nat := max 1 (v.fld (Reg.brCfg n v.bank) 0 16)
def View.brPlane (v : View) (n : Nat) : Nat := v.fld (Reg.brCfg n v.bank) 27 2
def View.brDark (v : View) (n : Nat) : Bool := v.fld (Reg.brCfg n v.bank) 29 1 == 1

/-- The raw edge of a side as a column u of the map (R261). -/
def View.rawEdge (v : View) (n side : Nat) (x : Row) : Option Nat :=
  let dd := v.brStep n
  let val := fun (u : Nat) => ((x.pix (v.brPlane n) u).1 : Int)
  let band := if side = 0 then v.rd (Reg.brLband n v.bank) else v.rd (Reg.brRband n v.bank)
  let lo := bits band 0 16
  let hi := bits band 16 16
  let us := (List.range (hi + 1 - lo)).map (lo + ·)
  let g := fun (u : Nat) =>
    let y := if side = 0 then val u - val (u - dd) else val u - val (u + dd)
    if v.brDark n then -y else y
  let p := fun (u : Nat) => decide (g u ≥ (v.fld (Reg.brThresh n v.bank) 0 24 : Nat))
  if side = 0 then us.find? p else us.reverse.find? p

/-- What a raw edge does to a side's filter (R262): the new filter, whether it updated s, whether it was rejected, and a
BRIM_LOST to raise (false lost, true found). -/
def Brim.update (f : Brim) (gate shift nlost : Nat) (e : Option Nat) : Brim × Bool × Bool × Option Bool :=
  let r : Brim × Bool × Bool × Option Bool := match e with
    | none => ({ f with miss := f.miss + 1 }, false, false, none)
    | some c =>
      let x : Int := 256 * c - f.s
      if f.valid = false then (⟨true, 256 * c, 0⟩, true, false, some true)
      else if gate > 0 ∧ x.natAbs > 256 * gate then ({ f with miss := f.miss + 1 }, false, true, none)
      else (⟨true, ((f.s : Int) + floorDiv x (2 ^ shift)).toNat, 0⟩, true, false, none)
  if r.1.valid ∧ r.1.miss ≥ nlost then ({ r.1 with valid := false, miss := 0 }, r.2.1, r.2.2.1, some false) else r

/-- Change what a side gathers for the edge record of batt b (R264). -/
def Pipe.modEdge (p : Pipe) (b side : Nat) (f : EdgeAcc → EdgeAcc) : Pipe :=
  if p.edges.any fun e => e.batt == b && e.side == side then
    { p with edges := p.edges.map fun e => if e.batt = b ∧ e.side = side then f e else e }
  else { p with edges := p.edges ++ [f { batt := b, side := side }] }

/-- A blocked row of batt b passes one side's detector and filter (R261 to R264). A missing row changes neither (R263). -/
def Dev.brimSide (d : Dev) (n b : Nat) (v : View) (row : Row) (side : Nat) : Dev :=
  if v.searches n side = false then d
  else
    let f0 := (d.pipe n).brims.getD side {}
    if row.present = false then
      d.modPipe n fun p => p.modEdge b side fun e => { e with lost := !f0.valid }
    else
      let e := (v.rawEdge n side row).map (v.col0 n + ·)
      let r := f0.update (v.fld (Reg.brGate n v.bank) 0 16) (v.brShift n) (v.brLost n) e
      let f := r.1
      let d1 := d.modPipe n fun p =>
        ({ p with brims := modAt p.brims side fun _ => f }).modEdge b side fun a => { a with
          last := if f.valid then some f.s else a.last
          min := if f.valid then some (a.min.elim f.s (Nat.min f.s)) else a.min
          max := if f.valid then some (a.max.elim f.s (Nat.max f.s)) else a.max
          found := satAdd 16 a.found (b2n r.2.1)
          rej := satAdd 16 a.rej (b2n r.2.2.1)
          miss := satAdd 16 a.miss (b2n e.isNone)
          lost := !f.valid }
      let d2 := (d1.setFlag (Reg.brStat n) (31 - side) f.valid).wrN (if side = 0 then Reg.brLedge n else Reg.brRedge n) f.s
      let d3 := if r.2.2.1 then d2.incSat (Reg.brRejCnt n) 0 32 1 else d2
      match r.2.2.2 with
      | some k => d3.event 0x8701 (some b) (le 1 side ++ le 1 n ++ le 1 (b2n k) ++ zeros 1 ++ le 8 row.r)
      | none => d3

/-! ## Histograms (R282, R283) -/

/-- The highest k with 2^k at most x, by at most n halvings. -/
def log2Go : Nat → Nat → Nat
  | 0, _ => 0
  | n + 1, x => if x < 2 then 0 else log2Go n (x / 2) + 1

/-- The bin of a value (R283). -/
def histBin (hmode hshift v : Nat) : Nat :=
  let w := v / 2 ^ hshift
  if hmode = 0 then min 255 w
  else if w < 256 then w / 16
  else
    let e := log2Go 24 w - 7
    min 255 (e * 16 + (w / 2 ^ (e - 1) - 256) / 16)

/-- Change the statistics of batt b of a pipeline. -/
def Pipe.modStat (p : Pipe) (s0 : Stat) (f : Stat → Stat) : Pipe :=
  if p.stats.any fun s => s.batt == s0.batt then
    { p with stats := p.stats.map fun s => if s.batt = s0.batt then f s else s }
  else { p with stats := p.stats ++ [f s0] }

/-- A blocked row enters the histograms of its batt, or is excluded for an exposure reason (R282). -/
def Dev.histRow (d : Dev) (n b : Nat) (v : View) (row : Row) : Dev :=
  let id := d.expidOf n b
  let np := v.nplanes n
  let s0 : Stat := ⟨b, id, v.hmode n, v.hshift n, 0, 0, 0, List.replicate np (List.replicate 256 0)⟩
  if row.present = false then d.modPipe n fun p => p.modStat s0 fun s => s
  else
    let foreign := row.expid != id
    if foreign || bit row.status 8 then
      (d.modPipe n fun p => p.modStat s0 fun s => { s with
        excl := satAdd 32 s.excl 1
        why := whyMin s.why (whyMin row.why (if foreign then 5 else 0)) }).incSat (Reg.napCnt n) 0 16 1
    else
      let lo := v.fld (Reg.napHfirst n v.bank) 0 20
      let hi := v.fld (Reg.napHlast n v.bank) 0 20
      let us := (List.range (v.ncol n)).filter fun u => decide (lo ≤ v.col0 n + u ∧ v.col0 n + u ≤ hi)
      let add := fun (q : Nat) (bins : List Nat) => us.foldl (fun bs u =>
        let x := row.pix q u
        modAt bs (if x.2 then 255 else histBin (v.hmode n) (v.hshift n) x.1) fun k => satAdd 32 k 1) bins
      d.modPipe n fun p => p.modStat s0 fun s => { s with
        npix := s.npix + us.length
        bins := (s.bins.zip (List.range np)).map fun z => add z.2 z.1 }

/-! ## A blocked row in its place -/

/-- Blocked row r of the card of line `gen` joins the blocked rows; counters, filters and statistics follow (R257, R262,
R282). One that a deadline forces to be missing DEADLINE will be late when its lines come (R238, R259). -/
def Dev.putBlocked (d : Dev) (n gen b : Nat) (x : Row × Bool × Bool) (force : Bool) : Dev :=
  let d1 := d.modCard n gen fun c =>
    let bs := c.blocked ++ [x.1]
    { c with blocked := bs, blkNext := nextNot (fun k => bs.any fun y => y.r == k) c.blkNext (bs.length + 1),
             late := if force ∧ x.1.status % 16 = Cause.deadline then c.late ++ [x.1.r] else c.late }
  let d2 := if x.2.1 then d1.incSat (Reg.bkFbkCnt n) 0 32 1 else d1
  let d3 := if x.2.2 then d2.incSat (Reg.bkXexpCnt n) 0 32 1 else d2
  let v := d.viewOf n b
  ((d3.brimSide n b v x.1 0).brimSide n b v x.1 1).histRow n b v x.1

/-- Form blocked row r of a card, at a deadline if `force` says so. -/
def Dev.blockAt (d : Dev) (n gen r : Nat) (force : Bool) : Option Dev :=
  match d.card n gen with
  | none => none
  | some c =>
    if c.inLine r = false ∨ (c.blockedRow r).isSome then none
    else (d.formBlocked n c r force).map fun x => d.putBlocked n gen (c.battOf r) x force

/-- Form the next blocked row of a card. -/
def Dev.blockNext (d : Dev) (n gen : Nat) : Option Dev :=
  match d.card n gen with
  | some c => d.blockAt n gen c.blkNext false
  | none => none

/-- Head n has finished batt B (R242, R259): every blocked row of it has been formed. -/
def Card.finished (c : Card) (b : Nat) : Bool := decide (c.blkNext ≥ c.first b + c.height)
  || (List.range c.height).all fun j => (c.blockedRow (c.first b + j)).isSome

end Sys2Proof.Machine
end

