-- ==== Sys2Proof/Machine/NapOps.lean ====
section
/-! DEFINITION. Nap scoring (spec/09_nap_and_exposure.md R270 to R281): the records of a tile row. -/

namespace Sys2Proof.Machine

open Sys2Proof

/-- Integer square root, rounded down, of a number below 4^n. -/
def isqrtGo (x : Nat) : Nat → Nat → Nat
  | 0, r => r
  | n + 1, r => if (r + 2 ^ n) * (r + 2 ^ n) ≤ x then isqrtGo x n (r + 2 ^ n) else isqrtGo x n r

/-- The exact integer square root, rounded down (R275). -/
def isqrt (x : Nat) : Nat := isqrtGo x 40 0

/-- Sum of a list. -/
def sumN (l : List Nat) : Nat := l.foldl (· + ·) 0

/-- Thresholds of class m of a view (R274, R279): MEAN_LO, MEAN_HI, SPREAD_HI, EDGE_HI, FMAX_HI, FLAG_MASK. -/
structure Thresholds where
  meanLo : Nat
  meanHi : Nat
  spreadHi : Nat
  edgeHi : Nat
  fmaxHi : Nat
  mask : Nat

def View.thresholds (v : View) (n m : Nat) : Thresholds :=
  ⟨v.fld (Reg.napThrW0 n v.bank m) 0 12, v.fld (Reg.napThrW0 n v.bank m) 16 12, v.fld (Reg.napThrW1 n v.bank m) 0 12,
   v.fld (Reg.napThrW1 n v.bank m) 16 16, v.fld (Reg.napThrW2 n v.bank m) 16 16, v.fld (Reg.napThrW2 n v.bank m) 0 12⟩

/-- The pixels of a tile that count (R271): the covered columns u of a tile column, and its present rows. -/
structure TilePix where
  us : List Nat
  rows : List Row

/-- Row r of batt b is in the batt and present. -/
def Card.usable (c : Card) (b : Nat) (r : Int) : Option Row :=
  if r < c.first b ∨ r ≥ c.first b + c.height then none
  else (c.blockedRow r.toNat).bind fun x => if x.present then some x else none

/-- |y| of the filter at a counted pixel (R277). -/
def Card.filterAt (c : Card) (v : View) (n b q : Nat) (x : Row) (u : Nat) : Nat :=
  let rowAt := fun (dy : Int) =>
    match c.usable b ((x.r : Int) + dy) with
    | some y => y
    | none => match c.usable b ((x.r : Int) - dy) with
      | some y => y
      | none => x
  let colAt := fun (dx : Int) =>
    let ok := fun (k : Int) => decide (0 ≤ k ∧ k < v.ncol n)
    if ok ((u : Int) + dx) then ((u : Int) + dx).toNat else if ok ((u : Int) - dx) then ((u : Int) - dx).toNat else u
  let acc := ((List.range 25).map fun i =>
    v.napK n i * (((rowAt ((i / 5 : Nat) - 2)).pix q (colAt ((i % 5 : Nat) - 2))).1 : Int)).foldl (· + ·) 0
  (shr (acc + 512) 10).natAbs

/-- Sum and number of the absolute differences of horizontal and vertical pairs of counted pixels (R276). -/
def TilePix.edges (t : TilePix) (q : Nat) : Nat × Nat :=
  let val := fun (x : Row) (u : Nat) => (x.pix q u).1
  let diff := fun (a b : Nat) => (a - b) + (b - a)
  let h := t.rows.flatMap fun x => (t.us.filter fun u => t.us.contains (u + 1)).map fun u => diff (val x (u + 1)) (val x u)
  let v := t.rows.flatMap fun x => match t.rows.find? fun y => y.r == x.r + 1 with
    | some y => t.us.map fun u => diff (val y u) (val x u)
    | none => []
  (sumN h + sumN v, h.length + v.length)

/-- The record of tile column tc in tile row `trow` of batt b of head n (R273 to R279), as its bytes and FLAGGED. -/
def Dev.tileRecord (d : Dev) (n : Nat) (c : Card) (b trow tc : Nat) : Bytes × Bool :=
  let v := d.viewOf n b
  let r0 := c.first b + 64 * trow
  let t : TilePix := ⟨(List.range (v.ncol n)).filter fun u => (v.col0 n + u) / 64 == tc,
    (List.range 64).filterMap fun j => c.usable b ((r0 + j : Nat) : Int)⟩
  let cnt := t.us.length * t.rows.length
  let np := v.nplanes n
  let px := fun (q : Nat) => t.rows.flatMap fun x => t.us.map fun u => x.pix q u
  let score := fun (j : Nat) =>
    if cnt = 0 ∨ j ≥ np then ((0, false), (0, false))
    else
      let vs := (px j).map (·.1)
      let s1 := sumN vs
      let s2 := sumN (vs.map fun x => x * x)
      (pf12 s1 cnt, pf12 (isqrt (cnt * s2 - s1 * s1)) cnt)
  let scores := (List.range 4).map score
  let sp := v.scorePlane n
  let e := if sp < np then t.edges sp else (0, (t.edges 0).2)
  let edge := if e.2 = 0 then (0, false) else pf16 e.1 e.2
  let fm := if sp < np then ((t.rows.flatMap fun x => t.us.map fun u => c.filterAt v n b sp x u).foldl max 0) else 0
  let fmax := pf16 fm 1
  let cls := v.tileClass n (tc - v.col0 n / 64)
  let th := v.thresholds n cls
  let id := d.expidOf n b
  let any := fun (k : Nat) => decide (cnt > 0) && t.rows.any fun x => bit x.status k
  let unconf := any 8 || (decide (cnt > 0) && t.rows.any fun x => x.expid != id)
  let dmg := any 10
  let sat := decide (cnt > 0) && ((List.range np).any (fun q => (px q).any (·.2)) || scores.any (fun s => s.1.2 || s.2.2)
    || edge.2 || fmax.2)
  let ms := scores.getD sp ((0, false), (0, false))
  let on := decide (cnt > 0)
  let low := listMask ((if on && decide (ms.1.1 < th.meanLo) then [0] else []) ++ (if on && decide (ms.1.1 > th.meanHi) then [1] else [])
    ++ (if on && decide (ms.2.1 > th.spreadHi) then [2] else []) ++ (if on && decide (edge.1 > th.edgeHi) then [3] else [])
    ++ (if on && decide (fmax.1 > th.fmaxHi) then [4] else []) ++ (if sat then [6] else []) ++ (if dmg then [7] else [])
    ++ (if unconf then [8] else []) ++ (if any 9 then [9] else []) ++ (if cnt > 0 ∧ cnt < 4096 then [10] else [])
    ++ (if cnt = 0 then [11] else []))
  let flagged := dmg || (low &&& th.mask) != 0
  let flags := low + cls * 2 ^ 12 + b2n flagged * 2 ^ 15
  let word := ((List.range 4).map fun j =>
      let s := scores.getD j ((0, false), (0, false))
      (s.1.1 + s.2.1 * 2 ^ 12) * 2 ^ (24 * j)).foldl (· + ·) 0 + edge.1 * 2 ^ 96 + fmax.1 * 2 ^ 112
  (le 8 (b + id * 2 ^ 48 + n * 2 ^ 56) ++ le 4 (trow * 2 ^ 16 + tc) ++ le 2 flags ++ le 2 cnt ++ le 16 word, flagged)

/-- A record read with poison: DAMAGED, and so FLAGGED (R109, R274). -/
def poisonRecord (rec : Bytes) : Bytes := rec.take 12 ++ le 2 (leAt rec 12 2 ||| 0x8080) ++ rec.drop 14

/-- Tile rows per batt. -/
def Card.tileRows (c : Card) : Nat := c.height / 64

/-- The tile row with running number t of a card's line. -/
def Card.tileRow (c : Card) (t : Nat) : Option TileRow :=
  c.tiles.find? fun x => x.batt == c.grid.first + t / c.tileRows && x.trow == t % c.tileRows

/-- Form the records of tile row number t of a card (R280), once its rows and those its filter reads are formed. -/
def Dev.napAt (d : Dev) (n gen t : Nat) : Option Dev :=
  match d.card n gen with
  | none => none
  | some c =>
    let b := c.grid.first + t / c.tileRows
    let trow := t % c.tileRows
    let r0 := c.first b + 64 * trow
    let rows := (List.range 66).filter fun j => decide (64 * trow + j < c.height)
    if c.inLine r0 = false ∨ (c.tileRow t).isSome ∨ (rows.any fun j => (c.blockedRow (r0 + j)).isNone) then none
    else
      let tc := d.tileCols (d.viewOf n b) n
      let recs := (List.range tc.2).map fun j => d.tileRecord n c b trow (tc.1 + j)
      let d1 := d.modCard n gen fun c =>
        let ts := c.tiles ++ [⟨b, trow, recs.map (·.1)⟩]
        let c1 := { c with tiles := ts }
        { c1 with napNext := nextNot (fun k => (c1.tileRow k).isSome) c.napNext (ts.length + 1) }
      some ((d1.incWrap (Reg.napTiles n) 0 32 recs.length).incSat (Reg.napCnt n) 16 16 (recs.countP fun x => x.2))

/-- Form the next tile row of a card. -/
def Dev.napNext (d : Dev) (n gen : Nat) : Option Dev :=
  match d.card n gen with
  | some c => d.napAt n gen c.napNext
  | none => none

end Sys2Proof.Machine
end

