-- ==== Sys2Proof/Machine/HoodOps.lean ====
section
/-! DEFINITION. The frame store, the page table, the card hoods and the marks (spec/11_hoods_and_frame_store.md): the
writing and the reading of a row. -/

namespace Sys2Proof.Machine

open Sys2Proof

/-- n bytes of the frame store from address a. -/
def Dev.fsRd (d : Dev) (a n : Nat) : Bytes := Sparse.getMany fsZero d.hood.fs a n

/-- Write bytes to the frame store from address a. -/
def Dev.fsWr (d : Dev) (a : Nat) (b : Bytes) : Dev :=
  { d with hood := { d.hood with fs := Sparse.setMany fsZero d.hood.fs a b } }

/-- Change the hood part of the state. -/
def Dev.modHood (d : Dev) (f : Hoods → Hoods) : Dev := { d with hood := f d.hood }

/-! ## Areas and pages (R331, R333, R522) -/

/-- What stands in for a withdrawn page. -/
def Hoods.actual (h : Hoods) (p : Nat) : Nat := ((h.repl.find? fun r => r.1 == p).map (·.2)).getD p

/-- The pages of the areas of a kind are written in a way that no rule lays out (R41, notes/assumptions/136.md). -/
def Hoods.soil (h : Hoods) (kind : Nat) : Hoods :=
  let as_ := h.areas.filter fun (a : Area) => a.kind == kind
  let mine := fun (p : Nat) => as_.any fun (a : Area) => decide (a.first ≤ p ∧ p < a.first + a.count)
  { h with soiled := (h.soiled ++ as_.map (fun (a : Area) => (a.first, a.count))
      ++ (h.repl.filter fun (r : Nat × Nat) => mine r.1).map fun (r : Nat × Nat) => (r.2, 1)).eraseDups }

/-- The pages of an area, in virtual order. -/
def Hoods.pagesOf (h : Hoods) (kind owner : Nat) : List Nat :=
  ((h.areas.filter fun a => a.kind == kind && a.owner == owner).flatMap fun a => (List.range a.count).map (a.first + ·)).map
    h.actual

/-- Page v of an area's areas, walked without listing them. -/
def areaPage : List Area → Nat → Nat → Nat → Option Nat
  | [], _, _, _ => none
  | a :: t, kind, owner, v =>
    if a.kind = kind ∧ a.owner = owner then
      if v < a.count then some (a.first + v) else areaPage t kind owner (v - a.count)
    else areaPage t kind owner v

/-- The home page of virtual page v of pipeline n. -/
def Dev.homePage (d : Dev) (n v : Nat) : Option Nat := (areaPage d.hood.areas 1 n v).map d.hood.actual

/-- A physical page is VALID (R332). -/
def Hoods.isValid (h : Hoods) (p : Nat) : Bool := h.valid.any fun x => decide (x.1 ≤ p ∧ p < x.1 + x.2)

/-- The area that a physical page belongs to, and its index there. -/
def Hoods.areaOf (h : Hoods) (p : Nat) : Option (Area × Nat) :=
  let home := h.home p
  (h.areas.find? fun a => decide (a.first ≤ home ∧ home < a.first + a.count)).map fun a =>
    (a, home - a.first + ((h.areas.takeWhile fun x => x != a).filter fun x => x.kind == a.kind && x.owner == a.owner).foldl
      (fun k x => k + x.count) 0)

/-- Reserve pages in use: those that stand for a virtual page. -/
def Dev.reserveInUse (d : Dev) : List Nat :=
  let rs := d.hood.pagesOf 2 0
  d.hood.laps.filterMap fun l => match l.phys with
    | some p => if rs.contains p then some p else none
    | none => none

/-- Free card reserve pages. -/
def Dev.reserveFree (d : Dev) : List Nat :=
  let used := d.reserveInUse
  (d.hood.pagesOf 2 0).filter fun p => !used.contains p && !d.hood.retired.contains p

/-- The page table entry of physical page p (R331). -/
def Dev.pageEntry (d : Dev) (p : Nat) : Nat :=
  let h := d.hood
  let lap := h.laps.find? fun l => l.phys == some p
  let a := h.areaOf p
  let ret := h.retired.contains p
  let kind := if ret then 0 else a.elim 0 (·.1.kind)
  let owner := match lap with
    | some l => if kind = 2 then l.pipe else a.elim 0 (·.1.owner)
    | none => if kind = 1 ∨ kind = 5 then a.elim 0 (·.1.owner) else 0
  let vp := match lap with
    | some l => if kind = 2 then l.v else a.elim 0 (·.2)
    | none => if kind = 0 then 0 else a.elim 0 (·.2)
  b2n (h.isValid p) * 2 ^ 31 + b2n ret * 2 ^ 30 + b2n (h.sealed.contains p) * 2 ^ 29 + kind * 2 ^ 25 + owner * 2 ^ 21 + vp

/-- Show the reserve and the unallocated pages (HOOD_FREE). -/
def Dev.showFree (d : Dev) : Dev :=
  let alloc := (d.hood.areas.filter fun a => a.kind != 5).foldl (fun k a => k + a.count) 0
  let gone := (d.hood.retired.filter fun p => decide (p < usablePages)).length
  d.wrN Reg.hoodFree (d.reserveFree.length * 2 ^ 16 + (usablePages - alloc - gone))

/-! ## Frame store errors and page retirement (R328, R522, R523) -/

/-- A page that belongs to no area, is not withdrawn and stands for no other. -/
def Hoods.freePage (h : Hoods) : Option Nat :=
  (List.range usablePages).find? fun p =>
    !(h.areas.any fun a => decide (a.first ≤ p ∧ p < a.first + a.count)) && !h.retired.contains p
      && !(h.repl.any fun r => r.2 == p)

/-- CNF_RETIRED. -/
def Dev.showRetired (d : Dev) : Dev :=
  d.wrN Reg.cnfRetired ((d.cnf.retired.filter (·.pending)).length * 2 ^ 16 + (d.cnf.retired.filter fun r => !r.pending).length)

/-- Page p is withdrawn (R522): it is RETIRED, PAGE_RETIRED is raised; the 512th raises source 0x84. -/
def Dev.retirePage (d : Dev) (p : Nat) : Dev :=
  match d.cnf.retired.find? fun r => r.page == p && r.pending with
  | none => d
  | some r =>
    let d1 := { d with cnf := { d.cnf with retired := d.cnf.retired.map fun x => if x = r then { x with pending := false } else x } }
    let d2 := (d1.modHood fun h => { h with retired := h.retired ++ [p], sealed := h.sealed.filter fun q => q != p }).showRetired
    let n := (d2.cnf.retired.filter fun x => !x.pending).length
    let d3 : Dev := if n ≥ 512 then d2.faultOn 0x84 else d2
    (d3.event 0x8E01 none (le 2 p ++ le 1 r.cause ++ le 1 r.kind ++ le 2 n ++ zeros 2)).showFree

/-- Page p is due. -/
def Dev.isDue (d : Dev) (p : Nat) : Bool := d.cnf.retired.any fun r => r.page == p && r.pending

/-- A due page is replaced by a free page, or stays in use with source 0x85. -/
def Dev.replacePage (d : Dev) (p : Nat) : Dev :=
  if d.isDue p = false then d
  else match d.hood.freePage with
    | none => d.faultOn 0x85
    | some q =>
      let home := d.hood.home p
      ((d.modHood fun h => { h with
        repl := (home, q) :: h.repl.filter fun r => r.1 != home
        valid := if h.isValid q then h.valid else (q, 1) :: h.valid }).retirePage p).faultOff 0x85

/-- A page becomes due for retirement (R522, R523): a free one is RETIRED at once, one of a bulk area that no command holds
is replaced, the others wait; beyond 512 pages it stays in use. -/
def Dev.pageDue (d : Dev) (p cause : Nat) : Dev :=
  if d.flag Reg.cnfCtrl 30 = false ∨ (d.cnf.retired.any fun r => r.page == p) = true then d
  else if (d.cnf.retired.filter fun r => !r.pending).length ≥ 512 then d.faultOn 0x84
  else
    let a := d.hood.areaOf p
    let kind := a.elim 0 (·.1.kind)
    let d1 := ({ d with cnf := { d.cnf with retired := d.cnf.retired ++ [⟨p, cause, true, kind⟩] } } : Dev).showRetired
    if kind = 0 then d1.retirePage p
    else if kind = 5 && !(d.holds.any fun x => x.2.contains (.bulkArea (a.elim 0 (·.1.owner)))) then d1.replacePage p
    else d1

/-- Channel of a frame store address (R327). -/
def channelOf (a : Nat) : Nat := a / 256 % 32

/-- A single-bit error of the word at an address is corrected and counted against its page (R328, R522). -/
def Dev.wordCorrected (d : Dev) (a : Nat) : Dev :=
  let hour := 3600 * cyclesS
  let d1 := ({ d with cnf := { d.cnf with ce := (a, d.now) :: d.cnf.ce } } : Dev).incSat Reg.fsEcc 16 16 1
  let n := (d1.cnf.ce.filter fun x => x.1 / pageSize == a / pageSize && decide (d1.now < x.2 + hour)).length
  if n ≥ max 1 (d1.fld Reg.cnfCtrl 0 16) then d1.pageDue (a / pageSize) 0 else d1

/-- A word with an uncorrectable error (R328): it is counted, FS_UE_ADDR takes its address, source 0x50 + 2g + h occurs, and
its page is due. -/
def Dev.wordBad (d : Dev) (a : Nat) : Dev :=
  let c := channelOf a
  let d1 := (d.incSat Reg.fsEcc 0 16 1).wr64 Reg.fsUeAddr a
  (d1.fault (0x50 + 2 * (c / 8) + c % 8 / 4)).pageDue (a / pageSize) 1

/-- What a reading of the frame store met: the addresses of corrected and of uncorrectable words. -/
def Dev.fsErrors (d : Dev) (corrected bad : List Nat) : Dev :=
  bad.foldl (fun d a => d.wordBad a) (corrected.foldl (fun d a => d.wordCorrected a) d)

/-- HOOD_SCAN_ERROR (R329, R353, R354): a page whose seal does not match (0) or with an uncorrectable word (1). -/
def Dev.scanError (d : Dev) (p kind : Nat) (batt : Option Nat) : Dev :=
  let head := ((d.hood.laps.find? fun l => l.phys == some p).map (·.pipe)).getD ((d.hood.areaOf p).elim 0 (·.1.owner))
  (d.incSat Reg.hoodCnt 16 8 1).event 0x8A03 batt (le 4 p ++ le 1 head ++ le 1 kind ++ zeros 2)

/-! ## Marks (R345, R346) -/

/-- STATE, FIRST and LAST of mark m. -/
def Dev.markState (d : Dev) (m : Nat) : Nat := d.fld (Reg.markStat m) 30 2
def Dev.markFirst (d : Dev) (m : Nat) : Nat := d.rd64 (Reg.markFirst m) % 2 ^ 48
def Dev.markLast (d : Dev) (m : Nat) : Nat := d.rd64 (Reg.markLast m) % 2 ^ 48

/-- Mark m is live and covers batt b. -/
def Dev.markHas (d : Dev) (m b : Nat) : Bool :=
  d.markState m == 1 && decide (d.markFirst m ≤ b ∧ b ≤ d.markLast m)

/-- Some live mark covers batt b. -/
def Dev.marked (d : Dev) (b : Nat) : Bool := (List.range 16).any fun m => d.markHas m b

/-- A mark becomes void (R346, R355): MARK_VOID with the pipeline that did it. -/
def Dev.voidMark (d : Dev) (m head : Nat) (batt : Option Nat) : Dev :=
  ((d.setFld (Reg.markStat m) 30 2 2).incSat Reg.hoodCnt 24 8 1).event 0x8A01 batt
    (le 1 m ++ le 1 head ++ zeros 6 ++ le 8 (d.markFirst m) ++ le 8 (d.markLast m))

/-! ## Batts in the hood (R343) -/

/-- The live batt of a number, if the tracker still knows it. -/
def Dev.liveBatt (d : Dev) (b : Nat) : Option Batt := d.ful.batts.find? fun x => x.num == b && x.recalled.isNone

/-- A batt is not yet FULLED. -/
def Dev.unfulled (d : Dev) (b : Nat) : Bool := (d.liveBatt b).any fun x => x.state == .opened || x.state == .closed

/-- Batt b is lost in some pipeline. -/
def Dev.lostBatt (d : Dev) (b : Nat) : Bool := d.hood.lost.any fun l => l.2 == b

/-- Show the lowest hooded batt of pipeline n (HOODn_OLDEST). -/
def Dev.showOldest (d : Dev) (n : Nat) : Dev :=
  d.wr64 (Reg.hoodOldest n) ((minOf ((d.hood.slots.filter fun s => s.pipe == n && !d.lostBatt s.batt).map (·.batt))).getD noBatt % 2 ^ 48)

/-- Batt b becomes lost in pipeline n. -/
def Dev.loseBatt (d : Dev) (n b : Nat) : Dev :=
  if d.hood.lost.contains (n, b) then d
  else
    let d1 := d.modHood fun h => { h with lost := h.lost ++ [(n, b)] }
    { d1 with ful := { d1.ful with batts := d1.ful.batts.map fun x => if x.num = b then { x with notHooded := true } else x } }

/-! ## Page checks and holds (R347, R349) -/

/-- Pipeline n has a page substituted. -/
def Dev.substituted (d : Dev) (n : Nat) : Bool :=
  let rs := d.hood.pagesOf 2 0
  d.hood.laps.any fun l => l.pipe == n && l.phys.any rs.contains

/-- HOOD_PROTECT_HOLD (R347, R349). -/
def Dev.holdEvent (d : Dev) (n kind : Nat) : Dev :=
  (d.showFree).event 0x8A02 none (le 1 n ++ le 1 kind ++ zeros 2 ++ le 4 d.reserveFree.length)

/-- A hold ends once no page of the pipeline is substituted (R349). -/
def Dev.checkHold (d : Dev) (n : Nat) : Dev :=
  if d.substituted n then d
  else
    let d1 := d.modHood fun h => { h with exhausted := h.exhausted.erase n }
    if d1.flag Reg.hoodHeld n then (d1.setFlag Reg.hoodHeld n false).holdEvent n 1 else d1

/-- The page of virtual page v in this lap: from the page check of the first write of the lap (R347). -/
def Dev.pageCheck (d : Dev) (n lap v : Nat) : Dev × Option Nat :=
  match d.hood.laps.find? fun l => l.pipe == n && l.lap == lap && l.v == v && l.past.isNone with
  | some l => (d, l.phys)
  | none =>
    match d.homePage n v with
    | none => (d, none)
    | some home0 =>
      let d := d.replacePage home0
      let home := (d.homePage n v).getD home0
      let rs := d.hood.pagesOf 2 0
      let old := fun (l : LapPage) => l.pipe == n && l.v == v && !(l.phys.any rs.contains)
      let enter := fun (d : Dev) (p : Option Nat) =>
        d.modHood fun h => { h with laps := (h.laps.filter fun l => !old l) ++ [⟨n, lap, v, p, none⟩] }
      let held := d.hood.slots.any fun s => s.pages.contains home && d.marked s.batt
      if d.flag (Reg.hoodCfg n) 31 && held then
        match d.reserveFree with
        | p0 :: _ =>
          let place := d.hood.home p0
          let d := d.replacePage p0
          let p := d.hood.actual place
          let d1 := enter d (some p)
          (if d1.flag Reg.hoodHeld n then d1.showFree else (d1.setFlag Reg.hoodHeld n true).holdEvent n 0, some p)
        | [] =>
          let d1 := enter d none
          (if d1.hood.exhausted.contains n then d1
           else (d1.modHood fun h => { h with exhausted := n :: h.exhausted }).holdEvent n 2, none)
      else ((enter d (some home)).checkHold n, some home)

/-! ## Rows in the hood (R335 to R342) -/

/-- Slot geometry of pipeline n: ROW_BYTES and NSLOT. -/
def Dev.rowb (d : Dev) (n : Nat) : Nat := d.rdN (Reg.hoodRowb n)
def Dev.nslot (d : Dev) (n : Nat) : Nat := d.rdN (Reg.hoodNslot n)

/-- A sample as stored (R339). -/
def storeSample (lin : Bool) (x : Nat) : Bytes := if lin then le 3 x else le 2 (pf16 x 1).1

/-- A stored sample as read (R339). -/
def loadSample (lin : Bool) (b : Bytes) (o : Nat) : Nat := if lin then leAt b o 3 else min fullScale (pfDecode 12 (leAt b o 2))

/-- Pad to a multiple of 64 bytes. -/
def pad64 (b : Bytes) : Bytes := b ++ zeros (up64 b.length - b.length)

/-- Bits as bytes, bit u in bit u mod 8 of byte u / 8. -/
def packBits : Nat → List Bool → Bytes
  | 0, _ => []
  | n + 1, l => BitVec.ofNat 8 (listMask ((List.range 8).filter fun i => l.getD i false)) :: packBits n (l.drop 8)

/-- k records per row of a tile row: NTC over 64, rounded up. -/
def shareOf (ntc : Nat) : Nat := (ntc + 63) / 64

/-- The header of row r (R338). -/
def rowHeader (c : Card) (v : View) (n ntc : Nat) (lin : Bool) (row : Row) : Bytes :=
  le 8 row.r ++ le 8 (c.battOf row.r) ++ le 2 row.status ++ le 1 row.expid
  ++ le 1 (b2n lin + 2 * (v.nplanes n - 1)) ++ le 2 (v.ncol n) ++ le 2 ntc ++ le 4 (v.col0 n) ++ zeros 4
  ++ sle 8 (floorDiv (c.grid.origin + ((row.r * c.grid.pitch : Nat) : Int)) 4) ++ le 1 v.bank ++ zeros 23

/-- The samples and marks of a present row, plane by plane (R337). -/
def rowSamples (v : View) (n : Nat) (lin : Bool) (row : Row) : Bytes :=
  (List.range (v.nplanes n)).flatMap fun q =>
    let px := (List.range (v.ncol n)).map fun u => row.pix q u
    pad64 (px.flatMap fun x => storeSample lin x.1) ++ pad64 (packBits ((v.ncol n + 7) / 8) (px.map (·.2)))

/-- Write bytes at virtual byte o of a slot whose pages are given. -/
def Dev.writeVirt (d : Dev) (v0 : Nat) (pages : List Nat) (o : Nat) (b : Bytes) : Dev :=
  let first := pageSize - o % pageSize
  let at_ := fun (x : Nat) => pages.getD (x / pageSize - v0) 0 * pageSize + x % pageSize
  (d.fsWr (at_ o) (b.take first)).fsWr (at_ (o + first)) (b.drop first)

/-- Read bytes likewise. -/
def Dev.readVirt (d : Dev) (v0 : Nat) (pages : List Nat) (o n : Nat) : Bytes :=
  let first := pageSize - o % pageSize
  let at_ := fun (x : Nat) => pages.getD (x / pageSize - v0) 0 * pageSize + x % pageSize
  d.fsRd (at_ o) (min n first) ++ d.fsRd (at_ (o + first)) (n - first)

/-- The writing of a row's bytes (R332, R337, R340, R341): header and record share always, the share with its padding of zeros
(notes/assumptions/133.md), samples and marks when present. -/
def Dev.writeSlot (d : Dev) (n : Nat) (c : Card) (pages : List Nat) (row : Row) (recs : List Bytes) : Dev :=
  let v := d.viewOf n (c.battOf row.r)
  let lin := d.flag (Reg.hoodCfg n) 30
  let ntc := recs.length
  let k := shareOf ntc
  let o := row.r % d.nslot n * d.rowb n
  let v0 := o / pageSize
  let share := (recs.drop (row.r % 64 * k)).take k
  let d1 := ((d.writeVirt v0 pages o (rowHeader c v n ntc lin row)).writeVirt v0 pages (o + 64) (share.flatMap id)).writeVirt
    v0 pages (o + 64 + 32 * k) (zeros (up64 (32 * k) - 32 * k))
  if row.present then d1.writeVirt v0 pages (o + 64 + up64 (32 * k)) (rowSamples v n lin row) else d1

/-- Pages of the slot at virtual byte o. -/
def slotVPages (o len : Nat) : List Nat :=
  (List.range ((o + len - 1) / pageSize + 1 - o / pageSize)).map (o / pageSize + ·)

/-- The page checks of a slot: every page, or none when one has no place. -/
def Dev.checkPages (d : Dev) (n lap : Nat) : List Nat → Dev × Option (List Nat)
  | [] => (d, some [])
  | v :: t =>
    let r := d.pageCheck n lap v
    let s := r.1.checkPages n lap t
    match r.2, s.2 with
    | some p, some ps => (s.1, some (p :: ps))
    | _, _ => (s.1, none)

/-- A row's record in a slot is overwritten (R343, R346): its batt is lost in the pipeline, live marks over it are void. -/
def Dev.overwrite (d : Dev) (n : Nat) (s : SlotRec) : Dev :=
  let d1 := (d.modHood fun h => { h with slots := h.slots.erase s }).loseBatt n s.batt
  (List.range 16).foldl (fun d m => if d.markHas m s.batt then d.voidMark m n (some s.batt) else d) d1

/-- Put a row into its slot (R343): the page check, the slot check, then the write. False when it is HOOD_FULL. -/
def Dev.putSlot (d : Dev) (n : Nat) (c : Card) (row : Row) (recs : List Bytes) : Dev × Bool :=
  let ns := d.nslot n
  let len := d.rowb n
  if ns = 0 then (d, false)
  else
    let o := row.r % ns * len
    let ck := d.checkPages n (row.r / ns) (slotVPages o len)
    match ck.2 with
    | none => (ck.1.incSat Reg.hoodCnt 0 16 1, false)
    | some pages =>
      let hit := ck.1.hood.slots.filter fun s =>
        s.pipe == n && decide (s.off < o + len ∧ o < s.off + s.len) && s.pages.any pages.contains
          && (s.row != row.r || s.batt != c.battOf row.r)
      if hit.any fun s => d.unfulled s.batt then (ck.1, false)
      else
        let b := c.battOf row.r
        let d1 := hit.foldl (fun d s => d.overwrite n s) ck.1
        let d2 := d1.modHood fun h => { h with
          slots := (h.slots.filter fun s => !(s.pipe == n && s.row == row.r && s.batt == b)) ++ [⟨n, o, len, row.r, b, pages⟩]
          sealed := h.sealed.filter fun p => !pages.contains p }
        let rs := d2.hood.pagesOf 2 0
        let d3 := if pages.any rs.contains then d2.loseBatt n b else d2
        let d4 := d3.writeSlot n c pages row recs
        let w := signed 64 (d4.rd64 (Reg.hoodWptr n))
        ((if (row.r : Int) > w then d4.wr64 (Reg.hoodWptr n) row.r else d4).showOldest n, true)

/-- A row as a reader takes it from the hood (R342): status, records of its share, planes and marks. -/
structure HoodRow where
  status : Nat
  expid : Nat
  unconf : Bool
  col0 : Nat
  ncol : Nat
  ntc : Nat
  share : Bytes
  planes : List (List Nat)
  sats : List (List Bool)
  deriving DecidableEq, Repr, Inhabited

/-- The physical pages in which a reader looks for row r of batt b. -/
def Dev.slotPages (d : Dev) (n r b o len : Nat) : List Nat :=
  match d.hood.slots.find? fun s => s.pipe == n && s.row == r && s.batt == b && s.off == o with
  | some s => s.pages
  | none => (slotVPages o len).map fun v => (d.homePage n v).getD 0

/-- Row r of batt b of pipeline n as the hood gives it (R339, R342). -/
def Dev.hoodRow (d : Dev) (n r b : Nat) : HoodRow :=
  let ns := d.nslot n
  let len := d.rowb n
  let full : HoodRow := ⟨Cause.hoodFull, 0, false, 0, 0, 0, [], [], []⟩
  if ns = 0 then full
  else
    let o := r % ns * len
    let pages := d.slotPages n r b o len
    let v0 := o / pageSize
    let h := d.readVirt v0 pages o 64
    if leAt h 0 8 ≠ r ∨ leAt h 8 8 ≠ b then full
    else
      let status := leAt h 16 2
      let fmt := leAt h 19 1
      let lin := bit fmt 0
      let np := bits fmt 1 2 + 1
      let ncol := leAt h 20 2
      let ntc := leAt h 22 2
      let k := shareOf ntc
      let share := d.readVirt v0 pages (o + 64) (32 * k)
      let sb := if lin then 3 else 2
      let base := 64 + up64 (32 * k)
      let pl := up64 (ncol * sb) + up64 ((ncol + 7) / 8)
      if status % 16 ≠ 0 then ⟨status, leAt h 18 1, bit status 8, leAt h 24 4, ncol, ntc, share, [], []⟩
      else
        let body := fun (q : Nat) => d.readVirt v0 pages (o + base + q * pl) pl
        ⟨status, leAt h 18 1, bit status 8, leAt h 24 4, ncol, ntc, share,
         (List.range np).map fun q => (List.range ncol).map fun u => loadSample lin (body q) (sb * u),
         (List.range np).map fun q => (List.range ncol).map fun u => bit (byteAt (body q) (up64 (ncol * sb) + u / 8)) (u % 8)⟩

/-! ## The card writer (R33, R42, R341) -/

/-- The next row number the card writer has to take of a card, if its row and records are formed. -/
def Card.toWrite (c : Card) (r : Nat) : Option (Row × List Bytes) :=
  if c.inLine r = false ∨ c.isWritten r then none
  else match c.blockedRow r, c.tileRow (r / 64) with
    | some x, some t => some (x, t.recs)
    | _, _ => none

/-- Row r of a card is reported as written; `row` is how it is recorded (R238, R341). -/
def Dev.reportRow (d : Dev) (n gen : Nat) (row : Row) : Dev :=
  d.modCard n gen fun c =>
    let ah := c.ahead ++ [row.r]
    let w := nextNot ah.contains c.written (ah.length + 1)
    { c with written := w, ahead := ah.filter fun k => decide (k ≥ w),
             blocked := c.blocked.map fun x => if x.r = row.r then { x with status := row.status, planes := row.planes, sats := row.sats } else x }

/-- A late row is counted and discarded (R42, R238). -/
def Dev.countLate (d : Dev) (n b : Nat) : Dev :=
  let d1 := (d.incSat (Reg.cardLateCnt n) 0 32 1).modPipe n fun p => { p with lateRows := satAdd 16 p.lateRows 1 }
  { d1 with ful := { d1.ful with lateBatt := some (d1.ful.lateBatt.elim b (Nat.min b)) } }

/-- A row recorded missing by the card writer (R33, R343). -/
def Row.lostAt (x : Row) (cause : Nat) : Row :=
  { x with status := x.status / 16 * 16 + cause, planes := [], sats := [] }

/-- The card writer takes row r of a card (R33, R109, R341, R343); in a recovery of its pipeline it takes none (R239). -/
def Dev.writeRow (d : Dev) (n gen r : Nat) (overflow poison trPoison : Bool) : Option Dev :=
  match d.card n gen with
  | none => none
  | some c =>
    (if d.pipeRecov n then none else c.toWrite r).map fun x =>
      let b := c.battOf r
      let closed := d.ful.batts.any fun y => y.num == b && y.grid.gen == gen && y.recalled.isNone && y.state != .opened
      if closed then (d.countLate n b).reportRow n gen x.1
      else
        let row0 := if poison && x.1.present then { x.1 with status := x.1.status ||| stDamaged } else x.1
        let recs := if trPoison then x.2.map poisonRecord else x.2
        let d0 := if trPoison then d.modCard n gen fun c =>
            { c with tiles := c.tiles.map fun t => if t.batt = b ∧ t.trow = r % c.height / 64 then { t with recs := recs } else t }
          else d
        let row := if overflow then row0.lostAt Cause.writeOverflow else row0
        let d1 := if overflow then (d0.hopDrop (26 + n)).incSat (Reg.cardWrovfCnt n) 0 32 1 else d0
        let put := d1.putSlot n c row recs
        let rec_ := if put.2 then row else row.lostAt Cause.hoodFull
        let d2 := if rec_.present = false && x.1.present then put.1.incSat (Reg.cardMissCnt n) 0 32 1 else put.1
        d2.reportRow n gen rec_

/-! ## Reception by carding (R223, R237 to R239) -/

/-- The header of a row in its slot is written again, with a new status (R237). -/
def Dev.rewriteHeader (d : Dev) (n : Nat) (c : Card) (row : Row) : Dev :=
  match d.hood.slots.find? fun s => s.pipe == n && s.row == row.r && s.batt == c.battOf row.r with
  | none => d
  | some s =>
    let v0 := s.off / pageSize
    (d.writeVirt v0 s.pages (s.off + 16) (le 2 row.status)).modHood fun h => { h with
      sealed := h.sealed.filter fun p => !s.pages.contains p }

/-- RESCANNED is set in every row of an OPEN batt that needs line i of a head, in the blocked rows of OPEN batts formed from
such rows (R257), and in the headers of those already written (R237, DEDUCED, notes/assumptions/135.md); rows not yet formed take
it when they are. -/
def Dev.markRescanned (d : Dev) (n gen i : Nat) : Dev :=
  match d.card n gen with
  | none => d
  | some c0 =>
    let open_ := fun (b : Nat) => d.ful.batts.any fun x =>
      x.num == b && x.grid.gen == gen && x.recalled.isNone && x.state == .opened
    let hit := fun (r : Row) =>
      open_ (c0.battOf r.r) && !bit r.status 12 && (d.needs n c0 r.r).contains (i : Int)
    let rows := (c0.carded.filter hit).map (·.r)
    let hitB := fun (r : Row) => open_ (c0.battOf r.r) && !bit r.status 12 && r.src.any rows.contains
    let mark := fun (p : Row → Bool) (r : Row) => if p r then { r with status := r.status + stRescanned } else r
    let d1 := d.modCard n gen fun c => { c with
      carded := c.carded.map (mark hit), blocked := c.blocked.map (mark hitB), resc := c.resc ++ [(i, d.ful.nextOpen)] }
    ((c0.blocked.filter hitB).filter fun r => c0.isWritten r.r).foldl (fun d r => d.rewriteHeader n c0 (mark hitB r)) d1

/-- A line reaches carding (R237, R239): a duplicate is counted and discarded, once for the lines of one trigger; in a
recovery a line's data are discarded with cause RECOVERY. -/
def Dev.cardArrive (d : Dev) (n : Nat) (l0 : Line) : Dev :=
  match d.card n l0.gen with
  | none => d
  | some c =>
    let l := if d.pipeRecov n && l0.cause == 0 then { l0 with cause := Cause.recovery, planes := [], sats := [] } else l0
    let m := l.index c.awaits
    if c.hwm.any fun h => decide (m ≤ h) then
      if l.cause = 0 ∧ (c.mode = 2 ∨ l.sub = 0) then
        (d.incSat (Reg.cardDupCnt n) 0 32 1).markRescanned n l.gen (if c.mode = 2 then m else l.i)
      else d
    else
      (d.modCard n l.gen fun c =>
        ({ c with lines := c.lines ++ [l], hwm := some m }).takeEarly c.awaits (c.early.length + 1)).showHwm n l.gen

/-! ## Pages that become free (R347, R349, R353) -/

/-- The write pointer has passed the page of a lap: of the present line, or when the line of the lap ended. -/
def Dev.lapPassed (d : Dev) (l : LapPage) : Bool := l.past.getD (d.pagePassed l.pipe l.lap l.v)

/-- Reserve pages whose batts are all FULLED, and to which no more rows go, return to the reserve (R347). -/
def Dev.returnReserve (d : Dev) : Dev :=
  let rs := d.hood.pagesOf 2 0
  let done := d.hood.laps.filter fun l => match l.phys with
    | some p => rs.contains p && (l.past.isSome || d.lapPassed l)
        && (d.hood.slots.filter fun s => s.pages.contains p).all fun s => !d.unfulled s.batt
    | none => false
  if done = [] then d
  else
    let d1 := done.foldl (fun (d : Dev) l => d.modHood fun h => { h with
      laps := h.laps.erase l
      slots := h.slots.filter fun s => !(l.phys.any s.pages.contains)
      sealed := h.sealed.filter fun p => some p != l.phys }) d
    (done.map (·.pipe)).eraseDups.foldl (fun d n => d.checkHold n) d1.showFree

end Sys2Proof.Machine
end

