-- ==== Sys2Proof/Machine/Pixel.lean ====
section
/-! DEFINITION. The pixel commands, bulk references, and the events of pouncing and mosaic
(spec/06_pouncing_and_mosaic.md, spec/02_command_interface.md R75 to R79). -/

namespace Sys2Proof.Machine

open Sys2Proof

/-! ## Bulk references (R75 to R79) -/

/-- A bulk reference at offset o of a payload: region handle, offset, length. -/
structure BulkRef where
  region : Nat
  off : Nat
  len : Nat
  deriving DecidableEq, Repr

def bulkRef (p : Bytes) (o : Nat) : BulkRef := ⟨leAt p o 4, leAt p (o + 8) 8, leAt p (o + 16) 4⟩

/-- The reference's reserved fields are 0. -/
def refReserved (p : Bytes) (o : Nat) : Bool := zeroAt p (o + 4) 4 && zeroAt p (o + 20) 4

/-- The handle that names the bulk area of the command's mailbox. -/
def bulkArea : Nat := 0xFFFFFFFF

/-- The check of a reference: its form, the bulk area's size (R75, R79), or a live region that holds it. -/
def Dev.refCheck (d : Dev) (b : BulkRef) : Option Nat :=
  if b.off % 4 ≠ 0 ∨ b.len % 4 ≠ 0 ∨ b.len < 8 then some St.badParam
  else if b.region = bulkArea then (if b.off + b.len > bulkSize then some St.badParam else none)
  else if d.regionLive b.region = false then some St.regionRevoked
  else if b.off + b.len > d.regionLen b.region then some St.badParam
  else none

/-- The objects a reference takes: its region, or the bulk area of its mailbox (R71). -/
def refObjs (m : Nat) (b : BulkRef) : List Obj := if b.region = bulkArea then [.bulkArea m] else [.region b.region]

/-- The bulk references that a command of an opcode fetches, in their order; none for another command. -/
def fetchRefs (code : Nat) (p : Bytes) : List BulkRef :=
  match code with
  | 0x0204 => [bulkRef p 12]
  | 0x0501 => [bulkRef p 64]
  | 0x0502 => if leAt p 16 2 = 0 then [] else [bulkRef p 24]
  | 0x0503 => if leAt p 17 1 = 1 ∨ leAt p 17 1 = 2 then [bulkRef p 96] else []
  | 0x0701 => (if bit (leAt p 22 1) 0 then [bulkRef p 24] else []) ++ (if bit (leAt p 22 1) 1 then [bulkRef p 48] else [])
  | 0x1002 => [bulkRef p 4]
  | _ => []

/-- What a pixel command of mailbox m takes (R71): its pipeline, and the regions or the bulk area of its references. -/
def pxObjs (m code : Nat) (p : Bytes) : List Obj := .pipe (pxHead p) :: (fetchRefs code p).flatMap (refObjs m)

/-- The fetch of a reference begins: an RDMA READ of all LENGTH bytes, or a read of the bulk area (R77). -/
def Dev.fetch (d : Dev) (m : Nat) (b : BulkRef) : Dev :=
  if b.region = bulkArea then d else d.postRead (.bulkRead m) b.region b.off b.len

/-- The bytes of a fetched reference: from the bulk area of mailbox m, or as they arrived; checked and stripped (R76,
R77). -/
def Dev.fetched (d : Dev) (m : Nat) (b : BulkRef) (arrived : Bytes) : Option Bytes :=
  checkSeal b.off (if b.region = bulkArea then d.bulkRd m b.off b.len else arrived.take b.len)

/-- A write of bulk data with the seal that unit 5 forms: into the region, or the bulk area of mailbox m (R78, R116). -/
def Dev.bulkOut (d : Dev) (m : Nat) (b : BulkRef) (data : Bytes) : Dev :=
  let bytes := withSeal b.off data
  let d := d.unitRun 5 b.off data
  if b.region = bulkArea then d.bulkWr m b.off bytes
  else d.postWrite (.bulkWrite m) b.region b.off bytes

/-! ## Pixel commands -/

/-- Accept a pixel command that fetches: the shared checks, the reference, then the fetch. -/
def Dev.pxFetch (d : Dev) (r : Req) (bad : Option Nat) (refs : List BulkRef) : Result :=
  match d.pxChecks r.payload bad with
  | some st => .err d st
  | none =>
    match refs.findSome? d.refCheck with
    | some st => .err d st
    | none => .acc (refs.foldl (fun d b => d.fetch r.mbx.val b) d) (.pipe (pxHead r.payload) :: refs.flatMap (refObjs r.mbx.val)) []

/-- What a pixel command whose data has arrived meets before it writes the inactive bank: stiffening has become active (R459), a
swap is pending or a copy runs (R216, R217). -/
def Dev.pxLate (d : Dev) (p : Bytes) : Option Nat :=
  if d.stiffActive then some St.stiffened else if d.bankBusy (pxHead p) then some St.retry else none

/-- Do a pixel command that fetches nothing. -/
def Dev.pxDirect (d : Dev) (r : Req) (bad : Option Nat) (eff : Dev → Dev) (payload : Bytes) : Result :=
  match d.pxChecks r.payload bad with
  | some st => .err d st
  | none =>
    let x := (eff d).pxFinish r.payload
    if x.2 = St.ok then .ok x.1 payload else .err d x.2

/-- FUSED of a POUNCE_LOAD, and the values that its registers take. -/
def pounceFused (p : Bytes) : Bool := bit (leAt p 1 1) 1

/-- The bank that a POUNCE_LOAD's table and registers go to. -/
def Dev.pounceBank (d : Dev) (p : Bytes) : Nat := d.inactive (pxHead p)

/-- A POUNCE_LOAD that would set, clear or fill the fused table while the line runs (R218). -/
def Dev.fusedBusy (d : Dev) (p : Bytes) : Bool :=
  (pounceFused p || d.flag (Reg.ppMode (pxHead p)) 0) && d.lineStarted && d.mode (pxHead p) != 0

/-- A POUNCE_LOAD's own checks (R195, R214, R218). -/
def Dev.pounceBad (d : Dev) (p : Bytes) : Option Nat :=
  let n := pxHead p
  let rows := leAt p 16 1
  let w := d.width n
  let depth := depthOf (d.fld (Reg.hlCfg n) 8 6)
  let fused := pounceFused p
  if rows < 1 ∨ rows > 8 ∨ leAt p 17 1 > 8 ∨ leAt p 20 4 ≥ 2 ^ depth
      ∨ (List.range 9).any (fun c => decide (leAt p (24 + 4 * c) 4 ≥ 2 ^ 24)) = true
      ∨ (fused = true ∧ pxCommit p = true) then some St.badParam
  else if (d.pipe n).width.isNone then some St.badState
  else if rows * w > (if fused then 98304 else 49152) ∨ leAt p 80 4 ≠ rows * w * 4 + 4 then some St.badParam
  else if d.fusedBusy p then some St.badState
  else none

/-- POUNCE_LOAD loads calibration, black levels and pouncing parameters of the inactive bank (R214). -/
def execPounceLoad (r : Req) (s : State) : Host.Outcome State Fault Refusal :=
  s.upd fun d => d.command
    { code := 0x0501, len := lenIs 88, recov := true, objs := pxObjs r.mbx.val 0x0501,
      reserved := fun p => pxReserved 3 p && zeroAt p 18 2 && zeroAt p 60 4 && refReserved p 64 } r fun d =>
      d.pxFetch r (d.pounceBad r.payload) [bulkRef r.payload 64]

/-- A fetched calibration table and its parameters are written (R195, R214, R218). -/
def Dev.applyPounce (d : Dev) (p data : Bytes) : Dev :=
  let n := pxHead p
  let b := d.pounceBank p
  let fused := pounceFused p
  let base := tableBase n + if fused then 0 else b * 0x30000
  let regs := fun (d : Dev) (b : Nat) =>
    (List.range 9).foldl (fun d c => d.wrN (Reg.ppBl n b c) (leAt p (24 + 4 * c) 4))
      (d.wrN (Reg.ppCfg n b) ((leAt p 16 1 - 1) * 2 ^ 28 + leAt p 17 1 * 2 ^ 24 + leAt p 20 4))
  let d1 := (d.deepWrBytes base data).setFlag (Reg.ppMode n) 0 fused
  regs d1 b

/-- DEFECT_LOAD loads the defect map of the inactive bank (R197). -/
def execDefectLoad (r : Req) (s : State) : Host.Outcome State Fault Refusal :=
  s.upd fun d => d.command
    { code := 0x0502, len := lenIs 48, recov := true, objs := pxObjs r.mbx.val 0x0502,
      reserved := fun p => pxReserved 1 p && zeroAt p 18 6 && (leAt p 16 2 == 0 || refReserved p 24) } r fun d =>
      let p := r.payload
      let c := leAt p 16 2
      let bad := if c > 4096 ∨ (c = 0 ∧ zeroAt p 24 24 = false) ∨ (c ≠ 0 ∧ leAt p 40 4 ≠ c * 8 + 4) then some St.badParam
        else if (d.pipe (pxHead p)).width.isNone then some St.badState else none
      if c = 0 then
        d.pxDirect r bad (fun d => d.setFld (Reg.mosCfg (pxHead p) (d.inactive (pxHead p))) 0 13 0) []
      else d.pxFetch r bad [bulkRef p 24]

/-- A fetched defect map is in strictly ascending order, within range, of known patterns (R197). -/
def defectsOk (w rows : Nat) : Nat → Option Nat → Bytes → Bool
  | 0, _, _ => true
  | c + 1, prev, b =>
    let key := leAt b 0 4
    let pat := leAt b 4 4
    prev.all (fun p => decide (p < key)) && decide (pat < 6 ∧ key % 65536 < w ∧ key / 65536 < rows)
      && defectsOk w rows c (some key) (b.drop 8)

/-- Rows that a defect map's ROW may name: calibration rows on a LINE head, frame lines on a FRAME head. R197 gives no limit of k, and
CAL_ROWS may change in the same bank after the load: any of the 8 rows that a bank can have is taken (DESIGN CHOICE,
notes/assumptions/131.md). -/
def Dev.defectRows (d : Dev) (n : Nat) : Nat := if d.mode n = 2 then d.fld (Reg.hlGeom n) 16 16 else 8

/-- MOSAIC_SET's descriptor keeps R201, R202. -/
def Dev.mosaicBad (d : Dev) (p : Bytes) : Option Nat :=
  let n := pxHead p
  let mode := leAt p 17 1
  let px := leAt p 18 1
  let py := leAt p 19 1
  let np := leAt p 20 1
  let nin := leAt p 21 1
  let lpt := d.fld (Reg.hlCfg n) 0 3 + 1
  let mplane := d.flag (Reg.hlCfg n) 25
  let siteBad := (List.range 64).any fun i =>
    let b := byteAt p (32 + i)
    if i % 8 < px ∧ i / 8 < py then decide (b % 16 > 8) else b != 0
  if leAt p 16 1 ≠ 1 ∨ mode > 3 ∨ px < 1 ∨ px > 8 ∨ py < 1 ∨ py > 8 ∨ np < 1 ∨ np > 4
      ∨ (mode = 0 ∧ (np ≠ 1 ∨ py ≠ 1)) ∨ (mode = 2 ∧ (py > 5 ∨ py ≠ lpt))
      ∨ (mode = 3 ∧ (py ≠ 1 ∨ nin < 1 ∨ nin > 5 ∨ px ≠ nin)) ∨ (mode ≠ 3 ∧ nin ≠ 0)
      ∨ leAt p 24 4 ≥ 2 ^ 28 ∨ siteBad = true ∨ (mode = 1 ∧ d.mode n ≠ 2 ∧ lpt % py ≠ 0)
      ∨ (mode = 3 ∧ mplane = false) ∨ (mode ≠ 3 ∧ mplane = true)
      ∨ ((mode = 0 ∨ mode = 3) ∧ zeroAt p 96 24 = false) ∨ ((mode = 1 ∨ mode = 2) ∧ leAt p 112 4 ≠ 8196) then some St.badParam
  else if (d.pipe n).width.isNone then some St.badState
  else none

/-- The registers of a mosaic descriptor in a bank. -/
def Dev.setMosaic (d : Dev) (n b : Nat) (p : Bytes) : Dev :=
  let d1 := d.wrN (Reg.mosCfg n b) (leAt p 17 1 * 2 ^ 30 + (leAt p 18 1 - 1) * 2 ^ 27 + (leAt p 19 1 - 1) * 2 ^ 24
    + (leAt p 20 1 - 1) * 2 ^ 22 + leAt p 21 1 * 2 ^ 19 + d.fld (Reg.mosCfg n b) 0 13)
  (List.range 16).foldl (fun d i => d.wrN (Reg.mosSite n b i) (leAt p (32 + 4 * i) 4)) (d1.wrN (Reg.mosEdgeT n b) (leAt p 24 4))

/-- MOSAIC_SET sets the mosaic descriptor and kernel table of the inactive bank (R201, R208). -/
def execMosaicSet (r : Req) (s : State) : Host.Outcome State Fault Refusal :=
  s.upd fun d => d.command
    { code := 0x0503, len := lenIs 120, recov := true, objs := pxObjs r.mbx.val 0x0503,
      reserved := fun p => pxReserved 1 p && zeroAt p 22 2 && zeroAt p 28 4 && refReserved p 96 } r fun d =>
      let p := r.payload
      let mode := leAt p 17 1
      if mode = 1 ∨ mode = 2 then d.pxFetch r (d.mosaicBad p) [bulkRef p 96]
      else d.pxDirect r (d.mosaicBad p) (fun d => d.setMosaic (pxHead p) (d.inactive (pxHead p)) p) []

/-- A fetched kernel table keeps R208, and R209 for MULTILINE. -/
def kernelsOk (multiline : Bool) (data : Bytes) : Bool :=
  (List.range 128).all fun k => zeroAt data (64 * k + 50) 14
    && (!multiline || (List.range 25).all fun i => i / 5 == 2 || zeroAt data (64 * k + 2 * i) 2)

/-- CHANNEL_MATRIX_SET sets the channel matrix of the inactive bank (R210). -/
def execChannelMatrixSet (r : Req) (s : State) : Host.Outcome State Fault Refusal :=
  s.upd fun d => d.command
    { code := 0x0504, len := lenIs 72, recov := true, objs := fun p => [.pipe (pxHead p)],
      reserved := fun p => pxReserved 1 p } r fun d =>
      let p := r.payload
      let n := pxHead p
      let bad := if (List.range 4).any fun j => unsigned 32 (signed 25 (leAt p (56 + 4 * j) 4)) != leAt p (56 + 4 * j) 4 then
        some St.badParam else none
      d.pxDirect r bad (fun d =>
        let b := d.inactive n
        (List.range 4).foldl (fun d j =>
          (((d.wrN (Reg.matW0 n b j) (leAt p (16 + 10 * j) 4)).wrN (Reg.matW1 n b j) (leAt p (20 + 10 * j) 4)).wrN
            (Reg.matW2 n b j) (leAt p (24 + 10 * j) 2)).wrN (Reg.matW3 n b j) (leAt p (56 + 4 * j) 4 % 2 ^ 25)) d) []

/-! ## Events -/

/-- An entry lies in the calibration, defect or kernel RAM of the active bank of pipeline n, and the copy reads it (R217, R611): a
fused calibration table belongs to both banks and is not copied. -/
def Dev.copyReads (d : Dev) (n a : Nat) : Bool :=
  let o := a - tableBase n
  let b := d.activeBank n
  decide (tableBase n ≤ a) && (decide (b * 0x30000 ≤ o ∧ o < b * 0x30000 + 0x30000) && !d.flag (Reg.ppMode n) 0
    || decide (0x60000 + b * 0x8000 ≤ o ∧ o < 0x60000 + b * 0x8000 + 0x8000)
    || decide (0x70000 + b * 0x2000 ≤ o ∧ o < 0x70000 + b * 0x2000 + 0x2000))

/-- Bank copying: every table of the new active bank goes into the inactive bank (R217); an uncorrectable entry reads as
uncorrectable there too (R611). -/
def Dev.copyBank (d : Dev) (n : Nat) : Dev :=
  let a := d.activeBank n
  let i := 1 - a
  let base := tableBase n
  let move := fun (lo size : Nat) (d : Dev) =>
    let inA := fun (x : Nat) => decide (base + lo + a * size ≤ x ∧ x < base + lo + a * size + size)
    let inI := fun (x : Nat) => decide (base + lo + i * size ≤ x ∧ x < base + lo + i * size + size)
    let src := d.deep.filter fun p => inA p.1
    let d1 := src.foldl (fun d p => d.deepWr (p.1 - a * size + i * size) p.2)
      { d with deep := d.deep.filter fun p => !inI p.1, lost := d.lost.filter fun x => !inI x }
    { d1 with lost := d1.lost ++ (d.lost.filter inA).map fun x => x - a * size + i * size }
  let d1 := if d.flag (Reg.ppMode n) 0 then d else move 0 0x30000 d
  let d2 := move 0x80000 0x40000 (move 0x74000 0x800 (move 0x70000 0x2000 (move 0x60000 0x8000 d1)))
  let regs := (List.range 64).map (fun w => (Reg.ppCfg n a + 4 * w, Reg.ppCfg n i + 4 * w))
    ++ (List.range 128).map (fun w => (Reg.napCfg n a + 4 * w, Reg.napCfg n i + 4 * w))
  regs.foldl (fun d p => d.wr p.2 (d.rd p.1)) d2

/-- Errors of the RAMs of pipeline n met by a reader of the entries `read` (R196, R611): `corrected` single-bit errors, and the
uncorrectable entries, those already there and those that `bad` names as new. Answers whether there was an uncorrectable one. -/
def Dev.ramErrors (d : Dev) (n : Nat) (read : List Nat) (corrected : Nat) (bad : List Nat) : Dev × Bool :=
  let new := (bad.filterMap ramEntry).filter fun a => read.contains a && !d.lost.contains a
  let d1 := { d with lost := d.lost ++ new.eraseDups }
  let met := d1.lost.filter read.contains
  let d2 := (d1.incSat (Reg.ppCnt n) 16 8 corrected).incSat (Reg.ppCnt n) 8 8 met.length
  (if met = [] then d2 else d2.fault (0x30 + n), met != [])

/-- A line enters pouncing (R192, R215): a pending swap whose target it reaches takes effect first; a line that arrived is
corrected. `hits`: the upsets of its words in the hopper, one of which damages the line (R103, R109); `corrected` and `bad`: the
single-bit errors of the calibration entries it takes, and the deep-space addresses of entries newly uncorrectable (R196). -/
def execLinePounce (head : Fin 16) (hits : Hits) (corrected : Nat) (bad : List Nat) (s : State) :
    Host.Outcome State Fault Refusal :=
  s.updStage (16 + head.val) fun d =>
    let n := head.val
    match (d.pipe n).rx with
    | [] => d
    | l :: rest =>
      let d0 := (d.modPipe n fun p => { p with rx := rest }).hopRead (10 + n)
      let poison := badWords [] hits
      let d1 := if d0.flag (Reg.ppStat n) 30 && decide (l.batt ≥ d0.rd64 (Reg.ppSwapBatt n)) then
          d0.swapNow n (some (d0.rd64 (Reg.ppSwapBatt n))) else d0
      let read := if l.cause = 0 then d1.calRead (d1.liveView (d1.activeBank n)) n l else []
      let e := d1.ramErrors n read (if l.cause = 0 then corrected else 0) bad
      let l1 := { l with epoch := (d1.pipe n).epoch, damaged := l.damaged || poison != [] || e.2 }
      let r := if l1.cause = 0 then e.1.pounce (e.1.liveView (d1.activeBank n)) n l1 else (l1, 0)
      let d2 := e.1.modPipe n fun p => { p with mosQ := p.mosQ ++ [r.1], pounced := r.1 :: p.pounced }
      (d2.incSat (Reg.ppSatcnt n) 0 32 r.2).poisonRead (10 + n) 1 poison

/-- The map's ROW of plane q of a line (R197). -/
def Dev.rowKey (d : Dev) (v : View) (n : Nat) (l : Line) (q : Nat) : Nat :=
  if d.lineMode n l.gen = 2 then l.sub else d.calRow v n l q

/-- The bank in which a line was pounced, with the entries that read as uncorrectable by now. -/
def Dev.lineView (d : Dev) (n : Nat) (l : Line) : View :=
  let v := d.viewAt n l.epoch
  { v with lost := v.lost ++ d.lost.filter fun a => !v.lost.contains a }

/-- A line with its defects replaced, from the bank in which it was pounced. -/
def Dev.repaired (d : Dev) (n : Nat) (l : Line) : Line × Nat :=
  let v := d.lineView n l
  v.repair n (d.lineMode n l.gen == 2) (d.pipe n).pounced (fun x q => d.rowKey v n x q) l

/-- Vertical neighbours of a FRAME line that defect replacement may need have not all arrived (R198, R199). -/
def Dev.neighboursAwaited (d : Dev) (n : Nat) (v : View) (l : Line) : Bool :=
  d.lineMode n l.gen == 2 && v.defCount n != 0 &&
    ([-1, 1] : List Int).any fun s =>
      let f := (l.sub : Int) + s * (if v.mosMode n = 1 then v.py n else 1 : Nat)
      decide (0 ≤ f ∧ f < d.lineAwaits n l.gen)
        && !((d.pipe n).pounced.any fun x => x.gen == l.gen && x.i == l.i && x.sub == f.toNat)

/-- The oldest pounced line is reconstructed once its window rows are there, and reaches carding (R200 to R213). Entries of
the defect and kernel tables that are newly uncorrectable damage the line (R196). -/
def execMosaicLine (x : MosaicRun) (s : State) : Host.Outcome State Fault Refusal :=
  s.updStage (16 + x.head.val) fun d0 =>
    let n := x.head.val
    match (d0.pipe n).mosQ with
    | [] => d0
    | l :: rest =>
      let v0 := d0.viewAt n l.epoch
      let e := if l.cause = 0 then d0.ramErrors n (v0.mosaicRead n l) x.corrected x.bad else (d0, false)
      let d := e.1
      let v := d.lineView n l
      let go := fun (out : Line) (subst unres : Nat) =>
        let d1 := d.modPipe n fun p => { p with mosQ := rest }
        ((d1.incSat (Reg.ppCnt n) 24 8 unres).incSat (Reg.ppCnt n) 0 8 subst).cardArrive n
          { out with damaged := out.damaged || e.2 }
      if l.cause ≠ 0 then go l 0 0
      else if d.neighboursAwaited n v l then d0
      else
        let w := d.width n
        let fixed := d.repaired n l
        match v.mosMode n with
        | 0 => go fixed.1 0 fixed.2
        | 1 =>
          match d.window v n l with
          | none => d0
          | some x =>
            if x.1.any (fun y => d.neighboursAwaited n (d.viewAt n y.epoch) y) then d0
            else go (v.areaLine n w fixed.1 (x.1.map fun y => (d.repaired n y).1)) x.2 fixed.2
        | 2 => go (v.multiLine n w fixed.1) 0 fixed.2
        | _ => go (v.multiPlane n w fixed.1) 0 fixed.2

end Sys2Proof.Machine
end

