-- ==== Sys2Proof/Machine/FulOps.lean ====
section
/-! DEFINITION. Fulling (spec/10_fulling.md): what a fulling bank says, the forming of positions, the tile treatments and
the tile coder, the tile data, index and deferred list, and the image of a batt (spec/12_placement.md R369). -/

namespace Sys2Proof.Machine

open Sys2Proof

/-! ## Fulling banks (R302, R308, R317, R326) -/

/-- Number of output planes, of rungs, and ALLOW_FLAGGED of a fulling bank. -/
def View.outPlanes (v : View) : Nat := v.fld (Reg.outCfg v.bank) 30 2 + 1
def View.rungs (v : View) : Nat := v.fld (Reg.outCfg v.bank) 0 3 + 1
def View.allowFlagged (v : View) : Bool := v.fld (Reg.outCfg v.bank) 29 1 == 1
/-- Treatment word of rung r. -/
def View.rungWord (v : View) (r : Nat) : Nat := v.rd (Reg.rung v.bank r)
/-- SHIFT[F][j] and FILL_j. -/
def View.shiftOf (v : View) (f j : Nat) : Nat := v.fld (Reg.outShift v.bank f) (8 * j) 8
def View.fill (v : View) (j : Nat) : Nat := v.fld (Reg.outFill v.bank j) 0 24

/-- An enabled seam (R302). -/
structure Seam where
  idx : Nat
  left : Nat
  right : Nat
  first : Nat
  width : Nat
  deriving DecidableEq, Repr

/-- Seam s of a bank, if enabled. -/
def View.seam? (v : View) (s : Nat) : Option Seam :=
  let w := v.rd (Reg.seamCfg v.bank s)
  if bit w 31 then some ⟨s, bits w 8 8, bits w 0 8, v.fld (Reg.seamCol v.bank s) 0 20, bits w 16 9⟩ else none

/-- The enabled seams of a bank. -/
def View.seams (v : View) : List Seam := (List.range 16).filterMap v.seam?

/-- Deep address of the ramp of seam s of bank b. -/
def rampAddr (b s : Nat) : Nat := 0x14000000 + b * 0x2000 + 512 * s

/-- RAMP[i] of a seam. -/
def View.ramp (v : View) (s : Seam) (i : Nat) : Nat := v.deep16 (rampAddr v.bank s.idx + 2 * i)

/-- A source is the neighbour on a band port: 0x20 BAND_UP, 0x21 BAND_DN. -/
def isRemote (src : Nat) : Bool := src == 0x20 || src == 0x21

/-- Band ports that an enabled seam of a bank uses (R297). -/
def View.seamPorts (v : View) : List Nat :=
  (List.range 2).filter fun p => v.seams.any fun s => s.left == 0x20 + p || s.right == 0x20 + p

/-- The part of a view that fulling reads. -/
def Dev.fulSnapshot (d : Dev) (b : Nat) : View :=
  ⟨b, d.regs.filter fun p => decide (Reg.seamCfg 0 0 ≤ p.1 ∧ p.1 < Reg.seamCfg 0 0 + 0x400),
     d.deep.filter fun p => decide (0x14000000 ≤ p.1 ∧ p.1 < 0x14004000), []⟩

/-- The active fulling bank, and whether the inactive one cannot be written. -/
def Dev.fulActive (d : Dev) : Nat := d.fld Reg.fulBank 31 1
def Dev.fulBusy (d : Dev) : Bool := d.flag Reg.fulBank 30 || d.flag Reg.fulBank 29

/-- The fulling bank in force for batt b (R326). -/
def Dev.fulBankFor (d : Dev) (b : Nat) : Nat :=
  if d.flag Reg.fulBank 30 && decide (d.rd64 Reg.fulSwapBatt % 2 ^ 48 ≤ b) then 1 - d.fulActive else d.fulActive

/-- The lowest batt whose decision point has not passed. -/
def Dev.undecided (d : Dev) : Nat :=
  (minOf ((d.ful.batts.filter fun b => b.recalled.isNone && b.decision.isNone && b.state != .failed).map (·.num))).getD
    d.ful.nextOpen

/-- The swap of the fulling bank takes effect (R321, R326): the copy begins, cur and c_prev follow. -/
def Dev.swapFul (d : Dev) : Dev :=
  let d1 := ((d.setFld Reg.fulBank 31 1 (1 - d.fulActive)).setFlag Reg.fulBank 30 false).setFlag Reg.fulBank 29 true
  { d1 with ful := { d1.ful with cur := min d1.ful.cur (d1.nrungs - 1), cPrev := d1.nrungs } }

/-- A commit of the inactive fulling bank with a target (R326). -/
def Dev.commitFul (d : Dev) (t : Nat) : Dev :=
  let b := if t = noBatt then d.undecided else t
  let d1 := d.wr64 Reg.fulSwapBatt (b % 2 ^ 48)
  if d.lineStarted then d1.setFlag Reg.fulBank 30 true else d1.swapFul

/-- A target whose decision point has passed (R326). -/
def Dev.fulLate (d : Dev) (t : Nat) : Bool := d.lineStarted && t != noBatt && decide (t < d.undecided)

/-- The copy after a swap of the fulling bank ends (R217, R326). -/
def Dev.copyFul (d : Dev) : Dev :=
  let a := d.fulActive
  let i := 1 - a
  let d1 := (List.range 96).foldl (fun d k => d.wr (Reg.seamCfg i 0 + 4 * k) (d.rd (Reg.seamCfg a 0 + 4 * k))) d
  let d2 := (List.range 2048).foldl (fun d k => d.deepWr (rampAddr i 0 + 4 * k) (d.deepRd (rampAddr a 0 + 4 * k))) d1
  d2.setFlag Reg.fulBank 29 false

/-! ## The source of a column (R303) -/

/-- Where the pixels of a column come from. -/
inductive ColSrc where
  | owned (head : Nat)
  | seam (left right weight : Nat)
  | uncovered
  deriving DecidableEq, Repr

/-- The source of column x, from the bank's seams, the heads that cover it in ascending number. -/
def View.source (v : View) (covers : Nat → Nat → Bool) (heads : List Nat) (x : Nat) : ColSrc :=
  match v.seams.find? fun s => decide (s.first ≤ x ∧ x < s.first + s.width) with
  | some s => .seam s.left s.right (v.ramp s (x - s.first))
  | none =>
    match heads.find? fun h => covers h x && !(v.seams.any fun s =>
        (s.left == h && decide (x ≥ s.first + s.width)) || (s.right == h && decide (x < s.first))) with
    | some h => .owned h
    | none => .uncovered

/-- The local heads among the sources of a column. -/
def ColSrc.heads : ColSrc → List Nat
  | .owned h => [h]
  | .seam l r _ => [l, r].filter fun s => !isRemote s
  | .uncovered => []

/-! ## Positions (R301, R304) -/

/-- What fulling reads for one batt: the fulling bank, the heads and the columns that each covers, its rows in the hood,
and the rows of the neighbours. -/
structure Source where
  view : View
  heads : List Nat
  covers : Nat → Nat → Bool
  row : Nat → Nat → HoodRow
  remote : List SeamRow

/-- A formed position: value and mark of every output plane, filled, and SEAM_PARTIAL. -/
structure Position where
  px : List (Nat × Bool)
  filled : Bool := false
  partly : Bool := false
  deriving DecidableEq, Repr

/-- A row's pixel at a column, if the row is present and covers it; planes that the row lacks read 0. -/
def HoodRow.pixel (r : HoodRow) (np x : Nat) : Option (List (Nat × Bool)) :=
  if r.status % 16 ≠ 0 ∨ x < r.col0 ∨ x ≥ r.col0 + r.ncol then none
  else some ((List.range np).map fun j =>
    (((r.planes.getD j []).getD (x - r.col0) 0), ((r.sats.getD j []).getD (x - r.col0) false)))

/-- A neighbour's value of a column of row i of the batt, if it has delivered one. -/
def remotePixel (rows : List SeamRow) (port i np x : Nat) : Option (List (Nat × Bool)) :=
  match rows.find? fun s => s.port == port && s.row == i && decide (s.colFirst ≤ x) && decide (x < s.colFirst + (s.planes.headD []).length) with
  | none => none
  | some s =>
    let w := fun (j : Nat) => (s.planes.getD j []).getD (x - s.colFirst) 0
    if bit (w 0) 31 then some ((List.range np).map fun j => (w j % 2 ^ 24, bit (w j) 24)) else none

/-- The pixel of a source at row i of the batt. -/
def Source.pixel (s : Source) (src i x : Nat) : Option (List (Nat × Bool)) :=
  if isRemote src then remotePixel s.remote (src - 0x20) i s.view.outPlanes x
  else if s.covers src x then (s.row src i).pixel s.view.outPlanes x else none

/-- A filled position. -/
def Source.fillPos (s : Source) : Position :=
  { px := (List.range s.view.outPlanes).map fun j => (s.view.fill j, false), filled := true }

/-- The blend of a seam column (R304). -/
def blendPx (w : Nat) (l r : List (Nat × Bool)) : List (Nat × Bool) :=
  (l.zip r).map fun p => ((p.1.1 * w + p.2.1 * (1024 - w) + 512) / 1024,
    (p.1.2 && decide (w ≠ 0)) || (p.2.2 && decide (w ≠ 1024)))

/-- The output position at row i of the batt and column x. -/
def Source.position (s : Source) (i x : Nat) : Position :=
  match s.view.source s.covers s.heads x with
  | .uncovered => s.fillPos
  | .owned h => match s.pixel h i x with
    | some p => { px := p }
    | none => s.fillPos
  | .seam l r w => match s.pixel l i x, s.pixel r i x with
    | some a, some b => { px := blendPx w a b }
    | some a, none => { px := a, partly := decide (w ≠ 1024) }
    | none, some b => { px := b, partly := decide (w ≠ 0) }
    | none, none => s.fillPos

/-- The 64 x 64 positions of tile (trow, tc), row by row. -/
def Source.tile (s : Source) (trow tc : Nat) : List Position :=
  (List.range 64).flatMap fun dy => (List.range 64).map fun dx => s.position (64 * trow + dy) (64 * tc + dx)

/-! ## Treatments (R307 to R309, R317, R318) -/

/-- A treatment: the rung it comes from, PROTECTED, and its word. -/
structure Treat where
  rung : Nat
  prot : Bool
  word : Nat
  deriving DecidableEq, Repr

def Treat.defer (t : Treat) : Bool := bit t.word 31
def Treat.coder (t : Treat) : Bool := bit t.word 30
def Treat.bin (t : Treat) : Nat := bits t.word 28 2
def Treat.cap (t : Treat) : Nat := bits t.word 16 8
def Treat.fmt (t : Treat) (j : Nat) : Nat := bits t.word (2 * j) 2
/-- Positions per side. -/
def Treat.side (t : Treat) : Nat := 64 / 2 ^ t.bin

/-- The treatment of a tile at a rung (R317). -/
def View.treat (v : View) (r : Nat) (flagged : Bool) : Treat :=
  if !flagged then ⟨r, false, v.rungWord r⟩
  else if r = 7 ∧ v.rungs = 8 ∧ v.allowFlagged = true ∧ bit (v.rungWord 7) 27 = true then ⟨7, false, v.rungWord 7⟩
  else ⟨0, true, v.rungWord 0⟩

/-- Bytes of a raw plane of format f with s positions per side (R309). -/
def rawPlane (f s : Nat) : Nat := if f = 0 then s * s else if f = 1 then s * s * 3 / 2 else s * s * 2

/-- Bytes of a raw tile, the bound of a coded one (R314), and the cap (R318). -/
def Treat.raw (t : Treat) (np : Nat) : Nat := sumN ((List.range np).map fun j => rawPlane (t.fmt j) t.side)
def up16 (x : Nat) : Nat := (x + 15) / 16 * 16
def Treat.bound (t : Treat) (np : Nat) : Nat := up16 (t.raw np + 4 * np)
def Treat.capBytes (t : Treat) (np : Nat) : Nat := t.raw np * t.cap / 256 / 16 * 16

/-- z of R318. -/
def Treat.size (t : Treat) (np : Nat) : Nat :=
  if t.defer then 0
  else if !t.coder then t.raw np
  else if t.cap = 0 then t.bound np else min (t.bound np) (t.capBytes np)

/-- S_r of R318: over the flags of the output tiles. -/
def View.sizeAt (v : View) (flags : List Nat) (r : Nat) : Nat :=
  sumN (flags.map fun f => (v.treat r (bit f 15)).size v.outPlanes) + 16 * flags.length

/-- Binning by 2^k (R307) of a plane of 64 x 64 values with marks. -/
def binPlane (k : Nat) (l : List (Nat × Bool)) : List (Nat × Bool) :=
  let f := 2 ^ k
  let s := 64 / f
  if k = 0 then l
  else (List.range (s * s)).map fun q =>
    let blk := (List.range (f * f)).map fun e => l.getD ((q / s * f + e / f) * 64 + q % s * f + e % f) (0, false)
    ((sumN (blk.map (·.1)) + f * f / 2) / (f * f), blk.any (·.2))

/-- Conversion of a value to format f with shift s (R308): the code and SATURATED. -/
def toCode (f s v : Nat) : Nat × Bool :=
  let h := if s > 0 then 2 ^ (s - 1) else 0
  match f with
  | 0 => (min 255 ((v + h) / 2 ^ s), decide (v / 2 ^ s > 255))
  | 1 => pf12 v (2 ^ s)
  | 2 => (min 65535 ((v + h) / 2 ^ s), decide (v / 2 ^ s > 65535))
  | _ => pf16 v (2 ^ s)

/-- Bits of a code of format f. -/
def codeBits (f : Nat) : Nat := if f = 0 then 8 else if f = 1 then 12 else 16

/-- The raw plane of codes (R309). -/
def packCodes (f : Nat) : List Nat → Bytes
  | [] => []
  | [a] => if f = 0 then le 1 a else le 2 a
  | a :: b :: t => (if f = 0 then le 1 a ++ le 1 b else if f = 1 then le 3 (a + b * 2 ^ 12) else le 2 a ++ le 2 b) ++ packCodes f t

/-! ## The tile coder (R310 to R314) -/

/-- A field of w bits, least significant first. -/
def bitsOf (w v : Nat) : List Bool := (List.range w).map (bit v)

/-- Bits as bytes, the last padded with zeros (R311). -/
def bitBytes (l : List Bool) : Bytes := packBits ((l.length + 7) / 8) l

/-- The prediction of position q (R312). -/
def predict (s : Nat) (u : List Nat) (q : Nat) : Nat :=
  let at_ := fun (k : Nat) => u.getD k 0
  if q = 0 then 0
  else if q < s then at_ (q - 1)
  else if q % s = 0 then at_ (q - s)
  else
    let a := at_ (q - 1)
    let c := at_ (q - s)
    let dd := at_ (q - s - 1)
    if dd ≥ max a c then min a c else if dd ≤ min a c then max a c else a + c - dd

/-- The mapped residuals of a plane of width b. -/
def residuals (s b : Nat) (u : List Nat) : List Nat :=
  (List.range u.length).map fun q =>
    let e := signed b (u.getD q 0 + 2 ^ b - predict s u q)
    if e ≥ 0 then (2 * e).toNat else (-2 * e - 1).toNat

/-- Cost of a value at parameter k, and its bits (R313). -/
def riceCost (b k m : Nat) : Nat := if m / 2 ^ k < 16 then m / 2 ^ k + 1 + k else 16 + b
def riceBits (b k m : Nat) : List Bool :=
  if m / 2 ^ k < 16 then List.replicate (m / 2 ^ k) true ++ [false] ++ bitsOf k m else List.replicate 16 true ++ bitsOf b m

/-- The parameter of a block: smallest cost, the lowest among equals. -/
def riceParam (b : Nat) (l : List Nat) : Nat :=
  let cost := fun (k : Nat) => sumN (l.map (riceCost b k))
  (List.range b).foldl (fun best k => if cost k < cost best then k else best) 0

/-- The blocks of 16 values, n of them. -/
def riceBlocks (b : Nat) : Nat → List Nat → List Bool
  | 0, _ => []
  | n + 1, l =>
    let blk := l.take 16
    let k := riceParam b blk
    bitsOf 4 k ++ blk.flatMap (riceBits b k) ++ riceBlocks b n (l.drop 16)

/-- One section of a coded tile (R310, R314). -/
def section_ (f s : Nat) (u : List Nat) : Bytes :=
  let coded := bitBytes (riceBlocks (codeBits f) ((u.length + 15) / 16) (residuals s (codeBits f) u))
  let raw := packCodes f u
  if coded.length < raw.length then le 4 coded.length ++ coded else le 4 (2 ^ 24 + raw.length) ++ raw

/-- The codes of a tile under a treatment, plane by plane, and whether a value saturated (R307, R308). -/
def View.codes (v : View) (t : Treat) (ps : List Position) : List (List Nat) × Bool :=
  let planes := (List.range v.outPlanes).map fun j =>
    (binPlane t.bin (ps.map fun p => p.px.getD j (0, false))).map fun x =>
      let c := toCode (t.fmt j) (v.shiftOf (t.fmt j) j) x.1
      (c.1, c.2 || x.2)
  (planes.map (·.map (·.1)), planes.any (·.any (·.2)))

/-- The bytes of a sent tile (R309, R310). -/
def Treat.bytes (t : Treat) (codes : List (List Nat)) : Bytes :=
  let n := codes.length
  if t.coder then
    let b := (List.range n).flatMap fun j => section_ (t.fmt j) t.side (codes.getD j [])
    b ++ zeros (up16 b.length - b.length)
  else (List.range n).flatMap fun j => packCodes (t.fmt j) (codes.getD j [])

/-! ## Tile data, index and deferred list (R300, R315, R316, R319) -/

/-- The output tiles of a batt of H rows in a crop window: (TROW, TCOL) in their order. -/
def outTiles (h first last : Nat) : List (Nat × Nat) :=
  (List.range (h / 64)).flatMap fun r => (List.range ((last + 1) / 64 - first / 64)).map fun c => (r, first / 64 + c)

/-- What fulling a batt forms: tile data, tile index, deferred list, tiles sent and deferred by cap. -/
structure Fulled where
  data : Bytes := []
  index : Bytes := []
  deferred : Bytes := []
  sent : Nat := 0
  capped : Nat := 0
  deriving DecidableEq, Repr

/-- One tile is treated, coded and entered. -/
def Source.addTile (s : Source) (rung : Nat) (acc : Fulled) (tile : Nat × Nat) (flags : Nat) : Fulled :=
  let v := s.view
  let t := v.treat rung (bit flags 15)
  let cs := if t.defer then ([], false) else v.codes t (s.tile tile.1 tile.2)
  let b := if t.defer then [] else t.bytes cs.1
  let capped := t.coder && t.cap != 0 && decide (b.length > t.capBytes v.outPlanes)
  let gone := t.defer || capped
  let fl := if cs.2 ∧ bit flags 6 = false then flags + 64 else flags
  let treat := t.rung + 8 * b2n t.prot + 16 * b2n gone + 32 * b2n capped + 64 * b2n t.coder
  let entry := le 4 acc.data.length ++ le 4 (if gone then 0 else b.length) ++ le 2 tile.2 ++ le 1 tile.1 ++ le 1 treat
    ++ le 2 fl ++ le 1 t.bin ++ le 1 (t.word % 2 ^ (2 * v.outPlanes))
  { data := if gone then acc.data else acc.data ++ b
    index := acc.index ++ entry
    deferred := if gone then acc.deferred ++ le 4 (b2n capped * 2 ^ 31 + tile.1 * 2 ^ 16 + tile.2) else acc.deferred
    sent := if gone then acc.sent else acc.sent + 1
    capped := acc.capped + b2n capped }

/-- The fulling of a batt: its tiles with their flags, at a rung. -/
def Source.full (s : Source) (rung : Nat) (tiles : List (Nat × Nat)) (flags : List Nat) : Fulled :=
  (tiles.zip flags).foldl (fun acc p => s.addTile rung acc p.1 p.2) {}

/-! ## The flags of the output tiles (R306) -/

/-- The FLAGS of the record of a head for a tile, from the share of its row (R340); none that the hood does not hold. -/
def Dev.recordFlags (d : Dev) (n : Nat) (b : Batt) (trow tc : Nat) : Option Nat :=
  let cols := d.tileCols (d.viewOf n b.num) n
  if tc < cols.1 ∨ tc ≥ cols.1 + cols.2 then none
  else
    let k := shareOf cols.2
    let j := tc - cols.1
    let r := (b.num - b.grid.first) * 2 ^ b.grid.hlog + 64 * trow + j / k
    let rec_ := slice (d.hoodRow n r b.num).share (32 * (j % k)) 32
    if rec_.length = 32 ∧ leAt rec_ 0 6 = b.num ∧ leAt rec_ 8 4 = trow * 2 ^ 16 + tc then some (leAt rec_ 12 2) else none

/-- The local heads of batt b, in ascending number: those that contribute to it, and those whose port has a head attached, with
MODE OFF too (R303, notes/assumptions/50.md). -/
def Dev.localHeads (d : Dev) (b : Batt) : List Nat :=
  (List.range 16).filter fun h => b.heads.contains h || d.flag (Reg.hlCfg h) 31

/-- What fulling reads for batt b: the rows of its local heads from the hood, of which an OFF head has none; remote rows as given
(R351: none for a recall). -/
def Dev.sourceOf (d : Dev) (b : Batt) (v : View) (remote : List SeamRow) : Source :=
  let r0 := (b.num - b.grid.first) * 2 ^ b.grid.hlog
  let hs := d.localHeads b
  { view := v
    heads := hs
    covers := fun h x =>
      let w := d.viewOf h b.num
      hs.contains h && decide (w.col0 h ≤ x ∧ x < w.col0 h + w.ncol h)
    row := fun h i => d.hoodRow h (r0 + i) b.num
    remote := remote }

/-- The tiles whose FLAGGED bits a neighbour sends with its close: those that hold a column it sent, in order (R419). Where no
SEAM_ROW of the batt came from it, they are as many tile columns as its bits make, at the edge of this device's range that its own
range borders (DEDUCED, notes/assumptions/50.md). -/
def Dev.closeTiles (d : Dev) (rows : List SeamRow) (port h bits : Nat) : List (Nat × Nat) :=
  let span : Nat × Nat := match rows.find? fun s => s.port == port with
    | some s =>
      let n := (s.planes.headD []).length
      if n = 0 then (0, 0) else (s.colFirst / 64, (s.colFirst + n - 1) / 64 + 1 - s.colFirst / 64)
    | none =>
      let n := bits / (h / 64)
      let first := d.fld Reg.devFirst 0 20 / 64
      if (d.bport port).nbrFirst > d.fld Reg.devLast 0 20 then (d.fld Reg.devLast 0 20 / 64 + 1 - n, n) else (first, n)
  (List.range (h / 64)).flatMap fun r => (List.range span.2).map fun c => (r, span.1 + c)

/-- The flags of output tile (trow, tc) (R306): every FLAGGED bit received for the tile counts. -/
def Dev.tileFlags (d : Dev) (b : Batt) (s : Source) (closes : List NbrClose) (tile : Nat × Nat) : Nat :=
  let srcs := (List.range 64).map fun dx => s.view.source s.covers s.heads (64 * tile.2 + dx)
  let heads := (srcs.flatMap ColSrc.heads).eraseDups
  let recs := heads.filterMap fun n => d.recordFlags n b tile.1 tile.2
  let ps := s.tile tile.1 tile.2
  let far := closes.any fun c =>
    ((d.closeTiles s.remote c.port (2 ^ b.grid.hlog) c.flagged.length).zip c.flagged).any fun p => p.1 == tile && p.2
  let low := recs.foldl (fun a f => a ||| (f % 4096)) 0
  low + (if recs.any (fun f => bit f 15) || far then 2 ^ 15 else 0)
    + (if ps.any (·.filled) then 2 ^ 13 else 0) + (if ps.any (·.partly) then 2 ^ 12 else 0)

/-! ## The image (R369 to R371) -/

/-- Round up to a multiple of 4,096. -/
def up4k (x : Nat) : Nat := (x + 4095) / 4096 * 4096

/-- Offsets and lengths of an image (R369). -/
structure Layout where
  dataLen : Nat
  ntiles : Nat
  ndefer : Nat
  mapLen : Nat
  statLen : Nat
  deriving DecidableEq, Repr

def Layout.idxOff (l : Layout) : Nat := up4k l.dataLen
def Layout.attOff (l : Layout) : Nat := l.idxOff + up4k (16 * l.ntiles)
def Layout.mapOff (l : Layout) : Nat := l.attOff + up64 (4 * l.ndefer)
def Layout.edgeOff (l : Layout) : Nat := l.mapOff + up64 l.mapLen
def Layout.statsOff (l : Layout) : Nat := l.edgeOff + 64
def Layout.imgLen (l : Layout) : Nat := l.statsOff + l.statLen
/-- Lengths of the three sections. -/
def Layout.sections (l : Layout) : List (Nat × Nat) :=
  [(0, l.dataLen), (l.idxOff, 16 * l.ntiles), (l.attOff, l.imgLen - l.attOff)]
/-- Parcels of p bytes: (offset, length) in order (R374). -/
def Layout.parcels (l : Layout) (p : Nat) : List (Nat × Nat) :=
  l.sections.flatMap fun s => (List.range (ceilDiv s.2 p)).map fun k => (s.1 + k * p, min p (s.2 - k * p))

/-- Bytes of the statistics blocks of a batt. -/
def Batt.statLen (b : Batt) : Nat := sumN (b.stats.map fun s => s.2.length)

/-- The layout of a fulled batt. -/
def Batt.layout (b : Batt) : Layout :=
  ⟨b.data.length, b.index.length / 16, b.deferred.length / 4, 8 * b.map.length, b.statLen⟩

/-- Number of output tiles of a batt: none when it is OVERRUN_DEFERRED (R370). -/
def Batt.tiles (b : Batt) : Nat := b.decision.elim 0 fun x => if x.overrun then 0 else x.flags.length

/-- The layout that bounds a batt's image (R371); an OVERRUN_DEFERRED batt has only its attachments. -/
def Batt.boundLayout (b : Batt) : Layout :=
  let n := b.tiles
  ⟨if n = 0 then 0 else b.decision.elim 0 fun x => x.size - 16 * n, n, n, 8 * b.map.length, b.statLen⟩

/-- Size of the attachments with every tile deferred (R323, R370). -/
def attachSize (b : Batt) (tiles : Nat) : Nat := up64 (4 * tiles) + up64 (8 * b.map.length) + 64 + b.statLen

/-- The bytes of a batt's image at an offset of one of its sections. -/
def imageBytes (b : Batt) (off len : Nat) : Bytes :=
  let l := b.layout
  if off < l.idxOff then slice b.data off len
  else if off < l.attOff then slice b.index (off - l.idxOff) len
  else slice (pad64 b.deferred ++ pad64 (b.map.flatMap (le 8)) ++ b.edge ++ b.stats.flatMap (·.2)) (off - l.attOff) len

end Sys2Proof.Machine
end

