-- ==== Sys2Proof/Machine/SeamOps.lean ====
section
/-! DEFINITION. The seam sender of the band ports and its BATT_CLOSE (R27, R418, R419). -/

namespace Sys2Proof.Machine

open Sys2Proof

/-- The columns of the block maps of this device's heads that lie within the range of the neighbour on port p, as it announced
them in ROLL: first and number, at most 256. -/
def Dev.seamCols (d : Dev) (p : Nat) (b : Batt) : Option (Nat × Nat) :=
  let x := d.bport p
  let spans := ((d.localHeads b).map fun h =>
    let w := d.viewOf h b.num
    (max (w.col0 h) x.nbrFirst, min (w.col0 h + w.ncol h) (x.nbrLast + 1))).filter fun s => decide (s.1 < s.2)
  match minOf (spans.map (·.1)), maxOf (spans.map (·.2)) with
  | some lo, some hi => some (lo, min 256 (hi - lo))
  | _, _ => none

/-- Rows of batt b already sent on port p. -/
def Dev.seamSent (d : Dev) (p b : Nat) : Nat := ((d.band.seamSent.find? fun x => x.1 == p && x.2.1 == b).map (·.2.2)).getD 0

/-- Every head that covers a column of the range has resolved row i of the batt, and its row has been written. -/
def Dev.seamReady (d : Dev) (b : Batt) (cols : Nat × Nat) (i : Nat) : Bool :=
  b.heads.all fun h =>
    let w := d.viewOf h b.num
    if w.col0 h ≥ cols.1 + cols.2 ∨ w.col0 h + w.ncol h ≤ cols.1 then true
    else match d.card h b.grid.gen with
      | none => true
      | some c =>
        let r := c.first b.num + i
        decide (r < c.written) || c.ahead.contains r

/-- The words of one plane of a SEAM_ROW: the values that R303 and R304 give over the local heads alone; `lost` when the row
could not be read. -/
def Dev.seamPlane (s : Source) (cols : Nat × Nat) (i j : Nat) (lost : Bool) : List Nat :=
  (List.range cols.2).map fun k =>
    let q := s.position i (cols.1 + k)
    let v := q.px.getD j (0, false)
    if q.filled || lost then 0 else 2 ^ 31 + b2n v.2 * 2 ^ 24 + v.1 % 2 ^ 24

/-- SEAM_ROW for row i of batt b on port p. -/
def Dev.sendSeamRow (d : Dev) (p : Nat) (b : Batt) (cols : Nat × Nat) (i : Nat) (lost : Bool) : Dev :=
  let v := d.liveView (d.fulBankFor b.num)
  let s := d.sourceOf b v []
  let np := v.outPlanes
  let words := (List.range np).flatMap fun j => Dev.seamPlane s cols i j lost
  let d1 := d.bandSend p Band.Kind.seamRow
    ([(b.num : Int), i, np, cols.1, cols.2] ++ words.map fun (w : Nat) => (w : Int))
  { d1 with band := { d1.band with
    seamSent := (p, b.num, i + 1) :: d1.band.seamSent.filter fun x => !(x.1 == p && x.2.1 == b.num) } }

/-- BATT_CLOSE of batt b on port p: one FLAGGED bit for each tile that holds a column sent, in ascending TROW and TCOL. -/
def Dev.battCloseOn (d : Dev) (p : Nat) (b : Batt) : Dev :=
  let tiles := match d.seamCols p b with
    | none => []
    | some c => (List.range (2 ^ b.grid.hlog / 64)).flatMap fun t =>
        (List.range ((c.1 + c.2 - 1) / 64 + 1 - c.1 / 64)).map fun k => (t, c.1 / 64 + k)
  let flag := fun (t : Nat × Nat) => b.heads.any fun h => (d.recordFlags h b t.1 t.2).any fun f => bit f 15
  d.bandReliable p Band.Kind.battClose ((b.num : Int) :: tiles.map fun t => (b2n (flag t) : Int))

/-- Every SEAM_ROW of batt b has been sent on port p. -/
def Dev.seamDone (d : Dev) (p : Nat) (b : Batt) : Bool :=
  (d.seamCols p b).isNone || decide (d.seamSent p b.num ≥ 2 ^ b.grid.hlog)

/-- BATT_CLOSE to the neighbours of a batt that is CLOSED, on each enabled port after its last SEAM_ROW and once it is UP
(R419). -/
def Dev.sendClose (d : Dev) (b : Batt) : Dev :=
  (List.range 2).foldl (fun d p =>
    if d.bstate p = 0 then d
    else if d.bstate p = 3 ∧ d.seamDone p b = true then d.battCloseOn p b
    else { d with band := { d.band with closeDue := d.band.closeDue ++ [(p, b.num)] } }) d

end Sys2Proof.Machine
end

