-- ==== Sys2Proof/Machine/Carding.lean ====
section
/-! DEFINITION. The carding commands, and the events of carding, of the card writer and of the batt tracker
(spec/07_carding.md, spec/08_blocking_and_brim.md, spec/09_nap_and_exposure.md R280, spec/11 R341). -/

namespace Sys2Proof.Machine

open Sys2Proof

/-! ## Commands -/

/-- CARD_OFFSETS sets trim, interpolation, sensor line reduction and frame geometry of the inactive bank (R220, R223). -/
def execCardOffsets (r : Req) (s : State) : Host.Outcome State Fault Refusal :=
  s.upd fun d => d.command
    { code := 0x0601, len := lenIs 32, recov := true, objs := fun p => [.pipe (pxHead p)],
      reserved := fun p => pxReserved 1 p && bits (leAt p 23 1) 1 7 == 0 && zeroAt p 27 1 && zeroAt p 28 4 } r fun d =>
      let p := r.payload
      let n := pxHead p
      let bad := if leAt p 20 1 > 1 ∨ leAt p 21 1 > 1 ∨ leAt p 22 1 > d.fld (Reg.hlCfg n) 0 3
          ∨ (leAt p 21 1 = 0 ∧ leAt p 22 1 ≠ 0) ∨ leAt p 24 3 < 0x100 then some St.badParam else none
      d.pxDirect r bad (fun d =>
        let b := d.inactive n
        ((d.wrN (Reg.cdCfg n b) (leAt p 20 1 * 2 ^ 31 + leAt p 21 1 * 2 ^ 30 + leAt p 23 1 * 2 ^ 29 + leAt p 22 1 * 2 ^ 24)).wrN
          (Reg.cdTrim n b) (leAt p 16 4)).wrN (Reg.cdFpitch n b) (leAt p 24 3)) []

/-- LINE_DELAYS sets the delays of a MULTILINE head in the inactive bank (R224, R226). -/
def execLineDelays (r : Req) (s : State) : Host.Outcome State Fault Refusal :=
  s.upd fun d => d.command
    { code := 0x0602, len := lenIs 32, recov := true, objs := fun p => [.pipe (pxHead p)],
      reserved := fun p => pxReserved 1 p && zeroAt p 26 6 } r fun d =>
      let p := r.payload
      let n := pxHead p
      let py := (d.liveView (d.inactive n)).py n
      let ds := (List.range 5).map fun i => leAt p (16 + 2 * i) 2
      let used := ds.take py
      let bad := if ds.any (fun x => decide (x > 0x0FFF)) = true ∨ used.contains 0 = false
          ∨ (used.map fun x => (ceilDiv x 256 + 1) * d.width n).foldl (· + ·) 0 > 524288 then some St.badParam else none
      d.pxDirect r bad (fun d =>
        let b := d.inactive n
        ((d.wrN (Reg.cdDly0 n b) (leAt p 16 4)).wrN (Reg.cdDly1 n b) (leAt p 20 4)).wrN (Reg.cdDly2 n b) (leAt p 24 2)) []

/-- CARD_STATUS reports a head's carding state and counters without clearing them (R237). -/
def execCardStatus (r : Req) (s : State) : Host.Outcome State Fault Refusal :=
  s.upd fun d => d.command { code := 0x0603, len := lenIs 4, reserved := fun p => zeroAt p 1 3 } r fun d =>
    let n := leAt r.payload 0 1
    if n > 15 then .err d St.badParam
    else .ok d (le 1 (b2n (d.pipe n).unlk + 2 * b2n (d.pipeRecov n)) ++ zeros 7 ++ le 8 (d.rd64 (Reg.cardRowLast n))
      ++ le 8 (d.rd64 (Reg.cardLineHwm n))
      ++ le 8 (if d.rd64 Reg.btOpenMin % 2 ^ 48 = 2 ^ 48 - 1 then noBatt else d.rd64 Reg.btOpenMin % 2 ^ 48)
      ++ le 4 (d.rdN (Reg.cardLateCnt n)) ++ le 4 (d.rdN (Reg.cardWrovfCnt n)) ++ le 4 (d.rdN (Reg.cardDupCnt n))
      ++ le 4 (d.rdN (Reg.cardFbkCnt n)) ++ le 4 (d.rdN (Reg.cardMissCnt n)) ++ le 4 (d.rdN (Reg.cardUnlkCnt n)))

/-- BATT_DEADLINE sets DL_POS and DL_TIME on the lead, for every batt that is not CLOSED (R243, R245). -/
def execBattDeadline (r : Req) (s : State) : Host.Outcome State Fault Refusal :=
  s.upd fun d => d.command { code := 0x0604, len := lenIs 8, recov := true, objs := fun _ => [.position] } r fun d =>
    let pos := leAt r.payload 0 4
    let t := leAt r.payload 4 4
    if pos = 0 ∨ t < 100 ∨ t > 10000000 then .err d St.badParam
    else if d.isFollower then .err d St.badState
    else Result.stiff d (.ok (((d.wrN Reg.btDlPos pos).wrN Reg.btDlTime t).fanOut 0x0604 [(pos : Int), (t : Int)])
      (le 4 (d.rdN Reg.btDlPos) ++ le 4 (d.rdN Reg.btDlTime)))

/-! ## Rows -/

/-- The next row of a head whose needed taps are all resolved is formed (R227 to R234). -/
def execCardRowResolve (head : Fin 16) (s : State) : Host.Outcome State Fault Refusal :=
  s.updStage (32 + head.val) fun d => firstDone d (d.cardGens head.val) fun g => d.resolveNext head.val g

/-- The next blocked row of a head whose carded rows are all resolved is formed (R254 to R263, R282). -/
def execBlockRow (head : Fin 16) (s : State) : Host.Outcome State Fault Refusal :=
  s.updStage (48 + head.val) fun d => firstDone d (d.cardGens head.val) fun g => d.blockNext head.val g

/-- The records of the next tile row of a head whose rows are all formed are computed (R270 to R280). -/
def execNapTileRow (head : Fin 16) (s : State) : Host.Outcome State Fault Refusal :=
  s.updStage (64 + head.val) fun d => firstDone d (d.cardGens head.val) fun g => d.napNext head.val g

/-- Carded row k of a head is there: resolved by its lines, not by a deadline alone, or no row of the line (R259). -/
def Dev.rowCame (d : Dev) (n : Nat) (c : Card) (k : Int) : Bool :=
  match c.source false k with
  | none => false
  | some x => x.status % 16 != Cause.deadline || (d.formRow n c k.toNat false).isSome

/-- A blocked row that a deadline made missing is late once the carded rows of its span have come (R238, R259). -/
def Dev.lateRow (d : Dev) (n gen : Nat) : Option Dev :=
  match d.card n gen with
  | none => none
  | some c => (c.late.find? fun r =>
      let sk := (d.viewOf n (c.battOf r)).skews n
      (List.range (sk.2 - sk.1 + 1).toNat).all fun (j : Nat) => d.rowCame n c ((r : Int) + sk.1 + j)).map fun r =>
      (d.modCard n gen fun c => { c with late := c.late.erase r }).countLate n (c.battOf r)

/-- The report of row r of a card to the batt tracker is read with poison and discarded (R109): the batt closes no earlier
than its deadline. -/
def Dev.loseReport (d : Dev) (n gen r : Nat) (bad : List Nat) : Dev :=
  (d.modCard n gen fun c => { c with unrep := r :: c.unrep }).poisonRead 58 3 bad

/-- The card writer takes the next row of a head (R33, R42, R238, R341, R343, R346, R347). `overflow`: its hopper was full;
`hits`, `trHits` and `btrHits`: the upsets of the words of the row, of its records and of its report (R101, R109). -/
def execCardWrite (head : Fin 16) (overflow : Bool) (hits trHits btrHits : Hits) (s : State) :
    Host.Outcome State Fault Refusal :=
  s.updStage (80 + head.val) fun d =>
    let n := head.val
    let poison := badWords [] hits
    let trPoison := badWords [] trHits
    let btrPoison := badWords [] btrHits
    match (d.cardGens n).findSome? fun g => if d.pipeRecov n then none else d.lateRow n g with
    | some d1 => d1
    | none =>
      match (d.cardGens n).findSome? fun g =>
          match d.card n g with
          | some c => (d.writeRow n g c.written overflow (poison != []) (trPoison != [])).map fun e =>
              let e1 := ((e.hopRead (26 + n)).hopRead (42 + n)).hopRead 58
              if btrPoison = [] then e1 else e1.loseReport n g c.written btrPoison
          | none => none with
      | none => d
      | some d1 =>
        ((d1.poisonRead (26 + n) 2 poison).poisonRead (42 + n) 3 trPoison).returnReserve

/-! ## The batt tracker (R242 to R245, R264 to R269, R290) -/

/-- Every contributing head of the device has finished a batt: each of its rows is reported (R242, R259); a row whose report
was lost counts from the deadline on (R109), and so does one that a recovery keeps from the card writer (R239). -/
def Dev.finishedBatt (d : Dev) (b : Batt) : Bool :=
  b.heads.all fun n => match d.card n b.grid.gen with
    | none => true
    | some c => (List.range c.height).all fun j =>
        (c.isWritten (c.first b.num + j) && (b.expired || !c.unrep.contains (c.first b.num + j)))
          || (b.expired && d.pipeRecov n && (c.blockedRow (c.first b.num + j)).isSome)

/-- The head of this device that searches a side in the bank in force for batt b, if any. -/
def Dev.sideHead (d : Dev) (b : Batt) (side : Nat) : Option Nat := b.heads.find? fun n => (d.viewOf n b.num).searches n side

/-- What a side gathered for batt b: head and edge values. -/
def Dev.edgeOf (d : Dev) (b : Batt) (side : Nat) : Option (Nat × EdgeAcc) :=
  (d.sideHead b side).map fun n =>
    (n, ((d.pipe n).edges.find? fun e => e.batt == b.num && e.side == side).getD
      { batt := b.num, side := side, lost := !((d.pipe n).brims.getD side {}).valid })

/-- One side of the crop window in TRACK mode (R267): the limit and the narrowing count. -/
def cropSide (cand prev cnt narrow hyst : Nat) (left : Bool) : Nat × Nat :=
  let widen := if left then decide (cand < prev) else decide (cand > prev)
  let far := if left then decide (cand ≥ prev + hyst) else decide (cand + hyst ≤ prev)
  if widen then (cand, 0)
  else if far then (if cnt + 1 ≥ narrow then (cand, 0) else (prev, cnt + 1))
  else (prev, 0)

/-- The crop window of a batt and the counts after its decision, from the settings in force (R266, R267). -/
def Dev.cropOf (d : Dev) (b : Batt) : Nat × Nat × Nat × Nat :=
  let first := d.fld Reg.devFirst 0 20
  let last := d.fld Reg.devLast 0 20
  let p0 := d.rdN Reg.cropNowFirst
  let p1 := d.rdN Reg.cropNowLast
  let margin : Int := d.fld Reg.cropCfg 0 12
  let hyst := d.fld Reg.cropCfg 12 12
  let narrow := max 1 (d.fld Reg.cropCfg 24 4)
  match d.fld Reg.cropCfg 30 2 with
  | 1 => (max first (d.fld Reg.cropFixFirst 0 20), min last (d.fld Reg.cropFixLast 0 20), 0, 0)
  | 2 =>
    let cand0 := match d.edgeOf b 0 with
      | some (_, e) => match e.lost, e.min with
        | false, some m => (max (first : Int) (floorDiv (((m / 256 : Nat) : Int) - margin) 64 * 64)).toNat
        | _, _ => first
      | none => first
    let cand1 := match d.edgeOf b 1 with
      | some (_, e) => match e.lost, e.max with
        | false, some m => (min (last : Int) (floorDiv ((((m + 255) / 256 : Nat) : Int) + margin) 64 * 64 + 63)).toNat
        | _, _ => last
      | none => last
    let l := cropSide cand0 p0 (d.fld Reg.cropStat 0 4) narrow hyst true
    let r := cropSide cand1 p1 (d.fld Reg.cropStat 4 4) narrow hyst false
    (l.1, r.1, l.2, r.2)
  | _ => (first, last, 0, 0)

/-- The crop settings of a BRIM_CONFIG (R260, R269). -/
def Dev.setCrop (d : Dev) (p : Bytes) : Dev :=
  (((d.wrN Reg.cropCfg (leAt p 36 1 * 2 ^ 30 + leAt p 37 1 * 2 ^ 24 + leAt p 38 2 * 2 ^ 12 + leAt p 40 2)).wrN
    Reg.cropFixFirst (leAt p 44 4)).wrN Reg.cropFixLast (leAt p 48 4)).wrN Reg.cropStat 0

/-- Crop settings that await a batt at or below b take effect (R269). -/
def Dev.dueCrops (d : Dev) (b : Nat) : Dev :=
  let due := d.ful.cropPending.filter fun p => decide (p.1 ≤ b)
  due.foldl (fun d p => d.setCrop p.2)
    { d with ful := { d.ful with cropPending := d.ful.cropPending.filter fun p => !decide (p.1 ≤ b) } }

/-- The edge record of a batt with its crop window (R264). -/
def Dev.edgeRecord (d : Dev) (b : Batt) (first last : Nat) (moved : Bool) : Bytes :=
  let l := d.edgeOf b 0
  let r := d.edgeOf b 1
  let num := fun (x : Option (Nat × EdgeAcc)) (f : EdgeAcc → Option Nat) => le 4 ((x.bind fun e => f e.2).getD 0xFFFFFFFF)
  let cnt := fun (x : Option (Nat × EdgeAcc)) (f : EdgeAcc → Nat) => le 2 ((x.map fun e => f e.2).getD 0)
  let lost := fun (x : Option (Nat × EdgeAcc)) => x.any fun e => e.2.lost
  le 8 b.num ++ le 4 first ++ le 4 last
  ++ le 1 (b2n l.isSome + 2 * b2n r.isSome + 4 * b2n (lost l) + 8 * b2n (lost r) + 16 * b2n moved)
  ++ le 1 ((l.map (·.1)).getD 0xFF) ++ le 1 ((r.map (·.1)).getD 0xFF) ++ zeros 1
  ++ num l (·.last) ++ num l (·.min) ++ num l (·.max) ++ num r (·.last) ++ num r (·.min) ++ num r (·.max)
  ++ cnt l (·.found) ++ cnt r (·.found) ++ cnt l (·.rej) ++ cnt r (·.rej) ++ cnt l (·.miss) ++ cnt r (·.miss) ++ zeros 8

/-- Change batt `num`, live. -/
def Dev.modBatt (d : Dev) (num : Nat) (f : Batt → Batt) : Dev :=
  { d with ful := { d.ful with batts := d.ful.batts.map fun b => if b.num = num ∧ b.recalled.isNone then f b else b } }

/-- The crop window of batt b is decided (R266 to R269). -/
def Dev.decideCrop (d0 : Dev) (b : Batt) : Dev :=
  let d := d0.dueCrops b.num
  let p0 := d.rdN Reg.cropNowFirst
  let p1 := d.rdN Reg.cropNowLast
  let w := d.cropOf b
  let moved := w.1 != p0 || w.2.1 != p1
  let edge := d.edgeRecord b w.1 w.2.1 moved
  let d1 := (((d.wrN Reg.cropNowFirst w.1).wrN Reg.cropNowLast w.2.1).wr64 Reg.cropBatt b.num).wrN Reg.cropStat
    (w.2.2.2 * 16 + w.2.2.1)
  let d2 := d1.modBatt b.num fun x => { x with edge := edge, cropFirst := w.1, cropLast := w.2.1 }
  let d3 := { d2 with ful := { d2.ful with edges := (edge :: d2.ful.edges).take 16,
                                            crops := d2.ful.crops ++ [(b.num, w.1, w.2.1)] } }
  if moved then d3.event 0x8702 (some b.num) (le 4 w.1 ++ le 4 w.2.1 ++ le 4 p0 ++ le 4 p1) else d3

/-- A statistics block without its bins: the header of R286. -/
def Stat.header (s : Stat) (n : Nat) : Bytes :=
  le 8 s.batt ++ le 1 n ++ le 1 s.expid ++ le 1 (b2n (decide (s.excl = 0 ∧ s.npix > 0)) + 2 * s.hmode) ++ le 1 s.hshift
  ++ le 1 s.bins.length ++ zeros 3 ++ le 4 s.npix ++ le 4 s.excl ++ zeros 8

/-- A statistics block (R286). -/
def Stat.block (s : Stat) (n : Nat) : Bytes := s.header n ++ s.bins.flatMap fun bs => bs.flatMap (le 4)

/-- The statistics of a head for a closed batt are kept, in the next of the 8 slots of deep space, and
EXPOSURE_UNCONFIRMED is raised if rows were excluded (R285, R290). -/
def Dev.keepStats (d : Dev) (b : Batt) (n : Nat) : Dev :=
  match (d.pipe n).stats.find? fun s => s.batt == b.num with
  | none => d
  | some s0 =>
    let s := { s0 with expid := d.expidOf n b.num }
    let slot := (d.pipe n).keptSlot
    let d1 := d.modPipe n fun p => { p with
      stats := p.stats.erase s0, kept := (s :: p.kept).take 8, keptSlot := (slot + 1) % 8 }
    let d2 := d1.deepWrBytes (tableBase n + 0x100000 + slot * 0x2000) (s.block n)
    if s.excl = 0 then d2
    else
      let u := (d.port n).unconf.find? fun x => x.1 == b.num
      d2.event 0x8802 (some b.num) (le 1 n ++ le 1 (s.why - 1)
        ++ le 1 ((u.map (·.2.2.1)).getD s.expid) ++ le 1 ((u.map (·.2.2.2)).getD 0) ++ le 4 s.excl)

/-- The missing-row map of a batt (R236): maximal runs of equal status other than 0, head by head. -/
def mapRuns (n : Nat) : List (Nat × Nat) → List Nat
  | [] => []
  | (j, st) :: t =>
    let rest := mapRuns n t
    if st = 0 then rest
    else
      let one := j + 2 ^ 16 + st * 2 ^ 32 + n * 2 ^ 48
      match rest with
      | e :: more => if bits e 32 16 = st ∧ bits e 0 16 = j + 1 then (one + bits e 16 16 * 2 ^ 16) :: more else one :: rest
      | [] => [one]

/-- The map of a batt over its contributing heads. -/
def Dev.missingMap (d : Dev) (b : Batt) : List Nat :=
  b.heads.flatMap fun n => match d.card n b.grid.gen with
    | none => []
    | some c => mapRuns n ((List.range c.height).map fun j => (j, ((c.blockedRow (c.first b.num + j)).map (·.status)).getD 0))

/-- The statistics block that a batt carries for pipeline n (R369): padded to 64 + 1,024 x NPLANES bytes, of the statistics
gathered, or of none. -/
def Dev.statBlock (d : Dev) (b n : Nat) : Bytes :=
  let v := d.viewOf n b
  let s := ((d.pipe n).stats.find? fun s => s.batt == b).getD
    ⟨b, 0, v.hmode n, v.hshift n, 0, 0, 0, List.replicate (v.nplanes n) (List.replicate 256 0)⟩
  let x := ({ s with expid := d.expidOf n b }).block n
  x ++ zeros (64 + 1024 * v.nplanes n - x.length)

/-- Batt b is declared CLOSED in this cycle (R242): its set of rows, crop window, edge record and statistics are fixed. -/
def Dev.closeBatt (d : Dev) (b : Batt) : Dev :=
  let m := d.missingMap b
  let st := (b.heads.filter fun n => (d.viewOf n b.num).hpub n).map fun n => (n, d.statBlock b.num n)
  let d1 := d.modBatt b.num fun x => { x with
    state := .closed, map := m, stats := st, closedAt := d.now, closeTime := d.timeNs }
  let d2 := b.heads.foldl (fun d n => d.keepStats b n) (d1.decideCrop b)
  (d2.showBatts).sendClose b

/-- Batts close in ascending order, each once every contributing head has finished it (R242). -/
def Dev.closeReady : Nat → Dev → Dev
  | 0, d => d
  | k + 1, d =>
    match (d.ful.batts.filter fun b => b.state == .opened && b.recalled.isNone).head? with
    | none => d
    | some b => if d.finishedBatt b then (d.closeBatt b).closeReady k else d

/-- The lowest open batt closes once every contributing head has finished it, and with it later ones that are finished
(R242). -/
def execBattClose (s : State) : Host.Outcome State Fault Refusal :=
  s.updData fun d => d.closeReady (d.ful.batts.length + 1)

/-- Rows of a head that what has arrived resolves are formed, blocked, scored and written: rows that reach the tracker in
the cycle of a deadline count (R45). -/
def Dev.settleHead (d : Dev) (n gen fuel : Nat) : Dev :=
  let d1 := Dev.drain (fun d => d.resolveNext n gen) fuel d
  let d2 := Dev.drain (fun d => d.blockNext n gen) fuel d1
  let d3 := Dev.drain (fun d => d.napNext n gen) fuel d2
  Dev.drain (fun d => match d.card n gen with
    | some c => d.writeRow n gen c.written false false false
    | none => none) fuel d3

/-- The card writer takes every row that its hopper holds (R548). -/
def Dev.drainWriter (d : Dev) (n : Nat) : Dev :=
  (d.cardGens n).foldl (fun d g => match d.card n g with
    | none => d
    | some c => Dev.drain (fun d => match d.card n g with
        | some c => d.writeRow n g c.written false false false
        | none => none) c.blocked.length d) d

/-- The rows of batt b of a head are formed at its deadline, each tap still awaited lost, and written (R244, R259). -/
def Dev.forceHead (d : Dev) (b : Batt) (n : Nat) : Dev :=
  match d.card n b.grid.gen with
  | none => d
  | some c =>
    let rows := (List.range c.height).map fun j => c.first b.num + j
    let d1 := rows.foldl (fun d r => (d.resolveRow n b.grid.gen r true).getD d) d
    let d2 := rows.foldl (fun d r => (d.blockAt n b.grid.gen r true).getD d) d1
    let d3 := (List.range c.tileRows).foldl (fun d t => (d.napAt n b.grid.gen (c.first b.num / 64 + t)).getD d) d2
    rows.foldl (fun d r => (d.writeRow n b.grid.gen r false false false).getD d) d3

/-- The deadline of a batt expires (R243, R244): by position once SPOS is DL_POS beyond its last point, else by time, which
runs from the cycle in which SPOS first reached that point. -/
def execBattDeadlineExpiry (batt : Nat) (s : State) : Host.Outcome State Fault Refusal :=
  s.updData fun d =>
    match d.ful.batts.find? fun b => b.num == batt && b.recalled.isNone && b.state == .opened && !b.expired with
    | none => d
    | some b =>
      let l := d.lastPoint b
      let byPos := decide (4 * d.spos ≥ l + 256 * (max 1 (d.rdN Reg.btDlPos) : Nat))
      if 4 * d.rdI64 Reg.sposHwm < l then d
      else
        let d0 := b.heads.foldl (fun d n => if d.stageOn (80 + n) then d.settleHead n b.grid.gen (2 ^ b.grid.hlog) else d) d
        let miss := b.heads.filter fun n => match d0.card n b.grid.gen with
          | some c => !((List.range c.height).all fun j => (c.blockedRow (c.first b.num + j)).isSome)
          | none => false
        let unformed := fun (d : Dev) (n : Nat) => match d.card n b.grid.gen with
          | some c => (List.range c.height).countP fun j =>
              ((c.blockedRow (c.first b.num + j)).map fun x => x.status % 16) == some Cause.deadline
          | none => 0
        let d1 := b.heads.foldl (fun d n => d.forceHead b n) d0
        let rows := sumN (b.heads.map fun n => unformed d1 n - unformed d0 n)
        let d2 := d1.modBatt b.num fun x => { x with expired := true, missing := listMask miss }
        let d3 := (d2.incSat Reg.btStat 16 16 1).event 0x8601 (some b.num)
          (le 2 (listMask miss) ++ le 1 (b2n (!byPos)) ++ zeros 1 ++ le 4 rows)
        d3.closeReady (d3.ful.batts.length + 1)

end Sys2Proof.Machine
end

