-- ==== Sys2Proof/Machine/PlaceOps.lean ====
section
/-! DEFINITION. What fulling, the hoods and placement share: batts by key, output staging, the release of a batt, its
failure, and its entry on the streams (spec/01_architecture.md R35 to R44, spec/10_fulling.md R323, spec/12_placement.md). -/

namespace Sys2Proof.Machine

open Sys2Proof

/-- The key of a batt: its number, and for a recall batt the number of its RECALL. -/
def Batt.key (b : Batt) : Nat × Option Nat := (b.num, b.recalled.map (·.1))

/-- Change the batt of a key. -/
def Dev.modKey (d : Dev) (k : Nat × Option Nat) (f : Batt → Batt) : Dev :=
  { d with ful := { d.ful with batts := d.ful.batts.map fun b => if b.key = k then f b else b } }

/-- The batt of a key. -/
def Dev.battKey (d : Dev) (k : Nat × Option Nat) : Option Batt := d.ful.batts.find? fun b => b.key == k

/-! ## Output staging (R41, R323) -/

/-- Bytes of output staging: its pages that are not withdrawn. -/
def Dev.stagingBytes (d : Dev) : Nat :=
  ((d.hood.pagesOf 3 0).filter fun p => !d.hood.retired.contains p).length * pageSize
/-- Bytes of output staging held. -/
def Dev.stagedBytes (d : Dev) : Nat := sumN (d.ful.batts.map (·.staged))
/-- Free output staging. -/
def Dev.stagingFree (d : Dev) : Nat := d.stagingBytes - d.stagedBytes
/-- Show the output staging pages in use (HOOD_STG_USED). -/
def Dev.showStaged (d : Dev) : Dev := d.wrN Reg.hoodStgUsed (ceilDiv d.stagedBytes pageSize)

/-- Pages of output staging and of the attachment reserve that are due are retired as batts leave them (R523). -/
def Dev.retireStaging (d : Dev) : Dev :=
  (d.cnf.retired.filter fun r => r.pending && (r.kind == 3 || r.kind == 4)).foldl (fun d r => d.replacePage r.page) d

/-- The output staging of a batt is freed; what stands in it stays (R35, R41). -/
def Dev.releaseBatt (d : Dev) (k : Nat × Option Nat) : Dev :=
  ((d.modKey k fun b => { b with
    state := if b.state = .failed then .failed else .released, staged := 0 }).retireStaging).showStaged

/-- A batt that no stream owes a descriptor and no slice fulls is released (R367). -/
def Dev.releaseIfDone (d : Dev) (k : Nat × Option Nat) : Dev :=
  match d.battKey k with
  | some b => if b.owed = [] ∧ b.slice = none ∧ (b.state = .fulled ∨ b.state = .published ∨ b.state = .failed) then
      d.releaseBatt k else d
  | none => d

/-! ## Failure (R36, R384, R389) -/

/-- A batt becomes FAILED on one stream: its issues are withdrawn, none of its indices is issued again. -/
def Dev.failPlaced (d : Dev) (s : Nat) (k : Nat × Option Nat) (cause : Nat) : Dev :=
  let d1 := d.modPlaced s k fun p => if p.fail = 0 then { p with fail := cause, cut := true, todo := [], re := [] } else p
  (d1.failIssues s 7 fun i => i.batt == k).modPlaced s k fun p => { p with placed := true }

/-- A batt has a place on stream s. -/
def Dev.onStream (d : Dev) (s : Nat) (k : Nat × Option Nat) : Bool := (d.str s).batts.any fun p => p.batt == k

/-- A batt becomes FAILED on every stream that has it; with none it is released. -/
def Dev.failBatt (d : Dev) (k : Nat × Option Nat) (cause : Nat) : Dev :=
  let slice := ((d.battKey k).bind (·.slice))
  let d1 := d.modKey k fun b => { b with state := .failed, cause := cause, slice := none }
  let d2 := match slice with
    | some j => d1.setFlag (Reg.fulStat j) 31 false
    | none => d1
  ((List.range 8).foldl (fun d s => if d.onStream s k then d.failPlaced s k cause else d) d2).releaseIfDone k

/-- Batt k enters the order of stream s (R38). -/
def Dev.enterStream (d : Dev) (s : Nat) (k : Nat × Option Nat) : Dev :=
  d.modStr s fun t => { t with batts := t.batts ++ [{ batt := k }] }

end Sys2Proof.Machine
end

