-- ==== Sys2Proof/Machine/Fulling.lean ====
section
/-! DEFINITION. The fulling commands, the decision point, and the fulling of live batts (spec/10_fulling.md). -/

namespace Sys2Proof.Machine

open Sys2Proof

/-! ## Commands -/

/-- COMMIT, TARGET and the reserved bits of the common part. -/
def fxCommit (p : Bytes) : Bool := bit (leAt p 0 1) 0
def fxTarget (p : Bytes) : Nat := leAt p 8 8
def fxReserved (p : Bytes) : Bool :=
  leAt p 0 1 < 2 && zeroAt p 1 7 && (fxTarget p == noBatt || bits (fxTarget p) 48 16 == 0)

/-- The specification of a fulling command. -/
def fxSpec (code : Nat) (len : Bytes → Bool) (reserved : Bytes → Bool) : Spec :=
  { code := code, len := len, reserved := reserved, recov := true, objs := fun _ => [.fulConfig] }

/-- The common course of SEAM_SET, LADDER_SET and OUTPUT_FORMAT: write the inactive bank, then commit if asked (R326). -/
def Dev.fxWrite (d : Dev) (p : Bytes) (bad : Bool) (write : Dev → Dev) : Result :=
  if bad then .err d St.badParam
  else if d.stiffActive then .err d St.stiffened
  else if d.fulBusy then .err d St.retry
  else if fxCommit p && d.fulLate (fxTarget p) then .err d St.tooLate
  else .ok (if fxCommit p then (write d).commitFul (fxTarget p) else write d) []

/-- A source of a seam (R302). -/
def seamSource (s : Nat) : Bool := decide (s ≤ 15) || isRemote s

/-- The values of a SEAM_SET are refused (R302). -/
def Dev.seamBad (d : Dev) (p : Bytes) : Bool :=
  let seam := leAt p 16 1
  let en := leAt p 17 1
  let l := leAt p 18 1
  let r := leAt p 19 1
  let first := leAt p 20 4
  let w := leAt p 24 2
  let others := (d.liveView (1 - d.fulActive)).seams.filter fun s => s.idx != seam
  if seam > 15 ∨ en > 1 then true
  else if en = 0 then !zeroAt p 18 8
  else !seamSource l || !seamSource r || l == r || (isRemote l && isRemote r) || decide (w > 256)
    || decide (first < d.fld Reg.devFirst 0 20) || decide (first + max w 1 > d.fld Reg.devLast 0 20 + 1)
    || ((List.range w).any fun i => decide (leAt p (28 + 2 * i) 2 > 1024))
    || others.any fun s => decide (first < s.first + s.width ∧ s.first < first + w)

/-- SEAM_SET writes or removes one seam of the inactive fulling bank (R302). -/
def execSeamSet (r : Req) (s : State) : Host.Outcome State Fault Refusal :=
  s.upd fun d => d.command (fxSpec 0x0901
      (fun p => decide (p.length ≥ 28 ∧ p.length = 28 + 2 * leAt p 24 2)) (fun p => fxReserved p && zeroAt p 26 2)) r fun d =>
    let p := r.payload
    let b := 1 - d.fulActive
    let seam := leAt p 16 1
    d.fxWrite p (d.seamBad p) fun d =>
      if leAt p 17 1 = 0 then (d.wrN (Reg.seamCfg b seam) 0).wrN (Reg.seamCol b seam) 0
      else ((d.wrN (Reg.seamCfg b seam)
          (2 ^ 31 + leAt p 24 2 * 2 ^ 16 + leAt p 18 1 * 2 ^ 8 + leAt p 19 1)).wrN (Reg.seamCol b seam) (leAt p 20 4)).deepWrBytes
        (rampAddr b seam) (p.drop 28)

/-- The values of a rung word are refused: reserved bits or BIN, a breach of R317, planes at or above OUT_PLANES. -/
def rungBad (r n planes w : Nat) : Bool :=
  bits w 24 3 != 0 || bits w 8 8 != 0 || bits w 28 2 == 3
  || (bit w 31 && (decide (w ≠ 2 ^ 31) || r == 0))
  || (bits w 16 8 != 0 && (!bit w 30 || r == 0))
  || (bit w 27 && (r != 7 || n != 8))
  || bits w (2 * planes) (8 - 2 * planes) != 0

/-- LADDER_SET writes the ladder of the inactive fulling bank (R317). -/
def execLadderSet (r : Req) (s : State) : Host.Outcome State Fault Refusal :=
  s.upd fun d => d.command (fxSpec 0x0902 (lenIs 52) (fun p => fxReserved p && decide (leAt p 17 1 < 2) && zeroAt p 18 2)) r
    fun d =>
    let p := r.payload
    let b := 1 - d.fulActive
    let n := leAt p 16 1
    let w := fun (i : Nat) => leAt p (20 + 4 * i) 4
    let bad := n = 0 ∨ n > 8 ∨ ((List.range 8).any fun i =>
        if i < n then rungBad i n (d.liveView b).outPlanes (w i) else w i != 0) = true
      ∨ (d.flag Reg.budgetCfg 31 = true ∧ d.fld Reg.budgetCfg 24 3 ≥ n)
    d.fxWrite p (decide bad) fun d =>
      let d1 := (d.setFld (Reg.outCfg b) 0 3 (n - 1)).setFld (Reg.outCfg b) 29 1 (leAt p 17 1)
      (List.range 8).foldl (fun d i => d.wrN (Reg.rung b i) (w i)) d1

/-- OUTPUT_FORMAT writes planes, shifts and fill values of the inactive fulling bank (R301, R304, R308). -/
def execOutputFormat (r : Req) (s : State) : Host.Outcome State Fault Refusal :=
  s.upd fun d => d.command (fxSpec 0x0903 (lenIs 52) (fun p => fxReserved p && zeroAt p 17 3)) r fun d =>
    let p := r.payload
    let b := 1 - d.fulActive
    let n := leAt p 16 1
    let v := d.liveView b
    let bad := n = 0 ∨ n > 4
      ∨ ((List.range 16).any fun k => decide (leAt p (20 + k) 1 > (if k < 4 then 16 else 8))) = true
      ∨ ((List.range 4).any fun j => decide (leAt p (36 + 4 * j) 4 ≥ 2 ^ 24)) = true
      ∨ ((List.range v.rungs).any fun i => bits (v.rungWord i) (2 * n) (8 - 2 * n) != 0) = true
    d.fxWrite p (decide bad) fun d =>
      let d1 := d.setFld (Reg.outCfg b) 30 2 (n - 1)
      let d2 := (List.range 4).foldl (fun d f => d.wrN (Reg.outShift b f) (leAt p (20 + 4 * f) 4)) d1
      (List.range 4).foldl (fun d j => d.wrN (Reg.outFill b j) (leAt p (36 + 4 * j) 4)) d2

/-- Ladder mode, reserve and seam wait in the layout of BUDGET_SET. -/
def Dev.budgetBytes (d : Dev) : Bytes :=
  le 1 (b2n (d.flag Reg.budgetCfg 31)) ++ le 1 (d.fld Reg.budgetCfg 24 3) ++ zeros 2 ++ le 4 (d.fld Reg.budgetCfg 0 17)
  ++ le 2 (d.fld Reg.seamWait 0 10) ++ zeros 2

/-- BUDGET_SET sets the ladder mode, the reserve and the seam wait, from the next decision point (R322). -/
def execBudgetSet (r : Req) (s : State) : Host.Outcome State Fault Refusal :=
  s.upd fun d => d.command (fxSpec 0x0904 (lenIs 12) (fun p => zeroAt p 2 2 && zeroAt p 10 2)) r fun d =>
    let p := r.payload
    let mode := leAt p 0 1
    let fix := leAt p 1 1
    if mode > 1 ∨ (mode = 0 ∧ fix ≠ 0) ∨ (mode = 1 ∧ fix ≥ d.nrungs) ∨ leAt p 4 4 > 100000 ∨ leAt p 8 2 > 1000 then
      .err d St.badParam
    else if p = d.budgetBytes then ⟨St.alreadyDone, d.budgetBytes, d, [], [], false⟩
    else Result.stiff d (.ok ((d.wrN Reg.budgetCfg (mode * 2 ^ 31 + fix * 2 ^ 24 + leAt p 4 4)).wrN Reg.seamWait (leAt p 8 2))
      d.budgetBytes)

/-- LADDER_STATUS reports the last ladder decision without clearing anything. -/
def execLadderStatus (r : Req) (s : State) : Host.Outcome State Fault Refusal :=
  s.upd fun d => d.command { code := 0x0905, len := lenIs 0, objs := fun _ => [.fulConfig] } r fun d =>
    let b := d.rd64 Reg.ladBatt % 2 ^ 48
    .ok d (le 1 (d.fld Reg.ladStat 24 3) ++ le 1 (d.fld Reg.ladStat 16 4) ++ le 1 (d.fld Reg.ladStat 8 4)
      ++ le 1 (b2n (d.flag Reg.budgetCfg 31)) ++ zeros 4 ++ le 8 (if b = 2 ^ 48 - 1 then noBatt else b)
      ++ le 8 (d.rd64 Reg.ladBudget) ++ le 4 (d.rdN Reg.ladRate) ++ le 4 (d.rdN Reg.ladRecall)
      ++ le 4 (d.fld Reg.budgetCfg 0 17) ++ zeros 4 ++ (List.range 8).flatMap (fun i => le 8 (d.rd64 (Reg.ladSize i)))
      ++ le 4 (d.rdN Reg.ladCnt) ++ le 4 (d.rdN Reg.ladCapdef) ++ le 4 (d.rdN Reg.ladSeamwait) ++ zeros 4)

/-- The copy after a swap ends (R216, R217, R326): of pipeline `head`, or of the fulling banks for 16. The copy reads every entry of
the new active bank (R611): `corrected` single-bit errors, and the deep-space addresses of entries newly uncorrectable. -/
def execBankCopyDone (head : Fin 17) (corrected : Nat) (bad : List Nat) (s : State) : Host.Outcome State Fault Refusal :=
  s.updData fun d =>
    let n := head.val
    if n = 16 then (if d.flag Reg.fulBank 29 then d.copyFul.rebase else d)
    else if d.flag (Reg.ppStat n) 29 then
      let read := (bad.filterMap ramEntry ++ d.lost).filter (d.copyReads n)
      let e := d.ramErrors n read corrected bad
      (e.1.copyBank n).rebase.setFlag (Reg.ppStat n) 29 false
    else d

/-! ## The decision point (R297, R318 to R323) -/

/-- The neighbour closes of batt b have arrived on every band port that an enabled seam of a bank uses. -/
def Dev.closesIn (d : Dev) (v : View) (b : Nat) : Bool :=
  v.seamPorts.all fun p => d.band.closes.any fun c => c.port == p && c.batt == b

/-- The batt whose decision point comes next, if its conditions hold. -/
def Dev.nextDecision (d : Dev) : Option Batt :=
  match d.ful.batts.find? fun b => b.recalled.isNone && b.decision.isNone && b.state != .failed with
  | some b =>
    if b.state = .closed ∧ (b.seamExpired = true ∨ d.closesIn (d.liveView (d.fulBankFor b.num)) b.num = true)
        ∧ d.devRec = false ∧ d.safe = false then some b else none
  | none => none

/-- Achieved rate, recall rate and budget at a decision point (R320). -/
structure Budget where
  rate : Nat
  recalled : Nat
  bytes : Nat
  deriving DecidableEq, Repr

/-- The window begins at the oldest mark kept: the 16th earlier decision, or LINE_START. -/
def Dev.windowMark (d : Dev) : RateMark := d.ful.marks.getLastD d.rateMark

/-- The budget of a batt of grid g (R320). -/
def Dev.budget (d : Dev) (g : Grid) : Budget :=
  let m := d.windowMark
  let now := d.rateMark
  let t := now.busy - m.busy
  let r := if t < cyclesMs then d.fld Reg.rateNom 0 17 else (now.done - m.done) * 300 / t
  let span := now.cycle - m.cycle
  let rec_ := if span = 0 then 0 else (now.recalled - m.recalled) * 300 / span
  let eff := r - d.fld Reg.budgetCfg 0 17 - rec_
  let speed := (signed 32 (d.rdN Reg.posRate)).natAbs
  ⟨r, rec_, if speed = 0 then 2 ^ 64 - 1
    else min (2 ^ 64 - 1) (eff * 1000000 * 2 ^ g.hlog * g.pitch * 16 / (256 * speed))⟩

/-- What R321 chooses: the candidate, the rung, and whether the held rung no longer fitted. -/
def chooseRung (sizes : List Nat) (budget cur cPrev : Nat) : Nat × Nat × Bool :=
  let n := sizes.length
  let c := ((List.range n).find? fun r => decide (sizes.getD r 0 ≤ budget)).getD n
  let r0 := if c = n then n - 1 else if c ≥ cur then c else if cPrev < cur then max c cPrev else cur
  if c < n ∧ sizes.getD r0 0 > budget then (c, c, true) else (c, r0, false)

/-- REASON of RUNG_CHANGED. -/
def rungReason (fixed exhausted misfit : Bool) (old new : Nat) : Nat :=
  if fixed then 4 else if exhausted then 3 else if misfit then 2 else if new > old then 0 else 1

/-- The streams that receive a live batt decided now (R367). -/
def Dev.liveStreams (d : Dev) (b : Nat) : List Nat :=
  (List.range 8).filter fun s => d.started s && !d.isRecall s && decide ((d.str s).first ≤ b)
    && (d.str s).stop.all fun l => decide (b ≤ l)

/-- Reserve output staging for a decided batt, or make it OVERRUN_DEFERRED, its attachments in their reserve (R323, R333). -/
def Dev.reserveStaging (d : Dev) (k : Nat × Option Nat) (need : Nat) : Dev :=
  if need ≤ d.stagingFree then (d.modKey k fun b => { b with staged := need }).showStaged
  else
    let free := d.stagingFree
    let d1 := d.modKey k fun b => { b with
      state := .fulled, decision := b.decision.map fun x => { x with overrun := true } }
    (({ d1 with ful := { d1.ful with overrun := d1.ful.overrun + 1, overrunEv := some (k.1, free, need) } } : Dev).incSat
      Reg.ladCnt 0 16 1).modHood fun h => h.soil 4

/-- The decision point of batt b (R297, R306, R318 to R323, R326, R367). -/
def Dev.decideBatt (d0 : Dev) (b : Batt) : Dev :=
  let d := if d0.flag Reg.fulBank 30 && decide (d0.rd64 Reg.fulSwapBatt % 2 ^ 48 ≤ b.num) then d0.swapFul else d0
  let v := d.fulSnapshot d.fulActive
  let h := 2 ^ b.grid.hlog
  let remote := d.band.seamRows.filter fun r => r.batt == b.num
  let closes := d.band.closes.filter fun c => c.batt == b.num
  let src := d.sourceOf b v remote
  let flags := (outTiles h b.cropFirst b.cropLast).map fun t => d.tileFlags b src closes t
  let sizes := (List.range v.rungs).map fun r => v.sizeAt flags r
  let bud := d.budget b.grid
  let fixed := d.flag Reg.budgetCfg 31
  let ch := chooseRung sizes bud.bytes d.ful.cur d.ful.cPrev
  let rung := if fixed then min (d.fld Reg.budgetCfg 24 3) (v.rungs - 1) else ch.2.1
  let size := sizes.getD rung 0
  let exhausted := !fixed && ch.1 == sizes.length
  let dec : Decision := ⟨rung, flags, false, exhausted, fixed, b.seamExpired, size + attachSize b flags.length, size,
    d.spos, d.timeNs, v, remote⟩
  let streams := d.liveStreams b.num
  let d1 := d.modKey b.key fun x => { x with decision := some dec, owed := streams }
  let d2 := { d1 with
    ful := { d1.ful with
      cur := ch.2.1, cPrev := ch.1, lastRung := rung, marks := (d.rateMark :: d.ful.marks).take 16
      exhausted := d.ful.exhausted + b2n exhausted
      exhaustEv := if exhausted then some (b.num, rung, bud.bytes, size) else d.ful.exhaustEv }
    band := { d1.band with seamRows := d.band.seamRows.filter fun r => r.batt != b.num } }
  let d3 := d2.wrN Reg.ladStat (rung * 2 ^ 24 + ch.1 * 2 ^ 16 + d.ful.cPrev * 2 ^ 8 + b2n exhausted)
  let d4 := (((d3.setFld Reg.ladRate 0 17 bud.rate).setFld Reg.ladRecall 0 17 bud.recalled).wr64 Reg.ladBudget bud.bytes).wr64
    Reg.ladBatt b.num
  let d5 := (List.range 8).foldl (fun d r => d.wr64 (Reg.ladSize r) (sizes.getD r (2 ^ 64 - 1))) d4
  let d6 := if exhausted then d5.incSat Reg.ladCnt 16 16 1 else d5
  let d7 := if rung = d.ful.lastRung then d6
    else d6.event 0x8901 (some b.num) (le 1 d.ful.lastRung ++ le 1 rung
      ++ le 1 (rungReason fixed exhausted ch.2.2 d.ful.lastRung rung) ++ zeros 5 ++ le 8 bud.bytes ++ le 8 size)
  (streams.foldl (fun d s => d.enterStream s b.key) (d7.reserveStaging b.key dec.need)).releaseIfDone b.key

/-- A closed batt reaches its decision point (R297). -/
def execDecisionPoint (s : State) : Host.Outcome State Fault Refusal :=
  s.updData fun d => match d.nextDecision with
    | some b => d.decideBatt b
    | none => d

/-- The seam wait of a batt expires (R305): it is CLOSED, undecided, and a needed neighbour close is missing. -/
def execSeamWaitExpiry (batt : Nat) (s : State) : Host.Outcome State Fault Refusal :=
  s.updData fun d =>
    match d.ful.batts.find? fun b => b.num == batt && b.recalled.isNone with
    | some b =>
      if b.state = .closed ∧ b.decision.isNone = true ∧ b.seamExpired = false
          ∧ d.closesIn (d.liveView (d.fulBankFor b.num)) b.num = false then
        (d.modBatt batt fun x => { x with seamExpired := true }).incSat Reg.ladSeamwait 0 32 1
      else d
    | none => d

/-! ## Fulling a batt (R298, R299, R328, R329) -/

/-- The lowest-numbered idle slice that is in no recovery. -/
def Dev.idleSlice (d : Dev) : Option Nat :=
  (List.range 8).find? fun k => !(d.ful.batts.any fun b => b.slice == some k) && !d.flag Reg.fltUrec (16 + k)

/-- A batt lost in a contributing pipeline (R343). -/
def Dev.notHooded (d : Dev) (b : Batt) : Bool := b.heads.any fun n => d.hood.lost.contains (n, b.num)

/-- Give a decided batt to slice k: what it forms from the hood is fixed by its decision (R298, R299, R325), and output staging
is written. -/
def Dev.fullInto (d : Dev) (b : Batt) (k : Nat) : Dev :=
  match b.decision with
  | none => d
  | some x =>
    let f := (d.sourceOf b x.view x.remote).full x.rung (outTiles (2 ^ b.grid.hlog) b.cropFirst b.cropLast) x.flags
    (((d.modKey b.key fun y => { y with
      slice := some k, cutter := some k, data := f.data, index := f.index, deferred := f.deferred, capped := f.capped }).setFlag
        (Reg.fulStat k) 31 true).wr64 (Reg.fulBatt k) b.num).modHood fun h => h.soil 3

/-- A batt past its decision point is given to the lowest idle slice (R298). A reading met corrected and uncorrectable words
at the addresses given (R328): with one uncorrectable the batt ends FAILED(SOURCE_DAMAGED), as does a batt to be fulled
again whose rows have been overwritten (R43). -/
def execFullingStart (corrected bad : List Nat) (s : State) : Host.Outcome State Fault Refusal :=
  s.upd fun d =>
    match d.ful.batts.find? fun b => b.recalled.isNone && b.state == .closed && b.decision.isSome && b.slice.isNone, d.idleSlice with
    | some b, some k =>
      if d.devRec || d.safe then d
      else if b.again && d.notHooded b then d.failBatt b.key 1
      else
        let d1 := d.fsErrors corrected bad
        if bad ≠ [] then d1.failBatt b.key 1 else d1.fullInto b k
    | _, _ => d

/-- Mark of the RECALL of a recall batt has become void. -/
def Dev.recallVoid (d : Dev) (b : Batt) : Bool :=
  match b.recalled with
  | some (id, _) => (d.ful.recalls.find? fun r => r.id == id).any fun r => d.markState r.mark != 1
  | none => false

/-- A slice has written every tile and the tile index of its batt (R35, R319, R352). `hits`: the upsets of words of its hopper FULk
(R101); one read with poison (R109): sources 0x4C and 0x40 + k occur together, and the batt is rolled back. -/
def execFullingDone (slice : Fin 8) (hits : Hits) (s : State) : Host.Outcome State Fault Refusal :=
  s.upd fun d0 =>
    let d := d0.hopRead (59 + slice.val)
    match d.ful.batts.find? fun b => b.slice == some slice.val with
    | none => d
    | some b =>
      if d.devRec || d.safe || d.flag Reg.fltUrec (16 + slice.val) then d
      else if badWords [] hits ≠ [] then
        (d.countPoison (59 + slice.val) (badWords [] hits).length).occur [0x4C, 0x40 + slice.val] 0
      else
        let d1 := (d.modKey b.key fun x => { x with slice := none, state := .fulled }).setFlag (Reg.fulStat slice.val) 31 false
        let d2 := (d1.incWrap (Reg.fulTiles slice.val) 0 32 (b.index.length / 16 - b.deferred.length / 4)).incSat
          Reg.ladCapdef 0 32 b.capped
        let d3 := if d.recallVoid b then d2.failBatt b.key 1 else d2.releaseIfDone b.key
        d3.returnReserve

end Sys2Proof.Machine
end

