-- ==== Sys2Proof/Machine/Blocking.lean ====
section
/-! DEFINITION. The commands of blocking and brim tracking (spec/08_blocking_and_brim.md). -/

namespace Sys2Proof.Machine

open Sys2Proof

/-- Columns first to first + ncol - 1 keep R249 against a grid. -/
def rangeOk (gridW devFirst devLast first ncol : Nat) : Bool :=
  decide (first + 256 ≥ devFirst ∧ first + ncol ≤ devLast + 1 + 256 ∧ first + ncol ≤ gridW)

/-- BLOCK_MAP_LOAD's own checks (R249, R251, R252). -/
def Dev.blockMapBad (d : Dev) (p : Bytes) : Option Nat :=
  let n := pxHead p
  let ncol := leAt p 20 2
  let mapped := bit (leAt p 22 1) 0
  let kern := bit (leAt p 22 1) 1
  let cols := if mapped then ncol else d.width n
  if leAt p 16 4 ≥ 2 ^ 20 ∨ (mapped = true ∧ (ncol < 1 ∨ ncol > 32768)) ∨ (mapped = false ∧ ncol ≠ 0)
      ∨ (mapped = true ∧ leAt p 40 4 ≠ ncol * 8 + 4) ∨ (mapped = false ∧ zeroAt p 24 24 = false)
      ∨ (kern = true ∧ leAt p 64 4 ≠ 2052) ∨ (kern = false ∧ zeroAt p 48 24 = false) then some St.badParam
  else if (d.pipe n).width.isNone then some St.badState
  else if rangeOk (d.fld Reg.gridW 0 21) (d.fld Reg.devFirst 0 20) (d.fld Reg.devLast 0 20) (leAt p 16 4) cols = false then
    some St.badParam
  else none

/-- COL0 and the map geometry of the inactive bank. -/
def Dev.setBlockRegs (d : Dev) (p : Bytes) (lo hi : Int) (anchor : Nat) : Dev :=
  let n := pxHead p
  let b := d.inactive n
  let mapped := bit (leAt p 22 1) 0
  let d1 := d.wrN (Reg.bkCol0 n b) (leAt p 16 4)
  if mapped then
    (d1.wrN (Reg.bkCfg n b) (2 ^ 31 + unsigned 7 hi * 2 ^ 24 + unsigned 7 lo * 2 ^ 17 + (leAt p 20 2 - 1))).wrN (Reg.bkAnchor n b) anchor
  else (d1.wrN (Reg.bkCfg n b) 0).wrN (Reg.bkAnchor n b) 0

/-- BLOCK_MAP_LOAD loads the block map and, with KERNELS, the kernels of the inactive bank (R249 to R253). -/
def execBlockMapLoad (r : Req) (s : State) : Host.Outcome State Fault Refusal :=
  s.upd fun d => d.command
    { code := 0x0701, len := lenIs 72, recov := true, objs := pxObjs r.mbx.val 0x0701,
      reserved := fun p => pxReserved 1 p && bits (leAt p 22 1) 2 6 == 0 && zeroAt p 23 1
        && (!bit (leAt p 22 1) 0 || refReserved p 24) && (!bit (leAt p 22 1) 1 || refReserved p 48) } r fun d =>
      let p := r.payload
      let fl := leAt p 22 1
      let refs := (if bit fl 0 then [bulkRef p 24] else []) ++ (if bit fl 1 then [bulkRef p 48] else [])
      if refs = [] then d.pxDirect r (d.blockMapBad p) (fun d => d.setBlockRegs p 0 0 0) []
      else d.pxFetch r (d.blockMapBad p) refs

/-- The entries of a fetched block map, as (source in 1/4,096 column, skew, kernel), if each keeps R249 and R250. -/
def mapEntries (width : Nat) : Nat → Bytes → Option (List (Nat × Int × Nat))
  | 0, _ => some []
  | k + 1, b =>
    let lo := leAt b 0 4
    let hi := leAt b 4 4
    let src := bits lo 24 3 * 4096 * 4096 + lo % 2 ^ 24
    let skew := signed 11 hi
    if bits lo 27 5 ≠ 0 ∨ bits hi 11 3 ≠ 0 ∨ bits hi 16 16 ≠ 0 ∨ skew < -512 ∨ skew > 512 ∨ src > (width - 1) * 4096 then none
    else (mapEntries width k (b.drop 8)).map fun t => (src, skew, bits hi 14 2) :: t

/-- SKEW_LO, SKEW_HI and the anchor of a map (R253, R256). -/
def mapGeometry (es : List (Nat × Int × Nat)) : Int × Int × Nat :=
  let ks := es.map fun e => e.2.1
  let lo := floorDiv (ks.foldl min (ks.headD 0)) 16
  let hi := -(floorDiv (-(ks.foldl max (ks.headD 0))) 16)
  let best := (ks.map Int.natAbs).foldl min ((ks.headD 0).natAbs)
  (lo, hi, (ks.findIdx? fun k => k.natAbs == best).getD 0)

/-- The coefficients of each phase of a kernel table sum to 1,024 (R252). -/
def blockKernelsOk (data : Bytes) : Bool :=
  (List.range 256).all fun i =>
    (sleAt data (8 * i) 2 + sleAt data (8 * i + 2) 2 + sleAt data (8 * i + 4) 2 + sleAt data (8 * i + 6) 2) == 1024

/-- Fetched map and kernel data are written to the inactive bank (R249 to R252): the device, SKEW_LO, SKEW_HI and ANCHOR;
none when a rule is breached. -/
def Dev.applyBlock (d : Dev) (p : Bytes) (map kern : Option Bytes) : Option (Dev × Int × Int × Nat) :=
  let n := pxHead p
  let b := d.inactive n
  let es := match map with
    | some m => mapEntries (d.width n) (leAt p 20 2) m
    | none => some []
  match es with
  | none => none
  | some l =>
    if kern.any fun k => !blockKernelsOk k then none
    else
      let g := if map.isSome then mapGeometry l else (0, 0, 0)
      let d1 := (kern.map fun k => d.deepWrBytes (tableBase n + 0x74000 + b * 0x800) k).getD d
      let d2 := (map.map fun m => d1.deepWrBytes (tableBase n + 0x80000 + b * 0x40000) m).getD d1
      some (d2.setBlockRegs p g.1 g.2.1 g.2.2, g.1, g.2.1, g.2.2)

/-- STRIP_GRID_SET sets the strip grid and the device's columns while the line is stopped (R246 to R248). -/
def execStripGridSet (r : Req) (s : State) : Host.Outcome State Fault Refusal :=
  s.upd fun d => d.command { code := 0x0702, len := lenIs 16, recov := true, objs := fun _ => [.fulConfig] } r fun d =>
    let p := r.payload
    let w := leAt p 0 4
    let nm := leAt p 4 4
    let a := leAt p 8 4
    let z := leAt p 12 4
    let heads := (List.range 16).filter fun n => d.portState n != 0
    let bad := heads.any fun n => [0, 1].any fun b =>
      let v := d.liveView b
      !rangeOk w a z (v.col0 n) (v.ncol n)
    if w < 64 ∨ w > 1048576 ∨ w % 64 ≠ 0 ∨ nm < 1 ∨ nm > 1048575 ∨ a % 64 ≠ 0 ∨ (z + 1) % 64 ≠ 0 ∨ a > z ∨ z ≥ w
        ∨ bad = true then .err d St.badParam
    else if d.lineStarted then .err d St.badState
    else if d.rdN Reg.gridW = w ∧ d.rdN Reg.gridPitch = nm ∧ d.rdN Reg.devFirst = a ∧ d.rdN Reg.devLast = z then
      ⟨St.alreadyDone, [], d, [], [], false⟩
    else Result.stiff d (.ok ((((d.wrN Reg.gridW w).wrN Reg.gridPitch nm).wrN Reg.devFirst a).wrN Reg.devLast z) [])

/-- BRIM_CONFIG's own checks (R260 to R262, R267, R269). -/
def Dev.brimBad (d : Dev) (p : Bytes) : Option Nat :=
  let n := pxHead p
  let v := d.liveView (d.inactive n)
  let crop := bit (leAt p 1 1) 2
  let sides := leAt p 16 1
  let step := leAt p 18 1
  let ncol := v.ncol n
  let other := fun (s : Nat) => (List.range 16).any fun k => k != n && ((d.liveView 0).searches k s || (d.liveView 1).searches k s)
  let first := d.fld Reg.devFirst 0 20
  let last := d.fld Reg.devLast 0 20
  let f0 := leAt p 44 4
  let f1 := leAt p 48 4
  if leAt p 17 1 ≥ v.nplanes n ∨ step < 1 ∨ step > 16 ∨ leAt p 19 1 > 12 ∨ leAt p 20 4 < 1 ∨ leAt p 20 4 > 0xFFFFFF
      ∨ leAt p 34 2 = 0
      ∨ (bit sides 0 = true ∧ (leAt p 24 2 < step ∨ leAt p 26 2 ≥ ncol ∨ leAt p 26 2 < leAt p 24 2 ∨ other 0 = true))
      ∨ (bit sides 1 = true ∧ (leAt p 30 2 + step + 1 > ncol ∨ leAt p 30 2 < leAt p 28 2 ∨ other 1 = true)) then some St.badParam
  else if crop = false then (if zeroAt p 36 16 then none else some St.badParam)
  else if pxCommit p = false ∨ leAt p 36 1 > 2 ∨ leAt p 37 1 < 1 ∨ leAt p 37 1 > 15 ∨ leAt p 38 2 < 64 ∨ leAt p 38 2 > 4032
      ∨ leAt p 38 2 % 64 ≠ 0 ∨ leAt p 40 2 > 4095 ∨ f0 % 64 ≠ 0 ∨ (f1 + 1) % 64 ≠ 0 ∨ f0 > f1 ∨ f1 ≥ 2 ^ 20
      ∨ (leAt p 36 1 = 1 ∧ (f1 < first ∨ f0 > last)) then some St.badParam
  else none

/-- The brim settings of a BRIM_CONFIG in a bank. -/
def Dev.setBrim (d : Dev) (p : Bytes) : Dev :=
  let n := pxHead p
  let b := d.inactive n
  let sides := leAt p 16 1
  ((((d.wrN (Reg.brCfg n b) (bits sides 0 1 * 2 ^ 31 + bits sides 1 1 * 2 ^ 30 + bits sides 2 1 * 2 ^ 29 + leAt p 17 1 * 2 ^ 27
      + (leAt p 18 1 - 1) * 2 ^ 22 + leAt p 19 1 * 2 ^ 18 + leAt p 34 2)).wrN (Reg.brThresh n b) (leAt p 20 4)).wrN
    (Reg.brLband n b) (leAt p 24 4)).wrN (Reg.brRband n b) (leAt p 28 4)).wrN (Reg.brGate n b) (leAt p 32 2)

/-- BRIM_CONFIG sets a head's brim settings and, with CROP, the device's crop settings from the target batt (R260, R269). -/
def execBrimConfig (r : Req) (s : State) : Host.Outcome State Fault Refusal :=
  s.upd fun d => d.command
    { code := 0x0703, len := lenIs 56, recov := true, objs := fun p => [.pipe (pxHead p)],
      reserved := fun p => pxReserved 5 p && bits (leAt p 16 1) 3 5 == 0 && zeroAt p 42 2 && zeroAt p 52 4 } r fun d =>
      let p := r.payload
      let t := if d.lineStarted then d.swapTarget (pxTarget p) else 0
      let res := d.pxDirect r (d.brimBad p) (fun d => d.setBrim p) []
      if res.status = St.ok ∧ bit (leAt p 1 1) 2 = true then
        { res with dev := { res.dev with ful := { res.dev.ful with cropPending := res.dev.ful.cropPending ++ [(t, p)] } } }
      else res

/-- BRIM_READ returns the kept edge records, newest first (R265). -/
def execBrimRead (r : Req) (s : State) : Host.Outcome State Fault Refusal :=
  s.upd fun d => d.command { code := 0x0704, len := lenIs 4, reserved := fun p => zeroAt p 1 3 } r fun d =>
    let k := leAt r.payload 0 1
    if k < 1 ∨ k > 16 then .err d St.badParam
    else
      let es := d.ful.edges.take k
      .ok d (le 1 es.length ++ zeros 7 ++ es.flatMap id)

end Sys2Proof.Machine
end

