-- ==== Sys2Proof/Machine/Nap.lean ====
section
/-! DEFINITION. The commands of nap scoring, statistics and exposure control, and the automatic exposure loop
(spec/09_nap_and_exposure.md). -/

namespace Sys2Proof.Machine

open Sys2Proof

/-- NAP_CONFIG sets scoring plane, filter, thresholds and class map of the inactive bank (R274, R277, R279). -/
def execNapConfig (r : Req) (s : State) : Host.Outcome State Fault Refusal :=
  s.upd fun d => d.command
    { code := 0x0801, len := lenIs 272, recov := true, objs := fun p => [.pipe (pxHead p)],
      reserved := fun p => pxReserved 1 p && zeroAt p 17 3 && zeroAt p 70 2
        && (List.range 4).all fun m => zeroAt p (84 + 16 * m) 4 } r fun d =>
      let p := r.payload
      let n := pxHead p
      let bad := if leAt p 16 1 > 3 ∨ ((List.range 4).any fun m =>
          decide (leAt p (72 + 16 * m) 2 > 0xFFF ∨ leAt p (74 + 16 * m) 2 > 0xFFF ∨ leAt p (76 + 16 * m) 2 > 0xFFF
            ∨ leAt p (82 + 16 * m) 2 > 0xFFF ∨ bit (leAt p (82 + 16 * m) 2) 5 = true)) = true then some St.badParam else none
      d.pxDirect r bad (fun d =>
        let b := d.inactive n
        let d1 := d.setFld (Reg.napCfg n b) 30 2 (leAt p 16 1)
        let d2 := (List.range 12).foldl (fun d i => d.wrN (Reg.napK n b i) (leAt p (20 + 4 * i) 4)) d1
        let d3 := d2.wrN (Reg.napK12 n b) (leAt p 68 2)
        let d4 := (List.range 4).foldl (fun d m =>
          ((d.wrN (Reg.napThrW0 n b m) (leAt p (72 + 16 * m) 2 + 2 ^ 16 * leAt p (74 + 16 * m) 2)).wrN (Reg.napThrW1 n b m)
            (leAt p (76 + 16 * m) 2 + 2 ^ 16 * leAt p (78 + 16 * m) 2)).wrN (Reg.napThrW2 n b m)
            (leAt p (82 + 16 * m) 2 + 2 ^ 16 * leAt p (80 + 16 * m) 2)) d3
        (List.range 34).foldl (fun d i => d.wrN (Reg.napClass n b i) (leAt p (136 + 4 * i) 4)) d4) []

/-- STATS_CONFIG sets the histogram mapping, its column window and publication in the inactive bank (R282, R283). -/
def execStatsConfig (r : Req) (s : State) : Host.Outcome State Fault Refusal :=
  s.upd fun d => d.command
    { code := 0x0802, len := lenIs 28, recov := true, objs := fun p => [.pipe (pxHead p)],
      reserved := fun p => pxReserved 1 p && bits (leAt p 18 1) 1 7 == 0 && zeroAt p 19 1 } r fun d =>
      let p := r.payload
      let n := pxHead p
      let mode := leAt p 16 1
      let sh := leAt p 17 1
      let bad := if mode > 1 ∨ sh > (if mode = 0 then 16 else 8) ∨ leAt p 20 4 ≥ 2 ^ 20 ∨ leAt p 24 4 ≥ 2 ^ 20
          ∨ leAt p 20 4 > leAt p 24 4 then some St.badParam else none
      d.pxDirect r bad (fun d =>
        let b := d.inactive n
        ((((d.setFld (Reg.napCfg n b) 29 1 mode).setFld (Reg.napCfg n b) 27 1 (leAt p 18 1)).setFld (Reg.napCfg n b) 16 5 sh).wrN
          (Reg.napHfirst n b) (leAt p 20 4)).wrN (Reg.napHlast n b) (leAt p 24 4)) []

/-! ## Exposure changes (R150 to R152, R287 to R289) -/

/-- One entry of a commit: device position, head, setting. -/
structure ExpEntry where
  dev : Nat
  head : Nat
  setting : Setting
  deriving DecidableEq, Repr

/-- The heads of an entry list, as the keys of R610. -/
def ExpEntry.key (e : ExpEntry) : Nat := e.dev * 16 + e.head

/-- Insert a change in ascending target. -/
def insertChange (c : Change) : List Change → List Change
  | [] => [c]
  | x :: t => if c.target < x.target then c :: x :: t else x :: insertChange c t

/-- Head k of this device takes a committed change (R152, R181, R272): it replaces the one pending for its target. -/
def Dev.commitEntry (d : Dev) (k target cmd : Nat) (st : Setting) : Dev :=
  let old := (d.gen k).pending.filter fun c => c.target == target
  let d1 := old.foldl (fun d c => d.resolveEntry c.cmd (d.headKey k) false false) d
  let d2 := d1.modGen k fun g => { g with
    pending := insertChange ⟨target, st, cmd⟩ (g.pending.filter fun c => c.target != target)
    committed := (g.committed.filter fun p => p.1 != target) ++ [(target, st.expid)] }
  (d2.sendExpsets k).showExp k

/-- All entries of a command or decision are committed in one cycle (R288, R610); entries of other devices go outward as
EXPOSE (R417). -/
def Dev.commitEntries (d : Dev) (target source group seq : Nat) (es : List ExpEntry) : Dev :=
  let cmd := d.pos.nextCmd
  let t : ExpTrack := ⟨cmd, target, source, group, seq, false, [], es.map (·.key)⟩
  let d1 := { d with pos := { d.pos with nextCmd := cmd + 1, tracks := d.pos.tracks ++ [t] } }
  let d2 := (es.filter fun e => e.dev == d.position).foldl (fun d e => d.commitEntry e.head target cmd e.setting) d1
  if d.isLead then
    d2.bandBoth Band.Kind.expose ([(target : Int), source, group, cmd, seq] ++ es.flatMap fun e =>
      [(e.dev : Int), e.head, e.setting.expid, e.setting.time, e.setting.gain, e.setting.width])
  else d2

/-- The enabled loop group that a head belongs to, if any (R291). -/
def Dev.groupOfHead (d : Dev) (k : Nat) : Option Nat :=
  (List.range 8).find? fun g => let l := d.ful.loops.getD g {}; l.on && bit (leAt l.params 4 2) k

/-- A head of this device has no room for a further change with this target (R152). -/
def Dev.fifth (d : Dev) (k target : Nat) : Bool :=
  let p := (d.gen k).pending
  !(p.any fun c => c.target == target) && decide (p.length ≥ 4)

/-- A further change with this target for the head of an entry would be its fifth (R152): of a head of this device, or of a
follower's as the commands of the lead that are still open there show it. -/
def Dev.fifthKey (d : Dev) (e : ExpEntry) (target : Nat) : Bool :=
  if e.dev = d.position then d.fifth e.head target
  else
    let ts := ((d.pos.tracks.filter fun t => t.waiting.contains e.key).map (·.target)).eraseDups
    !ts.contains target && decide (ts.length ≥ 4)

/-- Group size of a line group: SIZE of BAND_STAT, 1 without a band. -/
def Dev.groupSize (d : Dev) : Nat := max 1 (d.fld Reg.bandStat 16 7)

/-- The entries of an EXPOSURE_SET. -/
def expEntries (p : Bytes) : List ExpEntry :=
  (List.range (leAt p 8 1)).map fun e =>
    ⟨leAt p (16 + 16 * e) 1, leAt p (17 + 16 * e) 1,
     ⟨leAt p (20 + 16 * e) 4, leAt p (24 + 16 * e) 2, leAt p (26 + 16 * e) 2, leAt p (18 + 16 * e) 1⟩⟩

/-- EXPOSURE_SET commits one exposure change for up to 64 heads of the line group in one cycle (R150, R288, R289). -/
def execExposureSet (r : Req) (s : State) : Host.Outcome State Fault Refusal :=
  s.upd fun d => d.command
    { code := 0x0803, len := fun p => decide (p.length ≥ 16) && p.length == 16 + 16 * leAt p 8 1, recov := true,
      objs := fun _ => [.exposure],
      reserved := fun p => zeroAt p 9 7 && (List.range (leAt p 8 1)).all fun e => zeroAt p (19 + 16 * e) 1 && zeroAt p (28 + 16 * e) 4 } r fun d =>
    let p := r.payload
    let tgt := leAt p 0 8
    let es := expEntries p
    let own := es.filter fun e => e.dev == d.position
    let dup := decide ((es.map (·.key)).eraseDups.length ≠ es.length)
    let used := own.any fun e => (d.gen e.head).setting.expid == e.setting.expid
      || (d.gen e.head).pending.any fun c => c.setting.expid == e.setting.expid
    if es.length < 1 ∨ es.length > 64 ∨ (tgt ≠ noBatt ∧ tgt ≥ 2 ^ 48) ∨ (es.any fun e => decide (e.head > 15 ∨ e.dev ≥ d.groupSize
        ∨ e.setting.expid < 1 ∨ e.setting.expid > 0x7F ∨ e.setting.time ≥ 2 ^ 24)) = true ∨ dup = true ∨ used = true then
      .err d St.badParam
    else if d.isFollower || (own.any fun e => (d.groupOfHead e.head).isSome || d.portState e.head == 0 || d.mode e.head == 0)
        || (!d.lineStarted && tgt != noBatt) then .err d St.badState
    else if (own.any fun e => d.flag Reg.fltUrec e.head) = true then .err d St.recovering
    else
      let t := if !d.lineStarted then noBatt else if tgt = noBatt then d.lowestInTime else tgt
      if d.lineStarted && d.tooLate t then .err d St.tooLate
      else if (es.any fun e => d.fifthKey e t) = true then .err d St.noResource
      else .ok (d.commitEntries t 0 0xFF r.seq.toNat es) (le 8 t ++ sle 8 d.spos)

/-! ## The automatic exposure loop (R291 to R296) -/

/-- EXPOSURE_AUTO's own range checks. -/
def Dev.autoBad (d : Dev) (p : Bytes) : Bool :=
  let g := leAt p 0 1
  let heads := maskList 16 (leAt p 4 2)
  let ng := leAt p 33 1
  let fac := fun (i : Nat) => leAt p (38 + 4 * i) 2
  decide (leAt p 2 1 > 3 ∨ leAt p 3 1 > 4 ∨ leAt p 4 2 = 0 ∨ leAt p 6 2 < 1 ∨ leAt p 6 2 > 1023
    ∨ leAt p 8 4 < 1 ∨ leAt p 8 4 > 0xFFFFFF ∨ leAt p 12 4 > 65535 ∨ leAt p 16 2 < 0x0101 ∨ leAt p 16 2 > 0x1000
    ∨ leAt p 18 2 > 1024 ∨ leAt p 20 4 < 1 ∨ leAt p 20 4 > leAt p 24 4 ∨ leAt p 24 4 > 0xFFFFFF ∨ leAt p 32 1 > 1
    ∨ ng < 1 ∨ ng > 8)
  || ((List.range 7).any fun i => decide (i + 1 < ng ∧ fac i ≥ fac (i + 1)))
  || ((List.range 8).any fun i => decide (i ≥ ng) && !zeroAt p (36 + 4 * i) 4)
  || heads.any fun k => (d.groupOfHead k).any fun x => x != g

/-- EXPOSURE_AUTO enables or disables a loop group and sets its parameters (R291, R292). -/
def execExposureAuto (r : Req) (s : State) : Host.Outcome State Fault Refusal :=
  s.upd fun d => d.command
    { code := 0x0804, len := lenIs 68, recov := true, objs := fun _ => [.exposure],
      reserved := fun p => zeroAt p 34 2 } r fun d =>
    let p := r.payload
    let g := leAt p 0 1
    let en := leAt p 1 1
    let l := d.ful.loops.getD g {}
    let put := fun (x : Loop) => { d with ful := { d.ful with loops := modAt d.ful.loops g fun _ => x } }
    if g > 7 ∨ en > 1 ∨ (en = 0 ∧ zeroAt p 2 66 = false) ∨ (en = 1 ∧ d.autoBad p = true) then .err d St.badParam
    else if en = 0 then
      if l.on then .ok (put { l with on := false }) (zeros 4) else ⟨St.alreadyDone, zeros 4, d, [], [], false⟩
    else
      let heads := maskList 16 (leAt p 4 2)
      if (heads.any fun k => d.portState k == 0 || d.mode k == 0) = true then .err d St.badState
      else if (heads.any fun k => d.flag Reg.fltUrec k) = true then .err d St.recovering
      else
        let l0 := ({ l with on := true, params := p } : Loop).adopt (d.gen (heads.headD 0)).setting
        let dd := if d.lineStarted then d else
          { d with pos := { d.pos with pitch := d.fld Reg.battCfg 0 24, hlog := d.fld Reg.battCfg 28 4 } }
        let l1 : Loop := { l0 with
          lastTarget := 0
          decided := false, lead := dd.loopLead l0, skipped := 0
          seen := (minOf ((d.ful.batts.filter fun b => b.state == .opened && b.recalled.isNone).map (·.num))).getD d.ful.nextOpen }
        .ok (put l1) (le 2 (l1.lead % 65536) ++ zeros 2)

/-- Representative value of bin j, never less than 1 (R294). -/
def repValue (hmode hshift j : Nat) : Nat :=
  max 1 (if hmode = 0 then j * 2 ^ hshift + 2 ^ hshift / 2
    else if j < 16 then (16 * j + 8) * 2 ^ hshift
    else (256 + 16 * (j % 16) + 8) * 2 ^ (j / 16 - 1) * 2 ^ hshift)

/-- The smallest bin whose cumulative count reaches k. -/
def cumBin (k : Nat) : List Nat → Nat → Nat → Nat
  | [], j, _ => j - 1
  | b :: t, j, acc => if acc + b ≥ k then j else cumBin k t (j + 1) (acc + b)

/-- The factor q of R294 from the summed bins of a group; none when it asks for no change. -/
def Loop.factorQ (l : Loop) (hmode hshift : Nat) (bins : List Nat) : Option Nat :=
  let p := l.params
  let n := sumN bins
  let j := cumBin (ceilDiv (n * leAt p 6 2) 1024) bins 0 0
  let step := leAt p 16 2
  let q0 := leAt p 8 4 * 65536 / repValue hmode hshift j
  let q1 := min (max q0 (65536 * 256 / max 1 step)) (65536 * step / 256)
  let q2 := if (q1 - 65536) + (65536 - q1) ≤ leAt p 12 4 then 65536 else q1
  let q3 := (65536 + floorDiv ((q2 : Int) - 65536) (2 ^ leAt p 3 1)).toNat
  let q4 := if bins.getD 255 0 * 1024 > leAt p 18 2 * n then min q3 49152 else q3
  if q4 = 65536 then none else some q4

/-- The setting that a factor leads to (R294): gain entry, unclamped and clamped time. -/
def Loop.next (l : Loop) (q : Nat) : Nat × Nat × Nat :=
  let p := l.params
  let x2 := l.x * q / 65536
  let tmax := leAt p 24 4
  let ng := leAt p 33 1
  let g := ((List.range ng).find? fun i => decide (x2 * 256 / l.factor i ≤ tmax)).getD (ng - 1)
  let t0 := x2 * 256 / l.factor g
  (g, t0, min (max t0 (leAt p 20 4)) tmax)

/-- EXPOSURE_LIMIT (R295). -/
def Dev.expLimit (d : Dev) (batt g kind t code : Nat) : Dev :=
  d.event 0x8803 (some batt) (le 1 g ++ le 1 kind ++ zeros 2 ++ le 4 t ++ le 2 code ++ zeros 2)

/-- Change loop group g. -/
def Dev.modLoop (d : Dev) (g : Nat) (f : Loop → Loop) : Dev := { d with ful := { d.ful with loops := modAt d.ful.loops g f } }

/-- The statistics of batt b that a group may use (R293): every head's, confirmed and of the last identifier. -/
def Dev.eligible (d : Dev) (l : Loop) (b : Nat) : Option (List Stat) :=
  let ss := l.heads.map fun k => (d.pipe k).kept.find? fun s => s.batt == b
  if ss.all (fun s => s.any fun s => decide (s.excl = 0 ∧ s.npix > 0 ∧ s.expid = l.lastId)) && (!l.decided || decide (b ≥ l.lastTarget)) then
    some (ss.filterMap id) else none

/-- A group's decision is committed (R295): at this device, or by the lead it is reported to (R296, R417). -/
def Dev.commitLoop (d : Dev) (g : Nat) (l : Loop) (b q : Nat) : Dev :=
  let nx := l.next q
  let t := nx.2.2
  let code := l.gainCode nx.1
  let width := if leAt l.params 32 1 = 1 then min 65535 (t * 25 / 2) else l.width
  let want := b + l.lead
  let late := d.tooLate want
  let target := if late && !d.isFollower then d.lowestInTime else want
  if !d.lineStarted || l.heads.any (fun k => d.fifth k target) then d
  else
    let st : Setting := ⟨t, code, width, l.nextId⟩
    let es := l.heads.map fun k => (⟨d.position, k, st⟩ : ExpEntry)
    let d1 := d.modLoop g fun l => { l with
      x := t * l.factor nx.1 / 256, gain := nx.1, width := width, lastId := l.nextId, lastTarget := target, decided := true
      nextId := if l.nextId = 0xFF then 0x80 else l.nextId + 1 }
    let d2 := if d.isFollower then
        d1.bandReliable (d1.source.getD 0) Band.Kind.report ([2, (d.position : Int), g, want, l.nextId, t, code, width]
          ++ l.heads.map fun (k : Nat) => (k : Int))
      else d1.commitEntries target 1 g 0 es
    let d3 := if late ∧ d.isFollower = false then d2.expLimit b g 2 t code else d2
    if nx.2.1 > t then d3.expLimit b g 0 t code else if nx.2.1 < t then d3.expLimit b g 1 t code else d3

/-- The loop of a group examines its next closed batt (R293, R294): it decides, or the batt is skipped. -/
def execLoopDecision (group : Fin 8) (s : State) : Host.Outcome State Fault Refusal :=
  s.updData fun d =>
    let g := group.val
    let l := d.ful.loops.getD g {}
    let closed := (d.ful.batts.filter fun b => b.recalled.isNone && b.state != .opened && decide (b.num ≥ l.seen)).map (·.num)
    match minOf closed with
    | none => d
    | some b =>
      if l.on = false ∨ d.pair1Off = true then d
      else
        let d1 := d.modLoop g fun l => { l with seen := b + 1 }
        let skip := d1.modLoop g fun l => { l with skipped := l.skipped + 1 }
        match d.eligible l b with
        | none => skip
        | some ss =>
          let plane := leAt l.params 2 1
          let bins := (List.range 256).map fun j => sumN (ss.map fun s => (s.bins.getD plane []).getD j 0)
          match ss with
          | [] => skip
          | s0 :: _ =>
            if sumN bins = 0 then skip
            else match l.factorQ s0.hmode s0.hshift bins with
              | none => d1
              | some q => d1.commitLoop g l b q

/-- STATS_READ returns the header of a kept statistics block and, unless PLANE is 0xFF, one plane of bins (R285, R286). -/
def execStatsRead (r : Req) (s : State) : Host.Outcome State Fault Refusal :=
  s.upd fun d => d.command { code := 0x0805, len := lenIs 16, recov := true, reserved := fun p => zeroAt p 2 6 } r fun d =>
    let p := r.payload
    let n := leAt p 0 1
    let plane := leAt p 1 1
    let b := leAt p 8 8
    let kept := (d.pipe n).kept
    let oldest := minOf (kept.map (·.batt))
    if n > 15 ∨ (plane > 3 ∧ plane ≠ 0xFF) ∨ (b ≠ noBatt ∧ b ≥ 2 ^ 48) then .err d St.badParam
    else if d.flag Reg.fltUrec n then .err d St.recovering
    else
      let found := if b = noBatt then kept.head? else kept.find? fun s => s.batt == b
      match found with
      | none => .err d (if oldest.any (fun o => decide (b < o)) then St.tooLate else St.badState)
      | some s =>
        if plane ≠ 0xFF ∧ plane ≥ s.bins.length then .err d St.badParam
        else .ok d (s.header n ++ if plane = 0xFF then [] else (s.bins.getD plane []).flatMap (le 4))

end Sys2Proof.Machine
end

