-- ==== Sys2Proof/Machine/LinkOps.lean ====
section
/-! DEFINITION. What the line group's commands share: taking a message from a band port, training, the source port and the
loss of SPOS, and what a follower does with the lead's commands (spec/13_band_and_timebase.md). -/

namespace Sys2Proof

/-- The content of a CONFIG, as it is sent (R397); the fields that R397 does not list are not passed on. -/
def LineChange.body : LineChange → List Int
  | .geometry p h => [0x0304, ↑p.toNat, ↑h.toNat]
  | .start o f _ => [0x0305, o.toInt, ↑f.toNat]
  | .stop n l => [0x0306, ↑(Machine.b2n n), ↑l.toNat]
  | .deadline p t => [0x0604, ↑p.toNat, ↑t.toNat]
  | .state s p h o f dp dt _ => [0, ↑(Machine.b2n s), ↑p.toNat, ↑h.toNat, o.toInt, ↑f.toNat, ↑dp.toNat, ↑dt.toNat]

/-- An Announce as a number, the lower the better (PRESUMED from the best master clock algorithm of IEEE 1588-2019,
notes/assumptions/128.md): priority 1, class, accuracy, variance, priority 2, grandmaster, steps removed, sender. -/
def Announce.rank (a : Announce) (sender : BitVec 64) : Nat :=
  let n1 := (a.priority1.toNat * 256 + a.clockClass.toNat) * 256 + a.accuracy.toNat
  let n2 := ((n1 * 65536 + a.variance.toNat) * 256 + a.priority2.toNat) * 2 ^ 64 + a.grandmaster.toNat
  (n2 * 65536 + a.steps.toNat) * 2 ^ 64 + sender.toNat

/-- The entry of an EXPOSE as it is sent. -/
def ExpItem.body (e : ExpItem) : List Int :=
  [↑e.dev.val, ↑e.head.val, ↑e.expid.toNat, ↑e.time.toNat, ↑e.gain.toNat, ↑e.width.toNat]

/-- The setting of an entry. -/
def ExpItem.setting (e : ExpItem) : Machine.Setting := ⟨e.time.toNat, e.gain.toNat, e.width.toNat, e.expid.toNat⟩

/-- A REPORT as it is passed on. -/
def Report.body : Report → List Int
  | .offset p o => [0, ↑p.val, o.elim (-1) fun x => (x : Int)]
  | .entry c dv h a l => [1, ↑c, ↑(dv.val * 16 + h.val), ↑(Machine.b2n a), ↑(Machine.b2n l)]
  | .loop p g t x e gn w hs => [2, ↑p.val, ↑g.val, ↑t.toNat, ↑x.toNat, ↑e.toNat, ↑gn.toNat, ↑w.toNat]
      ++ hs.map fun (h : Fin 16) => ((h.val : Nat) : Int)

end Sys2Proof

namespace Sys2Proof.Machine

open Sys2Proof

/-- The kinds that R397 marks reliable. -/
def Band.reliable (kind : Nat) : Bool := [3, 4, 5, 6, 8, 9, 10].contains kind

/-- A band port is powered and its receiver runs: TRAIN or UP. -/
def Dev.bandRuns (d : Dev) (p : Nat) : Bool := (d.bstate p == 2 || d.bstate p == 3) && !d.safe

/-- A message that a port does not take (R395, R399): CRC counts, a SEAM_ROW also in SEAM_DROP. -/
def Dev.bandDiscard (d : Dev) (p kind : Nat) (lost : Bool) : Dev :=
  let d1 := d.incSat (Reg.bandpErr p) 24 8 1
  if lost && kind == Band.Kind.seamRow then d1.incSat (Reg.bandpErr p) 16 8 1 else d1

/-- A message of a reliable kind is taken when its LSEQ is the next, acknowledged again when it was taken before, and left
unacknowledged when an earlier one is missing (R398). The first ROLL of a training sets the count. -/
def Dev.bandInOrder (d : Dev) (m : BandMsg) (kind : Nat) (f : Dev → Dev) : Dev :=
  let p := m.port.val
  let b := d.bport p
  let n := m.lseq.toNat
  let ack := fun (d : Dev) => d.bandSend p Band.Kind.ack [(n : Int)]
  if n = b.rxSeq ∨ (kind = Band.Kind.roll ∧ b.synced = false) then
    f (ack (d.modBport p fun b => { b with rxSeq := (n + 1) % 65536, synced := b.synced || kind == Band.Kind.roll }))
  else if (b.rxSeq + 65536 - n) % 65536 < 32768 then ack d
  else d

/-- A message comes out of the BAND_RX hopper of its port (R395, R398, R399). Until the port is UP it takes no reliable kind
but ROLL; a message shows block lock. -/
def Dev.bandTake (d0 : Dev) (m : BandMsg) (kind : Nat) (f : Dev → Dev) : Dev :=
  let p := m.port.val
  let d := d0.hopRead (69 + p)
  let bad := badWords [] m.hits
  if d.bandRuns p = false then d0
  else if m.how = 2 then (d0.hopDrop (69 + p)).bandDiscard p kind true
  else if m.how = 1 then d.bandDiscard p kind false
  else if bad ≠ [] then (d.poisonRead (69 + p) 6 bad).bandDiscard p kind true
  else
    let d1 := d.modBport p fun b => { b with blockLock := true }
    if Band.reliable kind then
      if d1.bstate p = 3 ∨ kind = Band.Kind.roll then d1.bandInOrder m kind f else d1
    else f d1

/-! ## Training (R402) -/

/-- BATT_CLOSE of the batts whose last SEAM_ROW has gone out on a port and whose close is still due there (R419). -/
def Dev.sendDueCloses (d : Dev) (p : Nat) : Dev :=
  let live := d.ful.batts.filter fun b => b.recalled.isNone
  let ready := live.filter fun b => d.band.closeDue.contains (p, b.num) && d.seamDone p b
  let due := d.band.closeDue.filter fun x =>
    (live.any fun b => b.num == x.2) && !(x.1 == p && ready.any fun b => b.num == x.2)
  ready.foldl (fun d b => d.battCloseOn p b) { d with band := { d.band with closeDue := due } }

/-- A port in TRAIN becomes UP once it has block lock, a valid ROLL and a hop delay; the exchanges counted for d from then on are
those of its first millisecond UP (R404; DEDUCED, notes/assumptions/132.md). -/
def Dev.bandTryUp (d : Dev) (p : Nat) : Dev :=
  let b := d.bport p
  if d.bstate p = 2 ∧ b.blockLock = true ∧ b.rollSeen = true ∧ b.measured = true then
    let d1 := (d.setBstate p 3).modBport p fun b => { b with cause := 0, meas := [] }
    let d2 := if d1.band.ownUnlocked && d1.band.lostPort == some p then d1 else d1.faultOff (0x70 + p)
    ((d2.event 0x8C01 none (le 1 p ++ le 1 (d2.fld (Reg.bandpStat p) 16 6) ++ le 1 (d2.fld (Reg.bandpStat p) 0 6) ++ zeros 1
      ++ le 4 (d2.rdN (Reg.bandpDelay p)))).reportOffset).sendDueCloses p
  else d

/-- A band port begins training, with its domain on: a new link sequence. -/
def Dev.bandPowered (d : Dev) (p : Nat) : Dev := (d.modBport p fun _ => {}).setBstate p 2

/-- Show EXTRAP and UNLOCKED: the follower's own state or its source's flags (R409). -/
def Dev.showMarks (d : Dev) : Dev :=
  let fl := match d.source with
    | some p => (d.bport p).flagsIn
    | none => 0
  let un := d.isFollower && (d.band.ownUnlocked || bit fl 2)
  let d1 := (d.setFlag Reg.posStat 28 (d.isFollower && (d.band.ownExtrap || bit fl 1))).setFlag Reg.posStat 27 un
  { d1 with band := { d1.band with unlockedAt := if un then some (d1.band.unlockedAt.getD d1.now) else none } }

/-- No source port any more: the port was disabled or the role changed. -/
def Dev.dropSource (d : Dev) : Dev :=
  let off := match d.band.lostPort with
    | some p => d.faultOff (0x70 + p)
    | none => d
  (({ off with band := { off.band with
    valid := false, ownExtrap := false, ownUnlocked := false, holding := false, lostPort := none, run := 0
    groupOffset := none, lastOffsetSent := none } } : Dev).wrN Reg.bandStat (off.rdN Reg.bandStat % 2 ^ 30 / 2 ^ 11 * 2 ^ 11)).showMarks

/-- Switch a band port off (R400, R544). -/
def Dev.bandOff (d : Dev) (p : Nat) : Dev :=
  let d1 := ((d.modBport p fun _ => {}).wrN (Reg.bandpStat p) 0).faultOff (0x70 + p)
  if d.source = some p then d1.dropSource else d1

/-- A port is lost (R398, R402, R414, R421): it goes DOWN with a cause; unless it is the source of a follower's SPOS, its
fault source is raised at once and BAND_LOST follows. -/
def Dev.bandFail (d : Dev) (p cause : Nat) : Dev :=
  if d.bstate p = 2 ∨ d.bstate p = 3 then
    let d1 := (d.bandDown p).modBport p fun b => { b with cause := cause }
    if d.isFollower ∧ d.source = some p then d1
    else (d1.faultOn (0x70 + p)).bandLost p cause 0
  else d

/-! ## The source port (R408 to R412) -/

/-- Take a valid POSITION on the source port: V, RATE and the arrival time, with the marks of R410 and R412. -/
def Dev.takePosition (d : Dev) (p : Nat) (spos : BitVec 64) (rate : Word) : Dev :=
  let was := d.band.ownExtrap || !d.band.valid
  let d1 := ({ d with band := { d.band with
    v := spos.toInt, rate := rate.toInt, tRx := d.now, valid := true, ownExtrap := false
    run := if d.band.ownUnlocked then d.band.run + 1 else 0 } } : Dev).setFld Reg.bandStat 0 11 0
  let x := d1.bandSpos
  let d2 := { d1 with band := { d1.band with
    holding := if d1.band.holding then decide (x < d1.spos) else d1.band.ownUnlocked && was && decide (x < d1.spos) } }
  let d3 :=
    if d2.band.ownUnlocked ∧ d2.band.run ≥ 1024 then
      ({ d2 with band := { d2.band with ownUnlocked := false, lostPort := none, run := 0 } } : Dev).faultOff
        (0x70 + d2.band.lostPort.getD p)
    else d2
  d3.setSpos d3.computedSpos

/-- The UP port whose last valid POSITION carries the lower HOPS, BAND_UP on a tie (R409). -/
def Dev.bestPort (d : Dev) : Option Nat :=
  let ok := fun (p : Nat) => d.bstate p == 3 && (d.bport p).lastValid
  let hops := fun (p : Nat) => d.fld (Reg.bandpStat p) 16 6
  if ok 0 && (!ok 1 || decide (hops 0 ≤ hops 1)) then some 0 else if ok 1 then some 1 else none

/-- The source port is chosen anew: the first time, and once the source has missed 2 message periods (R409). -/
def Dev.chooseSource (d : Dev) : Dev :=
  let free := d.source.isNone || decide (d.fld Reg.bandStat 0 11 ≥ 2)
  match d.bestPort with
  | some p =>
    if free && d.source != some p then
      ({ d with band := { d.band with lastOffsetSent := none } } : Dev).setFld Reg.bandStat 30 2 (p + 1)
    else d
  | none => d

/-- A POSITION on an UP port of a follower: the source port takes it (R408, R409). -/
def Dev.followPosition (d : Dev) (p : Nat) (spos : BitVec 64) (rate : Word) : Dev :=
  let d1 := d.chooseSource
  if d1.source = some p then ((d1.takePosition p spos rate).showMarks).reportOffset else d1

/-! ## What the lead fans out (R415 to R417) -/

/-- Set the grid and the deadline of the lead. -/
def Dev.setGrid (d : Dev) (pitch : BitVec 24) (hlog : BitVec 4) : Dev :=
  if d.lineStarted then d else d.wrN Reg.battCfg (hlog.toNat * 2 ^ 28 + pitch.toNat)
def Dev.setDeadline (d : Dev) (pos time : Word) : Dev := (d.wr Reg.btDlPos pos).wr Reg.btDlTime time

/-- The line given is the one that this device runs or ran last. -/
def Dev.sameLine (d : Dev) (origin : Int) (first : Nat) : Bool :=
  d.pos.gen != 0 && d.rdI64 Reg.lineOrigin == origin && d.battFirst == first

/-- LINE_START from the lead, with the group's smallest offset where it is known. -/
def Dev.followStart (d : Dev) (origin : Int) (first : Nat) (offMin : Option Nat) : Dev :=
  if d.lineStarted && d.sameLine origin first then d
  else
    let d1 := d.stopNow 0
    (({ d1 with band := { d1.band with groupOffset := offMin } } : Dev).startLine origin first).reportOffset

/-- A head's first line at or above SPOS + g (R416). -/
def Dev.joinLine (d : Dev) (k : Nat) : Nat :=
  let x := 4 * d.spos + 256 * (d.guard : Int) - d.trigPos k 0
  if x ≤ 0 then 0 else ceilDiv x.toNat (max 1 (d.linePitch256 k))

/-- Adopt a line already running: each head fires from its first line at or above SPOS + g; the lines before it are
lost with cause STOPPED (R416). -/
def Dev.adoptLine (d : Dev) (origin : Int) (first : Nat) (offMin : Option Nat) : Dev :=
  let d1 := d.followStart origin first offMin
  d1.pos.contributing.foldl (fun d k =>
    let i0 := d.joinLine k
    let d2 := (List.range i0).foldl (fun d i => d.genLoss k i (d.battOfLine k i) Cause.stopped) d
    d2.modGen k fun g => { g with iNext := i0, reached := i0 }) d1

/-- LINE_STOP from the lead (R156, R415): no batt that this device has opened is left out. -/
def Dev.followStop (d : Dev) (now : Bool) (last : Nat) : Dev :=
  if d.lineStarted = false then d
  else if now then
    let own := d.lastReached
    d.finishStop 0 (if d.lineEmpty last then own else if d.lineEmpty own then last else max last own)
  else d.commitStop last

/-- A follower applies a CONFIG (R415, R416). -/
def Dev.applyConfig (d : Dev) : LineChange → Dev
  | .geometry p h => d.setGrid p h
  | .start o f m => d.followStart o.toInt f.toNat m
  | .stop n l => d.followStop n l.toNat
  | .deadline p t => d.setDeadline p t
  | .state s p h o f dp dt m =>
    -- a line still running here that is older than the lead's has been stopped there
    let older := d.lineStarted && decide (d.battFirst < f.toNat)
    let new := s && !d.sameLine o.toInt f.toNat && (!d.lineStarted || older)
    let d1 := ((if new then d.stopNow 0 else d).setGrid p h).setDeadline dp dt
    if new then d1.adoptLine o.toInt f.toNat m else d1

/-- A message that the lead sends outward: it is passed on unless the next device is the lead, and of the two copies that a
ring delivers only the first is acted on. -/
def Dev.outward (d : Dev) (p kind hops : Nat) (body : List Int) (f : Dev → Dev) : Dev :=
  if d.isFollower = false then d
  else
    let d1 := if (d.bport (1 - p)).nbrRole = 1 then d else d.bandForward p kind (hops + 1) body
    if d1.flag Reg.bandCfg 29 = false then f d1
    else
      let c := (kind : Int) :: body
      if d1.band.seen.contains (1 - p, c) then { d1 with band := { d1.band with seen := d1.band.seen.erase (1 - p, c) } }
      else f { d1 with band := { d1.band with seen := ((p, c) :: d1.band.seen).take 64 } }

/-- A follower takes its entries of an EXPOSE (R153, R417, R610): those of a command under the lead's number; those of a
decision of its own loop group under a number of its own, with the target that the lead committed. An entry of a command for a
head in an enabled loop group or with four changes pending, which the lead cannot always know, counts as discarded; a decision
for such a head is not taken (R152, R291, notes/assumptions/48.md). -/
def Dev.takeExpose (d : Dev) (target source group cmd : Nat) (es : List ExpItem) : Dev :=
  let own := es.filter fun e => e.dev.val == d.position
  let full := fun (d : Dev) (k : Nat) => d.fifth k target
  if own = [] then d
  else if source = 0 then own.foldl (fun d e =>
    let k := e.head.val
    if (d.groupOfHead k).isSome || full d k then d.resolveEntry (leadCmd + cmd) (d.headKey k) false false
    else d.commitEntry k target (leadCmd + cmd) e.setting) d
  else if (own.any fun e => full d e.head.val) = true then d
  else
    let n := d.pos.nextCmd
    let t : ExpTrack := ⟨n, target, 1, group, 0, false, [], own.map fun e => d.headKey e.head.val⟩
    let d1 := { d with pos := { d.pos with nextCmd := n + 1, tracks := d.pos.tracks ++ [t] } }
    let d2 := own.foldl (fun d e => d.commitEntry e.head.val target n e.setting) d1
    let l := d2.ful.loops.getD group {}
    let mine := l.on && own.any fun e => e.expid.toNat == l.lastId
    if mine = false ∨ l.lastTarget = target then d2
    else
      let d3 := d2.modLoop group fun l => { l with lastTarget := target }
      match own with
      | e :: _ => d3.expLimit (l.lastTarget - l.lead) group 2 e.time.toNat e.gain.toNat
      | [] => d3

/-- The lead commits a follower's loop decision and sends it back (R295, R296, R417). -/
def Dev.commitFor (d : Dev) (pos group want : Nat) (st : Setting) (heads : List Nat) : Dev :=
  if d.lineStarted = false then d
  else
    let target := if d.tooLate want then d.lowestInTime else want
    let n := d.pos.nextCmd
    ({ d with pos := { d.pos with nextCmd := n + 1 } } : Dev).bandBoth Band.Kind.expose
      ([(target : Int), 1, group, n, 0] ++ heads.flatMap fun (h : Nat) =>
        [(pos : Int), (h : Int), (st.expid : Int), (st.time : Int), (st.gain : Int), (st.width : Int)])

/-- The lead takes a REPORT (R138, R417, R610). -/
def Dev.takeReport (d : Dev) : Report → Dev
  | .offset p o => { d with band := { d.band with
      followerOffsets := (d.band.followerOffsets.filter fun x => x.1 != p.val) ++ (o.toList.map fun x => (p.val, x)) } }
  | .entry c dv h a l => d.resolveEntry c (dv.val * 16 + h.val) a l
  | .loop p g t x e gn w hs => d.commitFor p.val g.val t.toNat ⟨e.toNat, gn.toNat, w.toNat, x.toNat⟩ (hs.map (·.val))

end Sys2Proof.Machine
end

