-- ==== Sys2Proof/Machine/Band.lean ====
section
/-! DEFINITION. The commands of the line group and of the band link (spec/13_band_and_timebase.md). -/

namespace Sys2Proof.Machine

open Sys2Proof

/-- What every command of the group needs (R71): the band ports and the timebase. -/
def bandObjs : List Obj := [.bandPort 0, .bandPort 1, .timebase]

/-- BAND_CFG and the trims that a BAND_CONFIG asks for. -/
def Dev.bandSettings (d : Dev) (p : Bytes) : Nat × Nat × Nat :=
  let f := leAt p 0 1
  (d.fld Reg.bandCfg 30 2 * 2 ^ 30 + b2n (bit f 2) * 2 ^ 29 + b2n (bit f 0) * 2 ^ 28 + b2n (bit f 1) * 2 ^ 27 + leAt p 2 2,
   leAt p 4 4, leAt p 8 4)

/-- A trim within 16 signed bits (R403). -/
def trimOk (t : Int) : Bool := decide (-32768 ≤ t ∧ t ≤ 32767)

/-- BAND_CONFIG enables the band ports and sets RING, UNLOCK_MAX and the trims; it answers when its last domain has switched
(R401, R544). -/
def execBandConfig (r : Req) (s : State) : Host.Outcome State Fault Refusal :=
  s.upd fun d => d.commandOr
    { code := 0x0C01, len := lenIs 12, objs := fun _ => bandObjs, reserved := fun p => bits (leAt p 0 1) 3 5 == 0 && zeroAt p 1 1 } r
    fun d =>
    let p := r.payload
    let f := leAt p 0 1
    let s := d.bandSettings p
    let on := (List.range 2).filter fun i => bit f i && !d.flag Reg.bandCfg (28 - i)
    let off := (List.range 2).filter fun i => !bit f i && d.flag Reg.bandCfg (28 - i)
    if leAt p 2 2 < 1 ∨ leAt p 2 2 > 10000 ∨ trimOk (sleAt p 4 4) = false ∨ trimOk (sleAt p 8 4) = false
        ∨ (bits f 0 2 ≠ 0 ∧ d.fld Reg.bandCfg 30 2 = 0) then .inl (.err d St.badParam)
    else if d.rdN Reg.bandCfg = s.1 ∧ d.rdN (Reg.bandpTrim 0) = s.2.1 ∧ d.rdN (Reg.bandpTrim 1) = s.2.2 then
      .inl ⟨St.alreadyDone, [], d, [], [], false⟩
    else if d.lineStarted && off != [] then .inl (.err d St.badState)
    else if d.stiffActive then .inl (.err d St.stiffened)
    else
      let d1 := ((d.wrN Reg.bandCfg s.1).wrN (Reg.bandpTrim 0) s.2.1).wrN (Reg.bandpTrim 1) s.2.2
      let d2 := off.foldl (fun d i => d.bandOff i) d1
      let d3 := (on.filter fun i => d2.domainOn (112 + i)).foldl (fun d i => d.bandPowered i) d2
      let last := match d3.lastSwitch true (on.map (112 + ·)) with
        | some x => some x
        | none => d3.lastSwitch false (off.map (112 + ·))
      match last with
      | some sw => .inr ⟨(d3.requestDomains false (off.map (112 + ·))).requestDomains true (on.map (112 + ·)), bandObjs, [], some sw⟩
      | none => .inl (.ok d3 [])

/-- State of the timebase (R424): 0 FREE, 1 ACQUIRING, 2 LOCKED, 3 HOLDOVER. -/
def Dev.tbState (d : Dev) : Nat := d.fld Reg.tbStat 30 2

/-- The timebase enters a state; entries to LOCKED count in LOCKS. -/
def Dev.setTb (d : Dev) (st : Nat) : Dev :=
  let d1 := d.setFld Reg.tbStat 30 2 st
  if st = 2 ∧ d.tbState ≠ 2 then d1.incSat Reg.tbStat 0 8 1 else d1

/-- The timebase runs FREE on REF_CORE, without a master and without a step (R424, R425). -/
def Dev.tbFree (d : Dev) : Dev :=
  ({ d with tb := { d.tb with slew := 0, freq := 0, part := 0, good := 0, twoStep := none, delayReq := none, anchor := none,
                              rank := none } } : Dev).setTb 0

/-- The device takes another role: with NONE its ports go off (R400). -/
def Dev.setRole (d : Dev) (role : Nat) : Dev :=
  let d1 := (d.dropSource).setFld Reg.bandCfg 30 2 role
  let d2 := (d1.setFld Reg.bandStat 24 6 0).setFld Reg.bandStat 16 7 0
  let d3 := { d2 with band := { d2.band with followerOffsets := [], openReports := [] } }
  let d4 : Dev := (List.range 2).foldl (fun (d : Dev) p => d.modBport p fun b => { b with rollSeen := false }) d3
  let d5 := if role = 1 ∧ d4.fld Reg.tbCfg 30 2 = 2 then d4.tbFree else d4
  if role = 0 then
    ((List.range 2).foldl (fun d p => if d.bstate p = 0 then d else d.bandOff p) (d5.setFld Reg.bandCfg 27 2 0)).requestDomains
      false [113, 112]
  else d5

/-- BAND_ROLE sets the role (R400). -/
def execBandRole (r : Req) (s : State) : Host.Outcome State Fault Refusal :=
  s.upd fun d => d.command
    { code := 0x0C02, len := lenIs 4, objs := fun _ => bandObjs, reserved := fun p => zeroAt p 1 3 } r fun d =>
    let role := leAt r.payload 0 1
    let old := d.fld Reg.bandCfg 30 2
    let back := le 1 old ++ zeros 3
    if role > 2 then .err d St.badParam
    else if role = old then ⟨St.alreadyDone, back, d, [], [], false⟩
    else if d.lineStarted || (role == 2 && d.master.isSome) then .err d St.badState
    else Result.stiff d (.ok ((d.setRole role).event 0x8C03 none (le 1 old ++ le 1 role ++ zeros 2)) back)

/-- TIMEBASE_CONFIG sets the timebase (R424). -/
def execTimebaseConfig (r : Req) (s : State) : Host.Outcome State Fault Refusal :=
  s.upd fun d => d.command
    { code := 0x0C03, len := lenIs 8, objs := fun _ => bandObjs, reserved := fun p => zeroAt p 4 4 } r fun d =>
    let p := r.payload
    let src := leAt p 0 1
    let v := src * 2 ^ 30 + leAt p 1 1 * 2 ^ 28 + leAt p 2 1 * 2 ^ 16 + leAt p 3 1 * 2 ^ 8
    if src > 2 ∨ leAt p 1 1 > 2 ∨ leAt p 2 1 > 127 ∨ leAt p 3 1 < 2 ∨ leAt p 3 1 > 10
        ∨ (src = 2 ∧ d.fld Reg.bandCfg 30 2 = 0) then .err d St.badParam
    else if d.rdN Reg.tbCfg = v then ⟨St.alreadyDone, [], d, [], [], false⟩
    else
      let d1 := d.wrN Reg.tbCfg v
      Result.stiff d (.ok (if d.fld Reg.tbCfg 30 2 = src then d1
        else d1.tbFree) [])

/-- Lowest batt open anywhere in the group, from BATT_OPEN (lead only). -/
def Dev.groupOpenMin (d : Dev) : Nat :=
  if d.isLead then
    let own := d.rd64 Reg.btOpenMin % 2 ^ 48
    (minOf ((if own = 2 ^ 48 - 1 then [] else [own]) ++ d.band.openReports.map (·.2))).getD noBatt
  else noBatt

/-- A neighbour has this device's plant address (R426). -/
def Dev.dupPlant (d : Dev) : Bool :=
  (List.range 2).any fun p => (d.bport p).rollSeen && (d.bport p).nbrPlant == d.rdN Reg.plantAddr

/-- BAND_STATUS reports without clearing anything (R426). -/
def execBandStatus (r : Req) (s : State) : Host.Outcome State Fault Refusal :=
  s.upd fun d => d.command { code := 0x0C04, len := lenIs 0, objs := fun _ => bandObjs } r fun d =>
    let st := d.rdN Reg.bandStat
    .ok d (le 1 (d.fld Reg.bandCfg 30 2) ++ le 1 (bits st 24 6) ++ le 1 (bits st 16 7) ++ le 1 (bits st 30 2)
      ++ le 1 (b2n (d.flag Reg.posStat 28) + 2 * b2n d.unlocked + 4 * b2n d.dupPlant) ++ le 1 d.tbState ++ zeros 2
      ++ le 4 (d.rdN Reg.tbOffset) ++ zeros 4 ++ le 8 d.groupOpenMin
      ++ (List.range 2).flatMap fun p => le 1 (d.bstate p) ++ le 1 (d.fld (Reg.bandpStat p) 16 6) ++ zeros 2
        ++ le 4 (d.bport p).nbrPlant ++ le 4 (d.rdN (Reg.bandpDelay p)) ++ le 4 (d.rdN (Reg.bandpErr p)))

/-! ## POSITION and TIME (R406 to R413, R425) -/

/-- SPOS at an instant `after` 1/256 ns into the present cycle (R407): a lead extrapolates at RATE, a follower goes on by R408 (a
cycle is 2,560/3 of these units). -/
def Dev.sposAfter (d : Dev) (rate : Int) (after : Nat) : Int :=
  if d.isFollower then
    if d.band.valid && !d.band.holding then d.spos + (d.bandSposAt after - d.bandSpos) else d.spos
  else d.spos + floorDiv (64 * rate * (3 * after)) (65536 * 768000)

/-- RATE of a POSITION (R407): the change of SPOS over the last 8,192 cycles, in Q15.16 ticks per us. -/
def Dev.bandRate (d : Dev) : Int := floorDiv (75 * (d.spos - sposAt d.pos.hist (d.now - 8192) d.spos)) 2

/-- The next POSITION starts on a port, 12 or 13 blocks after the last (R407). -/
def execPositionSend (p : Fin 2) (x : SendAt) (s : State) : Host.Outcome State Fault Refusal :=
  s.upd fun d0 =>
    let d := d0.advance x.dt
    if d.bandRuns p.val then
      (d.modBport p.val fun b => { b with long := !b.long }).bandSend p.val Band.Kind.position
        [d.sposAfter d.bandRate x.after.val, d.bandRate, b2n d.lineStarted + 2 * b2n (d.flag Reg.posStat 28) + 4 * b2n d.unlocked]
    else d

/-- A POSITION arrives (R408 to R412). -/
def execPositionRx (m : BandMsg) (spos : BitVec 64) (rate : Word) (flags : BitVec 8) (dt : Nat) (s : State) :
    Host.Outcome State Fault Refusal :=
  s.upd fun d0 => (d0.advance dt).bandTake m Band.Kind.position fun d =>
    let p := m.port.val
    let d1 := (d.setFld (Reg.bandpStat p) 16 6 m.hops.toNat).modBport p fun b => { b with lastValid := true, flagsIn := flags.toNat }
    if d1.isFollower ∧ d1.bstate p = 3 then d1.followPosition p spos rate else d1.settleStop

/-- A message period passes without a valid POSITION on the source port (R410): MISSED counts; EXTRAP from the second, when the
source may change too (R409). -/
def execPositionMiss (dt : Nat) (s : State) : Host.Outcome State Fault Refusal :=
  s.upd fun d0 =>
    let d := d0.advance dt
    if d.isFollower && d.source.isSome then
      let n := min 1024 (d.fld Reg.bandStat 0 11 + 1)
      ((({ d with band := { d.band with ownExtrap := d.band.ownExtrap || decide (n ≥ 2), run := 0 } } : Dev).setFld
        Reg.bandStat 0 11 n).chooseSource).showMarks
    else d

/-- The hold expires (R411): 1,024 periods without a valid POSITION. -/
def execBandHoldExpiry (s : State) : Host.Outcome State Fault Refusal :=
  s.upd fun d =>
    match d.source with
    | none => d
    | some p =>
      if d.isFollower ∧ d.fld Reg.bandStat 0 11 ≥ 1024 ∧ d.band.ownUnlocked = false then
        let d1 := ({ d with band := { d.band with ownUnlocked := true, lostPort := some p, run := 0 } } : Dev).showMarks
        (d1.faultOn (0x70 + p)).bandLost p (d1.bport p).cause 1
      else d

/-- A follower has been UNLOCKED for UNLOCK_MAX (R413): it stops its line. A LINE_STOP taken before it has fixed LAST_BATT
(R422). -/
def execUnlockMaxExpiry (s : State) : Host.Outcome State Fault Refusal :=
  s.upd fun d =>
    if d.isFollower && d.unlocked && d.lineStarted then d.finishStop 1 (d.pos.stopAfter.getD d.lastReached) else d

/-- A TIME is sent (R397). -/
def execTimeSend (p : Fin 2) (dt : Nat) (s : State) : Host.Outcome State Fault Refusal :=
  s.upd fun d0 =>
    let d := d0.advance dt
    if d.bandRuns p.val then d.bandSend p.val Band.Kind.time [(d.timeNs : Int), d.tbState] else d

/-- A TIME arrives: with SRC BAND a follower takes its time and the state from its source port, adding the hop delay
(R425). -/
def execTimeRx (m : BandMsg) (time : BitVec 64) (state : BitVec 8) (dt : Nat) (s : State) : Host.Outcome State Fault Refusal :=
  s.upd fun d0 => (d0.advance dt).bandTake m Band.Kind.time fun d =>
    let p := m.port.val
    if d.isFollower ∧ d.fld Reg.tbCfg 30 2 = 2 ∧ d.source = some p then
      let u := time.toNat * 30000 + floorDiv (signed 32 (d.rdN (Reg.bandpDelay p)) * 30000) 256
      ({ d with tb := { d.tb with units := u.toNat, slew := 0, freq := 0 } } : Dev).setTb (state.toNat % 4)
    else d

/-! ## Hop delay and ROLL (R401 to R404) -/

/-- A PROBE is sent at instant t1, in 1/256 ns of the local timebase; it is the reply to the last one heard (R403). -/
def execProbeSend (p : Fin 2) (t1 : Int) (s : State) : Host.Outcome State Fault Refusal :=
  s.upd fun d =>
    if d.bandRuns p.val then
      let b := d.bport p.val
      let pair := match b.heard with
        | some t2 => some (t2, t1)
        | none => b.t2t3
      (d.modBport p.val fun b => { b with sentT1 := (t1 :: b.sentT1).take 8, heard := none, t2t3 := pair }).bandSend p.val
        Band.Kind.probe (t1 :: (pair.elim [] fun x => [x.1, x.2]))
    else d

/-- Twice the measured hop delay of a complete exchange (R403): the PROBE received at t4 is itself the reply, and it answers
the latest of this device's PROBEs that lies far enough back. -/
def Dev.probeDelay (d : Dev) (p : Nat) (t1 : Int) (pair : Option (Int × Int)) (t4 : Int) : Option Int :=
  match pair with
  | none => none
  | some (t2, t3) =>
    if t3 ≠ t1 then none
    else match (d.bport p).sentT1.find? fun t => decide (t4 - t ≥ t3 - t2) with
      | some t => some ((t4 - t) - (t3 - t2) + 2 * signed 32 (d.rdN (Reg.bandpTrim p)))
      | none => none

/-- Mean of the exchanges kept, rounded toward minus infinity. -/
def BandPort.mean (b : BandPort) : Int := floorDiv (b.meas.foldl (· + ·) 0) (2 * b.meas.length)

/-- A PROBE arrives at instant t4 (R403); during training the mean of 64 exchanges is the hop delay (R404). -/
def execProbeRx (m : BandMsg) (t1 : Int) (pair : Option (Int × Int)) (t4 : Int) (s : State) : Host.Outcome State Fault Refusal :=
  s.upd fun d0 => d0.bandTake m Band.Kind.probe fun d =>
    let p := m.port.val
    let d1 := d.modBport p fun b => { b with
      heard := some t4, meas := b.meas ++ (d.probeDelay p t1 pair t4).toList }
    let b := d1.bport p
    if d1.bstate p = 2 ∧ b.measured = false ∧ b.meas.length ≥ 64 then
      ((d1.wrN (Reg.bandpDelay p) (unsigned 32 b.mean)).modBport p fun b => { b with measured := true, meas := [] }).bandTryUp p
    else d1.bandTryUp p

/-- Every 1 ms the hop delay of an UP port follows the mean of that millisecond's exchanges (R404). -/
def execHopDelayUpdate (p : Fin 2) (s : State) : Host.Outcome State Fault Refusal :=
  s.upd fun d =>
    let b := d.bport p.val
    if d.bstate p.val = 3 ∧ b.meas ≠ [] then
      let x := signed 32 (d.rdN (Reg.bandpDelay p.val))
      (d.wrN (Reg.bandpDelay p.val) (unsigned 32 (x + floorDiv (b.mean - x) 16))).modBport p.val fun b => { b with meas := [] }
    else d

/-- Group size that a ROLL carries: upward the size known from below, downward the size shown. -/
def Dev.rollSize (d : Dev) (p : Nat) : Nat :=
  if p = 1 then d.fld Reg.bandStat 16 7
  else if d.bstate 1 = 3 ∧ (d.bport 1).nbrRole ≠ 1 then (d.bport 1).nbrSize
  else d.position + 1

/-- ROLL is sent at training and every 1 ms (R397). -/
def execRollSend (p : Fin 2) (s : State) : Host.Outcome State Fault Refusal :=
  s.upd fun d =>
    if d.bandRuns p.val then
      d.bandNumbered p.val Band.Kind.roll (d.hopsOf Band.Kind.roll) [d.fld Reg.bandCfg 30 2, d.position, d.rdN Reg.plantAddr, d.rdN Reg.devFirst,
        d.rdN Reg.devLast, d.rollSize p.val]
    else d

/-- A ROLL arrives (R401, R402): the neighbour's role, position, plant address and range; on BAND_UP its HOPS is a follower's
position. Two leads, or a position above 63, keep a training port in TRAIN, with BAND_LOST cause ROLE. -/
def execRollRx (m : BandMsg) (role : Fin 3) (pos : BitVec 6) (plant : Word) (first last : BitVec 20) (size : BitVec 7) (s : State) :
    Host.Outcome State Fault Refusal :=
  s.upd fun d0 => d0.bandTake m Band.Kind.roll fun d =>
    let p := m.port.val
    let hops := m.hops.toNat
    let bad := (d.isLead && role.val == 1) || (d.isFollower && p == 0 && decide (hops > 63))
    let d1 := (d.setFld (Reg.bandpStat p) 0 6 pos.toNat).modBport p fun b => { b with
      nbrRole := role.val, nbrPlant := plant.toNat, nbrFirst := first.toNat, nbrLast := last.toNat, nbrSize := size.toNat
      rollSeen := !bad }
    if bad then
      if d1.bstate p = 2 ∧ (d1.bport p).roleLost = false then
        ((d1.modBport p fun b => { b with roleLost := true }).faultOn (0x70 + p)).bandLost p 3 0
      else d1
    else
      let d2 := if d1.isFollower ∧ p = 0 then d1.setFld Reg.bandStat 24 6 hops else d1
      let d3 := if (d2.isFollower ∧ p = 0) ∨ (d2.isLead = true ∧ p = 1) then d2.setFld Reg.bandStat 16 7 size.toNat else d2
      d3.bandTryUp p

/-- A port loses block lock (R394, R414). -/
def execBandBlockLockLoss (p : Fin 2) (s : State) : Host.Outcome State Fault Refusal :=
  s.upd fun d => if d.bstate p.val = 3 then d.bandFail p.val 0 else d.modBport p.val fun b => { b with blockLock := false }

/-- A port that is DOWN trains again after 1 ms (R402). -/
def execBandRetrain (p : Fin 2) (s : State) : Host.Outcome State Fault Refusal :=
  s.upd fun d => if d.bstate p.val = 4 ∧ d.safe = false then d.setBstate p.val 2 else d

/-! ## What the lead and the followers tell each other (R415 to R417) -/

/-- A CONFIG arrives: a follower passes it on and applies it (R415). -/
def execConfigRx (m : BandMsg) (c : LineChange) (spos : BitVec 64) (s : State) : Host.Outcome State Fault Refusal :=
  s.upd fun d0 => d0.bandTake m Band.Kind.config fun d =>
    d.outward m.port.val Band.Kind.config m.hops.toNat (c.body ++ [spos.toInt]) fun d => d.applyConfig c

/-- Every 1 ms the lead repeats the line state (R416). -/
def execLineStateRepeat (s : State) : Host.Outcome State Fault Refusal :=
  s.upd fun d =>
    if d.isLead then
      d.settleStop.bandBoth Band.Kind.config [0, b2n d.lineStarted, d.fld Reg.battCfg 0 24, d.fld Reg.battCfg 28 4, d.rdI64 Reg.lineOrigin,
        d.battFirst, d.rdN Reg.btDlPos, d.rdN Reg.btDlTime, d.spos]
    else d

/-- An EXPOSE arrives: a follower passes it on and takes its own entries (R153, R417). -/
def execExposeRx (m : BandMsg) (target : BitVec 64) (source : Fin 2) (group : BitVec 8) (cmd : Nat) (seq : Word)
    (entries : List ExpItem) (s : State) : Host.Outcome State Fault Refusal :=
  s.upd fun d0 => d0.bandTake m Band.Kind.expose fun d =>
    d.outward m.port.val Band.Kind.expose m.hops.toNat
      ([(target.toNat : Int), source.val, group.toNat, cmd, seq.toNat] ++ entries.flatMap ExpItem.body)
      fun d => d.takeExpose target.toNat source.val group.toNat cmd entries

/-- A REPORT arrives: a follower passes it on, the lead takes it (R417). -/
def execReportRx (m : BandMsg) (rep : Report) (s : State) : Host.Outcome State Fault Refusal :=
  s.upd fun d0 => d0.bandTake m Band.Kind.report fun d =>
    if d.isLead then d.takeReport rep else d.bandForward m.port.val Band.Kind.report (d.hopsOf Band.Kind.report) rep.body

/-- The seam sender's next row on a port, in ascending batt and row, with what its reading of the frame store met; the last
row of a closed batt is followed by its BATT_CLOSE (R27, R418, R419). -/
def execSeamRowSend (p : Fin 2) (corrected bad : List Nat) (s : State) : Host.Outcome State Fault Refusal :=
  s.upd fun d =>
    let live := d.ful.batts.filter fun b => b.recalled.isNone
    let next := live.find? fun b => !d.seamDone p.val b
    match next with
    | none => d
    | some b =>
      match d.seamCols p.val b with
      | none => d
      | some cols =>
        let i := d.seamSent p.val b.num
        if d.bstate p.val ≠ 3 ∨ d.safe = true ∨ d.seamReady b cols i = false then d
        else
          let d1 := (d.fsErrors corrected bad).sendSeamRow p.val b cols i (bad != [])
          let d2 := { d1 with band := { d1.band with
            seamSent := d1.band.seamSent.filter fun x => live.any fun y => y.num == x.2.1 } }
          d2.sendDueCloses p.val

/-- A SEAM_ROW arrives: its values are kept for their batt, or discarded after its decision point (R305). -/
def execSeamRowRx (m : BandMsg) (batt : BitVec 48) (row : BitVec 16) (col : BitVec 20) (planes : List (List Word)) (s : State) :
    Host.Outcome State Fault Refusal :=
  s.upd fun d0 => d0.bandTake m Band.Kind.seamRow fun d =>
    if batt.toNat < d.undecided then d
    else
      let r : SeamRow := ⟨m.port.val, batt.toNat, row.toNat, col.toNat, planes.map fun l => l.map BitVec.toNat⟩
      { d with band := { d.band with seamRows := d.band.seamRows ++ [r] } }

/-- A BATT_CLOSE arrives: the neighbour close of the batt (R297, R419). -/
def execBattCloseRx (m : BandMsg) (batt : BitVec 48) (flagged : List Bool) (s : State) : Host.Outcome State Fault Refusal :=
  s.upd fun d0 => d0.bandTake m Band.Kind.battClose fun d =>
    let keep := d.band.closes.filter fun c => decide (c.batt ≥ d.undecided)
    { d with band := { d.band with
      closes := if batt.toNat < d.undecided then keep else keep ++ [⟨m.port.val, batt.toNat, flagged⟩] } }

/-- A BATT_OPEN arrives: a follower passes it on, the lead keeps it (R397). -/
def execBattOpenRx (m : BandMsg) (pos : Fin 64) (batt : BitVec 48) (s : State) : Host.Outcome State Fault Refusal :=
  s.upd fun d0 => d0.bandTake m Band.Kind.battOpen fun d =>
    if d.isLead then { d with band := { d.band with
      openReports := (d.band.openReports.filter fun x => x.1 != pos.val) ++ [(pos.val, batt.toNat)] } }
    else d.bandForward m.port.val Band.Kind.battOpen (d.hopsOf Band.Kind.battOpen) [(pos.val : Int), batt.toNat]

/-! ## Stops (R420, R421) -/

/-- A GROUP_STOP arrives: acted on once per stop number (R420). -/
def execGroupStopRx (m : BandMsg) (origin : Fin 64) (source : BitVec 8) (stop : Nat) (s : State) : Host.Outcome State Fault Refusal :=
  s.upd fun d0 => d0.bandTake m Band.Kind.groupStop fun d =>
    if d.band.stops.contains (origin.val, stop) then d
    else
      let p := m.port.val
      let d1 := { d with band := { d.band with stops := (origin.val, stop) :: d.band.stops } }
      let d2 := (d1.bandForward p Band.Kind.groupStop (d1.hopsOf Band.Kind.groupStop) [(origin.val : Int), source.toNat, stop]).setSticky (0x70 + p)
      (((d2.countUnit 2 FUnit.device).entered ⟨0x70 + p, 2, 2, [FUnit.device]⟩).deviceRecovery []).updatePin

/-- A SAFE_STOP arrives (R421): from the lead a follower passes it on and stops its line; from a follower it is the loss of
that port. -/
def execSafeStopRx (m : BandMsg) (origin : Fin 64) (role : Fin 3) (s : State) : Host.Outcome State Fault Refusal :=
  s.upd fun d0 => d0.bandTake m Band.Kind.safeStop fun d =>
    let p := m.port.val
    if role.val = 1 then
      if d.isFollower then
        let d1 := if d.bandRuns (1 - p) then d.bandSend (1 - p) Band.Kind.safeStop [(origin.val : Int), 1] else d
        d1.stopNow 2
      else d
    else if role.val = 2 then d.bandFail p 2
    else d

/-- An ACK arrives (R398). -/
def execBandAckRx (m : BandMsg) (acked : BitVec 16) (s : State) : Host.Outcome State Fault Refusal :=
  s.upd fun d0 => d0.bandTake m Band.Kind.ack fun d =>
    d.modBport m.port.val fun b => { b with unacked := b.unacked.filter fun x => x.lseq != acked.toNat }

/-- A reliable message is unacknowledged after 2 us: it is sent again, or after 16 attempts the port goes DOWN (R398). -/
def execBandRetransmit (p : Fin 2) (lseq : BitVec 16) (s : State) : Host.Outcome State Fault Refusal :=
  s.upd fun d =>
    match (d.bport p.val).unacked.find? fun x => x.lseq == lseq.toNat with
    | none => d
    | some x =>
      if d.bandRuns p.val = false then d
      else if x.attempts ≥ 16 then d.bandFail p.val 1
      else
        ((d.modBport p.val fun b => { b with unacked := b.unacked.map fun y =>
          if y.lseq = x.lseq then { y with attempts := y.attempts + 1 } else y }).incSat (Reg.bandpErr p.val) 8 8 1).emit
          (.band p.val x.kind x.hops x.lseq x.body)

/-! ## Plant time (R423, R424) -/

/-- A PTP message is for this clock (R423): SRC PTP, its domain and transport, on the management port. -/
def Dev.ptpMine (d : Dev) (h : Ptp) : Bool :=
  d.fld Reg.tbCfg 30 2 == 1 && d.plc.mgmtPort == h.port.val && d.fld Reg.tbCfg 28 2 == h.transport.val && d.fld Reg.tbCfg 16 8 == h.domain.toNat

/-- And from the master accepted. -/
def Dev.fromMaster (d : Dev) (h : Ptp) : Bool := d.ptpMine h && d.rd64 Reg.tbMaster == h.master.toNat

/-- The clock accepts an Announce as of its best master (R424): it has no master, this one is its master, or it is better. -/
def Dev.bestMaster (d : Dev) (h : Ptp) (a : Announce) : Bool :=
  decide (a.steps.toNat < 255) && d.tb.rank.all fun r => d.rd64 Reg.tbMaster == h.master.toNat || decide (a.rank h.master < r)

/-- An Announce arrives (R424): from the best master it is accepted, and FREE or HOLDOVER becomes ACQUIRING. -/
def execPtpAnnounceRx (h : Ptp) (a : Announce) (s : State) : Host.Outcome State Fault Refusal :=
  s.upd fun d =>
    if d.ptpMine h && d.bestMaster h a then
      let same := d.rd64 Reg.tbMaster == h.master.toNat && d.tb.rank.isSome
      let d1 := d.wr64 Reg.tbMaster h.master.toNat
      let d2 := { d1 with tb := { d1.tb with
        rank := some (a.rank h.master), anchor := if same then d1.tb.anchor else none
        twoStep := if same then d1.tb.twoStep else none, delayReq := if same then d1.tb.delayReq else none } }
      if d.tbState = 0 ∨ d.tbState = 3 then ({ d2 with tb := { d2.tb with good := 0 } } : Dev).setTb 1 else d2
    else d

/-- The timebase enters HOLDOVER (R424): it runs on at the last corrected frequency; from LOCKED PTP_LOST is raised. -/
def Dev.holdover (d : Dev) (cause : Nat) : Dev :=
  let d1 := ({ d with tb := { d.tb with slew := 0, good := 0, twoStep := none, delayReq := none, anchor := none } } : Dev).setTb 3
  if d.tbState = 2 then d1.event 0x8C05 none (le 1 cause ++ zeros 3 ++ le 4 (d1.rdN Reg.tbOffset)) else d1

/-- The frequency that a master's time gives (R424): what it advanced between two Syncs against the cycles between them, in
units per 65,536 cycles above REF_CORE, within 100 us per second (DESIGN CHOICE, notes/assumptions/129.md). -/
def Timebase.freqAt (t : Timebase) (t1 : Int) (cycle : Nat) : Int :=
  match t.anchor with
  | none => t.freq
  | some (p1, p) =>
    if cycle ≤ p then t.freq
    else clampI (-655360) 655360 (floorDiv (30000 * 65536 * (t1 - p1)) (cycle - p) - 6553600000)

/-- A Sync of the master, sent at t1 and received at t2 in CK_CTL cycle `cycle`, is taken (R424): the one step, or a correction of
the rate; a Delay_Req follows it on the transport configured (R423). -/
def Dev.takeSync (d : Dev) (t1 t2 : Int) (cycle : Nat) : Dev :=
  let st := d.tbState
  if st = 0 ∨ st = 3 then d
  else
    let off := t2 - t1 - d.tb.pathDelay
    let tr := d.fld Reg.tbCfg 28 2
    let d1 := ({ d with tb := { d.tb with
      lastSync := some (t1, t2), delayReq := some (d.timeNs : Int), twoStep := none
      freq := d.tb.freqAt t1 cycle, anchor := some (t1, cycle) } } : Dev).emit
        (.frame (if tr = 2 then 0x88F7 else 319) [(tr : Int), d.plc.mgmtPort, 1, d.timeNs])
    if st = 1 ∧ d.tb.stepped = false then
      ({ d1 with tb := { d1.tb with
        units := ((d1.tb.units : Int) - 30000 * off).toNat, slew := 0, stepped := true, good := 0
        lastSync := none, delayReq := none } } : Dev).wrN Reg.tbOffset 0
    else
      let good := if off.natAbs < 50 then d1.tb.good + 1 else 0
      let d2 := ({ d1 with tb := { d1.tb with slew := -30000 * off, good := good } } : Dev).wrN Reg.tbOffset
        (unsigned 32 (clampI (-2147483648) 2147483647 off))
      if st = 1 ∧ good ≥ 16 then
        (d2.setTb 2).event 0x8C04 none (le 4 (d2.rdN Reg.tbOffset) ++ le 8 (d2.rd64 Reg.tbMaster))
      else if st = 2 ∧ off.natAbs > 1000 then d2.holdover 0
      else d2

/-- A Sync arrives, from a one-step master with its origin time t1; `err` is the error of the timestamp, within 4 ns (R423). -/
def execPtpSyncRx (h : Ptp) (twoStep : Bool) (t1 : BitVec 64) (err : Int) (dt : Nat) (s : State) :
    Host.Outcome State Fault Refusal :=
  s.upd fun d0 =>
    let d := d0.advance dt
    let t2 := (d.timeNs : Int) + clampI (-4) 4 err
    if d.fromMaster h then
      if twoStep then { d with tb := { d.tb with twoStep := some (t2, d.now) } } else d.takeSync t1.toNat t2 d.now
    else d

/-- No Announce within ANN_TMO intervals (R424): there is no master any more. -/
def execAnnounceTimeout (s : State) : Host.Outcome State Fault Refusal :=
  s.upd fun d0 =>
    let d := { d0 with tb := { d0.tb with rank := none } }
    if d.fld Reg.tbCfg 30 2 ≠ 1 then d0
    else if d.tbState = 1 ∧ d.tb.stepped = false then d.setTb 0
    else if d.tbState = 1 ∨ d.tbState = 2 then d.holdover 1
    else d

/-- A Follow_Up gives the origin time of the Sync it follows (R423). -/
def execPtpFollowUpRx (h : Ptp) (t1 : BitVec 64) (s : State) : Host.Outcome State Fault Refusal :=
  s.upd fun d =>
    match d.tb.twoStep with
    | some (t2, n) => if d.fromMaster h then d.takeSync t1.toNat t2 n else d
    | none => d

/-- A Delay_Resp gives the receive time t4 of the Delay_Req: the path delay is half the sum of the two ways (R423). -/
def execPtpDelayRespRx (h : Ptp) (t4 : BitVec 64) (s : State) : Host.Outcome State Fault Refusal :=
  s.upd fun d =>
    match d.tb.lastSync, d.tb.delayReq with
    | some (t1, t2), some t3 =>
      if d.fromMaster h then
        { d with tb := { d.tb with pathDelay := floorDiv ((t2 - t1) + ((t4.toNat : Int) - t3)) 2, delayReq := none } }
      else d
    | _, _ => d

end Sys2Proof.Machine
end

