-- ==== Sys2Proof/Machine/FaultCmds.lean ====
section
/-! DEFINITION. The fault commands and the events of the fault collector and the fault log
(spec/15_faults_and_recovery.md). -/

namespace Sys2Proof.Machine

open Sys2Proof

/-! ## Commands -/

/-- Entry e of a FAULT_CONFIG: source, class, flags. -/
def cfgEntry (p : Bytes) (e : Nat) : Nat × Nat × Nat :=
  (leAt p (4 + 4 * e) 1, leAt p (5 + 4 * e) 1, leAt p (6 + 4 * e) 1)

/-- ALLOWED of a source's class register. -/
def Dev.allows (d : Dev) (s cls : Nat) : Bool := decide (cls < 4) && d.flag (Reg.fltClass s) (24 + cls)

/-- FAULT_CONFIG sets PIN_MIN and the class, ESC and GRP of up to 255 sources (R462, R472). -/
def execFaultConfig (r : Req) (s : State) : Host.Outcome State Fault Refusal :=
  s.upd fun d => d.command
    { code := 0x0D01, objs := fun _ => [.faultConfig]
      len := fun p => decide (p.length ≥ 4 ∧ p.length = 4 + 4 * leAt p 1 1)
      reserved := fun p => zeroAt p 2 2 && (List.range (leAt p 1 1)).all fun e =>
        bits (leAt p (6 + 4 * e) 1) 2 6 == 0 && zeroAt p (7 + 4 * e) 1 } r fun d =>
    let p := r.payload
    let pin := leAt p 0 1
    let es := (List.range (leAt p 1 1)).map (cfgEntry p)
    let bad := es.any fun e => FaultSource.reserved e.1 || !d.allows e.1 e.2.1 || (bit e.2.2 1 && e.2.1 != 2)
    if pin > 3 ∨ bad = true ∨ ((es.map (·.1)).eraseDups.length ≠ es.length) then .err d St.badParam
    else
      let word := fun (e : Nat × Nat × Nat) => bits e.2.2 1 1 * 2 ^ 5 + bits e.2.2 0 1 * 2 ^ 4 + e.2.1
      let same := (pin == 0 || pin == d.fld Reg.fltCfg 28 2) && es.all fun e => d.fld (Reg.fltClass e.1) 0 6 == word e
      if same then ⟨St.alreadyDone, [], d, [], [], false⟩
      else
        let d1 := if pin = 0 then d else d.setFld Reg.fltCfg 28 2 pin
        Result.stiff d (.ok (es.foldl (fun d e => d.setFld (Reg.fltClass e.1) 0 6 (word e)) d1).updatePin [])

/-- The response of FAULT_STATUS. -/
def Dev.faultReport (d : Dev) : Bytes :=
  le 1 (if d.safe then 2 else if d.devRec then 1 else 0) ++ le 1 (d.fld Reg.fltState 30 1) ++ zeros 2
  ++ le 4 (d.rdN Reg.fltDevcnt) ++ le 4 d.quietLeft ++ zeros 4
  ++ le 32 d.stickyBits.toNat ++ le 32 d.liveBits.toNat ++ le 4 (d.rdN Reg.fltUrec) ++ zeros 4 ++ le 8 (d.rd64 Reg.fltQprec)
  ++ (List.range 90).flatMap (fun u => le 2 (d.fld (Reg.fltUcnt u) 0 16))
  ++ (List.range 8).flatMap fun p => le 2 (d.fld (Reg.fltPcnt p) 0 16)

/-- FAULT_STATUS reports the collector and, with CLEAR, clears the sticky bits it returns, but for sources
whose live bit is 1 (R464, R467). -/
def execFaultStatus (r : Req) (s : State) : Host.Outcome State Fault Refusal :=
  s.upd fun d => d.command
    { code := 0x0D02, len := lenIs 4, objs := fun _ => [.faultConfig]
      reserved := fun p => decide (leAt p 0 1 < 2) && zeroAt p 1 3 } r fun d =>
    let d1 := if leAt r.payload 0 1 = 1 then
        (List.range 8).foldl (fun d i => d.wr (Reg.fltSticky i) (d.rd (Reg.fltSticky i) &&& d.rd (Reg.fltLive i))) d else d
    .ok d1 d.faultReport

/-- The bytes of a log entry (R469). -/
def LogEntry.bytes (e : LogEntry) : Bytes :=
  le 4 e.seq.toNat ++ le 1 e.kind ++ le 1 e.cls ++ le 1 e.unit.kind ++ le 1 e.unit.idx ++ le 8 e.time ++ sle 8 e.spos
  ++ le 32 e.sticky.toNat ++ le 32 e.live.toNat ++ le 4 e.recov ++ zeros 4

/-- FAULT_LOG_READ returns log entries without removing them (R470). Entry numbers wrap, so ages are differences. -/
def execFaultLogRead (r : Req) (s : State) : Host.Outcome State Fault Refusal :=
  s.upd fun d => d.command { code := 0x0D03, len := lenIs 8, objs := fun _ => [.faultConfig],
                             reserved := fun p => zeroAt p 5 3 } r fun d =>
    let n := leAt r.payload 4 1
    let held := d.flt.log.length
    let next := d.flt.logNext
    let oldest := next - BitVec.ofNat 32 held
    let first := if leAt r.payload 0 4 = 0xFFFFFFFF then oldest else BitVec.ofNat 32 (leAt r.payload 0 4)
    let off := (first - oldest).toNat
    if n < 1 ∨ n > 42 then .err d St.badParam
    else if off ≥ 2 ^ 31 then .err d St.tooLate
    else if off > held then .err d St.badParam
    else
      let es := (d.flt.log.drop off).take n
      .ok d (le 4 oldest.toNat ++ le 4 (next - 1).toNat ++ le 1 es.length ++ zeros 3 ++ es.flatMap LogEntry.bytes)

/-- The settings of QUIET_SET in its own layout. -/
def Dev.quietBytes (d : Dev) : Bytes :=
  le 2 (d.fld Reg.fltQuiet1 0 14) ++ le 2 (d.fld Reg.fltQuiet2 0 14) ++ le 1 (d.fld Reg.fltCfg 24 4) ++ zeros 1
  ++ le 2 (d.fld Reg.fltCfg 0 12)

/-- QUIET_SET sets the quiet periods and the escalation limits (R473, R476). -/
def execQuietSet (r : Req) (s : State) : Host.Outcome State Fault Refusal :=
  s.upd fun d => d.command { code := 0x0D04, len := lenIs 8, objs := fun _ => [.faultConfig],
                             reserved := fun p => zeroAt p 5 1 } r fun d =>
    let p := r.payload
    let q1 := leAt p 0 2
    let q2 := leAt p 2 2
    let ec := leAt p 4 1
    let ew := leAt p 6 2
    if q1 < 1 ∨ q1 > 10000 ∨ q2 < 1 ∨ q2 > 10000 ∨ ec < 1 ∨ ec > 15 ∨ ew < 1 ∨ ew > 3600 then .err d St.badParam
    else if p = d.quietBytes then ⟨St.alreadyDone, d.quietBytes, d, [], [], false⟩
    else Result.stiff d (.ok ((((d.setFld Reg.fltQuiet1 0 14 q1).setFld Reg.fltQuiet2 0 14 q2).setFld Reg.fltCfg 24 4 ec).setFld
      Reg.fltCfg 0 12 ew) d.quietBytes)

/-! ## Events of the collector -/

/-- One cycle in which a source's live bit is 1: an occurrence, unless the bit is 1 already (R464, R465). -/
def Dev.pulse (d : Dev) (srcs : List Nat) (qps : Nat) : Dev :=
  let held := srcs.filter fun s => d.live s && !FaultSource.reserved s
  (held.foldl (fun d s => d.setSticky s) d).occur (srcs.filter fun s => !held.contains s) qps

/-- A source that cannot occur as named: 0x6D and 0x6E name at least one queue pair, and a lane of a port that is not
enabled raises nothing (R612). -/
def Dev.mute (d : Dev) (qps s : Nat) : Bool :=
  ((s == 0x6D || s == 0x6E) && qps == 0)
  || (decide (0x60 ≤ s ∧ s < 0x68) && !bit (d.fld Reg.umacCfg 16 8) ((s - 0x60) / (8 / d.uplinkPorts)))

/-- One or more fault sources occur in a cycle (R464 to R466); `qps` names the queue pairs of sources 0x6D and 0x6E. -/
def execFaultOccurrence (srcs : List (Fin 256)) (qps : BitVec 64) (s : State) : Host.Outcome State Fault Refusal :=
  s.upd fun d => d.pulse ((srcs.map (·.val)).filter fun x => !d.mute qps.toNat x)
    (if srcs.any fun x => x.val == 0x6D || x.val == 0x6E then qps.toNat else 0)

/-- The quiet period of a unit's recovery ends (R476): the recovery ends, unless a source tied to the unit is live with a
configured class of 1 or more, and then the quiet period runs anew, with the length it had. -/
def execQuietPeriodEnd (kind : Fin 7) (idx : Fin 64) (s : State) : Host.Outcome State Fault Refusal :=
  s.upd fun d =>
    let u : FUnit := if kind.val = 0 then FUnit.device else ⟨kind.val, idx.val⟩
    match d.flt.recoveries.find? fun r => r.unit == u with
    | none => d
    | some r =>
      if d.unitLive u then
        let rs := d.flt.recoveries.map fun (x : Recovery) => if x = r then { x with since := d.now } else x
        { d with flt := { d.flt with recoveries := rs } }
      else d.endRecovery r

/-- Milliner pair 1 samples the sticky and live bits (R468). -/
def execFaultLogSample (s : State) : Host.Outcome State Fault Refusal :=
  s.upd fun d =>
    let st := d.stickyBits
    let lv := d.liveBits
    if st = d.flt.lastSticky ∧ lv = d.flt.lastLive ∨ d.millinerOff = true then d
    else
      let d1 := d.logEntry 0 0 FUnit.device
      { d1 with flt := { d1.flt with lastSticky := st, lastLive := lv } }

/-- The firmware has not served its watchdog for 10 ms (R31): source 0x07. -/
def execWatchdogExpiry (s : State) : Host.Outcome State Fault Refusal := s.upd fun d => d.pulse [0x07] 0

end Sys2Proof.Machine
end

