-- ==== Sys2Proof/Machine/ScanOps.lean ====
section
/-! DEFINITION. The stiffened registers, the scan of R457 and the scan engine (spec/14_register_access.md R457 to R461,
spec/03_hoppers_and_seals.md R118 to R120). -/

namespace Sys2Proof.Machine

open Sys2Proof

/-- The offsets that the index dimensions (count, stride) of a row reach. -/
def dimOffs : List (Nat × Nat) → List Nat
  | [] => [0]
  | (n, st) :: t => (List.range n).flatMap fun i => (dimOffs t).map (i * st + ·)

/-- The word offsets of a row, within its slot. -/
def RegDesc.offs (x : RegDesc) : List Nat :=
  (dimOffs x.dims).flatMap fun o => (List.range x.words).map fun w => x.off + o + 4 * w

/-- The stiffened registers of slot k in ascending window address (R457). -/
def stiffSlot (k : Nat) : List Nat :=
  match RegMap.slotRows k with
  | some rows => (((rows.filter (·.stiff)).flatMap RegDesc.offs).mergeSort (· ≤ ·)).map (k * 0x10000 + ·)
  | none => []

/-- The running value of R114 after slot k, from the value before it: each register as 4 little-endian bytes (R118). -/
def Dev.runSlot (d : Dev) (run : Word) (k : Nat) : Word :=
  (stiffSlot k).foldl (fun c a => crcRun c (le 4 (d.rdN a))) run

/-- The running values after slots 0 to 63 (R457): fold word 0, then every stiffened register; a slot without one repeats the
value before it. -/
def Dev.scanRuns (d : Dev) : List Word :=
  ((List.range 64).foldl (fun (acc : List Word × Word) k =>
    let r := d.runSlot acc.2 k
    (acc.1 ++ [r], r)) ([], crcRun 0xFFFFFFFF#32 (le 8 0))).1

/-- The seal of a whole scan. -/
def scanSeal (runs : List Word) : Word := runs.getLastD 0 ^^^ 0xFFFFFFFF#32

/-- Show whether a scan runs or waits (SCAN_CTRL, SEAL6_CTRL.BUSY). -/
def Dev.showScan (d : Dev) : Dev :=
  ((d.setFlag Reg.scanCtrl 31 d.scan.running.isSome).setFlag Reg.scanCtrl 30 (d.scan.waiting != [])).setFlag
    (Reg.sealCtrl 6) 31 d.scan.running.isSome

/-- A scan starts. A stiffening scan takes the registers as they stand, may rebase (R460), and serves a STIFFEN already
accepted (R461). -/
def Dev.startScan (d : Dev) (q : ScanReq) : Dev :=
  let d1 :=
    if q.stiffening then
      { d with scan := { d.scan with
          running := some q, runs := d.scanRuns, rebaseThis := d.flag Reg.stfStat 30, changed := false
          serves := (d.owed 0x0F03).isSome, spoiled := false } }
    else { d with scan := { d.scan with running := some q, spoiled := false } }
  d1.showScan

/-- A request starts, or waits while a scan runs: a stiffening scan is then the next to start (R119). -/
def Dev.requestScan (d : Dev) (q : ScanReq) : Dev :=
  if d.scan.running.isNone then d.startScan q
  else
    let (first, rest) := d.scan.waiting.span (·.stiffening)
    ({ d with scan := { d.scan with
      waiting := if q.stiffening then first ++ q :: rest else first ++ rest ++ [q] } } : Dev).showScan

/-- The request of a stiffening scan. -/
def ScanReq.stiff : ScanReq := ⟨0, 0, 0, true⟩

/-- STF_REF and every STF_BREFk take the results of a scan (R460, R461). -/
def Dev.takeRef (d : Dev) (runs : List Word) : Dev :=
  (List.range 64).foldl (fun d k => d.wr (Reg.stfBref k) (runs.getD k 0)) (d.wr Reg.stfRef (scanSeal runs))

/-- The lowest slot whose running value differs from the reference; 0xFF if none (R458). -/
def Dev.firstBlk (d : Dev) (runs : List Word) : Nat :=
  ((List.range 64).find? fun k => runs.getD k 0 != d.rd (Reg.stfBref k)).getD 0xFF

/-- A completed stiffening scan is compared with the reference (R458). -/
def Dev.compareScan (d : Dev) (runs : List Word) : Dev :=
  if scanSeal runs = d.rd Reg.stfRef then
    let d1 := (d.setFlag Reg.stfStat 31 false).setFld Reg.stfStat 8 8 0xFF
    ({ d1 with scan := { d1.scan with lastMatched := true } } : Dev).faultOff 0x04
  else
    let d1 := ((d.setFlag Reg.stfStat 31 true).setFld Reg.stfStat 8 8 (d.firstBlk runs)).incSat Reg.stfMismatchCnt 0 32 1
    let d2 := d1.faultOn 0x04
    -- the fault collector's events enter first (R605)
    let d3 := if d.scan.lastMatched then
        d2.event 0x8F01 none (le 4 (d1.rdN Reg.stfRef) ++ le 4 (scanSeal runs).toNat ++ le 1 (d1.firstBlk runs) ++ zeros 3
          ++ le 4 (d1.rdN Reg.stfMismatchCnt))
      else d2
    { d3 with scan := { d3.scan with lastMatched := false } }

/-- The reference is replaced without comparing (R460). -/
def Dev.rebaseScan (d : Dev) (runs : List Word) : Dev :=
  (((d.takeRef runs).setFlag Reg.stfStat 30 d.scan.changed).incSat Reg.stfStat 0 8 1)

/-- A stiffening scan served an accepted STIFFEN (R461): its result becomes the reference and ACTIVE is set, unless CHECK
finds it different from EXPECT. -/
def Dev.serveStiffen (d : Dev) (runs : List Word) : Dev :=
  match d.owed 0x0F03 with
  | none => d
  | some a =>
    let p := a.req.payload
    if leAt p 0 1 = 1 ∧ leAt p 4 4 ≠ (scanSeal runs).toNat then d.followUp a St.badParam []
    else
      let d1 := (d.takeRef runs).setFlag Reg.stfCtrl 31 true
      ({ d1 with scan := { d1.scan with lastMatched := true } } : Dev).followUp a St.ok (le 4 (scanSeal runs).toNat)

/-- The results of a completed stiffening scan (R457, R458, R460, R461). -/
def Dev.finishStiff (d : Dev) (runs : List Word) : Dev :=
  let d1 := (List.range 64).foldl (fun d k => d.wr (Reg.stfBlast k) (runs.getD k 0)) (d.wr Reg.stfLast (scanSeal runs))
  let d2 := (d1.incWrap Reg.stfScans 0 32 1).wr (Reg.sealRun 6) (runs.getLastD 0)
  let d3 := if d2.scan.rebaseThis then d2.rebaseScan runs
    else if d2.stiffActive then d2.compareScan runs
    else d2
  if d3.scan.serves then d3.serveStiffen runs else d3

/-- The bytes that a scan other than a stiffening scan covers, with its fold word (R115, R118); none where no rule gives
them. -/
def Dev.scanBytes (d : Dev) (q : ScanReq) : Option (Nat × Bytes) :=
  if q.len < 4 ∨ q.len > 2097152 ∨ q.len % 4 ≠ 0 ∨ q.addr % 4 ≠ 0 then none
  else if q.space = 0 then
    some (0, ((List.range 64).flatMap stiffSlot).flatMap fun a =>
      if q.addr ≤ a ∧ a < q.addr + q.len then le 4 (d.rdN a) else [])
  else if q.space = 1 then (d.storeBytes q.addr q.len).map fun b => (q.addr, b)
  else none

/-- The next waiting scan starts. -/
def Dev.nextScan (d : Dev) : Dev :=
  match d.scan.waiting with
  | [] => d.showScan
  | q :: t => ({ d with scan := { d.scan with waiting := t } } : Dev).startScan q

end Sys2Proof.Machine
end

