-- ==== Sys2Proof/Machine/AccessOps.lean ====
section
/-! DEFINITION. What stands behind a register access (spec/14_register_access.md, spec/20_address_map.md): widths and paths,
the power domain of a register, the violation log, the values that registers show without holding them, and the effects
that a write has beside the value it stores. -/

namespace Sys2Proof.Machine

open Sys2Proof

/-! ## Paths, widths, answers (R432, R435) -/

/-- Number of a path as VIOL_INFO and the bridge give it. -/
def pathNo : Path → Nat
  | .management => 0
  | .inBand => 1
  | .milliner => 2

/-- Width of an access in bytes, and its code in VIOL_INFO. -/
def sizeBytes : Size → Nat
  | .b8 => 1
  | .b16 => 2
  | .b32 => 4
  | .b64 => 8
def sizeCode : Size → Nat
  | .b8 => 0
  | .b16 => 1
  | .b32 => 2
  | .b64 => 3

/-- The status byte WSTAT of an answer (R500). -/
def Answer.wstat : Answer → Nat
  | .error k => 0x80 + k
  | .retry => 1
  | _ => 0

/-- The data of an answer. -/
def Answer.data : Answer → Nat
  | .value v => v.toNat
  | _ => 0

/-- The width of WIN_ADDR in bytes, and ADDR advanced by it (R499). -/
def Dev.winWidth (d : Dev) : Nat := 2 ^ bits d.smb.winAddr.toNat 24 2
def Dev.winAdvance (d : Dev) : Dev :=
  let a := d.smb.winAddr.toNat
  if bit a 26 then { d with smb := { d.smb with
    winAddr := BitVec.ofNat 32 (a / 2 ^ 24 * 2 ^ 24 + (a + d.winWidth) % 2 ^ 24) } } else d

/-- What a read transaction returns of a block: its bytes and its PEC, as many as the controller clocks in (R494). -/
def readBytes (addr code n : Nat) (blk : Bytes) : Bytes :=
  (blk ++ [pecOf ([BitVec.ofNat 8 (2 * addr), BitVec.ofNat 8 code, BitVec.ofNat 8 (2 * addr + 1)] ++ blk)]).take n

/-- The access of a WIN_DATA transaction has been made (R500, R501, R511): a write leaves its outcome in MB_WSTAT and is
acknowledged without an error; a read returns WSTAT and the data; ADDR advances after an access without an error whose
transaction did not end early. -/
def Dev.winEnd (d : Dev) (x : Answer) : Dev :=
  match d.smb.win with
  | none => d
  | some t =>
    let w := d.winWidth
    let good := x.wstat == 0
    let d1 : Dev := { d with smb := { d.smb with win := none } }
    if t.write then
      let d2 := d1.wrN Reg.mbWstat x.wstat
      let d3 := if good then d2.winAdvance else d2
      if t.live then { d3 with smb := { d3.smb with acked := good } } else d3
    else
      let blk := le 1 (w + 1) ++ le 1 x.wstat ++ le w (if good then x.data else 0)
      let d2 : Dev := { d1 with smb := { d1.smb with lastRead := if t.live then readBytes t.addr 0x21 t.n blk else [] } }
      if good && t.live && decide (w + 2 ≤ t.n) then d2.winAdvance else d2

/-- The last access of a path answers; on the management bus path it ends the WIN_DATA transaction that made it. -/
def Dev.reply (d : Dev) (p : Path) (x : Answer) : Dev :=
  let d1 : Dev := { d with bus := { d.bus with answers := modAt d.bus.answers (pathNo p) fun _ => x } }
  if p = .management ∧ x ≠ .waiting then d1.winEnd x else d1
/-- What the last access of a path answered. -/
def Dev.answerOf (d : Dev) (p : Path) : Answer := d.bus.answers.getD (pathNo p) .none

/-- The mask of n enabled bytes from byte lane l of a word. -/
def laneMask (l n : Nat) : Word := BitVec.ofNat 32 ((2 ^ (8 * n) - 1) * 2 ^ (8 * l))

/-! ## Slots, views and domains (R427 to R430, R596) -/

/-- Slot of a window address, the view of it (0 direct, 1 set, 2 clear, 3 toggle), and its place in the direct view. -/
def winSlot (a : Nat) : Nat := a / 0x10000 % 256
def winView (a : Nat) : Nat := a % 0x10000 / 0x4000
def winDirect (a : Nat) : Nat := winSlot a * 0x10000 + a % 0x4000 % RegMap.slotSpan (winSlot a)

/-- Stage of a pipeline register (R596): 0 PP, 1 CD, 2 BK, 3 NP. -/
def pipeStage (o : Nat) : Nat :=
  if 0x360 ≤ o then 3
  else if (0x1C0 ≤ o ∧ o < 0x1D8) ∨ (0x2C0 ≤ o ∧ o < 0x2D8) ∨ (0x300 ≤ o ∧ o < 0x338) then 1
  else if (0x1D8 ≤ o ∧ o < 0x1F8) ∨ (0x2D8 ≤ o ∧ o < 0x2F8) ∨ (0x340 ≤ o ∧ o < 0x360) then 2
  else 0

/-- The power domain of the register at an address of the direct view (R596). -/
def regDomain (a : Nat) : Nat :=
  let k := a / 0x10000
  let o := a % 0x10000
  if k = 0x01 then 127
  else if k = 0x02 then 128
  else if k = 0x03 then 130
  else if k = 0x04 then 134
  else if k = 0x05 then 129
  else if k = 0x06 then 131
  else if k = 0x07 then (if 0x100 ≤ o ∧ o < 0x180 then 112 + (o - 0x100) / 0x40 else 131)
  else if k = 0x08 then 132
  else if k = 0x09 then 133
  else if 0x10 ≤ k ∧ k < 0x20 then k - 0x10
  else if 0x20 ≤ k ∧ k < 0x30 then 16 + 16 * pipeStage o + (k - 0x20)
  else if k = 0x30 then 96 + o / 0x800
  else if k = 0x38 ∨ k = 0x39 then 114
  else if k = 0x3A then 118
  else if k = 0x3B then 135
  else 126

/-- A domain answers: it is on and not in its switch sequence (R430, R550). -/
def Dev.domainUp (d : Dev) (j : Nat) : Bool :=
  d.domainOn j && !(match d.pwr.queue with
    | (k, _) :: _ => k == j
    | [] => false)

/-! ## The violation log (R447) -/

/-- An access that receives an error response is entered in the violation log. -/
def Dev.violation (d : Dev) (p : Path) (addr : Nat) (deep : Bool) (kind : Nat) (write : Bool) (size : Nat) : Dev :=
  let n := (d.rdN Reg.violCnt + 1) % 2 ^ 32
  let j := d.rdN Reg.violPtr % 16
  let info := 2 ^ 31 + pathNo p * 2 ^ 29 + b2n deep * 2 ^ 28 + kind * 2 ^ 24 + b2n write * 2 ^ 23 + size * 2 ^ 21 + n % 2 ^ 16
  (((d.wrN Reg.violCnt n).wrN (Reg.violAddr j) addr).wrN (Reg.violInfo j) info).wrN Reg.violPtr ((j + 1) % 16)

/-! ## Hopper occupancy (R99, R109) -/

/-- Depth of hopper i in entries. -/
def hopDepth (i : Nat) : Nat :=
  if i < 8 then 520 else if i = 8 then 16640 else if i = 9 then 4160 else if i < 26 then 64 else if i < 42 then 4096
  else if i < 58 then 512 else if i = 58 then 1024 else if i < 67 then 2048 else if i = 67 then 16384 else if i = 68 then 1024
  else 256

/-- Power domain that hopper i lies in. -/
def hopDomain (i : Nat) : Nat :=
  if i < 10 then 130 else if i < 26 then 16 + (i - 10) else if i < 42 then 80 + (i - 26) else if i < 58 then 64 + (i - 42)
  else if i = 58 then 131 else if i < 67 then 96 + (i - 59) else if i < 69 then 118 else 112 + (i - 69)

/-- Complete items that hopper i holds (R99): messages; lines; rows formed and not written; tile rows of such rows; batts the
ends of whose sections the cutter has not closed (R374); parcels not yet issued; entries of PLC_CMP. A report to the batt tracker and a
band message are taken in the step in which they come. -/
def Dev.hopItems (d : Dev) (i : Nat) : Nat :=
  let waits := fun (c : Card) (r : Nat) => !c.rowWritten r
  if i < 8 then (d.box i).hopper.length
  else if i = 8 then d.ev.hopper.length
  else if i = 9 then d.ev.q0.length
  else if i < 26 then (d.pipe (i - 10)).rx.length
  else if i < 42 then (d.pipe (i - 26)).cards.foldl (fun n c => n + (c.blocked.filter fun x => waits c x.r).length) 0
  else if i < 58 then (d.pipe (i - 42)).cards.foldl (fun n c => n + (c.tiles.filter fun t =>
    (List.range 64).any fun j => waits c ((t.batt - c.grid.first) * 2 ^ c.grid.hlog + 64 * t.trow + j)).length) 0
  else if i = 58 then 0
  else if i < 67 then (d.ful.batts.filter fun b => b.cutter == some (i - 59)).length
  else if i = 67 then d.plc.streams.foldl (fun n t => t.batts.foldl (fun n p => n + p.todo.length + p.re.length) n) 0
  else if i = 68 then min (hopDepth 68) d.cmpLoad
  else 0

/-- OCC of hopper i: 0 without an item; exact for hopper 68; a message takes 1 to 65 entries; what the items of the others take is
free, from one entry each to the depth. -/
def Dev.hopOcc (d : Dev) (i : Nat) : Nat × Dev :=
  let n := d.hopItems i
  if d.domainOn (hopDomain i) = false ∨ n = 0 then (0, d)
  else if i = 68 then (n, d)
  else
    let (v, d1) := d.fresh 16
    (if i < 10 then n + v % (64 * n + 1) else min (hopDepth i) n + v % (hopDepth i - min (hopDepth i) n + 1), d1)

/-! ## Values that a register shows (R427) -/

/-- SMB_STAT shows the port; a Host Notify is one step, so NOTIFYING is never seen as 1 (notes/assumptions/70.md). -/
def Dev.smbStat (d : Dev) : Nat :=
  b2n (!d.smb.standby) * 2 ^ 31 + b2n d.smb.reasm.isSome * 2 ^ 29
    + min 4096 (d.smb.reasm.elim 0 (·.length)) * 2 ^ 16 + min 8 d.smb.respQ.length

/-- The level of strobe output n (R147, R149): logic 0 while it is unbound, its line is stopped or the device is in the safe
state, whatever POL is. -/
def Dev.strobeLevel (d : Dev) (n : Nat) : Bool :=
  d.flag (Reg.strbCfg n) 31 && d.lineStarted && !d.safe
  && ((d.pos.strobes.getD n {}).active != d.flag (Reg.strbCfg n) 30)

/-- What the register word at an address of the direct view reads as: the word held, or what it shows. -/
def Dev.show_ (d : Dev) (a : Nat) : Nat × Dev :=
  let v := d.rdN a
  let k := a / 0x10000
  if k = 0x0A then
    let i := a % 0x10000 / 0x10
    if i ≥ 71 then (v, d)
    else if a % 0x10 = 4 then
      let h := d.hoppers.getD i {}
      let (o, d1) := d.hopOcc i
      (b2n h.tail * 2 ^ 31 + b2n h.flushing * 2 ^ 30 + o, d1)
    else if a % 0x10 = 8 then (if d.domainOn (hopDomain i) then v else 0, d)
    else (v, d)
  else if a = Reg.mbxOcc then ((List.range 8).foldl (fun x n => x + min 8 (d.box n).hopper.length * 2 ^ (4 * n)) 0, d)
  else if a = Reg.mbxEvq then
    (b2n d.ev.ring.isSome * 2 ^ 24 + min 255 d.ev.hopper.length * 2 ^ 8 + d.ev.q0.length, d)
  else if a = Reg.fltState then (v / 2 ^ 29 * 2 ^ 29 + min (2 ^ 29 - 1) d.quietLeft, d)
  else if a = Reg.smbStat then (d.smbStat, d)
  else if 0x60100 ≤ a ∧ a < 0x60180 ∧ a % 0x20 = 0x14 then
    let e := d.pos.encs.getD ((a - 0x60100) / 0x20) {}
    (b2n e.openPair * 8 + b2n e.z * 4 + b2n e.b * 2 + b2n e.a, d)
  else if 0x60800 ≤ a ∧ a < 0x60880 ∧ a % 0x10 = 4 then
    let n := (a - 0x60800) / 0x10
    (b2n (d.strobeLevel n) * 2 ^ 31 + v % 2 ^ 31, d)
  else if 0x20 ≤ k ∧ k < 0x30 ∧ a % 0x10000 = 0x300 then
    (v % 2 ^ 30 + b2n (d.flag Reg.fltUrec (k - 0x20)) * 2 ^ 30 + v / 2 ^ 31 * 2 ^ 31, d)
  else if k = 0x30 ∧ a % 0x800 = 0 then
    (v % 2 ^ 30 + b2n (d.flag Reg.fltUrec (16 + a % 0x10000 / 0x800)) * 2 ^ 30 + v / 2 ^ 31 * 2 ^ 31, d)
  else if 0x90200 ≤ a ∧ a < 0x90320 ∧ (a % 0x20 = 0x14 ∨ a % 0x20 = 0x04) then
    let n := (a - 0x90200) / 0x20
    if a % 0x20 = 0x04 then (v, d)
    else ((d.rd (Reg.sealRun n) ^^^ 0xFFFFFFFF#32).toNat, d)
  else (v, d)

/-- The bits that a read of the word at a clears (R442): its RC bits, but no sticky bit of a source whose live bit is 1, which
sets it in the same cycle (R464, R467). -/
def Dev.rcBits (d : Dev) (a : Nat) : Word :=
  if Reg.fltSticky 0 ≤ a ∧ a < Reg.fltSticky 8 then RegMap.rcMask a &&& ~~~d.rd (a + 0x20) else RegMap.rcMask a

/-! ## Shadows (R437 to R439) -/

/-- The shadow of a slot and path in a list, if its tag is set. -/
def shadowOf (l : List Shadow) (slot : Nat) (p : Path) : Option Shadow := l.find? fun x => x.slot == slot && x.path == p
/-- Drop the shadow of a slot and path. -/
def dropShadow (l : List Shadow) (slot : Nat) (p : Path) : List Shadow := l.filter fun x => !(x.slot == slot && x.path == p)

/-- Load the read shadow of a slot and path. -/
def Dev.loadRead (d : Dev) (x : Shadow) : Dev :=
  { d with bus := { d.bus with readShadows := x :: dropShadow d.bus.readShadows x.slot x.path } }
/-- Clear the tag of the read shadow. -/
def Dev.clearRead (d : Dev) (slot : Nat) (p : Path) : Dev :=
  { d with bus := { d.bus with readShadows := dropShadow d.bus.readShadows slot p } }
/-- Load the write shadow of a slot and path. -/
def Dev.loadWrite (d : Dev) (x : Shadow) : Dev :=
  { d with bus := { d.bus with writeShadows := x :: dropShadow d.bus.writeShadows x.slot x.path } }
/-- Clear the tag of the write shadow. -/
def Dev.clearWrite (d : Dev) (slot : Nat) (p : Path) : Dev :=
  { d with bus := { d.bus with writeShadows := dropShadow d.bus.writeShadows slot p } }

/-- A write to another register than 8n + 4 of the tagged quantity discards the shadow and counts (R438); `q` is the
quantity the write goes to. -/
def Dev.dropOther (d : Dev) (slot : Nat) (p : Path) (q : Nat) : Dev :=
  match shadowOf d.bus.writeShadows slot p with
  | some x => if x.tag = q then d else (d.clearWrite slot p).incSat Reg.shdDropCnt 0 32 1
  | none => d

/-! ## What a write does beside the value it stores -/

/-- NEXT_BANK (R446): each named unit requests a swap with the target all ones, or its NB_REFUSED bit is set. -/
def Dev.nextBank (d : Dev) (mask : Nat) : Dev :=
  let d1 := (maskList 16 mask).foldl (fun (d : Dev) n =>
    if d.bankBusy n || !d.commitOk n then d.setFlag Reg.nbRefused n true else d.commitBank n noBatt) d
  if bit mask 16 then (if d1.fulBusy then d1.setFlag Reg.nbRefused 16 true else d1.commitFul noBatt) else d1

/-- LOST_UPDATE of the block in a slot (R444). -/
def Dev.lostUpdate (d : Dev) (slot : Nat) : Dev := d.setFlag (Reg.luMap (slot / 32)) (slot % 32) true

/-- The registers of a seal unit are written while it computes: the result is undefined (R120). -/
def Dev.spoilSeal (d : Dev) (n : Nat) : Dev :=
  if n = 6 then (if d.scan.running.isSome then { d with scan := { d.scan with spoiled := true } } else d)
  else if n < 2 then
    (List.range 64).foldl (fun d q => if q % 2 = n then d.modQp q fun x => { x with
      sq := x.sq.map fun w => if w.fold.isSome ∧ 0 < w.sent ∧ w.sent < w.packets then { w with spoiled := true } else w } else d) d
  else d

/-- Effects of a write on a seal unit's registers at offset r of unit n: START, and bytes fed through SEALn_DATA in ascending
order (R112, R114). `pulse` are the bits written 1 that pulse; `fed` the enabled bytes of a direct write. -/
def Dev.sealWrite (d : Dev) (n r : Nat) (pulse : Nat) (fed : Bytes) : Dev :=
  let d1 := if n = 6 ∧ r = 4 ∧ d.scan.running.isSome = true then (d.spoilSeal n).lostUpdate 9 else d.spoilSeal n
  if r = 0 ∧ bit pulse 0 = true then
    d1.wr (Reg.sealRun n) (if d1.flag (Reg.sealCtrl n) 1 then 0xFFFFFFFF#32
      else crcRun 0xFFFFFFFF#32 (le 8 (d1.rd64 (Reg.sealFold n))))
  else if r = 0x10 then d1.wr (Reg.sealRun n) (crcRun (d1.rd (Reg.sealRun n)) fed)
  else d1

/-- FLT_INJECT.GO (R488): SOURCE occurs for one cycle; which queue pairs an injected 0x6D or 0x6E names is free. -/
def Dev.inject (d : Dev) : Dev :=
  let s := d.fld Reg.fltInject 0 8
  if FaultSource.reserved s then d
  else if s = 0x6D ∨ s = 0x6E then let (q, d1) := d.fresh 64; d1.pulse [s] q
  else d.pulse [s] 0

/-- What a write of the word at address a of the direct view sets off: `old` the word before it, `pulse` the bits written 1
through the direct, set or toggle view, `fed` the enabled bytes of a direct write. -/
def Dev.afterWrite (d : Dev) (p : Path) (a : Nat) (old : Word) (pulse : Nat) (fed : Bytes) : Dev :=
  if a = Reg.nextBank then d.nextBank (pulse % 2 ^ 17)
  else if 0x90200 ≤ a ∧ a < 0x90320 then d.sealWrite ((a - 0x90200) / 0x20) (a % 0x20) pulse fed
  else if Reg.scanCtrl ≤ a ∧ a ≤ Reg.scanLen then
    let d1 := if p = .milliner then d else d.spoilSeal 6
    if a = Reg.scanCtrl ∧ bit pulse 0 = true then
      d1.requestScan ⟨d1.fld Reg.scanCtrl 6 2, d1.rd64 Reg.scanAddr, d1.rdN Reg.scanLen, false⟩
    else d1
  else if Reg.fltClass 0 ≤ a ∧ a < Reg.fltClass 256 then
    let s := (a - Reg.fltClass 0) / 4
    -- a class not allowed leaves CLASS unchanged; a reserved source ignores writes
    if FaultSource.reserved s then d.wr a old
    else if d.allows s (d.fld a 0 2) then d else d.setFld a 0 2 (bits old.toNat 0 2)
  else if a = Reg.fltCfg then d.updatePin
  else if a = Reg.fltInject then (if bit pulse 31 then d.inject else d)
  else if a = Reg.posCtrl then
    let was := if bit old.toNat 27 then some (bits old.toNat 28 2) else none
    if d.master = was then d
    else { d with pos := { d.pos with f := (d.wr a old).fraction, lastTick := none, period := none } }
  else if Reg.strbCfg 0 ≤ a ∧ a < Reg.strbCfg 8 ∧ a % 0x10 = 0 then
    let n := (a - Reg.strbCfg 0) / 0x10
    let d1 := if d.flag a 31 then d else { d with pos := { d.pos with strobes := modAt d.pos.strobes n fun _ => {} } }
    d1.showExp (d1.fld a 24 4)
  else d

/-- Store a word of the direct view as a view and the access codes give (R427, R440, R443), with its further effects. -/
def Dev.writeWord (d : Dev) (p : Path) (a view : Nat) (v en : Word) : Dev :=
  let old := d.rd a
  let m := v &&& en &&& RegMap.rwMask a
  let keep := old &&& ~~~(en &&& RegMap.rwMask a)
  let new := if view = 0 then keep ||| m else if view = 1 then old ||| m else if view = 2 then old &&& ~~~m else old ^^^ m
  let pulse := if view = 2 then 0 else (v &&& en).toNat
  let fed := if view = 0 then (List.range 4).filterMap fun i =>
      if en.getLsbD (8 * i) then some (BitVec.ofNat 8 (v.toNat / 2 ^ (8 * i))) else none
    else []
  (d.wr a new).afterWrite p a old pulse fed

end Sys2Proof.Machine
end

