-- ==== Sys2Proof/Machine/BridgeOps.lean ====
section
/-! DEFINITION. The indirect bridge (spec/14_register_access.md R449 to R456) and deep space (spec/20_address_map.md R598 to
R602). -/

namespace Sys2Proof.Machine

open Sys2Proof

/-! ## Deep space (R598, R599, R601) -/

/-- An offset of a pipeline's window that holds a table (R599). -/
def pipeOffMapped (o : Nat) : Bool :=
  decide (o < 0x74000 ∨ (0x74000 ≤ o ∧ o < 0x75000) ∨ (0x80000 ≤ o ∧ o < 0x110000))

/-- The bridge scratch, which every path may write. -/
def deepScratch (a : Nat) : Bool := decide (0x70000000 ≤ a ∧ a < 0x70001000)

/-- Serdes and PHY tuning, and the test ranges: registers of other units, whose values no rule gives. -/
def deepTuning (a : Nat) : Bool :=
  decide ((0x20000000 ≤ a ∧ a < 0x20120000) ∨ (0x20200000 ≤ a ∧ a < 0x20280000) ∨ (0x20300000 ≤ a ∧ a < 0x20500000)
    ∨ (0x30000000 ≤ a ∧ a < 0x40000000))

/-- An address inside a range of R598 and R599. -/
def deepMapped (a : Nat) : Bool :=
  decide (0x10000000 ≤ a ∧ a < 0x12000000) && pipeOffMapped ((a - 0x10000000) % 0x200000)
  || decide (0x14000000 ≤ a ∧ a < 0x14004000) || decide (0x18000000 ≤ a ∧ a < 0x18018000)
  || decide (0x18020000 ≤ a ∧ a < 0x18038000) || deepTuning a || decide (0x40000000 ≤ a ∧ a < 0x40010000) || deepScratch a

/-- The power domain that a serdes or PHY range needs (R601). -/
def deepDomain (a : Nat) : Option Nat :=
  if 0x20000000 ≤ a ∧ a < 0x20100000 then some ((a - 0x20000000) / 0x10000)
  else if 0x20100000 ≤ a ∧ a < 0x20120000 then some (112 + (a - 0x20100000) / 0x10000)
  else if 0x20200000 ≤ a ∧ a < 0x20280000 then some (104 + (a - 0x20200000) / 0x10000)
  else if 0x20300000 ≤ a ∧ a < 0x20500000 then some (114 + 2 * ((a - 0x20300000) / 0x100000))
  else none

/-- Why a bridge access fails, in the order of R604; none if it does not. -/
def Dev.deepKind (d : Dev) (p : Path) (a : Nat) (write : Bool) : Option Nat :=
  if a % 4 ≠ 0 ∨ deepMapped a = false then some 6
  else if write && !deepScratch a && p != .milliner then some 5
  else match deepDomain a with
    | some j => if d.domainUp j then none else some 7
    | none => none

/-- The word that the far side returns: the page table shows its entries (R331); tuning words and test ranges are free. -/
def Dev.deepFetch (d : Dev) (a : Nat) : Nat × Dev :=
  if deepTuning a then d.fresh 32
  else if 0x18000000 ≤ a ∧ a < 0x18018000 ∧ d.deepRd a = 0 then (d.pageEntry ((a - 0x18000000) / 4), d)
  else ((d.deepRd a).toNat, d)

/-! ## The bridge of a path -/

/-- The bridge of a path. -/
def Dev.bridge (d : Dev) (p : Path) : Bridge := d.bus.bridges.getD (pathNo p) {}
/-- Change the bridge of a path. -/
def Dev.modBridge (d : Dev) (p : Path) (f : Bridge → Bridge) : Dev :=
  { d with bus := { d.bus with bridges := modAt d.bus.bridges (pathNo p) f } }

/-- IDX_ADDR advances under AINC (R454). -/
def Bridge.advance (b : Bridge) : Bridge := if b.ainc then { b with addr := b.addr + 4 } else b

/-- A path waits for its bridge (R450, R452): a non-posted write is under way, or an access waits for the posted one. -/
def Dev.pathWaits (d : Dev) (p : Path) : Bool :=
  (d.bridge p).next.isSome || (match (d.bridge p).writing with
    | some (_, _, posted) => !posted
    | none => false)

/-- A posted write failed (R452): the first failure is captured, IDX_PERR_CNT counts, BRIDGE_POST_FAIL is raised. -/
def Dev.postFailed (d : Dev) (p : Path) (a kind : Nat) : Dev :=
  let d1 := if d.rdN Reg.idxPerrCnt = 0 then
      (d.wrN Reg.idxPerrAddr a).wrN Reg.idxPerrInfo (pathNo p * 2 ^ 29 + kind * 2 ^ 24) else d
  let d2 := d1.incSat Reg.idxPerrCnt 0 32 1
  d2.event 0x8F02 none (le 4 a ++ le 1 (pathNo p) ++ le 1 kind ++ zeros 2 ++ le 4 (d2.rdN Reg.idxPerrCnt))

/-- A held value is discarded (R453). -/
def Dev.discardHeld (d : Dev) (p : Path) : Dev :=
  if (d.bridge p).held.isSome then (d.modBridge p fun b => { b with held := none }).incSat Reg.idxDiscardCnt 0 32 1 else d

/-- A write to IDX_DATA (R450, R452, R455): refused by its address, else on its way to the far side. A posted write completes
for its initiator at once. -/
def Dev.bridgeWrite (d : Dev) (p : Path) (v : Word) (post : Bool) : Dev × Answer :=
  let b := d.bridge p
  let a := b.addr.toNat
  if b.writing.isSome then (d.modBridge p fun b => { b with next := some (some (v, post)) }, .waiting)
  else
    let bad := (d.deepKind p a true).filter fun k => k != 7
    match bad with
    | some k =>
      if post then ((d.postFailed p a k).modBridge p Bridge.advance, .done)
      else (d.violation p a true k true 2, .error k)
    | none =>
      let d1 := d.modBridge p fun b => { b with writing := some (a, v, post) }
      if post then (d1.modBridge p Bridge.advance, .done) else (d1, .waiting)

/-- A read of IDX_DATA, by the cases of R453. -/
def Dev.bridgeRead (d : Dev) (p : Path) : Dev × Answer :=
  let b := d.bridge p
  let a := b.addr.toNat
  let start := fun (d : Dev) => ((d.discardHeld p).modBridge p fun b => { b with fetching := some a }, Answer.retry)
  if b.writing.isSome then (d.modBridge p fun b => { b with next := some none }, .waiting)
  else match b.held with
    | some (.value h v) =>
      if h = a then (d.modBridge p fun b => ({ b with held := none } : Bridge).advance, .value (v.zeroExtend 64))
      else if b.fetching.isSome then (d, .retry) else start d
    | some (.error h k) =>
      if h = a then ((d.modBridge p fun b => { b with held := none }).violation p a true k false 2, .error k)
      else if b.fetching.isSome then (d, .retry) else start d
    | none => if b.fetching.isSome then (d, .retry) else start d

/-- The access that waited for the posted write is made. -/
def Dev.bridgeNext (d : Dev) (p : Path) : Dev :=
  match (d.bridge p).next with
  | none => d
  | some x =>
    let d1 := d.modBridge p fun b => { b with next := none }
    match x with
    | some (v, post) => let (d2, ans) := d1.bridgeWrite p v post; d2.reply p ans
    | none => let (d2, ans) := d1.bridgeRead p; d2.reply p ans

/-- The far side completes the write of a path (R450, R452). -/
def Dev.bridgeWritten (d : Dev) (p : Path) (farError : Bool) : Dev :=
  match (d.bridge p).writing with
  | none => d
  | some (a, v, post) =>
    let bad := farError || (d.deepKind p a true).isSome
    let d1 := d.modBridge p fun b => { b with writing := none }
    let d2 := if bad then d1 else if deepTuning a then d1 else d1.deepWr a v
    if post then (if bad then d2.postFailed p a 7 else d2).bridgeNext p
    else if bad then (d2.violation p a true 7 true 2).reply p (.error 7)
    else (d2.modBridge p Bridge.advance).reply p .done

/-- The far side completes the fetch of a path (R453): the value, or the error, is held. -/
def Dev.bridgeFetched (d : Dev) (p : Path) (farError : Bool) : Dev :=
  match (d.bridge p).fetching with
  | none => d
  | some a =>
    match (match d.deepKind p a false with
      | some k => some k
      | none => if farError || (d.liveView 0).isLost a then some 7 else none) with
    | some k => d.modBridge p fun b => { b with fetching := none, held := some (.error a k) }
    | none =>
      let (v, d1) := d.deepFetch a
      d1.modBridge p fun b => { b with fetching := none, held := some (.value a (BitVec.ofNat 32 v)) }

/-- The bridge registers of a path as they read: IDX_ADDR, IDX_DATA as last written, IDX_CTRL, IDX_STAT. -/
def Dev.idxWord (d : Dev) (p : Path) (o : Nat) : Word :=
  let b := d.bridge p
  if o = 0 then b.addr
  else if o = 4 then b.data
  else if o = 8 then BitVec.ofNat 32 (b2n b.post * 2 + b2n b.ainc)
  else BitVec.ofNat 32 (b2n b.fetching.isSome * 2 ^ 31 + b2n b.held.isSome * 2 ^ 30
    + b2n (b.writing.any fun w => w.2.2) * 2 ^ 29)

/-- Store a bridge register of a path; a write to IDX_DATA starts a bridge write. -/
def Dev.idxStore (d : Dev) (p : Path) (o : Nat) (v : Word) : Dev × Answer :=
  if o = 0 then (d.modBridge p fun b => { b with addr := v }, .done)
  else if o = 4 then (d.modBridge p fun b => { b with data := v }).bridgeWrite p v (d.bridge p).post
  else if o = 8 then (d.modBridge p fun b => { b with post := v.getLsbD 1, ainc := v.getLsbD 0 }, .done)
  else (d, .done)

end Sys2Proof.Machine
end

