-- ==== Sys2Proof/Machine/Registers.lean ====
section
/-! DEFINITION. Register accesses (spec/14_register_access.md): one access under R427 to R445, and the rows of it. -/

namespace Sys2Proof.Machine

open Sys2Proof

/-! ## One access -/

/-- A word at address a of the direct view is one of the per-path bridge registers (R449). -/
def isIdx (a : Nat) : Bool := decide (0x40000 ≤ a ∧ a < 0x40010)

/-- An answer that carries no error, retry or wait. -/
def Answer.good : Answer → Bool
  | .done => true
  | .value _ => true
  | _ => false

/-- The value of an answer. -/
def Answer.val : Answer → Nat
  | .value v => v.toNat
  | _ => 0

/-- Read one word through the direct view, the lanes of `en` being returned: RC bits returned are cleared (R436, R442), the
high word comes from the read shadow if that is tagged for it, and a read of a low word loads the shadow (R437). `both` says
that the access is 64 bits wide (R439). -/
def Dev.readDirect (d : Dev) (p : Path) (a : Nat) (en : Word) (both : Bool) : Dev × Answer :=
  let slot := a / 0x10000
  if isIdx a then
    if a % 0x10 = 4 then d.bridgeRead p else (d, .value ((d.idxWord p (a % 0x10)).zeroExtend 64))
  else
    let clear := fun (d : Dev) (got : Word) (all : Bool) =>
      let rc := d.rcBits a &&& en
      if rc = 0 then d else d.wr a (d.rd a &&& ~~~(if all then rc else rc &&& got))
    match shadowOf d.bus.readShadows slot p with
    | some x =>
      if RegMap.isWide a ∧ a % 8 = 4 ∧ x.tag = a - 4 ∧ both = false then
        ((clear d x.value false).clearRead slot p, .value (x.value.zeroExtend 64))
      else
        let (v, d1) := d.show_ a
        let d2 := if RegMap.isWide a ∧ a % 8 = 0 then d1.loadRead ⟨slot, p, a, d1.rd (a + 4)⟩ else d1
        (clear d2 0 true, .value (BitVec.ofNat 64 v))
    | none =>
      let (v, d1) := d.show_ a
      let d2 := if RegMap.isWide a ∧ a % 8 = 0 then d1.loadRead ⟨slot, p, a, d1.rd (a + 4)⟩ else d1
      (clear d2 0 true, .value (BitVec.ofNat 64 v))

/-- Read one word through an alias: no side effects (R441). -/
def Dev.readAlias (d : Dev) (p : Path) (a : Nat) : Dev × Answer :=
  if isIdx a then (d, .value ((d.idxWord p (a % 0x10)).zeroExtend 64))
  else let (v, d1) := d.show_ a; (d1, .value (BitVec.ofNat 64 v))

/-- Read one word through a view. -/
def Dev.readWord (d : Dev) (p : Path) (a view : Nat) (en : Word) (both : Bool) : Dev × Answer :=
  if view = 0 then d.readDirect p a en both else d.readAlias p a

/-- A read of an access that is not refused: the lanes it names, low word first. -/
def Dev.readAccess (d : Dev) (p : Path) (addr : Nat) (size : Size) : Dev × Answer :=
  let a := winDirect addr
  let n := sizeBytes size
  if n = 8 then
    let (d1, lo) := d.readWord p a (winView addr) 0xFFFFFFFF#32 true
    let (d2, hi) := d1.readWord p (a + 4) (winView addr) 0xFFFFFFFF#32 true
    if hi.good = false then (d2, hi) else (d2, .value (BitVec.ofNat 64 (lo.val + 2 ^ 32 * hi.val)))
  else
    let l := a % 4
    let (d1, x) := d.readWord p (a / 4 * 4) (winView addr) (laneMask l n) false
    if x.good then (d1, .value (BitVec.ofNat 64 (x.val / 2 ^ (8 * l) % 2 ^ (8 * n)))) else (d1, x)

/-- Write one word as a view gives, without the write shadow. -/
def Dev.putWord (d : Dev) (p : Path) (a view : Nat) (v en : Word) : Dev × Answer :=
  if isIdx a then
    let old := d.idxWord p (a % 0x10)
    let m := v &&& en
    d.idxStore p (a % 0x10)
      (if view = 0 then (old &&& ~~~en) ||| m else if view = 1 then old ||| m else if view = 2 then old &&& ~~~m else old ^^^ m)
  else (d.writeWord p a view v en, .done)

/-- A register is defined at address a of the direct view (R428). -/
def defined (a : Nat) : Bool := (RegMap.descAt a).isSome || isIdx a

/-- A write of at most 32 bits (R438, R440). -/
def Dev.writeNarrow (d : Dev) (p : Path) (a view : Nat) (v en : Word) : Dev × Answer :=
  let slot := a / 0x10000
  let q := a / 8 * 8
  if defined a = false then (d, .done)
  else if view ≠ 0 ∨ RegMap.isWide a = false then
    (if RegMap.isWide a then d.dropOther slot p q else d.dropOther slot p (2 ^ 24)).putWord p a view v en
  else if a % 8 = 4 then
    ((d.dropOther slot p q).loadWrite ⟨slot, p, q, (d.rd a &&& ~~~en) ||| (v &&& en)⟩, .done)
  else match shadowOf d.bus.writeShadows slot p with
    | some x =>
      if x.tag = q then
        let (d1, _) := (d.clearWrite slot p).putWord p a 0 v en
        d1.putWord p (a + 4) 0 x.value 0xFFFFFFFF#32
      else (d.dropOther slot p q).putWord p a 0 v en
    | none => d.putWord p a 0 v en

/-- A 64-bit write commits both words (R439). -/
def Dev.writeWide (d : Dev) (p : Path) (a view : Nat) (lo hi : Word) : Dev × Answer :=
  let slot := a / 0x10000
  let d1 :=
    if !defined a && !defined (a + 4) then d
    else match shadowOf d.bus.writeShadows slot p with
      | some x => if x.tag = a ∧ view = 0 ∧ RegMap.isWide a = true then d.clearWrite slot p
                  else d.dropOther slot p (if RegMap.isWide a then a else 2 ^ 24)
      | none => d
  let (d2, x) := if defined a then d1.putWord p a view lo 0xFFFFFFFF#32 else (d1, .done)
  let (d3, y) := if defined (a + 4) then d2.putWord p (a + 4) view hi 0xFFFFFFFF#32 else (d2, .done)
  (d3, if x.good then y else x)

/-- A write of an access that is not refused. -/
def Dev.writeAccess (d : Dev) (p : Path) (addr : Nat) (size : Size) (v : Nat) : Dev × Answer :=
  let a := winDirect addr
  let n := sizeBytes size
  if n = 8 then d.writeWide p a (winView addr) (BitVec.ofNat 32 v) (BitVec.ofNat 32 (v / 2 ^ 32))
  else
    let l := a % 4
    d.writeNarrow p (a / 4 * 4) (winView addr) (BitVec.ofNat 32 (v % 2 ^ (8 * n) * 2 ^ (8 * l))) (laneMask l n)

/-- The bytes of the direct view that an access covers include byte b. -/
def covers (addr : Nat) (size : Size) (b : Nat) : Bool :=
  decide (winDirect addr ≤ b ∧ b < winDirect addr + sizeBytes size)

/-- A write that its path may not make (R448, R488): of REG_ACCESS.INBAND_WR, or of 1 to FLT_INJECT.GO. -/
def denied (p : Path) (addr : Nat) (size : Size) (w : Option Nat) : Bool :=
  match w with
  | none => false
  | some v => p != .management &&
    (covers addr size Reg.regAccess
      || (covers addr size (Reg.fltInject + 3) && winView addr != 2
          && bit v (8 * (Reg.fltInject + 3 - winDirect addr) + 7)))

/-- Why an access receives an error response, in the order of R604; none if it does not (R429, R430, R435, R448). -/
def Dev.accessError (d : Dev) (p : Path) (addr : Nat) (size : Size) (w : Option Nat) : Option Nat :=
  if (RegMap.slotRows (winSlot addr)).isNone then some 1
  else if addr % sizeBytes size ≠ 0 then some 2
  else if denied p addr size w then some 5
  else if d.domainUp (regDomain (winDirect addr)) = false then some 3
  else none

/-- One access of a path (R427 to R445): the error response with its log entry, or the access and its answer. A path that
waits for its bridge issues nothing (R450, R452). -/
def Dev.access (d : Dev) (p : Path) (addr : Nat) (size : Size) (w : Option Nat) : Dev :=
  if d.pathWaits p then d
  else match d.accessError p addr size w with
    | some k => (d.violation p (addr % 2 ^ 24) false k w.isSome (sizeCode size)).reply p (.error k)
    | none =>
      let (d1, x) := match w with
        | some v => d.writeAccess p addr size v
        | none => d.readAccess p addr size
      d1.reply p x

/-- The word at address r of the direct view holds an RWH state or pointer field (R443): IDX_ADDR, RATE_NOM, SEALn_RUN. -/
def rwhWord (r : Nat) : Bool :=
  r == 0x40000 || r == Reg.rateNom || (decide (0x90200 ≤ r ∧ r < 0x90320) && r % 0x20 == 4)

/-- One write of a path; `hw` says that hardware updates an RWH state or pointer field that it writes in the same cycle: that
update is lost (R443, R444). -/
def Dev.accessHw (d : Dev) (p : Path) (addr : Nat) (size : Size) (w : Option Nat) (hw : Bool) : Dev :=
  let d1 := d.access p addr size w
  let r := winDirect addr / 4 * 4
  if hw && w.isSome && !d.pathWaits p && (rwhWord r || (sizeBytes size == 8 && rwhWord (r + 4)))
      && (d.accessError p addr size w).isNone then d1.lostUpdate (winSlot addr) else d1

/-! ## Rows: reads and writes through the window -/

/-- A write to a register takes effect in its cycle (R445); `hw` says that hardware updates a written RWH state or pointer
field in the same cycle, which is lost (R443, R444). -/
def execRegisterWrite (a : Access) (data : BitVec 64) (hw : Bool) (s : State) : Host.Outcome State Fault Refusal :=
  s.upd fun d => d.accessHw a.path a.addr.toNat a.size (some data.toNat) hw

/-- A read that clears the RC bits it returns (R442). -/
def execRcRegisterRead (a : Access) (s : State) : Host.Outcome State Fault Refusal :=
  s.upd fun d => d.access a.path a.addr.toNat a.size none

/-- A read of FLT_STICKYi returns and clears its bits (R442, R467). -/
def execFltStickyRead (path : Path) (i : Fin 8) (s : State) : Host.Outcome State Fault Refusal :=
  s.upd fun d => d.access path (Reg.fltSticky i.val) .b32 none

/-- A write through the set alias (R440). -/
def execSetAliasWrite (a : Access) (data : BitVec 64) (s : State) : Host.Outcome State Fault Refusal :=
  s.upd fun d => d.access a.path (a.addr.toNat / 0x10000 * 0x10000 + 0x4000 + a.addr.toNat % 0x4000) a.size (some data.toNat)

/-- A write through the clear alias (R440). -/
def execClearAliasWrite (a : Access) (data : BitVec 64) (s : State) : Host.Outcome State Fault Refusal :=
  s.upd fun d => d.access a.path (a.addr.toNat / 0x10000 * 0x10000 + 0x8000 + a.addr.toNat % 0x4000) a.size (some data.toNat)

/-- A write through the toggle alias (R440). -/
def execToggleAliasWrite (a : Access) (data : BitVec 64) (s : State) : Host.Outcome State Fault Refusal :=
  s.upd fun d => d.access a.path (a.addr.toNat / 0x10000 * 0x10000 + 0xC000 + a.addr.toNat % 0x4000) a.size (some data.toNat)

/-- A read of a high word (R437). -/
def execShadowHighRead (a : Access) (s : State) : Host.Outcome State Fault Refusal :=
  s.upd fun d => d.access a.path a.addr.toNat a.size none

/-- A write of a high word loads the write shadow (R438). -/
def execShadowHighWrite (a : Access) (data : BitVec 64) (s : State) : Host.Outcome State Fault Refusal :=
  s.upd fun d => d.access a.path a.addr.toNat a.size (some data.toNat)

/-- A read of a low word loads the read shadow (R437, R439). -/
def execShadowLowRead (a : Access) (s : State) : Host.Outcome State Fault Refusal :=
  s.upd fun d => d.access a.path a.addr.toNat a.size none

/-- A write of a low word commits the write shadow if that is tagged for it (R438, R439). -/
def execShadowLowWrite (a : Access) (data : BitVec 64) (s : State) : Host.Outcome State Fault Refusal :=
  s.upd fun d => d.access a.path a.addr.toNat a.size (some data.toNat)

/-- A read that receives an error response is logged and returns 0 (R429, R430, R435, R447). -/
def execRegisterReadError (a : Access) (s : State) : Host.Outcome State Fault Refusal :=
  s.upd fun d => d.access a.path a.addr.toNat a.size none

/-- A block does not complete an access within 4,096 cycles (R431): the error response, the log entry, source 0x0A; whether a
write took effect is free. An earlier kind of R604 stands, and the bridge has its own limits. -/
def execAccessTimeout (a : Access) (write : Bool) (data : BitVec 64) (s : State) : Host.Outcome State Fault Refusal :=
  s.upd fun d =>
    let w := if write then some data.toNat else none
    let addr := a.addr.toNat
    if (d.accessError a.path addr a.size w).isSome || d.pathWaits a.path || covers addr a.size 0x40004 then
      d.access a.path addr a.size w
    else
      let d1 := if write then
          let (t, d0) := d.fresh 1
          if t = 1 then (d0.writeAccess a.path addr a.size data.toNat).1 else d0
        else d
      ((d1.violation a.path (addr % 2 ^ 24) false 4 write (sizeCode a.size)).reply a.path (.error 4)).pulse [0x0A] 0

/-- A write of REG_ACCESS.INBAND_WR: done on the management bus path, refused with DENIED on the others (R448). -/
def execInbandWrWrite (path : Path) (on : Bool) (s : State) : Host.Outcome State Fault Refusal :=
  s.upd fun d => d.access path Reg.regAccess .b32 (some (b2n on))

/-- A write of NEXT_BANK.PIPE requests a swap of each named pipeline (R446). -/
def execNextBankPipe (path : Path) (mask : BitVec 16) (s : State) : Host.Outcome State Fault Refusal :=
  s.upd fun d => d.access path Reg.nextBank .b32 (some mask.toNat)

/-- A write of NEXT_BANK.FUL requests a swap of the fulling bank (R446). -/
def execNextBankFul (path : Path) (s : State) : Host.Outcome State Fault Refusal :=
  s.upd fun d => d.access path Reg.nextBank .b32 (some (2 ^ 16))

/-- A write of 1 to FLT_INJECT.GO with a source (R488). -/
def execFltInjectGo (path : Path) (source : BitVec 8) (s : State) : Host.Outcome State Fault Refusal :=
  s.upd fun d => d.access path Reg.fltInject .b32 (some (2 ^ 31 + source.toNat))

/-! ## Rows: the indirect bridge -/

/-- A write to IDX_DATA with POST clear (R450); as IDX_CTRL stands. -/
def execIdxDataWrite (path : Path) (data : Word) (s : State) : Host.Outcome State Fault Refusal :=
  s.upd fun d => d.access path 0x40004 .b32 (some data.toNat)

/-- A write to IDX_DATA with POST set (R452); as IDX_CTRL stands. -/
def execIdxDataPostedWrite (path : Path) (data : Word) (s : State) : Host.Outcome State Fault Refusal :=
  s.upd fun d => d.access path 0x40004 .b32 (some data.toNat)

/-- A read of IDX_DATA (R453). -/
def execIdxDataRead (path : Path) (s : State) : Host.Outcome State Fault Refusal :=
  s.upd fun d => d.access path 0x40004 .b32 none

/-- A held value is not collected within IDX_HOLD_TIME (R453). -/
def execIdxHoldExpiry (path : Path) (s : State) : Host.Outcome State Fault Refusal :=
  s.upd fun d => d.discardHeld path

/-- A read of IDX_PERR_CNT clears it and re-arms the capture (R452). -/
def execIdxPerrCntRead (path : Path) (s : State) : Host.Outcome State Fault Refusal :=
  s.upd fun d => d.access path Reg.idxPerrCnt .b32 none

/-! ## Rows: seal units, scans, hoppers (spec/03_hoppers_and_seals.md) -/

/-- A write of SEALn_CTRL with START (R112): RUN is loaded and the fold word processed, unless NOFOLD. -/
def execSealStart (path : Path) (n : Fin 9) (nofold : Bool) (s : State) : Host.Outcome State Fault Refusal :=
  s.upd fun d => d.access path (Reg.sealCtrl n.val) .b32 (some (b2n nofold * 2 + 1))

/-- A write of SEALn_DATA from byte lane 0 feeds its bytes in ascending order (R112). -/
def execSealData (path : Path) (n : Fin 9) (size : Size) (data : Word) (s : State) : Host.Outcome State Fault Refusal :=
  s.upd fun d => d.access path (Reg.sealData n.val) size (some data.toNat)

/-- A write of SEALn_RUN (R114); `hw` says that the unit updates RUN in the same cycle, which is lost (R443, R444). -/
def execSealRunLoad (path : Path) (n : Fin 9) (value : Word) (hw : Bool) (s : State) : Host.Outcome State Fault Refusal :=
  s.upd fun d => d.accessHw path (Reg.sealRun n.val) .b32 (some value.toNat) hw

/-- A write of SCAN_CTRL with GO requests a scan (R118, R119). -/
def execScanGo (path : Path) (space : Fin 4) (s : State) : Host.Outcome State Fault Refusal :=
  s.upd fun d => d.access path Reg.scanCtrl .b32 (some (space.val * 2 ^ 6 + 1))

/-- A stiffening scan falls due (R118, R119); the scan engine lies in PD_STF. -/
def execStiffenScanDue (s : State) : Host.Outcome State Fault Refusal :=
  s.upd fun d => if d.domainOn 133 then d.requestScan ScanReq.stiff else d

/-- The running scan ends (R457, R458): its results are stored, and a stiffening scan compares, rebases or serves STIFFEN. A
scan of the frame store reads through its SECDED (R328), and each page with an uncorrectable word raises HOOD_SCAN_ERROR (R329);
a result that no rule gives is free. -/
def execScanDone (corrected bad : List Nat) (s : State) : Host.Outcome State Fault Refusal :=
  s.upd fun d =>
    match d.scan.running with
    | none => d
    | some q =>
      let d1 := { d with scan := { d.scan with running := none } }
      let free := fun (d : Dev) => let (v, d) := d.fresh 32; d.wrN (Reg.sealRun 6) v
      let d2 :=
        if q.stiffening then
          if d.scan.spoiled then
            let runs := (List.range 64).map fun k => (Config.freeValue (d1.free + k)).truncate 32
            ({ d1 with free := d1.free + 64 } : Dev).finishStiff runs
          else d1.finishStiff d1.scan.runs
        else
          let d0 := if q.space = 1 then
              (bad.map (· / pageSize)).eraseDups.foldl (fun d p => d.scanError p 1 none) (d1.fsErrors corrected bad)
            else d1
          if d.scan.spoiled then free d0
          else match d0.scanBytes q with
            | some (f, l) => d0.wr (Reg.sealRun 6) (crcRun (crcRun 0xFFFFFFFF#32 (le 8 f)) l)
            | none => free d0
      ({ d2 with scan := { d2.scan with spoiled := false } } : Dev).nextScan

/-- The boundary of a flush of a hopper (R104): what it holds is discarded, the item that was in progress with the rest. -/
def execHopperFlushBoundary (hopper : Fin 71) (s : State) : Host.Outcome State Fault Refusal :=
  s.upd fun d =>
    let i := hopper.val
    if ((d.hoppers.getD i {}).flushing) = false then d
    else (d.modHop i fun h => { h with flushing := false }).discardHop i

/-- The tail notice of a hopper (R107): raised when items have waited TAIL_TIME unread. On that of a FUL hopper the parcel cutter
closes the last parcels of the batts that its slice has fulled, which reads them out (R374). -/
def execTailNotice (hopper : Fin 71) (s : State) : Host.Outcome State Fault Refusal :=
  s.upd fun d =>
    if d.fld (Reg.hopCfg hopper.val) 0 16 = 0 ∨ d.domainOn (hopDomain hopper.val) = false ∨ d.hopItems hopper.val = 0 then d
    else if 59 ≤ hopper.val ∧ hopper.val < 67
        ∧ (d.ful.batts.any fun b => b.cutter == some (hopper.val - 59) && b.state != .closed) = true then
      let close := fun (b : Batt) => if b.cutter = some (hopper.val - 59) ∧ b.state ≠ .closed then { b with cutter := none } else b
      ({ d with ful := { d.ful with batts := d.ful.batts.map close } } : Dev).hopRead hopper.val
    else d.modHop hopper.val fun h => { h with tail := true }

end Sys2Proof.Machine
end

