-- ==== Sys2Proof/Machine/RegCmds.lean ====
section
/-! DEFINITION. The register commands (spec/14_register_access.md): REG_READ, REG_WRITE, STIFFEN, UNSTIFFEN, BANK_COMMIT. -/

namespace Sys2Proof.Machine

open Sys2Proof

/-! ## Items (R432 to R434, R449) -/

/-- The common fields: ADDR, SPACE, SIZE, COUNT. -/
def regAddr (p : Bytes) : Nat := leAt p 0 4
def regSpace (p : Bytes) : Nat := leAt p 4 1
def regSize (p : Bytes) : Size := [Size.b8, .b16, .b32, .b64].getD (leAt p 5 1) .b32
def regWidth (p : Bytes) : Nat := sizeBytes (regSize p)
def regCount (p : Bytes) : Nat := leAt p 6 2

/-- A length rounded up to a multiple of 4. -/
def up4 (n : Nat) : Nat := (n + 3) / 4 * 4

/-- The common fields are in range. -/
def regOk (p : Bytes) : Bool :=
  decide (regSpace p ≤ 1 ∧ leAt p 5 1 ≤ 3 ∧ 1 ≤ regCount p ∧ regCount p * regWidth p ≤ 4064 ∧ regAddr p % regWidth p = 0)
  && (if regSpace p = 0 then decide (regAddr p + regCount p * regWidth p ≤ 2 ^ 24)
      else decide (leAt p 5 1 = 2 ∧ regAddr p + 4 * regCount p ≤ 2 ^ 32))

/-- Set the in-band bridge for an item of deep space: its address, POST, no AINC. -/
def Dev.aimBridge (d : Dev) (a : Nat) (post : Bool) : Dev :=
  d.modBridge .inBand fun b => { b with addr := BitVec.ofNat 32 a, post := post, ainc := false }

/-- Item a of a register command is issued (`w` the value written, `hw` as in `Dev.accessHw`): the device after and the answer, which
may be that the path waits for its bridge, or that a fetch has begun. -/
def Dev.regItem (d : Dev) (p : Bytes) (a : Nat) (w : Option Nat) (post hw : Bool) : Dev × Answer :=
  if regSpace p = 0 then
    let d1 := d.accessHw .inBand a (regSize p) w hw
    (d1, d1.answerOf .inBand)
  else
    let d1 := d.aimBridge a post
    let (d2, x) := match w with
      | none => d1.bridgeRead .inBand
      | some v => d1.bridgeWrite .inBand (BitVec.ofNat 32 v) post
    (d2.reply .inBand x, x)

/-- The value that item i of a register command writes. -/
def regValue (code : Nat) (p : Bytes) (i : Nat) : Option Nat :=
  if code = 0x0F01 then none else some (leAt p (12 + regWidth p * i) (regWidth p))

/-- The POST flag of a register command. -/
def regPost (code : Nat) (p : Bytes) : Bool := code == 0x0F02 && bit (leAt p 8 1) 0

/-- The items of a register command from item i on, n of them, until one does not complete: items done, the answer that ended
it, the data read. -/
def Dev.regItems (d : Dev) (code : Nat) (p : Bytes) (hw : List Nat) : Nat → Nat → Bytes → Dev × Nat × Answer × Bytes
  | 0, i, acc => (d, i, .done, acc)
  | n + 1, i, acc =>
    let w := regValue code p i
    let (d1, x) := d.regItem p (regAddr p + regWidth p * i) w (regPost code p) (hw.contains i)
    if x.good then d1.regItems code p hw n (i + 1) (acc ++ (if w.isNone then le (regWidth p) x.val else []))
    else (d1, i, x, acc)

/-- A register command goes on later: its path waits, or a fetch that it began is under way (R450, R452, R453). A read of IDX_DATA
in SPACE 0 that receives RETRY ends the command with that status instead (R453). -/
def regSuspends (p : Bytes) (x : Answer) : Bool := x == .waiting || (x == .retry && regSpace p == 1)

/-- The status and payload of a register command that has ended: DONE, ERR and the data. -/
def regOutcome (p : Bytes) (done : Nat) (x : Answer) (data : Bytes) : Nat × Bytes :=
  let err := match x with
    | .error k => k
    | _ => 0
  let body := le 2 done ++ le 1 err ++ zeros 1 ++ data ++ zeros (up4 data.length - data.length)
  if done = regCount p then (St.ok, body)
  else if x = .retry then (St.retry, [])
  else if done = 0 then (St.badParam, body)
  else (St.partialDone, body)

/-- What a suspended register command keeps: items done, the cycle it began in, whether it waits for a fetch, the data read. -/
def regArgs (done start : Nat) (x : Answer) (data : Bytes) : List Nat :=
  [done, start, b2n (x == .retry)] ++ data.map (·.toNat)

/-- A register command begins (R434): its items until it ends, or is suspended and holds the path. -/
def Dev.regBegin (d : Dev) (code : Nat) (p : Bytes) (hw : List Nat) : Result ⊕ Begun :=
  let (d1, done, x, data) := d.regItems code p hw (regCount p) 0 []
  if regSuspends p x then .inr ⟨d1, [.inBandPath], regArgs done d.now x data, none⟩
  else
    let o := regOutcome p done x data
    .inl ⟨o.1, o.2, d1, [], [], true⟩

/-- The value of a read item that waited, in its lanes: a 64-bit one of the bridge registers has IDX_ADDR below. -/
def Dev.waitedValue (d : Dev) (p : Bytes) (a v : Nat) : Nat :=
  if regSpace p = 1 then v
  else if regWidth p = 8 then (d.bridge .inBand).addr.toNat + 2 ^ 32 * v
  else v / 2 ^ (8 * (a % 4)) % 2 ^ (8 * regWidth p)

/-- A suspended register command goes on if its bridge allows: as `Dev.regItems` answers. -/
def Dev.regStep (d : Dev) (code : Nat) (p : Bytes) (args : List Nat) : Option (Dev × Nat × Answer × Bytes) :=
  let i := args.getD 0 0
  let data : Bytes := (args.drop 3).map fun (n : Nat) => BitVec.ofNat 8 n
  let n := regCount p - i
  if args.getD 2 0 = 1 then
    if (d.bridge .inBand).fetching.isSome then none else some (d.regItems code p [] n i data)
  else if d.pathWaits .inBand then none
  else
    let x := d.answerOf .inBand
    if x.good then
      let a := regAddr p + regWidth p * i
      let got := if (regValue code p i).isNone then le (regWidth p) (d.waitedValue p a x.val) else []
      some (d.regItems code p [] (n - 1) (i + 1) (data ++ got))
    else some (d, i, x, data)

/-- A code of a register command. -/
def isRegCode (c : Nat) : Bool := c == 0x0F01 || c == 0x0F02

/-- A register command whose items have taken more than 1 ms answers ACCEPTED. -/
def Dev.regAccept (d : Dev) : Dev :=
  match d.running.find? fun x => isRegCode x.code && decide (d.now > x.args.getD 1 0 + cyclesMs) with
  | some x => d.endRunning x St.accepted []
  | none => d

/-- The suspended register command, if there is one, goes on; at its end it answers, or gives its follow-up. -/
def Dev.regResume (d0 : Dev) : Dev :=
  let d := d0.regAccept
  match d.running.find? fun x => isRegCode x.code with
  | some x =>
    match d.regStep x.code x.req.payload x.args with
    | none => d
    | some (d1, done, ans, data) =>
      if regSuspends x.req.payload ans then
        { d1 with running := d1.running.map fun y =>
          if y = x then { y with args := regArgs done (x.args.getD 1 0) ans data } else y }
      else
        let o := regOutcome x.req.payload done ans data
        d1.endRunning x o.1 o.2
  | none =>
    match d.accepted.find? fun x => isRegCode x.code with
    | none => d
    | some a =>
      match d.regStep a.code a.req.payload a.args with
      | none => d
      | some (d1, done, ans, data) =>
        if regSuspends a.req.payload ans then
          { d1 with accepted := d1.accepted.map fun y =>
            if y = a then { y with args := regArgs done (a.args.getD 1 0) ans data } else y }
        else
          let o := regOutcome a.req.payload done ans data
          d1.followUp a o.1 o.2

/-- The bridge of a path has moved on: on the in-band path the suspended register command follows. -/
def Dev.bridgeMoved (d : Dev) (p : Path) : Dev := if p = .inBand then d.regResume else d

/-- REG_READ reads registers or deep-space words on the in-band path, which it holds until its final response (R434, R449). -/
def execRegRead (r : Req) (s : State) : Host.Outcome State Fault Refusal :=
  s.upd fun d => d.commandOr { code := 0x0F01, len := lenIs 8, objs := fun _ => [.inBandPath] } r fun d =>
    let p := r.payload
    if regOk p = false then .inl (.err d St.badParam)
    else if d.pathWaits .inBand then .inl (.err d St.busy)
    else d.regBegin 0x0F01 p []

/-- A write item addresses a stiffened register, in any view. -/
def stiffItem (p : Bytes) (i : Nat) : Bool :=
  let a := winDirect (regAddr p + regWidth p * i)
  RegMap.stiffened (a / 4 * 4) || (regWidth p == 8 && RegMap.stiffened (a + 4))

/-- REG_WRITE writes registers or deep-space words on the in-band path, which it holds until its final response (R434, R448, R449,
R459). -/
def execRegWrite (x : RegWriteReq) (s : State) : Host.Outcome State Fault Refusal :=
  s.upd fun d => d.commandOr
    { code := 0x0F02, objs := fun _ => [.inBandPath]
      len := fun p => decide (p.length ≥ 12 ∧ (leAt p 5 1 > 3 ∨ p.length = 12 + up4 (regCount p * regWidth p)))
      reserved := fun p => bits (leAt p 8 1) 1 7 == 0 && zeroAt p 9 3 } x.req fun d =>
    let p := x.req.payload
    if regOk p = false ∨ (leAt p 8 1 = 1 ∧ regSpace p = 0) then .inl (.err d St.badParam)
    else if x.req.mbx.val ≠ 0 ∧ d.flag Reg.regAccess 0 = false then .inl (.err d St.notPermitted)
    else if d.stiffActive = true ∧ regSpace p = 0 ∧ ((List.range (regCount p)).any (stiffItem p)) = true then
      .inl (.err d St.stiffened)
    else if d.pathWaits .inBand then .inl (.err d St.busy)
    else d.regBegin 0x0F02 p x.hw

/-! ## Rows of the indirect bridge that a register command may wait for -/

/-- The far side completes a path's write, with or without an error (R450, R452). -/
def execIdxWriteComplete (path : Path) (farError : Bool) (s : State) : Host.Outcome State Fault Refusal :=
  s.upd fun d => (d.bridgeWritten path farError).bridgeMoved path

/-- A non-posted write is not completed within 10 ms (R451): the error response; whether it took effect is free. Where the target's
domain is off, that kind comes first and the write has no effect (R604). -/
def execIdxWriteTimeout (path : Path) (s : State) : Host.Outcome State Fault Refusal :=
  s.upd fun d =>
    match (d.bridge path).writing with
    | some (a, v, false) =>
      let d0 := d.modBridge path fun b => { b with writing := none }
      match d.deepKind path a true with
      | some k => ((d0.violation path a true k true 2).reply path (.error k)).bridgeMoved path
      | none =>
        let (t, d1) := d0.fresh 1
        let d2 := if t = 1 ∧ deepTuning a = false then d1.deepWr a v else d1
        ((d2.violation path a true 8 true 2).reply path (.error 8)).bridgeMoved path
    | _ => d

/-- The far side completes a path's fetch (R453). -/
def execIdxFetchDone (path : Path) (farError : Bool) (s : State) : Host.Outcome State Fault Refusal :=
  s.upd fun d => (d.bridgeFetched path farError).bridgeMoved path

/-! ## Stiffening (R457 to R461) -/

/-- STIFFEN: a scan that starts after the command begins gives the reference; the follow-up comes with its end (R461). -/
def execStiffen (r : Req) (s : State) : Host.Outcome State Fault Refusal :=
  s.upd fun d =>
    let d1 := d.command
      { code := 0x0F03, len := lenIs 8, recov := true, objs := fun _ => [.stiffening]
        reserved := fun p => bits (leAt p 0 1) 1 7 == 0 && zeroAt p 1 3 } r fun d =>
      if bit (leAt r.payload 0 1) 0 = false ∧ leAt r.payload 4 4 ≠ 0 then .err d St.badParam
      else .acc d [.stiffening] []
    if (d1.owed 0x0F03).isSome && (d.owed 0x0F03).isNone then d1.requestScan ScanReq.stiff else d1

/-- UNSTIFFEN suspends the comparison (R461); the previous STF_REF is returned. -/
def execUnstiffen (r : Req) (s : State) : Host.Outcome State Fault Refusal :=
  s.upd fun d => d.command { code := 0x0F04, len := lenIs 0, objs := fun _ => [.stiffening] } r fun d =>
    let ref := le 4 (d.rdN Reg.stfRef)
    if d.stiffActive then
      .ok (((d.setFlag Reg.stfCtrl 31 false).setFlag Reg.stfStat 31 false).faultOff 0x04) ref
    else ⟨St.alreadyDone, ref, d, [], [], false⟩

/-! ## Bank swaps (R446) -/

/-- BANK_COMMIT requests swaps of several units with one target in one cycle. -/
def execBankCommit (r : Req) (s : State) : Host.Outcome State Fault Refusal :=
  s.upd fun d => d.command
    { code := 0x0F05, len := lenIs 16, recov := true, reserved := fun p => zeroAt p 4 4
      objs := fun p => (maskList 16 (leAt p 0 4)).map Obj.pipe ++ (if bit (leAt p 0 4) 16 then [.fulConfig] else []) } r fun d =>
    let u := leAt r.payload 0 4
    let t := leAt r.payload 8 8
    let ns := maskList 16 u
    let ful := bit u 16
    if u = 0 ∨ u ≥ 2 ^ 17 ∨ (t ≠ noBatt ∧ t ≥ 2 ^ 48) then .err d St.badParam
    else if (ns.any fun n => d.flag (Reg.fltUrec) n) || (ful && (List.range 8).any fun k => d.flag Reg.fltUrec (16 + k)) then
      .err d St.recovering
    else if ns.any fun n => !d.commitOk n then .err d St.badParam
    else if (ns.any fun n => d.bankBusy n) || (ful && d.fulBusy) then .err d St.retry
    else if (ns != [] && d.targetLate t) || (ful && d.fulLate t) then .err d St.tooLate
    else
      let d1 := ns.foldl (fun (d : Dev) n => d.commitBank n t) d
      .ok (if ful then d1.commitFul t else d1) []

end Sys2Proof.Machine
end

