-- ==== Sys2Proof/Machine/Hood.lean ====
section
/-! DEFINITION. The hood commands, recalls, page seals and verification (spec/11_hoods_and_frame_store.md). -/

namespace Sys2Proof.Machine

open Sys2Proof

/-- The objects of a command on the hoods and on mark m: 16 stands for the hoods. -/
def hoodObjs (m : Nat) : List Obj := [.hood 16, .hood m]

/-! ## The partition (R333) -/

/-- Runs (first, count) of usable pages from `first` on that are not among the withdrawn or taken ones, ascending. -/
def freeRuns (gone : List Nat) (first last : Nat) : List (Nat × Nat) :=
  let cuts := (gone.filter fun p => decide (first ≤ p ∧ p < last)).mergeSort (· ≤ ·) |>.eraseDups
  let r := cuts.foldl (fun (acc : List (Nat × Nat) × Nat) p => (acc.1 ++ [(acc.2, p - acc.2)], p + 1)) ([], first)
  (r.1 ++ [(r.2, last - r.2)]).filter fun x => decide (x.2 > 0)

/-- Take n pages from runs: the runs taken, and those that remain. -/
def takePages : Nat → List (Nat × Nat) → List (Nat × Nat) × List (Nat × Nat)
  | _, [] => ([], [])
  | n, (a, c) :: t =>
    if n = 0 then ([], (a, c) :: t)
    else if n < c then ([(a, n)], (a + n, c - n) :: t)
    else
      let r := takePages (n - c) t
      ((a, c) :: r.1, r.2)

/-- Give areas (KIND, OWNER, pages) their pages, in order. -/
def allotAreas : List (Nat × Nat × Nat) → List (Nat × Nat) → List Area
  | [], _ => []
  | (k, o, n) :: t, runs =>
    let r := takePages n runs
    r.1.map (fun x => ⟨k, o, x.1, x.2⟩) ++ allotAreas t r.2

/-- The areas that a partition asks for, in the order of R333. -/
def wantedAreas (p : Bytes) : List (Nat × Nat × Nat) :=
  (List.range 16).map (fun n => (1, n, leAt p (8 + 2 * n) 2))
  ++ [(2, 0, leAt p 42 2), (3, 0, leAt p 40 2), (4, 0, leAt p 44 2)]

/-- Pages not to be given to an area: withdrawn ones, and those that stand in for a bulk page. -/
def Dev.goneUsable (d : Dev) : List Nat :=
  (d.hood.retired ++ (d.hood.repl.filter fun r => decide (r.1 ≥ usablePages)).map (·.2)).filter fun p => decide (p < usablePages)

/-- NSLOT of pipeline n from the banks in force, for the follow-up of HOOD_CONFIG. -/
def Dev.nslotNow (d : Dev) (n : Nat) : Nat :=
  d.fld (Reg.hoodCfg n) 0 15 * pageSize / max (d.rowBytes (d.liveView 0) n) (d.rowBytes (d.liveView 1) n)

/-- Pages of the areas that have not been initialised since power-up (R332). -/
def Dev.uninitialised (d : Dev) : Nat :=
  sumN (d.hood.areas.map fun a => ((List.range a.count).filter fun i => !d.hood.isValid (a.first + i)).length)

/-- Repartition (R332, R333, R355): pipelines whose pages change lose what their hoods held, and then every live mark is
void. -/
def Dev.repartition (d : Dev) (p : Bytes) : Dev :=
  let old := d.hood.areas
  let bulk := old.filter fun a => a.kind == 5
  let new := allotAreas (wantedAreas p) (freeRuns d.goneUsable 0 usablePages)
  let moved := (List.range 16).filter fun n =>
    old.filter (fun a => a.kind == 1 && a.owner == n) != new.filter fun a => a.kind == 1 && a.owner == n
  let gone := (d.hood.slots.filter fun s => moved.contains s.pipe).map fun s => (s.pipe, s.batt)
  let d1 := gone.eraseDups.foldl (fun d x => d.loseBatt x.1 x.2) d
  let d2 := d1.modHood fun h => { h with
    areas := new ++ bulk, repl := h.repl.filter fun r => decide (r.1 ≥ usablePages)
    slots := h.slots.filter fun s => !moved.contains s.pipe
    laps := h.laps.filter fun l => !moved.contains l.pipe
    sealed := h.sealed.filter fun p => (h.areaOf p).any fun a => a.1.kind == 1 && !moved.contains a.1.owner }
  let d3 := (List.range 16).foldl (fun d n => d.wrN (Reg.hoodCfg n)
    (b2n (bit (leAt p 2 2) n) * 2 ^ 31 + b2n (bit (leAt p 4 2) n) * 2 ^ 30 + leAt p (8 + 2 * n) 2)) d2
  let d4 := ((d3.wrN Reg.hoodPool (leAt p 42 2 * 2 ^ 16 + leAt p 40 2)).wrN Reg.hoodAtt (leAt p 44 2)).showFree
  let d5 := moved.foldl (fun d n => (d.showOldest n).checkHold n) d4
  let d6 := if moved = [] then d5
    else (List.range 16).foldl (fun d m => if d.markState m = 1 then d.voidMark m 0xFF none else d) d5
  (d6.setFlag Reg.fsStat 30 true).setFld Reg.fsStat 0 15 d6.uninitialised

/-- The present partition in the layout of HOOD_CONFIG. -/
def Dev.partition (d : Dev) : Bytes :=
  let mask := fun (i : Nat) => listMask ((List.range 16).filter fun n => d.flag (Reg.hoodCfg n) i)
  zeros 2 ++ le 2 (mask 31) ++ le 2 (mask 30) ++ zeros 2
  ++ (List.range 16).flatMap (fun n => le 2 (d.fld (Reg.hoodCfg n) 0 15))
  ++ le 2 (d.fld Reg.hoodPool 0 15) ++ le 2 (d.fld Reg.hoodPool 16 15) ++ le 2 (d.fld Reg.hoodAtt 0 9) ++ zeros 2

/-- Output staging or the attachment reserve holds a batt that is not RELEASED. -/
def Dev.stagingInUse (d : Dev) : Bool :=
  d.ful.batts.any fun b => b.staged != 0 || b.owed != [] || (b.recalled.isSome && b.state != .released && b.state != .failed)

/-- HOOD_CONFIG partitions the frame store, or sets the policies alone (R333, R347). -/
def execHoodConfig (r : Req) (s : State) : Host.Outcome State Fault Refusal :=
  s.upd fun d => d.command
    { code := 0x0A01, len := lenIs 48, recov := true, objs := fun _ => [.hood 16],
      reserved := fun p => decide (leAt p 0 1 < 2) && zeroAt p 1 1 && zeroAt p 6 2 && zeroAt p 46 2 } r fun d =>
    let p := r.payload
    if leAt p 0 1 = 1 then
      let now := slice d.partition 2 2
      if !zeroAt p 4 42 then .err d St.badParam
      else if slice p 2 2 = now then ⟨St.alreadyDone, [], d, [], [], false⟩
      else Result.stiff d (.ok ((List.range 16).foldl (fun d n => d.setFlag (Reg.hoodCfg n) 31 (bit (leAt p 2 2) n)) d) [])
    else
      let sum := sumN ((wantedAreas p).map (·.2.2))
      if ((List.range 16).any fun n => decide (leAt p (8 + 2 * n) 2 > 24544)) = true ∨ leAt p 40 2 < 256 ∨ leAt p 40 2 > 24544
          ∨ leAt p 42 2 > 4096 ∨ leAt p 44 2 < 1 ∨ leAt p 44 2 > 256 then .err d St.badParam
      else if d.lineStarted || d.stagingInUse then .err d St.badState
      else if sum > usablePages - d.goneUsable.eraseDups.length then .err d St.noResource
      else if p = d.partition then ⟨St.alreadyDone, [], d, [], [], false⟩
      else
        let d1 := d.repartition p
        -- a snapshot's capture is released (R535)
        Result.stiff d (.acc { d1 with cnf := { d1.cnf with capture := none } } [.hood 16] [])

/-- Initialisation of newly allocated pages ends (R332): they are VALID from now on; HOOD_CONFIG gives its follow-up. -/
def execPageInitDone (s : State) : Host.Outcome State Fault Refusal :=
  s.upd fun d =>
    let d1 := d.modHood fun h => { h with valid := (h.valid ++ h.areas.map fun a => (a.first, a.count)).eraseDups }
    let d2 := (d1.setFlag Reg.fsStat 30 false).setFld Reg.fsStat 0 15 0
    d2.finish (d2.owed 0x0A01) St.ok (le 2 (d2.fld Reg.hoodFree 0 15) ++ zeros 2
      ++ (List.range 16).flatMap fun n => le 4 (d2.nslotNow n))

/-! ## Marks (R345 to R349) -/

/-- MARK_SET makes a free mark live over a range of batts (R345). -/
def execMarkSet (r : Req) (s : State) : Host.Outcome State Fault Refusal :=
  s.upd fun d => d.command
    { code := 0x0A02, len := lenIs 24, recov := true, objs := fun p => hoodObjs (leAt p 0 1),
      reserved := fun p => decide (leAt p 1 1 < 2) && zeroAt p 2 6 && bits (leAt p 8 8) 48 16 == 0
        && bits (leAt p 16 8) 48 16 == 0 } r fun d =>
    let p := r.payload
    let m := leAt p 0 1
    let first := leAt p 8 8
    let last := leAt p 16 8
    if m > 15 ∨ last < first ∨ last ≥ first + 4096 then .err d St.badParam
    else if d.markState m ≠ 0 then .err d St.badState
    else if d.lostBatt first then .err d St.tooLate
    else .ok (((d.wrN (Reg.markStat m) (2 ^ 30 + leAt p 1 1 * 2 ^ 29)).wr64 (Reg.markFirst m) first).wr64 (Reg.markLast m) last) []

/-- A page holds a row of a batt of a live mark that carries SEAL (R353). -/
def Dev.sealable (d : Dev) (p : Nat) : Bool :=
  d.hood.slots.any fun s => s.pages.contains p
    && (List.range 16).any fun m => d.markHas m s.batt && d.flag (Reg.markStat m) 29

/-- A page holds a row of a batt of mark m, live or void, that carries SEAL (R353). -/
def Dev.sealedBy (d : Dev) (m p : Nat) : Bool :=
  d.markState m != 0 && d.flag (Reg.markStat m) 29
    && d.hood.slots.any fun s => s.pages.contains p && decide (d.markFirst m ≤ s.batt ∧ s.batt ≤ d.markLast m)

/-- MARK_RELEASE frees a mark and its sealed pages, those that another mark has sealed aside (R349). -/
def execMarkRelease (r : Req) (s : State) : Host.Outcome State Fault Refusal :=
  s.upd fun d => d.command
    { code := 0x0A04, len := lenIs 4, recov := true, objs := fun p => hoodObjs (leAt p 0 1), reserved := fun p => zeroAt p 1 3 } r
    fun d =>
    let m := leAt r.payload 0 1
    if m > 15 then .err d St.badParam
    else if d.markState m = 0 then ⟨St.alreadyDone, [], d, [], [], false⟩
    else
      let d1 := d.wrN (Reg.markStat m) 0
      let d2 := d1.modHood fun h => { h with
        sealed := h.sealed.filter fun p => !d.sealedBy m p || (List.range 16).any fun k => d1.sealedBy k p }
      .ok ((List.range 16).foldl (fun d n => d.checkHold n) d2) []

/-- HOOD_STATUS reports the partition, the hoods and the marks. -/
def execHoodStatus (r : Req) (s : State) : Host.Outcome State Fault Refusal :=
  s.upd fun d => d.command { code := 0x0A05, len := lenIs 0, objs := fun _ => [.hood 16] } r fun d =>
    let old := fun (n : Nat) => let o := d.rd64 (Reg.hoodOldest n) % 2 ^ 48; if o = 2 ^ 48 - 1 then noBatt else o
    .ok d (le 2 (d.fld Reg.hoodFree 0 15) ++ le 2 (d.fld Reg.hoodFree 16 15) ++ le 4 (d.rdN Reg.hoodStgUsed)
      ++ le 2 (d.fld Reg.hoodHeld 0 16) ++ zeros 6
      ++ (List.range 16).flatMap (fun n => le 8 (old n) ++ le 4 (d.nslot n) ++ le 4 (d.rowb n))
      ++ (List.range 16).flatMap fun m =>
          le 1 (d.markState m) ++ le 1 (d.fld (Reg.markStat m) 29 1 + 2 * d.fld (Reg.markStat m) 28 1) ++ zeros 6
          ++ le 8 (d.markFirst m) ++ le 8 (d.markLast m))

/-! ## Recall (R44, R324, R350 to R352) -/

/-- The recall batt of a live batt: its card data, crop window, map, edge record and statistics as the live batt left them,
its tile set and flags at the named rung with every remote source absent (R44, R324, R350, R351). -/
def Dev.recallBatt (d : Dev) (id rung : Nat) (verify : Bool) (b : Batt) : Batt :=
  let v := d.fulSnapshot d.fulActive
  let x : Batt := { b with
    state := .closed, seamExpired := false, decision := none, slice := none, data := [], index := [], deferred := []
    staged := 0, notHooded := false, capped := 0, again := false, owed := [], described := false
    expired := false, cause := 0, recalled := some (id, rung, verify) }
  let flags := (outTiles (2 ^ b.grid.hlog) b.cropFirst b.cropLast).map fun t => d.tileFlags x (d.sourceOf x v []) [] t
  let size := v.sizeAt flags rung
  let dec : Decision := ⟨rung, flags, false, false, false, false, size + attachSize x flags.length, size, d.spos, d.timeNs, v, []⟩
  { x with decision := some dec }

/-- RECALL creates recall batts for a range of a live mark on a recall stream (R350). -/
def execRecallBatts (r : Req) (s : State) : Host.Outcome State Fault Refusal :=
  s.upd fun d => d.command
    { code := 0x0A03, len := lenIs 24, recov := true, objs := fun p => hoodObjs (leAt p 0 1),
      reserved := fun p => decide (leAt p 4 1 < 2) && zeroAt p 5 3 && bits (leAt p 8 8) 48 16 == 0
        && bits (leAt p 16 8) 48 16 == 0 } r fun d =>
    let p := r.payload
    let m := leAt p 0 1
    let rung := leAt p 1 1
    let st := leAt p 2 2
    let first := leAt p 8 8
    let last := leAt p 16 8
    let range := (List.range (last + 1 - first)).map (first + ·)
    if m > 15 ∨ rung ≥ d.nrungs ∨ st > 7 ∨ last < first then .err d St.badParam
    else if d.started st = false ∨ d.isRecall st = false then .err d St.badParam
    else if d.markState m = 0 then .err d St.badState
    else if first < d.markFirst m ∨ last > d.markLast m then .err d St.badParam
    else if d.markState m = 2 then .err d St.markLost
    else if range.any fun b => !(d.liveBatt b).any (·.described) then .err d St.badState
    else if d.ful.recalls.length ≥ 2 then .err d St.noResource
    else
      let id := d.ful.nextRecall
      let bs := range.filterMap fun b => (d.liveBatt b).map (d.recallBatt id rung (leAt p 4 1 == 1))
      let run : RecallRun := ⟨id, m, st, rung, leAt p 4 1 == 1, range, 0, 0, 0⟩
      let nb := bs.map fun (b : Batt) => { b with owed := [st] }
      let d1 := { d with ful := { d.ful with
        batts := d.ful.batts ++ nb
        recalls := d.ful.recalls ++ [run], nextRecall := id + 1 } }
      let d2 := bs.foldl (fun d b => d.enterStream st b.key) d1
      .acc (d2.setFlag (Reg.markStat m) 28 true) [.hood m] [id]

/-- Deep-space address of the seal of page p (R353). -/
def sealSlot (p : Nat) : Nat := 0x18020000 + 4 * p

/-- The seal of a page: its bytes under its frame store address as fold word (R115, R353). One whose bytes no rule fixes has a
seal that is free, and that stays the page's while it is not written (notes/assumptions/136.md). -/
def Dev.pageSeal (d : Dev) (p : Nat) : Word × Dev :=
  match d.storeBytes (p * pageSize) pageSize with
  | some b => (sealOf (p * pageSize) b, d)
  | none => let (v, d) := d.fresh 32; (BitVec.ofNat 32 v, d)

/-- Pages that hold rows of a batt. -/
def Dev.battPages (d : Dev) (b : Batt) : List Nat :=
  ((d.hood.slots.filter fun s => s.batt == b.num && b.heads.contains s.pipe).flatMap (·.pages)).eraseDups

/-- The verification of a recall batt's pages (R354): the device after, whether every sealed page is intact, and the pages
without a seal. -/
def Dev.verify (d : Dev) (b : Batt) (bad : List Nat) : Dev × Bool × Nat :=
  let ps := d.battPages b
  let sealed := ps.filter d.hood.sealed.contains
  let unread := sealed.filter fun p => bad.any fun a => a / pageSize == p
  let wrong := sealed.filter fun p => !unread.contains p && (d.storeBytes (p * pageSize) pageSize).any fun b => sealOf (p * pageSize) b != d.deepRd (sealSlot p)
  let d1 := wrong.foldl (fun d p => d.scanError p 0 (some b.num)) d
  (unread.foldl (fun d p => d.scanError p 1 (some b.num)) d1, wrong.isEmpty && unread.isEmpty, ps.length - sealed.length)

/-- Change the RECALL of a number. -/
def Dev.modRecall (d : Dev) (id : Nat) (f : RecallRun → RecallRun) : Dev :=
  { d with ful := { d.ful with recalls := d.ful.recalls.map fun r => if r.id = id then f r else r } }

/-- The next recall batt of a RECALL begins fulling (R324, R350, R352, R354). `corrected` and `bad` are what its reading of
the frame store met. -/
def execRecallBattStart (run : Fin 2) (corrected bad : List Nat) (s : State) : Host.Outcome State Fault Refusal :=
  s.upd fun d =>
    match d.ful.recalls[run.val]? with
    | none => d
    | some r =>
      let live := fun (b : Batt) => (d.str r.stream).batts.any fun p => p.batt == b.key && p.fail == 0
      match d.ful.batts.find? fun b => b.recalled.any (·.1 == r.id) && b.state == .closed && b.slice.isNone && live b, d.idleSlice with
      | some b, some k =>
        let need := if b.staged = 0 then b.decision.elim 0 (·.need) else 0
        if d.devRec || d.safe || decide (need > d.stagingFree) then d
        else
          let d0 := d.modRecall r.id fun x => { x with todo := x.todo.erase b.num }
          if d0.markState r.mark ≠ 1 ∨ d0.notHooded b = true then d0.failBatt b.key 1
          else
            let d1 := d0.fsErrors corrected bad
            let ver := if r.verify then d1.verify b bad else (d1, true, 0)
            let d2 := ver.1.modRecall r.id fun x => { x with unverified := x.unverified + ver.2.2 }
            if bad ≠ [] ∨ ver.2.1 = false then d2.failBatt b.key 1
            else ((d2.modKey b.key fun x => { x with staged := b.decision.elim 0 (·.need) }).showStaged).fullInto b k
      | _, _ => d

/-- Every recall batt of a RECALL has its descriptor, and the command gives its follow-up (R350). -/
def execRecallDone (run : Fin 2) (s : State) : Host.Outcome State Fault Refusal :=
  s.upd fun d =>
    match d.ful.recalls[run.val]? with
    | none => d
    | some r =>
      if (d.str r.stream).batts.any fun p => p.batt.2 == some r.id then d
      else
        let st := if d.markState r.mark ≠ 1 then St.markLost else if r.failed ≠ 0 then St.partialDone else St.ok
        let d1 := ({ d with ful := { d.ful with recalls := d.ful.recalls.erase r } } : Dev).setFlag (Reg.markStat r.mark) 28 false
        d1.finish (d1.owedArgs 0x0A03 fun a => a == [r.id]) st
          (le 4 r.count ++ le 4 r.failed ++ le 4 r.unverified ++ zeros 4)

/-! ## Page seals (R353) -/

/-- A page is settled: the write pointer of its hood has passed its last byte, and every batt with a row on it is FULLED. -/
def Dev.settled (d : Dev) (p : Nat) : Bool :=
  (d.hood.laps.any fun l => l.phys == some p && d.lapPassed l)
    && (d.hood.slots.filter fun s => s.pages.contains p).all fun s => !d.unfulled s.batt

/-- A settled page that holds a row of a sealed live mark is sealed by the scan engine, once that is idle (R119, R353). -/
def execPageSeal (page : Fin 24544) (corrected bad : List Nat) (s : State) : Host.Outcome State Fault Refusal :=
  s.upd fun d =>
    let p := page.val
    if d.settled p && d.sealable p && !d.hood.sealed.contains p && d.scan.running.isNone && d.scan.waiting.isEmpty then
      let d1 := d.fsErrors corrected bad
      if bad ≠ [] then d1.scanError p 1 none
      else
        let (w, d1) := d1.pageSeal p
        ((d1.wr (Reg.sealRun 6) (w ^^^ 0xFFFFFFFF#32)).deepWr (sealSlot p) w).modHood fun h => { h with sealed := h.sealed ++ [p] }
    else d

end Sys2Proof.Machine
end

