-- ==== Sys2Proof/Machine/Placement.lean ====
section
/-! DEFINITION. The placement commands (spec/12_placement.md): the uplink, queue pairs, regions, rings, buffers, streams. -/

namespace Sys2Proof.Machine

open Sys2Proof

/-! ## The uplink (R356, R544) -/

/-- RATE_NOM of one port: MODE and SPLIT (R356). -/
def rateNomOf (direct split : Nat) : Nat := if direct = 1 then 103897 else [98125, 49062, 24531, 12265].getD split 0

/-- Lanes of port p of an uplink with n ports. -/
def portLanes (n p : Nat) : List Nat := (List.range (8 / n)).map (p * (8 / n) + ·)

/-- Power domains of the lanes of the enabled ports. -/
def uplDomains (n en : Nat) : List Nat := (maskList n en).flatMap fun p => (portLanes n p).map (104 + ·)

/-- The settings of UPLINK_CONFIG are refused (R356). -/
def Dev.uplinkBad (d : Dev) (p : Bytes) : Bool :=
  let n := 2 ^ leAt p 1 1
  decide (leAt p 0 1 > 1 ∨ leAt p 1 1 > 3) || (leAt p 0 1 == 1 && leAt p 1 1 != 0)
  || decide (leAt p 2 1 ≥ 2 ^ n) || decide (leAt p 12 1 ≥ n) || (!bit (leAt p 3 1) 0 && !zeroAt p 20 12)
  || (List.range 64).any fun q => d.qpState q != 0 && !bit (leAt p 2 1) (d.qpPort q)

/-- UPLINK_CONFIG takes effect (R356): the configuration, RATE_NOM as the sum over the enabled ports, the management address;
links are to come up. -/
def Dev.setUplink (d : Dev) (p : Bytes) : Dev :=
  let f := leAt p 3 1
  let cfg := leAt p 0 1 * 2 ^ 31 + leAt p 1 1 * 2 ^ 28 + leAt p 2 1 * 2 ^ 16 + bits f 2 1 * 4 + bits f 1 1 * 2 + bits f 0 1
  let rate := (maskList 8 (leAt p 2 1)).length * rateNomOf (leAt p 0 1) (leAt p 1 1)
  (((d.wrN Reg.umacCfg cfg).wrN Reg.umacStat 0).setFld Reg.rateNom 0 17 rate).modPlc fun x => { x with
    mgmtPort := leAt p 12 1, mgmtMac := leAt p 6 6, mgmtVlan := leAt p 4 2, mgmtIp := slice p 16 16, paused := [] }

/-- UPLINK_CONFIG: the lanes of ports no longer enabled go off and those of enabled ports on, with PD_UMAC; the command
answers when its last domain has switched (R544, R545). -/
def execUplinkConfig (r : Req) (s : State) : Host.Outcome State Fault Refusal :=
  s.upd fun d => d.commandOr
    { code := 0x0B01, len := lenIs 40, recov := true, objs := fun _ => [.uplink],
      reserved := fun p => decide (leAt p 3 1 < 8) && bits (leAt p 4 2) 12 1 == 0 && zeroAt p 13 3 && zeroAt p 32 8 } r fun d =>
    let p := r.payload
    if d.uplinkBad p then .inl (.err d St.badParam)
    else if d.anyStream then .inl (.err d St.badState)
    else if d.stiffActive then .inl (.err d St.stiffened)
    else
      let on := uplDomains (2 ^ leAt p 1 1) (leAt p 2 1) ++ (if leAt p 2 1 = 0 then [] else [135])
      let off := ((List.range 8).map (104 + ·) ++ [135]).filter fun j => !on.contains j
      let d1 := d.setUplink p
      let last := match d1.lastSwitch true on with
        | some x => some x
        | none => d1.lastSwitch false off
      match last with
      | some sw => .inr ⟨(d1.requestDomains false off).requestDomains true on, [.uplink], [], some sw⟩
      | none => .inl (.acc d1 [.uplink] [])

/-! ## Queue pairs (R364) -/

/-- Queue pair q is bound to a started stream. -/
def Dev.qpServes (d : Dev) (q : Nat) : Bool :=
  (List.range 8).any fun s => d.started s && (d.curQp s == q || (d.flag (Reg.strCfg s) 23 && d.fld (Reg.strCfg s) 16 6 == q))

/-- The fields of QP_CREATE are refused. -/
def Dev.qpBad (d : Dev) (p : Bytes) : Bool :=
  let port := leAt p 1 1
  let rate := leAt p 56 4
  decide (leAt p 0 1 > 63 ∨ port > 7 ∨ leAt p 2 1 > 3 ∨ leAt p 12 1 < 1 ∨ leAt p 12 1 > 20 ∨ leAt p 13 1 > 7 ∨ leAt p 14 1 > 6
    ∨ leAt p 15 1 > 63 ∨ leAt p 4 4 ≥ 2 ^ 24)
  || !bit (d.fld Reg.umacCfg 16 8) port || decide (rate < 100)
  || decide (rate > rateNomOf (d.fld Reg.umacCfg 31 1) (d.fld Reg.umacCfg 28 2))

/-- QP_CREATE makes a queue pair READY with a new starting PSN (R362, R364). -/
def execQpCreate (r : Req) (s : State) : Host.Outcome State Fault Refusal :=
  s.upd fun d => d.command
    { code := 0x0B02, len := lenIs 64, recov := true, objs := fun p => [.qp (leAt p 0 1)],
      reserved := fun p => decide (leAt p 3 1 < 4) && zeroAt p 11 1 && bits (leAt p 22 2) 12 1 == 0 && zeroAt p 60 4 } r fun d =>
    let p := r.payload
    let q := leAt p 0 1
    let f := leAt p 3 1
    if d.qpBad p then .err d St.badParam
    else if d.qpState q = 1 then .err d St.badState
    else if d.stiffActive then .err d St.stiffened
    else
      let d1 := ((d.wrN (Reg.qpCfg q) (leAt p 1 1 * 2 ^ 29 + leAt p 2 1 * 2 ^ 27 + bits f 0 1 * 2 ^ 26 + leAt p 4 4)).wrN
        (Reg.qpRmax q) (leAt p 56 4)).wrN (Reg.qpRate q) (leAt p 56 4)
      let d2 := d1.wrN (Reg.qpStat q) (2 ^ 30 + leAt p 8 3)
      let d3 := d2.modQp q fun _ => {
        timeout := leAt p 12 1, retry := leAt p 13 1, rnrRetry := leAt p 14 1, dscp := leAt p 15 1
        vlan := if bit f 1 then some (leAt p 22 2) else none
        destMac := leAt p 16 6, destIp := slice p 24 16, srcIp := slice p 40 16
        tokens := 8192 * 300, tokensAt := d.now, una := leAt p 8 3, held := d2.qpInRec q }
      let d4 := if d2.qpInRec q then d3.showQps else d3
      .ok d4.takeStandbys (le 4 (0x100 + q))

/-- QP_DESTROY makes a queue pair FREE (R364). -/
def execQpDestroy (r : Req) (s : State) : Host.Outcome State Fault Refusal :=
  s.upd fun d => d.command
    { code := 0x0B03, len := lenIs 4, recov := true, objs := fun p => [.qp (leAt p 0 1)], reserved := fun p => zeroAt p 1 3 } r
    fun d =>
    let q := leAt r.payload 0 1
    if q > 63 then .err d St.badParam
    else if d.qpState q = 0 then ⟨St.alreadyDone, [], d, [], [], false⟩
    else if d.qpServes q || d.plc.regions.any (fun g => g.live && g.qp == q) then .err d St.badState
    else if d.stiffActive then .err d St.stiffened
    else
      let d1 := ((d.wrN (Reg.qpStat q) 0).wrN (Reg.qpCfg q) 0).modQp q fun _ => {}
      .ok (if d.qpInRec q then d1.showQps else d1) []

/-! ## Regions (R365, R387, R388) -/

/-- REGION_ADD enters a region and returns its handle. -/
def execRegionAdd (r : Req) (s : State) : Host.Outcome State Fault Refusal :=
  s.upd fun d => d.command
    { code := 0x0B04, len := lenIs 24, recov := true, objs := fun p => [.qp (leAt p 0 1)],
      reserved := fun p => decide (leAt p 1 1 < 4) && zeroAt p 2 2 } r fun d =>
    let p := r.payload
    let q := leAt p 0 1
    let va := leAt p 8 8
    let len := leAt p 16 8
    if q > 63 ∨ leAt p 1 1 = 0 ∨ va % 4096 ≠ 0 ∨ len < 4096 ∨ len > 2 ^ 48 ∨ len % 4096 ≠ 0 then .err d St.badParam
    else if d.qpState q ≠ 1 then .err d St.badParam
    else match (List.range 1024).find? fun i => !(d.plc.regions.getD i {}).live with
      | none => .err d St.noResource
      | some i =>
        let old := d.plc.regions.getD i {}
        let gen := if old.len = 0 then old.gen else (old.gen + 1) % 65536
        .ok (d.modPlc fun x => { x with regions := modAt x.regions i fun _ => ⟨gen, true, q, leAt p 1 1, leAt p 4 4, va, len⟩ })
          (le 4 (gen * 65536 + i))

/-- BUFFERS_LOW (R366): FREE falls to BUF_LOW. -/
def Dev.lowCheck (d : Dev) (s before : Nat) : Dev :=
  match (d.str s).bind with
  | some b =>
    let n := (d.str s).bufs.length
    if before > b.bufLow ∧ n ≤ b.bufLow then d.event 0x8B03 none (le 1 s ++ zeros 3 ++ le 4 n) else d
  | none => d

/-- A bound ring of a started stream lies in the region (R388). -/
def Dev.ringRegion (d : Dev) (h : Nat) : Bool :=
  (List.range 8).any fun s => d.started s && (d.str s).bind.any fun b => b.descRegion == h || b.cmpRegion == h

/-- Nothing is outstanding to a region any more (R387): every issue to it has its record, no packet to it is
unacknowledged. -/
def Dev.fenceDone (d : Dev) (h : Nat) : Bool :=
  !(d.plc.streams.any fun t => t.issues.any fun i => i.region == h)
  && !(d.plc.qps.any fun q => q.sq.any fun w => w.region == h)

/-- The request of an issue has not begun to leave. -/
def Dev.unsent (d : Dev) (s : Nat) (i : Issue) : Bool :=
  (d.qp i.qp).sq.any fun w => w.kind == .parcel s i.pid && w.psn.isNone

/-- The buffers of region h leave the ring of stream s; its issues to h not yet begun are withdrawn: how many of each. -/
def Dev.revokeStream (d : Dev) (s h : Nat) : Dev × Nat × Nat :=
  let t := d.str s
  let n := t.bufs.length
  let d1 := (d.modStr s fun t => { t with bufs := t.bufs.filter fun b => b.region != h }).showPlc s
  let removed := n - (d1.str s).bufs.length
  let out := t.issues.filter fun i => i.region == h && d.unsent s i
  ((d1.failIssues s 1 fun i => i.region == h && d.unsent s i).lowCheck s n, removed, out.length)

/-- Requests to region h that carry no parcel and of which nothing has left are withdrawn, with the items they write: after the
final outcome nothing is sent to the region (R387, notes/assumptions/121.md). -/
def Dev.withdraw (d : Dev) (h : Nat) : Dev :=
  let gone := fun (w : Wqe) => w.region == h && w.psn.isNone && (match w.kind with
    | .parcel _ _ => false
    | _ => true)
  d.modPlc fun p => { p with
    streams := p.streams.mapIdx fun s t =>
      { t with cmp := t.cmp.filter fun c => !(p.qps.any fun q => q.sq.any fun w => gone w &&
          w.kind == .item s (c.place.getD 0) c.issue.isNone && c.posted) }
    qps := p.qps.map fun q => { q with sq := q.sq.filter fun w => !gone w } }

/-- REGION_REVOKE (R387): its effect at once, its final outcome when the fence is complete. -/
def execRegionRevoke (r : Req) (s : State) : Host.Outcome State Fault Refusal :=
  s.upd fun d => d.commandOr
    { code := 0x0B05, len := lenIs 4, recov := true, objs := fun p => [.region (leAt p 0 4)] } r fun d =>
    let h := leAt r.payload 0 4
    if d.regionLive h = false then .inl (.err d St.regionRevoked)
    else if d.ringRegion h then .inl (.err d St.badState)
    else
      let d1 := d.modPlc fun x => { x with regions := modAt x.regions (h % 65536) fun g => { g with live := false } }
      let res := (List.range 8).foldl (fun (acc : Dev × Nat × Nat) s =>
        let z := acc.1.revokeStream s h
        (z.1, acc.2.1 + z.2.1, acc.2.2 + z.2.2)) (d1.withdraw h, 0, 0)
      if res.1.fenceDone h then .inl (.ok res.1 (le 4 res.2.1 ++ le 4 res.2.2))
      else .inr ⟨res.1.modPlc fun x => { x with fences := x.fences ++ [⟨h, res.2.1, res.2.2⟩] }, [.region h], [h, d.now], none⟩

/-! ## Rings and buffers (R366, R372) -/

/-- Powers of two from a to b. -/
def pow2In (n a b : Nat) : Bool := decide (a ≤ n ∧ n ≤ b) && (List.range 17).any fun k => n == 2 ^ k

/-- Two ranges overlap. -/
def overlaps (a n b m : Nat) : Bool := decide (a < b + m ∧ b < a + n)

/-- The fields of RING_BIND are refused. -/
def Dev.ringBad (d : Dev) (p : Bytes) : Bool :=
  let st := leAt p 0 1
  let send := bit (leAt p 1 1) 1
  let slots := leAt p 2 2
  let psize := leAt p 4 4
  let dr := leAt p 8 4
  let dn := leAt p 12 4
  let doff := leAt p 16 8
  let cr := leAt p 24 4
  let cn := leAt p 28 4
  let coff := leAt p 32 8
  let cons := leAt p 40 4
  let others := sumN ((List.range 8).map fun s => if s = st then 0 else (d.str s).bind.elim 0 (·.bufSlots))
  decide (st > 7) || !pow2In slots 16 8192 || decide (psize < 4096 ∨ psize > 65536 ∨ psize % 4096 ≠ 0)
  || (if send then dr != 0xFFFFFFFF || dn != 0 else !pow2In dn 16 65536) || decide (doff % 128 ≠ 0)
  || !pow2In cn 16 65536 || decide (coff % 32 ≠ 0) || decide (cons % 8 ≠ 0) || decide (leAt p 44 4 > slots)
  || decide (others + slots > 16384) || overlaps cons 8 coff (32 * cn)
  || (!send && dr == cr && (overlaps doff (128 * dn) coff (32 * cn) || overlaps cons 8 doff (128 * dn)))

/-- The rings of RING_BIND do not lie within their regions. -/
def Dev.ringOutside (d : Dev) (p : Bytes) : Bool :=
  let send := bit (leAt p 1 1) 1
  decide (leAt p 32 8 + 32 * leAt p 28 4 > d.regionLen (leAt p 24 4) ∨ leAt p 40 4 + 8 > d.regionLen (leAt p 24 4))
  || (!send && decide (leAt p 16 8 + 128 * leAt p 12 4 > d.regionLen (leAt p 8 4)))

/-- RING_BIND binds a stream's rings and parcel size. -/
def execRingBind (r : Req) (s : State) : Host.Outcome State Fault Refusal :=
  s.upd fun d => d.command
    { code := 0x0B06, len := lenIs 48, recov := true,
      objs := fun p => .stream (leAt p 0 1) :: .region (leAt p 24 4) :: if bit (leAt p 1 1) 1 then [] else [.region (leAt p 8 4)],
      reserved := fun p => decide (leAt p 1 1 < 4) } r fun d =>
    let p := r.payload
    let st := leAt p 0 1
    if d.ringBad p then .err d St.badParam
    else if d.regionLive (leAt p 24 4) = false ∨ (bit (leAt p 1 1) 1 = false ∧ d.regionLive (leAt p 8 4) = false) then
      .err d St.regionRevoked
    else if d.ringOutside p then .err d St.badParam
    else if d.started st then .err d St.badState
    else if d.stiffActive then .err d St.stiffened
    else
      let b : Binding := { bufSlots := leAt p 2 2, descRegion := leAt p 8 4, descSlots := leAt p 12 4, descOff := leAt p 16 8,
                           cmpRegion := leAt p 24 4, cmpSlots := leAt p 28 4, cmpOff := leAt p 32 8, consOff := leAt p 40 4,
                           bufLow := leAt p 44 4 }
      let d1 := d.modStr st fun t => { t with bind := some b, bufs := [] }
      .ok ((((d1.setFld (Reg.strCfg st) 4 4 (leAt p 4 4 / 4096 - 1)).setFlag (Reg.strCfg st) 8 (bit (leAt p 1 1) 0)).setFlag
        (Reg.strCfg st) 9 (bit (leAt p 1 1) 1)).showPlc st) []

/-- Entry e of BUFFERS_POST is out of range. -/
def Dev.bufBad (d : Dev) (p : Bytes) (e : Nat) : Bool :=
  let len := leAt p (12 + 16 * e) 4
  let off := leAt p (16 + 16 * e) 8
  decide (len < 4096 ∨ len > 0xFFFF0000 ∨ len % 4096 ≠ 0 ∨ off % 4096 ≠ 0)
  || (match d.region? (leAt p (8 + 16 * e) 4) with
      | some g => decide (off + len > g.len) || !bit g.access 0
      | none => false)

/-- BUFFERS_POST posts buffers to a stream's ring (R366); it executes in a device recovery (R74). -/
def execBuffersPost (r : Req) (s : State) : Host.Outcome State Fault Refusal :=
  s.upd fun d => d.command
    { code := 0x0B07, len := fun p => decide (p.length ≥ 8 ∧ p.length = 8 + 16 * leAt p 2 2),
      objs := fun p => .stream (leAt p 0 1) :: (List.range (leAt p 2 2)).map fun e => .region (leAt p (8 + 16 * e) 4), reserved := fun p => zeroAt p 1 1 && zeroAt p 4 4 } r fun d =>
    let p := r.payload
    let st := leAt p 0 1
    let n := leAt p 2 2
    if st > 7 ∨ n < 1 ∨ n > 254 ∨ ((List.range n).any (d.bufBad p)) = true then .err d St.badParam
    else match (d.str st).bind with
      | none => .err d St.badState
      | some b =>
        if (List.range n).any fun e => !d.regionLive (leAt p (8 + 16 * e) 4) then .err d St.regionRevoked
        else
          let have_ := (d.str st).bufs.length
          if have_ + n > b.bufSlots then .err d St.noResource
          else
            let seq := (d.str st).nextSeq
            let new := (List.range n).map fun e =>
              (⟨(seq + e) % 2 ^ 32, leAt p (8 + 16 * e) 4, leAt p (12 + 16 * e) 4, leAt p (16 + 16 * e) 8⟩ : Buf)
            .ok ((d.modStr st fun t => { t with bufs := t.bufs ++ new, nextSeq := (seq + n) % 2 ^ 32 }).showPlc st)
              (le 4 seq ++ le 4 (b.bufSlots - have_ - n))

/-! ## Aborts (R389) -/

/-- Abort one parcel: its status (R389). -/
def Dev.abortPid (d : Dev) (st pid : Nat) : Dev × Nat :=
  if (d.str st).issues.any fun i => i.pid == pid then (d.failIssues st 7 fun i => i.pid == pid, St.ok)
  else if (d.str st).ended.contains pid then (d, St.alreadyDone)
  else (d, St.badParam)

/-- PARCEL_ABORT aborts the named parcels. -/
def execParcelAbort (r : Req) (s : State) : Host.Outcome State Fault Refusal :=
  s.upd fun d => d.command
    { code := 0x0B08, len := fun p => decide (p.length ≥ 8 ∧ p.length = 8 + 4 * leAt p 2 2), recov := true,
      objs := fun p => [.stream (leAt p 0 1)], reserved := fun p => zeroAt p 1 1 && zeroAt p 4 4 } r fun d =>
    let p := r.payload
    let st := leAt p 0 1
    let n := leAt p 2 2
    if st > 7 ∨ n < 1 ∨ n > 255 then .err d St.badParam
    else
      let res := (List.range n).foldl (fun (acc : Dev × List Nat) e =>
        let z := acc.1.abortPid st (leAt p (8 + 4 * e) 4)
        (z.1, acc.2 ++ [z.2])) (d, [])
      let status := if res.2.all (· == St.ok) then St.ok else if res.2.all (· == St.alreadyDone) then St.alreadyDone
        else St.partialDone
      ⟨status, res.2.flatMap (le 1) ++ zeros ((4 - n % 4) % 4), res.1, [], [], false⟩

/-! ## Streams (R367, R389) -/

/-- STREAM_START starts a LIVE or RECALL stream on its primary queue pair (R91, R367). -/
def execStreamStart (r : Req) (s : State) : Host.Outcome State Fault Refusal :=
  s.upd fun d => d.command
    { code := 0x0B09, len := lenIs 8, recov := true
      objs := fun p => .stream (leAt p 0 1) :: .qp (leAt p 2 1) :: if leAt p 3 1 = 0xFF then [] else [.qp (leAt p 3 1)]
      reserved := fun p => zeroAt p 4 4 } r fun d =>
    let p := r.payload
    let st := leAt p 0 1
    let kind := leAt p 1 1
    let q := leAt p 2 1
    let sb := leAt p 3 1
    let other := fun (x : Nat) => (List.range 8).any fun s => s != st && d.started s
      && (d.curQp s == x || (d.flag (Reg.strCfg s) 23 && d.fld (Reg.strCfg s) 16 6 == x))
    if st > 7 ∨ kind > 1 ∨ q > 63 ∨ (sb > 63 ∧ sb ≠ 0xFF) ∨ q = sb ∨ other q = true ∨ (sb ≠ 0xFF ∧ other sb = true) then
      .err d St.badParam
    else if (d.str st).bind.isNone ∨ d.qpState q ≠ 1 ∨ d.started st = true ∨ d.fld Reg.plantAddr 0 18 = 0x3FFFF
        ∨ (kind = 0 ∧ ((List.range 8).filter fun s => d.started s && !d.isRecall s).length ≥ 4) then .err d St.badState
    else if d.stiffActive then .err d St.stiffened
    else
      let first := d.undecided
      let old := d.rdN (Reg.strCfg st)
      let cfg := 2 ^ 31 + kind * 2 ^ 30 + q * 2 ^ 24 + (if sb = 0xFF then 0 else 2 ^ 23 + sb * 2 ^ 16) + old % 2 ^ 10
      .ok ((d.wrN (Reg.strCfg st) cfg).modStr st fun t => { t with first := first, stop := none, batts := [] })
        (le 8 (if kind = 1 then noBatt else first))

/-- The highest batt whose decision point has passed; all ones in 48 bits if none. -/
def Dev.lastDecided (d : Dev) : Nat :=
  (maxOf ((d.ful.batts.filter fun b => b.recalled.isNone && b.decision.isSome).map (·.num))).getD (2 ^ 48 - 1)

/-- STREAM_STOP stops a stream, now or after a named batt (R45, R389); its end clears STRs_CFG.STARTED, which is stiffened (R459,
notes/assumptions/137.md). -/
def execStreamStop (r : Req) (s : State) : Host.Outcome State Fault Refusal :=
  s.upd fun d => d.command
    { code := 0x0B0A, len := lenIs 16, recov := true, objs := fun p => [.stream (leAt p 0 1)],
      reserved := fun p => zeroAt p 2 6 && bits (leAt p 8 8) 48 16 == 0 } r fun d =>
    let p := r.payload
    let st := leAt p 0 1
    let when_ := leAt p 1 1
    let last := leAt p 8 8
    if st > 7 ∨ when_ > 1 ∨ (when_ = 0 ∧ last ≠ 0) then .err d St.badParam
    else if d.started st = false then .err d St.badState
    else if when_ = 1 ∧ d.undecided > last + 1 then .err d St.tooLate
    else
      let lim := if when_ = 0 then d.lastDecided else last
      let stopped := (d.str st).batts.filter fun b => when_ == 0 || (d.isRecall st && decide (b.batt.1 > last))
      let d1 := stopped.foldl (fun d b => d.failPlaced st b.batt 2) d
      Result.stiff d (.acc (d1.modStr st fun t => { t with stop := some lim }) [.stream st] [st, lim])

/-- PLACEMENT_STATUS reports a stream's placement state without clearing anything. -/
def execPlacementStatus (r : Req) (s : State) : Host.Outcome State Fault Refusal :=
  s.upd fun d => d.command
    { code := 0x0B0B, len := lenIs 4, objs := fun p => [.stream (leAt p 0 1)], reserved := fun p => zeroAt p 1 3 } r fun d =>
    let st := leAt r.payload 0 1
    if st > 7 then .err d St.badParam
    else
      let sbOn := d.flag (Reg.strCfg st) 23
      let sb := d.fld (Reg.strCfg st) 16 6
      let ready := d.qpState (d.curQp st) == 1 || (sbOn && d.qpState sb == 1)
      let pub := d.rd64 (Reg.strPub st) % 2 ^ 48
      .ok d (le 1 (b2n (d.started st) + 2 * b2n (d.isRecall st) + 4 * b2n (!ready)) ++ le 1 (d.curQp st)
        ++ le 1 (if sbOn then sb else 0xFF) ++ zeros 1 ++ le 4 (d.rdN (Reg.strPid st)) ++ le 4 (d.str st).bufs.length
        ++ le 4 (d.str st).issues.length ++ le 8 (if pub = 2 ^ 48 - 1 then noBatt else pub)
        ++ le 4 d.slotsUsed.length ++ le 4 (d.bytesInFlight / 1024)
        ++ (List.range 7).flatMap (fun c => le 4 (d.rdN (Reg.plcFail c))) ++ zeros 4)

end Sys2Proof.Machine
end

