-- ==== Sys2Proof/Machine/Transport.lean ====
section
/-! DEFINITION. Placement at work (spec/12_placement.md): buffers and parcels, packets, acknowledgements and errors of the
queue pairs, completion records and descriptors, fences, and the frames of the uplink. -/

namespace Sys2Proof.Machine

open Sys2Proof

/-! ## Buffers (R368, R371) -/

/-- The next batt of a stream is given the next posted buffer, or becomes FAILED(BUFFER) (R366, R368, R371). -/
def execBufferAssign (stream : Fin 8) (s : State) : Host.Outcome State Fault Refusal :=
  s.updData fun d =>
    let st := stream.val
    let t := d.str st
    match t.batts.find? fun p => p.buf.isNone && p.fail == 0, t.bufs with
    | some p, b :: rest =>
      match d.battKey p.batt with
      | none => d
      | some x =>
        let l := x.boundLayout
        let d1 := ((d.modStr st fun t => { t with bufs := rest }).modPlaced st p.batt fun p => { p with buf := some b }).showPlc st
        let d2 := if b.len < l.imgLen ∨ (l.parcels (d.parcelSize st)).length > 65535 then d1.failPlaced st p.batt 3 else d1
        d2.lowCheck st t.bufs.length
    | _, _ => d

/-! ## Parcels (R374, R375) -/

/-- What a batt's fulling has formed so far can be cut into parcels. -/
def Batt.formed (b : Batt) : Bool := b.slice.isSome || b.state == .fulled || b.state == .published

/-- The batt of a key on stream s is cut into parcels once it has its buffer and its data are formed (R374). -/
def Dev.cutBatt (d : Dev) (s : Nat) (p : Placed) : Dev :=
  match d.battKey p.batt with
  | some b =>
    if p.cut = false ∧ p.buf.isSome = true ∧ p.fail = 0 ∧ b.formed = true then
      let n := (b.layout.parcels (d.parcelSize s)).length
      d.modPlaced s p.batt fun x => { x with cut := true, total := n, todo := List.range n }
    else d
  | none => d

/-- Parcel k of the image is the last of its section. -/
def Layout.lastOf (l : Layout) (size k : Nat) : Bool :=
  let n := fun (b : Nat) => ceilDiv b size
  k + 1 == n l.dataLen || k + 1 == n l.dataLen + n (16 * l.ntiles) || k + 1 == (l.parcels size).length

/-- Parcel k of a batt may be issued (R374, R375): DATA once formed, INDEX and ATTACH once FULLED, on this stream whether or not
another has published the batt; the last of a section once the tail notice of its FUL hopper has closed it. -/
def Dev.parcelReady (d : Dev) (s : Nat) (p : Placed) (k : Nat) : Bool :=
  match d.battKey p.batt with
  | some b =>
    (b.state == .fulled || b.state == .published
      || (b.slice.isSome && decide (k < ceilDiv b.layout.dataLen (d.parcelSize s))))
    && (b.cutter.isNone || !b.layout.lastOf (d.parcelSize s) k)
  | none => false

/-- The lower of two choices: lowest batt, then lowest index. -/
def lowerParcel (x y : Placed × Nat) : Placed × Nat :=
  if y.1.batt.1 < x.1.batt.1 ∨ (y.1.batt.1 = x.1.batt.1 ∧ y.1.batt = x.1.batt ∧ y.2 < x.2) then y else x

/-- The next parcel of a stream (R375): re-issues first, then the lowest batt, the lowest index. -/
def Dev.nextParcel (d : Dev) (s : Nat) : Option (Placed × Nat) :=
  let l := (d.str s).batts.filter fun p => p.fail == 0 && p.cut
  let pick := fun (f : Placed → List Nat) =>
    match l.filterMap fun p => (minOf ((f p).filter fun k => d.parcelReady s p k)).map fun k => (p, k) with
    | [] => none
    | x :: t => some (t.foldl lowerParcel x)
  match pick (·.re) with
  | some x => some x
  | none => pick (·.todo)

/-- Offset and length in the image of parcel k of a batt on stream s (R374). -/
def Dev.parcelOf (d : Dev) (s : Nat) (p : Placed) (k : Nat) : Nat × Nat :=
  match d.battKey p.batt with
  | some b => (b.layout.parcels (d.parcelSize s)).getD k (0, 0)
  | none => (0, 0)

/-- Placement may issue a parcel of len bytes on stream s: started, its queue pair READY, no recovery, its completion ring not full, the
limits of R46 not reached. -/
def Dev.mayIssue (d : Dev) (s len : Nat) : Bool :=
  d.started s && !d.devRec && !d.safe && d.qpReady (d.curQp s)
  && ((d.str s).bind.any fun b => decide (b.cmpWritten - b.cmpRead < b.cmpSlots))
  && decide (d.slotsUsed.length < 16384) && decide (d.bytesInFlight + len ≤ 0x20000000)

/-- Issue parcel k of a batt on stream s (R375, R376): next PID, lowest free slot, next TRY, one RDMA WRITE. A parcel whose
descriptor was read with poison (`bad`) ends FAILED(POISON) (R103, R109), one whose region has been revoked FAILED(REVOKED)
(R387). -/
def Dev.issueParcel (d : Dev) (s : Nat) (p : Placed) (k : Nat) (bad : List Nat) : Dev :=
  match d.battKey p.batt, p.buf with
  | some b, some f =>
    let pc := d.parcelOf s p k
    let n := ((p.tries.find? fun x => x.1 == k).map (·.2)).getD 0
    let pid := d.rdN (Reg.strPid s)
    let i : Issue := ⟨pid, d.freeSlot, p.batt, k, d.curQp s, f.region, pc.2, n + 1⟩
    let before := d.anyInFlight
    let d1 := (d.modPlaced s p.batt fun x => { x with
      todo := x.todo.erase k, re := x.re.erase k, tries := (k, n + 1) :: x.tries.filter fun y => y.1 != k
      reissued := x.reissued || decide (n > 0) }).wrN (Reg.strPid s) (pid + 1)
    let d2 := ((d1.modStr s fun t => { t with issues := t.issues ++ [i] }).countBusy before).showPlc s
    if bad ≠ [] then (d2.endIssue s i 5 0).poisonRead 67 5 bad
    else if d2.regionLive f.region = false then d2.endIssue s i 1 0
    else d2.post i.qp { kind := .parcel s pid, region := f.region, off := f.off + pc.1, len := pc.2,
                        bytes := imageBytes b pc.1 pc.2, fold := some (parcelFold b.num k) }
  | _, _ => d

/-- A ready parcel of a stream is issued (R375). -/
def execParcelIssue (stream : Fin 8) (hits : Hits) (s : State) : Host.Outcome State Fault Refusal :=
  s.upd fun d0 =>
    let st := stream.val
    let d := (d0.str st).batts.foldl (fun d p => d.cutBatt st p) d0
    match d.nextParcel st with
    | none => d
    | some x => if d.mayIssue st (d.parcelOf st x.1 x.2).2 then (d.hopRead 67).issueParcel st x.1 x.2 (badWords [] hits) else d

/-! ## Packets (R360 to R362, R377) -/

/-- Distance from PSN a to PSN b. -/
def psnDist (a b : Nat) : Nat := (b + 2 ^ 24 - a % 2 ^ 24) % 2 ^ 24

/-- The request of queue pair q whose packet is next, with its place in the queue. -/
def Dev.nextWqe (d : Dev) (q : Nat) : Option (Nat × Wqe) :=
  let l := (d.qp q).sq
  ((List.range l.length).find? fun i => match l[i]? with
    | some w => decide (w.sent < w.packets)
    | none => false).bind fun i => (l[i]?).map fun w => (i, w)

/-- Payload bytes of the next packet of a request. -/
def Wqe.nextLen (w : Wqe) : Nat := if w.isRead then 0 else min 4096 (w.len - 4096 * w.sent)

/-- Tokens of queue pair q now, in 1/300 byte (R362): earned at c MB/s, at most 8,192 bytes. -/
def Dev.tokensNow (d : Dev) (q : Nat) : Nat :=
  min (8192 * 300) ((d.qp q).tokens + (d.now - (d.qp q).tokensAt) * d.fld (Reg.qpRate q) 0 17)

/-- The priority of queue pair q is paused (R357). -/
def Dev.pausedQp (d : Dev) (q : Nat) : Bool :=
  match (d.qp q).vlan with
  | some v => d.plc.paused.any fun x => x.1 == d.qpPort q && x.2.1 == v / 2 ^ 13 && decide (d.now < x.2.2)
  | none => false

/-- READs outstanding on queue pair q. -/
def Dev.readsOut (d : Dev) (q : Nat) : Nat := ((d.qp q).sq.filter fun w => w.isRead && decide (w.sent > 0)).length

/-- Queue pair q can send a packet now (R361, R362, R377). -/
def Dev.canSend (d : Dev) (q : Nat) : Bool :=
  d.qpReady q && !(d.qp q).rnrWait && bit (d.fld Reg.umacCfg 16 8) (d.qpPort q) && !d.pausedQp q && !d.safe
  && match d.nextWqe q with
    | some x => decide (300 * x.2.nextLen ≤ d.tokensNow q) && !(x.2.isRead && decide (d.readsOut q ≥ 8))
    | none => false

/-- The first member of l after `last` in cyclic order. -/
def nextTurn (l : List Nat) (last : Nat) : Option Nat :=
  match l.find? fun x => decide (x > last) with
  | some x => some x
  | none => l.head?

/-- The queue pair that an engine serves next (R377): highest class; among its ports in turn; on the port, the queue pair
in the middle of a parcel, else the next in turn. -/
def Dev.chooseQp (d : Dev) (e : Nat) : Option Nat :=
  let ready := (List.range 64).filter fun q => q % 2 == e && d.canSend q
  let cls := fun (q : Nat) => d.fld (Reg.qpCfg q) 27 2
  match minOf (ready.map cls) with
  | none => none
  | some c =>
    let top := ready.filter fun q => cls q == c
    let ports := (List.range 8).filter fun p => top.any fun q => d.qpPort q == p
    (nextTurn ports (d.plc.portTurn.getD (4 * e + c) 0)).bind fun p =>
      let qs := top.filter fun q => d.qpPort q == p
      let last := d.plc.qpTurn.getD (32 * e + 8 * c + p) 0
      if qs.contains last ∧ ((d.nextWqe last).any fun x => decide (x.2.sent > 0)) = true then some last else nextTurn qs last

/-- The headers of packet j of a request of queue pair q (R360): the base transport header's opcode follows the kind of the
request and the packet's place in it; RKEY and the virtual address stand in the first packet of a WRITE and in a READ request;
the ICRC covers what the IBTA rules name and is not modelled (notes/assumptions/120.md). -/
def Dev.roceHead (d : Dev) (q : Nat) (w : Wqe) (j : Nat) : RoceHead :=
  let x := d.qp q
  let cfg := d.rdN (Reg.qpCfg q)
  let one := decide (w.packets = 1)
  let last := decide (j + 1 = w.packets)
  let op := if w.isRead then 0x0C
    else if w.send then (if one then 0x04 else if j = 0 then 0x00 else if last then 0x02 else 0x01)
    else if one then (if w.imm.isSome then 0x0B else 0x0A) else if j = 0 then 0x06
    else if last then (if w.imm.isSome then 0x09 else 0x08) else 0x07
  let reth := w.isRead || (!w.send && j == 0)
  let r := d.plc.regions.getD (w.region % 65536) {}
  let v6 := bit cfg 26
  { opcode := op, destQpn := bits cfg 0 24, rkey := if reth then r.rkey else 0, va := if reth then r.va + w.off else 0
    srcPort := 0xC000 + q, v6 := v6, dscp := x.dscp, df := !v6, vlan := x.vlan, destMac := x.destMac, destIp := x.destIp
    srcIp := x.srcIp }

/-- Send the next packet of queue pair q (R360, R361, R377): its PSN is taken, tokens are spent, and the running seal of the
engine's unit follows a parcel's bytes. -/
def Dev.sendPacket (d : Dev) (e q : Nat) : Dev :=
  match d.nextWqe q with
  | none => d
  | some (i, w) =>
    let psn := w.psn.getD (d.fld (Reg.qpStat q) 0 24)
    let j := w.sent
    let last := decide (j + 1 = w.packets)
    let here := (psn + j) % 2 ^ 24
    let next := if w.isRead then (psn + w.psns) % 2 ^ 24 else (here + 1) % 2 ^ 24
    let body := slice w.bytes (4096 * j) 4096
    let out := if w.isRead then Out.rdmaRead (d.roceHead q w j) q here w.region w.off w.len
      else Out.packet (d.roceHead q w j) q here w.region (w.off + 4096 * j) body (if last then w.imm else none) w.send (last || (j + 1) % 16 == 0)
    let c := d.fld (Reg.qpCfg q) 27 2
    let p := d.qpPort q
    let d1 := d.modQp q fun x => { x with
      sq := modAt x.sq i fun w => { w with psn := some psn, sent := j + 1 }
      tokens := d.tokensNow q - 300 * w.nextLen, tokensAt := d.now }
    let d2 := (d1.setFld (Reg.qpStat q) 0 24 next).modPlc fun x => { x with
      portTurn := modAt x.portTurn (4 * e + c) fun _ => p, qpTurn := modAt x.qpTurn (32 * e + 8 * c + p) fun _ => q }
    let d3 := match w.fold with
      | some f => d2.wr (Reg.sealRun e) (crcRun (crcRun 0xFFFFFFFF#32 (le 8 f)) (w.bytes.take (4096 * j + body.length)))
      | none => d2
    d3.emit out

/-- A parcel whose staging data are uncorrectable ends FAILED(SOURCE_DAMAGED) (R329). -/
def Dev.damageParcel (d : Dev) (q : Nat) : Dev :=
  match d.nextWqe q with
  | some (_, { kind := .parcel s pid, .. }) =>
    match (d.str s).issues.find? fun i => i.pid == pid with
    | some i => (d.endIssue s i 6 0).dropWqe q s pid
    | none => d.sendPacket (q % 2) q
  | _ => d.sendPacket (q % 2) q

/-- At a packet boundary an engine sends its next packet (R377). `corrected` and `bad`: words of output staging that its
reading met with errors (R328). -/
def execPacketSend (engine : Fin 2) (corrected bad : List Nat) (s : State) : Host.Outcome State Fault Refusal :=
  s.upd fun d =>
    match d.chooseQp engine.val with
    | none => d
    | some q =>
      let d1 := d.fsErrors corrected bad
      if bad = [] then d1.sendPacket engine.val q else d1.damageParcel q

/-! ## Acknowledgements (R361, R379) -/

/-- The running seal of a parcel's bytes, ended (R376). -/
def Wqe.pseal (w : Wqe) : Nat := (sealOf (w.fold.getD 0) w.bytes).toNat

/-- A delivered record or descriptor leaves the in-flight table (R373). -/
def Stream.delivered (t : Stream) (place : Nat) (desc : Bool) : Stream :=
  { t with cmp := t.cmp.filter fun (c : CmpItem) => !(c.place == some place && c.issue.isNone == desc) }

/-- A request is acknowledged: a parcel not yet recorded is DONE, a record or descriptor is delivered. -/
def Dev.completeWqe (d : Dev) (w : Wqe) : Dev :=
  match w.kind with
  | .parcel s pid =>
    match (d.str s).issues.find? fun i => i.pid == pid with
    | some i =>
      if w.overran then d
      else if w.spoiled then let (v, d1) := d.fresh 32; d1.endIssue s i 0 v
      else d.endIssue s i 0 w.pseal
    | none => d
  | .item s place desc => (d.modStr s fun t => t.delivered place desc).showPlc s
  | _ => d

/-- The whole of a request is covered by a cumulative acknowledgement of PSN k: every packet of it has been sent and its
last PSN is not after k. A READ is completed by its response alone. -/
def Wqe.covered (w : Wqe) (k : Nat) : Bool :=
  match w.psn with
  | some p => !w.isRead && w.sent == w.packets && decide (psnDist ((p + w.psns - 1) % 2 ^ 24) k < 2 ^ 23)
  | none => false

/-- Requests from the head of queue pair q that PSN k acknowledges complete, in order. -/
def Dev.ackTo (d : Dev) (q k : Nat) : Nat → Dev
  | 0 => d
  | n + 1 =>
    match (d.qp q).sq with
    | w :: rest =>
      if w.covered k then ((d.modQp q fun x => { x with sq := rest }).completeWqe w).ackTo q k n else d
    | [] => d

/-- The oldest unacknowledged PSN after an acknowledgement of PSN k: the one after k, but no later than that of a READ still
without its response, which only that completes (R361). -/
def QPair.unaAfter (x : QPair) (k : Nat) : Nat :=
  let n := (k + 1) % 2 ^ 24
  match x.sq.find? fun w => w.isRead && w.psn.isSome with
  | some { psn := some p, .. } => if psnDist p n < 2 ^ 23 then p else n
  | _ => n

/-- A RoCE packet comes for a queue pair that does not take it: discarded, and counted in UMAC_DISC where the queue pair is FREE
(R359); in ERROR it is ignored (R385). -/
def Dev.roceStray (d : Dev) (q : Nat) : Dev := if d.qpState q = 0 then d.incSat Reg.umacDisc 0 32 1 else d

/-- An acknowledgement reaches queue pair q (R361, R379). -/
def execRoceAckRx (qp : Fin 64) (psn : BitVec 24) (s : State) : Host.Outcome State Fault Refusal :=
  s.upd fun d =>
    let q := qp.val
    if d.qpState q ≠ 1 ∨ d.safe = true then d.roceStray q
    else
      let d1 := d.ackTo q psn.toNat (d.qp q).sq.length
      d1.modQp q fun x => { x with
        una := if psnDist x.una psn.toNat < 2 ^ 23 then x.unaAfter psn.toNat else x.una, tries := 0, rnrs := 0 }

/-! ## Retransmission and errors (R361, R385, R386) -/

/-- Go back to PSN k: every later packet is sent again. -/
def Wqe.back (w : Wqe) (k : Nat) : Wqe :=
  match w.psn with
  | some p =>
    if psnDist k p < 2 ^ 23 then { w with sent := 0 }
    else if w.isRead then (if psnDist p k < w.psns then { w with sent := 0 } else w)
    else { w with sent := min w.sent (psnDist p k) }
  | none => w

/-- Go-back-N of queue pair q from PSN k (R361). -/
def Dev.goBack (d : Dev) (q k : Nat) : Dev :=
  (d.modQp q fun x => { x with sq := x.sq.map fun w => w.back k }).setFld (Reg.qpStat q) 0 24 k

/-- The parcel whose packet drew a NAK of PSN k, or is the oldest unacknowledged (none): stream and PID. -/
def Dev.drew (d : Dev) (q : Nat) (k : Option Nat) : Option (Nat × Nat) :=
  let w : Option Wqe := match k with
    | some k => (d.qp q).sq.find? fun (w : Wqe) => w.psn.any fun p => decide (psnDist p k < w.psns)
    | none => (d.qp q).sq.find? fun (w : Wqe) => w.psn.isSome
  match w with
  | some { kind := .parcel s pid, .. } => some (s, pid)
  | _ => none

/-- Queue pair q enters ERROR (R361, R385, R386): the parcel that drew it ends with its cause, the others on it FLUSHED,
records and descriptors on it are kept; QP_ERROR, then the standbys. -/
def Dev.qpError (d : Dev) (q cause syndrome : Nat) (psn : Option Nat) : Dev :=
  let hit := d.drew q psn
  let k := psn.getD ((d.qp q).una)
  let d1 := (d.setFld (Reg.qpStat q) 30 2 2).setFld (Reg.qpStat q) 27 3 cause
  let d2 := match hit with
    | some (s, pid) => d1.failIssues s cause fun i => i.pid == pid
    | none => d1
  let n := sumN (d2.plc.streams.map fun t => (t.issues.filter fun i => i.qp == q).length)
  let d3 := (List.range 8).foldl (fun d s => d.failIssues s 4 fun i => i.qp == q) d2
  let d4 := (d3.keepItems q).modQp q fun x => { x with sq := [], rnrWait := false }
  (d4.event 0x8B01 none (le 1 q ++ le 1 cause ++ le 1 syndrome ++ zeros 1 ++ le 4 k ++ le 4 n)).takeStandbys

/-- A NAK reaches queue pair q (R361): 0 sequence error, 1 RNR, 2 remote access error, 3 remote invalid request, 4 remote
operational error; its syndrome byte and PSN. -/
def execRoceNakRx (qp : Fin 64) (kind : Fin 5) (syndrome : BitVec 8) (psn : BitVec 24) (s : State) :
    Host.Outcome State Fault Refusal :=
  s.upd fun d =>
    let q := qp.val
    if d.qpState q ≠ 1 ∨ d.safe = true then d.roceStray q
    else match kind.val with
      | 0 => (d.goBack q psn.toNat).incSat (Reg.qpCnt q) 8 8 1
      | 1 =>
        if (d.qp q).rnrs ≥ (d.qp q).rnrRetry then d.qpError q 3 syndrome.toNat (some psn.toNat)
        else (d.goBack q psn.toNat).modQp q fun x => { x with rnrs := x.rnrs + 1, rnrWait := true }
      | _ => d.qpError q 2 syndrome.toNat (some psn.toNat)

/-- A request of queue pair q has been unacknowledged for its timeout (R361). -/
def execRetransmitTimeout (qp : Fin 64) (s : State) : Host.Outcome State Fault Refusal :=
  s.upd fun d =>
    let q := qp.val
    let x := d.qp q
    if d.qpState q ≠ 1 ∨ (x.sq.any fun w => w.psn.isSome) = false ∨ d.safe = true then d
    else
      let d1 := d.incSat (Reg.qpCnt q) 8 8 1
      if x.tries ≥ x.retry then d1.qpError q 3 0 none
      else (d1.goBack q x.una).modQp q fun x => { x with tries := x.tries + 1 }

/-- The wait that an RNR NAK asked for ends (R361). -/
def execRnrWaitExpiry (qp : Fin 64) (s : State) : Host.Outcome State Fault Refusal :=
  s.updData fun d => d.modQp qp.val fun x => { x with rnrWait := false }

/-- A consumer count of 32 bits as a number that runs with the slots written (R84). -/
def consumedOf (written count : Nat) : Nat := written - (written + 2 ^ 32 - count) % 2 ^ 32

/-- A READ response, all its packets, completes the oldest READ outstanding on queue pair q (R77, R84, R363, R372): consumer
counts are taken; the bytes of a bulk fetch come with BULK_FETCH_DONE. With CE marked a CNP goes back, at most one every
50 us. -/
def execReadResponseRx (qp : Fin 64) (ce : Bool) (data : Bytes) (s : State) : Host.Outcome State Fault Refusal :=
  s.upd fun d =>
    let q := qp.val
    if d.qpState q ≠ 1 ∨ d.safe = true then d.roceStray q
    else
      let d1 := if ce && (d.qp q).cnpSent.all (fun t => decide (d.now ≥ t + 50 * cyclesUs)) then
          (d.emit (.roce q 1 0)).modQp q fun x => { x with cnpSent := some d.now }
        else d
      match (d1.qp q).sq.find? fun w => w.isRead && decide (w.sent > 0) with
      | none => d1
      | some w =>
        let d2 := d1.modQp q fun x =>
          let y := { x with sq := x.sq.erase w, tries := 0, rnrs := 0 }
          let k := ((w.psn.getD x.una) + w.psns - 1) % 2 ^ 24
          { y with una := if psnDist x.una k < 2 ^ 23 then y.unaAfter k else x.una }
        match w.kind with
        | .eventCount id =>
          let take := fun (g : Ring) => if g.id = id then { g with consumed := consumedOf g.written (leAt data 0 4) } else g
          { d2 with ev := { d2.ev with ring := d2.ev.ring.map take, past := d2.ev.past.map fun x => (x.1, x.2.map take) } }
        | .streamCounts t => d2.modStr t fun x => { x with bind := x.bind.map fun b =>
              { b with descRead := consumedOf b.descWritten (leAt data 0 4), cmpRead := consumedOf b.cmpWritten (leAt data 4 4) } }
        | _ => d2

/-! ## Congestion (R362) -/

/-- A CNP reaches queue pair q; one in the cycle of another counts with it, and a period starts at a cut. -/
def execCnpRx (qp : Fin 64) (s : State) : Host.Outcome State Fault Refusal :=
  s.upd fun d =>
    let q := qp.val
    let x := d.qp q
    if d.qpState q = 0 ∨ d.safe = true then d.roceStray q
    else if x.cnpAt = some d.now then d
    else
      let d1 := (d.incSat (Reg.qpCnt q) 16 16 1).modQp q fun x => { x with periodCnp := true, cnpAt := some d.now }
      if d.flag Reg.ccCfg0 31 = false then d1
      else if x.tCut.any fun t => decide (d.now < t + max 1 (d.fld Reg.ccCfg0 8 8) * cyclesUs) then d1
      else
        let c := d.fld (Reg.qpRate q) 0 17
        let c' := max (d.fld Reg.ccCfg1 0 16) (c - c * d.fld Reg.ccCfg0 16 8 / 256)
        (d1.wrN (Reg.qpRate q) c').modQp q fun x => { x with
          tCut := some d.now, n := 0, cuts := x.cuts + 1, periodCnp := false, tokens := d.tokensNow q, tokensAt := d.now }

/-- A congestion period of queue pair q ends. -/
def execCcPeriodEnd (qp : Fin 64) (s : State) : Host.Outcome State Fault Refusal :=
  s.updData fun d =>
    let q := qp.val
    let x := d.qp q
    let d1 := d.modQp q fun x => { x with periodCnp := false }
    if d.qpState q = 0 ∨ x.periodCnp = true ∨ d.flag Reg.ccCfg0 31 = false then d1
    else
      let n := x.n + 1
      let step := d.fld Reg.ccCfg1 16 16 * min 8 (1 + n / max 1 (d.fld Reg.ccCfg0 24 4))
      (d1.wrN (Reg.qpRate q) (min (d.fld (Reg.qpRmax q) 0 17) (d.fld (Reg.qpRate q) 0 17 + step))).modQp q fun x => { x with
        n := n, tokens := d.tokensNow q, tokensAt := d.now }

/-! ## Completion records (R373, R378, R384) -/

/-- Index k of a batt on stream s is to be issued again. -/
def Dev.reissue (d : Dev) (s : Nat) (key : Nat × Option Nat) (k : Nat) : Dev :=
  let flying := (d.str s).issues.any fun i => i.batt == key && i.idx == k
  d.modPlaced s key fun p =>
    if p.fail = 0 ∧ p.cut = true ∧ flying = false ∧ k < p.total ∧ (p.todo ++ p.re ++ p.done).contains k = false then
      { p with re := p.re ++ [k] } else p

/-- A batt whose staging data are damaged is fulled again from the hood, and every index is issued again on every stream; if
the hood cannot supply it, it becomes FAILED(SOURCE_DAMAGED) (R43, R299, R384). -/
def Dev.refull (d : Dev) (key : Nat × Option Nat) : Dev :=
  match d.battKey key with
  | none => d
  | some b =>
    if d.notHooded b then d.failBatt key 1
    else
      let d1 := (List.range 8).foldl (fun d s => d.rollbackOn s (· == key)) d
      let d2 := match b.slice with
        | some k => d1.setFlag (Reg.fulStat k) 31 false
        | none => d1
      d2.modKey key fun x => if x.tiles = 0 then x else
        { x with state := .closed, slice := none, again := true, data := [], index := [], deferred := [], capped := 0, cutter := none }

/-- What follows from a FAILED record, by its cause (R384). -/
def Dev.actOn (d : Dev) (s : Nat) (i : Issue) (cause : Nat) : Dev :=
  match (d.str s).batts.find? fun p => p.batt == i.batt with
  | none => d
  | some p =>
    if p.fail ≠ 0 then d
    else match cause with
      | 1 => d.failPlaced s i.batt 4
      | 6 => d.refull i.batt
      | 7 => d.failPlaced s i.batt 6
      | 4 => d.reissue s i.batt i.idx
      | 5 => d.reissue s i.batt i.idx
      | _ =>
        let n := ((p.remote.find? fun x => x.1 == i.idx).map (·.2)).getD 0 + 1
        let d1 := d.modPlaced s i.batt fun x => { x with remote := (i.idx, n) :: x.remote.filter fun y => y.1 != i.idx }
        if n ≥ 3 then d1.failPlaced s i.batt 5 else d1.reissue s i.batt i.idx

/-- A record read with poison becomes FAILED(POISON) (R111). -/
def Dev.poisonItem (d : Dev) (s : Nat) (c : CmpItem) (i : Issue) : CmpItem × Dev :=
  if c.cause ≠ 0 then ({ c with cause := 5, bytes := d.recordBytes s i 5 0 }, d)
  else ({ c with cause := 5, bytes := d.recordBytes s i 5 0 },
    (d.modPlaced s i.batt fun p => { p with
      done := p.done.erase i.idx, pfailed := satAdd 16 p.pfailed 1, placed := p.fail != 0 }).incSat (Reg.plcFail 4) 0 32 1)

/-- Write an item of the completion hopper on the stream's current queue pair: at its ring position, or a SEND (R372, R373,
R383). -/
def Dev.postItem (d : Dev) (s : Nat) (b : Binding) (c : CmpItem) (place : Nat) : Dev :=
  let desc := c.issue.isNone
  let send := desc && d.flag (Reg.strCfg s) 9
  let imm := if desc && d.flag (Reg.strCfg s) 8 then some (c.batt.1 % 2 ^ 32) else none
  d.post (d.curQp s)
    { kind := .item s place desc, region := if desc then b.descRegion else b.cmpRegion
      off := if send then 0 else if desc then b.descOff + 128 * (place % max 1 b.descSlots) else b.cmpOff + 32 * (place % max 1 b.cmpSlots)
      len := c.bytes.length, bytes := c.bytes, imm := imm, send := send }

/-- Both copies of the parcel index of a record are poisoned (R111): the item is gone from PLC_CMP, its issue stands again
without a record, and source 0x69 occurs, whose recovery ends it FLUSHED. -/
def Dev.loseCompletion (d : Dev) (s : Nat) (c : CmpItem) (i : Issue) (bad : List Nat) : Dev :=
  let d1 := d.modStr s fun t => { t with cmp := t.cmp.erase c, issues := t.issues ++ [i], ended := t.ended.erase i.pid }
  let d2 := d1.modPlaced s i.batt fun p => { p with done := if c.cause = 0 then p.done.erase i.idx else p.done }
  (d2.countPoison 68 bad.length).occur [0x4D, 0x69] 0

/-- The region of an item's ring has been revoked; a SEND names none (R383). -/
def Dev.itemLost (d : Dev) (s : Nat) (b : Binding) (c : CmpItem) : Bool :=
  if c.issue.isSome then !d.regionLive b.cmpRegion else !d.flag (Reg.strCfg s) 9 && !d.regionLive b.descRegion

/-- The next item of a stream's completion hopper is written (R111, R372, R373, R384); `hits` are the upsets of its words. A
record whose words 0 and 4, which hold the copies of its parcel index, are not both poisoned becomes FAILED(POISON), a
descriptor is rebuilt. An item to a region that has been revoked is dropped (R387, notes/assumptions/121.md). -/
def execCompletionWrite (stream : Fin 8) (hits : Hits) (s : State) : Host.Outcome State Fault Refusal :=
  s.upd fun d0 =>
    let st := stream.val
    match (d0.str st).cmp.find? fun c => !c.posted, (d0.str st).bind with
    | some c, some b =>
      let bad := if c.read then [] else badWords c.bytes hits
      if d0.qpReady (d0.curQp st) = false ∨ d0.devRec = true ∨ d0.safe = true then d0
      else if d0.itemLost st b c then
        d0.modStr st fun t => { t with cmp := t.cmp.erase c }
      else if c.issue.isSome = true ∧ c.place.isNone = true ∧ b.cmpWritten - b.cmpRead ≥ b.cmpSlots then d0
      else if bad.contains 0 ∧ bad.contains 4 ∧ c.issue.isSome = true then
        (c.issue.elim d0 fun i => (d0.hopRead 68).loseCompletion st c i bad)
      else
        let d := d0.hopRead 68
        let place := c.place.getD (if c.issue.isSome then b.cmpWritten else b.descWritten)
        let r := match c.issue with
          | some i => if bad = [] then (c, d) else d.poisonItem st c i
          | none => (c, d)
        let c' : CmpItem := { r.1 with place := some place, posted := true, acted := true, read := true }
        let d1 := r.2.modStr st fun t => { t with
          cmp := t.cmp.map fun x => if x = c then c' else x
          bind := if c.issue.isSome ∧ c.place.isNone then t.bind.map fun y => { y with cmpWritten := y.cmpWritten + 1 } else t.bind }
        let d2 := (d1.postItem st b c' place).showPlc st
        let d3 := match c.issue with
          | some i => if c'.cause ≠ 0 ∧ c.acted = false then d2.actOn st i c'.cause else d2
          | none => d2
        d3.poisonRead 68 5 bad
    | _, _ => d0

/-! ## Descriptors (R35 to R41, R380 to R383) -/

/-- The map of a batt holds an entry whose status satisfies p. -/
def Batt.mapHas (b : Batt) (p : Nat → Bool) : Bool := b.map.any fun e => p (bits e 32 16)

/-- STATUS of a batt's descriptor (R381). -/
def Batt.descStatus (b : Batt) (fail : Nat) : Nat :=
  if fail ≠ 0 then 3
  else if b.decision.any (·.overrun) then 2
  else if b.mapHas (fun s => s % 16 != 0) || b.deferred != [] then 1
  else 0

/-- The descriptor of a batt on stream s (R380, R381). -/
def Dev.descriptor (d : Dev) (s : Nat) (p : Placed) (b : Batt) : Bytes :=
  let x := b.decision.getD default
  let l := b.layout
  let ok := p.fail = 0
  let f := fun (n v : Nat) => le n (if ok then v else 0)
  let row0 := (b.num - b.grid.first) * 2 ^ b.grid.hlog
  let flags := b2n b.notHooded + 2 * b2n (b.mapHas fun s => s % 16 != 0) + 4 * b2n (b.deferred != []) + 8 * b2n b.seamExpired
    + 16 * b2n (b.mapHas fun s => bit s 9) + 32 * b2n (b.mapHas fun s => bit s 8) + 64 * b2n p.reissued
  withSeal (parcelFold b.num 0xFFFF)
    (le 8 (b.num % 2 ^ 48 + s * 2 ^ 48 + b2n b.recalled.isSome * 2 ^ 51) ++ le 4 (d.fld Reg.plantAddr 0 18)
    ++ le 1 (b.descStatus p.fail) ++ le 1 p.fail ++ le 1 (x.rung + 8 * b2n x.exhausted + 16 * b2n x.fixed) ++ le 1 flags
    ++ le 8 row0 ++ sle 8 (floorDiv (b.grid.origin + ((row0 * b.grid.pitch : Nat) : Int)) 4) ++ sle 8 x.spos ++ le 8 x.time
    ++ le 4 b.coil ++ le 4 (p.buf.elim 0xFFFFFFFF (·.seq)) ++ f 4 l.imgLen ++ le 2 p.total ++ le 2 p.pfailed
    ++ f 4 l.ntiles ++ f 4 l.ndefer ++ f 4 l.dataLen ++ f 4 l.idxOff ++ f 4 l.attOff ++ f 4 l.mapOff ++ f 4 l.mapLen
    ++ f 4 l.edgeOff ++ f 4 l.statsOff ++ f 2 (listMask (b.stats.map (·.1))) ++ f 2 (b.cropFirst / 64) ++ f 4 (d.parcelSize s)
    ++ le 8 d.timeNs ++ zeros 8)

/-- A stopping stream has no READY queue pair: its last descriptors enter the hopper and wait there (R386). -/
def Dev.stranded (d : Dev) (s : Nat) : Bool := (d.str s).stop.isSome && !d.qpReady (d.curQp s)

/-- Some queue pair still has packets to send or to have acknowledged of a write into the buffer of a batt (R40). -/
def Dev.bufferBusy (d : Dev) (s : Nat) (p : Placed) : Bool :=
  p.buf.any fun f => d.plc.qps.any fun q => q.sq.any fun w =>
    w.psn.isSome && w.region == f.region && decide (f.off ≤ w.off ∧ w.off < f.off + f.len) && (match w.kind with
      | .parcel t _ => t == s
      | _ => false)

/-- A batt on stream s may have its descriptor: it is the first of the order, PLACED, with every record of it written, no write
into its buffer still under way unless it has FAILED (R40), room in the descriptor ring, and room for four entries in PLC_CMP
(R37, R38, R39, R100, R372). -/
def Dev.mayPublish (d : Dev) (s : Nat) (p : Placed) (b : Binding) : Bool :=
  p.placed && !d.devRec && !d.safe && (p.fail != 0 || !d.bufferBusy s p) && decide (d.cmpLoad + 4 ≤ 1024)
  && (d.stranded s || (d.qpReady (d.curQp s) && (d.str s).cmp.all fun c => c.batt != p.batt || c.posted))
  && (d.flag (Reg.strCfg s) 9 || decide (b.descWritten - b.descRead < b.descSlots))

/-- A RECALL counts a descriptor (R350). -/
def Dev.countRecall (d : Dev) (p : Placed) : Dev :=
  match p.batt.2 with
  | some id => d.modRecall id fun r => { r with count := r.count + 1, failed := r.failed + b2n (p.fail != 0) }
  | none => d

/-- The descriptor of the first batt of a stream's order enters the completion hopper: the batt is PUBLISHED, or FAILED, on
this stream, and RELEASED when no other stream owes its descriptor (R35, R37, R367). -/
def execDescriptorWrite (stream : Fin 8) (s : State) : Host.Outcome State Fault Refusal :=
  s.upd fun d =>
    let st := stream.val
    match (d.str st).batts, (d.str st).bind with
    | p :: rest, some b =>
      match d.battKey p.batt with
      | none => d
      | some x =>
        if d.mayPublish st p b = false then d
        else
          let item : CmpItem := { issue := none, batt := p.batt, cause := p.fail, bytes := d.descriptor st p x,
                                  place := some b.descWritten, acted := true }
          let d1 := d.modStr st fun t => { t with
            batts := rest, cmp := t.cmp ++ [item], bind := t.bind.map fun y => { y with descWritten := y.descWritten + 1 } }
          let d2 := d1.wr64 (Reg.strPub st) (p.batt.1 % 2 ^ 48)
          let d3 := d2.modKey p.batt fun y => { y with
            described := true, owed := y.owed.erase st
            state := if p.fail ≠ 0 ∧ y.recalled.isSome then .failed else if y.state = .fulled ∧ p.fail = 0 then .published else y.state }
          ((d3.countRecall p).showPlc st).releaseIfDone p.batt
    | _, _ => d

/-! ## Stops and fences (R38, R387, R389) -/

/-- Every batt of a stopping stream up to LAST_BATT has its descriptor (R38): the stream is no longer started, and
STREAM_STOP gives its follow-up. -/
def execStreamStopDone (stream : Fin 8) (s : State) : Host.Outcome State Fault Refusal :=
  s.upd fun d =>
    let st := stream.val
    match (d.str st).stop with
    | none => d
    | some last =>
      let open_ := !d.isRecall st && last != 2 ^ 48 - 1 && decide (d.undecided ≤ last)
      if d.started st = false ∨ (d.str st).batts ≠ [] 
          ∨ (d.stranded st = false ∧ ((d.str st).cmp.any fun c => c.issue.isNone) = true) ∨ open_ = true then d
      else
        let d1 := (d.setFlag (Reg.strCfg st) 31 false).modStr st fun t => { t with stop := none }
        d1.finish (d1.owedArgs 0x0B0A fun a => a == [st, last]) St.ok (le 8 last)

/-- REGION_REVOKE answers ACCEPTED when its fence has not been complete for 1 ms (R387). -/
def Dev.acceptRevokes (d : Dev) : Dev :=
  d.running.foldl (fun d x =>
    if x.code = 0x0B05 ∧ d.now ≥ x.args.getD 1 0 + cyclesMs then d.endRunning x St.accepted [] else d) d

/-- The first fence that is complete gives its REGION_REVOKE the final outcome, as its response or its follow-up (R387). -/
def execRevokeFenceDone (s : State) : Host.Outcome State Fault Refusal :=
  s.upd fun d0 =>
    let d := d0.acceptRevokes
    match d.plc.fences.find? fun f => d.fenceDone f.region with
    | none => d
    | some f =>
      let d1 := d.modPlc fun p => { p with fences := p.fences.erase f }
      let body := le 4 f.removed ++ le 4 f.withdrawn
      match d1.running.find? fun x => x.code == 0x0B05 && x.args.getD 0 0 == f.region with
      | some x => d1.endRunning x St.ok body
      | none => d1.finish (d1.owedArgs 0x0B05 fun a => a.getD 0 0 == f.region) St.ok body

/-! ## The uplink (R356 to R359, R612) -/

/-- A priority flow control frame pauses one priority of a port for `quanta` times 512 bit times (R357). -/
def execPfcFrameRx (port : Fin 8) (pcp : Fin 8) (quanta : BitVec 16) (s : State) : Host.Outcome State Fault Refusal :=
  s.upd fun d =>
    if d.flag Reg.umacCfg 2 = false ∨ d.flag Reg.umacCfg 31 = true then d.incSat Reg.umacDisc 0 32 1
    else
      let rate := 800 / d.uplinkPorts
      let until_ := d.now + ceilDiv (quanta.toNat * 512 * 3) (10 * rate)
      d.modPlc fun p => { p with
        paused := (p.paused.filter fun x => !(x.1 == port.val && x.2.1 == pcp.val)) ++ [(port.val, pcp.val, until_)] }

/-- A frame other than RoCE acknowledgements, mailbox datagrams and PTP arrives (R359, R361): 0 an ARP request and 1 a
Neighbor Solicitation, for a target address; 2 a RoCE request packet for a queue pair; 3 anything else, a packet for another
port or address than its queue pair's and one that fails its ICRC among them. -/
def execUplinkFrameRx (port : Fin 8) (kind : Fin 4) (addr : Bytes) (qp : Fin 64) (s : State) : Host.Outcome State Fault Refusal :=
  s.upd fun d =>
    let v6 := kind.val == 1
    let n := if v6 then 16 else 4
    let mine := (port.val == d.plc.mgmtPort && d.flag Reg.umacCfg 0 == v6 && slice d.plc.mgmtIp 0 n == addr)
      || (List.range 64).any fun q => d.qpState q != 0 && d.qpPort q == port.val && d.flag (Reg.qpCfg q) 26 == v6
          && slice (d.qp q).srcIp 0 n == addr
    match kind.val with
    | 2 => if d.qpState qp.val ≠ 0 then d.incSat (Reg.qpCnt qp.val) 0 8 1 else d.incSat Reg.umacDisc 0 32 1
    | 3 => d.incSat Reg.umacDisc 0 32 1
    | k => if mine && addr.length == n && !d.safe then
        d.emit (.frame k [port.val, (d.plc.mgmtMac + port.val : Nat), (leAt addr 0 n : Nat)])
      else d.incSat Reg.umacDisc 0 32 1

/-- The port of an uplink lane is enabled (R612). -/
def Dev.laneEnabled (d : Dev) (l : Nat) : Bool := bit (d.fld Reg.umacCfg 16 8) (l / (8 / d.uplinkPorts))

/-- An uplink lane of an enabled port loses block or FEC lock: source 0x60 + l is live (R612). -/
def execUplinkLaneLoss (lane : Fin 8) (s : State) : Host.Outcome State Fault Refusal :=
  s.upd fun d => if d.laneEnabled lane.val then
      (d.setFld Reg.umacStat 16 8 (listMask ((maskList 8 (d.fld Reg.umacStat 16 8)).filter (· != lane.val / (8 / d.uplinkPorts))))).faultOn
        (0x60 + lane.val)
    else d

/-- An uplink lane regains lock (R612); FEC lock of its port is shown again once no lane of it is without. -/
def execUplinkLaneLock (lane : Fin 8) (s : State) : Host.Outcome State Fault Refusal :=
  s.upd fun d =>
    if d.laneEnabled lane.val then
      let p := lane.val / (8 / d.uplinkPorts)
      let d1 := d.faultOff (0x60 + lane.val)
      if (portLanes d1.uplinkPorts p).any fun l => d1.live (0x60 + l) then d1 else d1.setFlag Reg.umacStat (16 + p) true
    else d

/-- Every enabled port has link, or 500 ms have passed: `link` is the mask of ports with link (R356). UPLINK_CONFIG gives its
follow-up. -/
def execUplinkLinkUp (link : BitVec 8) (s : State) : Host.Outcome State Fault Refusal :=
  s.upd fun d =>
    let en := maskList 8 (d.fld Reg.umacCfg 16 8)
    let up := en.filter fun p => bit link.toNat p
    let d1 := d.wrN Reg.umacStat (listMask up * 2 ^ 24 + listMask up * 2 ^ 16)
    d1.finish (d1.owed 0x0B01) (if up = en then St.ok else St.partialDone)
      (le 4 (d.fld Reg.rateNom 0 17) ++ le 1 (listMask up) ++ zeros 3)

end Sys2Proof.Machine
end

