-- ==== Sys2Proof/Machine/Domains.lean ====
section
/-! DEFINITION. A power domain completes its switch (R543 to R550). -/

namespace Sys2Proof.Machine

open Sys2Proof

/-- The bits of a register that its domain's retention rail holds (R547): the RW fields, and all of a register of a pipeline's
configuration banks, among them the length of the defect map (R219). -/
def retained (a : Nat) : Word :=
  let o := a % 0x10000
  if 0x200000 ≤ a ∧ a < 0x300000 ∧ (0x100 ≤ o ∧ o < 0x300 ∨ 0x400 ≤ o ∧ o < 0x800) then 0xFFFFFFFF#32 else RegMap.rwMask a

/-- Registers that come up with domain j: what is retained keeps its values, the rest returns to its reset values (R547). -/
def Dev.domainRegs (d : Dev) (j : Nat) : Dev :=
  (d.regs.filter fun r => regDomain r.1 == j).foldl (fun d r =>
    d.wr r.1 ((r.2 &&& retained r.1) ||| (RegMap.resetAt r.1 &&& ~~~retained r.1))) d

/-- Hoppers that come up with domain j: empty, with no tail notice and their counts 0 (R108, R547). -/
def Dev.domainHoppers (d : Dev) (j : Nat) : Dev :=
  ((List.range 71).filter fun i => hopDomain i == j).foldl (fun d i => (d.modHop i fun _ => {}).wrN (Reg.hopCnt i) 0) d

/-- What comes up with domain j beside its registers: the line buffers of a pipeline and of its carding are empty, a band port trains
(R402, R547). -/
def Dev.domainUnits (d : Dev) (j : Nat) : Dev :=
  if 16 ≤ j ∧ j < 32 then d.modPipe (j - 16) fun p => { p with rx := [], mosQ := [], pounced := [] }
  else if 32 ≤ j ∧ j < 48 then d.modPipe (j - 32) fun p => { p with cards := p.cards.map fun c => { c with lines := [], early := [] } }
  else if 112 ≤ j ∧ j < 114 then d.bandPowered (j - 112)
  else d

/-- What goes off with domain j: a head link port becomes DETACHED, a band port OFF (R183, R402); the card writer has taken the rows of
its hopper before, but for the safe state, in which it is stopped (R480, R548). -/
def Dev.domainGone (d : Dev) (j : Nat) : Dev :=
  if j < 16 then d.portOff j
  else if 80 ≤ j ∧ j < 96 then (if d.safe then d else d.drainWriter (j - 80))
  else if 112 ≤ j ∧ j < 114 then d.bandOff (j - 112)
  else d

/-- A command whose last domain has switched answers (R184, R188, R545). -/
def Dev.switchAnswer (d : Dev) (x : Running) : Dev :=
  if x.code = 0x0401 then (d.portPowered (x.args.headD 0)).endRunning x St.accepted []
  else if x.code = 0x0B01 then d.endRunning x St.accepted []
  else d.endRunning x St.ok []

/-- The domain being switched is on or off, and the next queued domain begins (R545, R546). -/
def Dev.switchDone (d : Dev) (j : Nat) (on : Bool) : Dev :=
  let d1 := (({ d with pwr := { d.pwr with queue := d.pwr.queue.drop 1 } } : Dev).setFlag (Reg.pdOn (j / 32)) (j % 32) on).showSeq
  let d2 := if on then ((d1.domainRegs j).domainHoppers j).domainUnits j else d1.domainGone j
  (d2.running.filter fun x => x.switch == some (j, on)).foldl (fun d x => d.switchAnswer x) d2

/-- The domain at the head of the queue completes its switch. -/
def execDomainSwitchDone (s : State) : Host.Outcome State Fault Refusal :=
  s.upd fun d => match d.pwr.queue with
    | [] => d
    | (j, on) :: _ => d.switchDone j on

end Sys2Proof.Machine
end

