-- ==== Sys2Proof/Machine/Health.lean ====
section
/-! DEFINITION. The conformateur: what it measures, adapts and counts, its thresholds and its commands
(spec/17_conformateur_and_longevity.md R515 to R528). -/

namespace Sys2Proof.Machine

open Sys2Proof

/-- Change what the conformateur keeps. -/
def Dev.modCnf (d : Dev) (f : Cnf → Cnf) : Dev := { d with cnf := f d.cnf }

/-- PD_CNF is on. -/
def Dev.cnfOn (d : Dev) : Bool := d.domainOn 132

/-- A source's condition holds or does not (R464). -/
def Dev.condition (d : Dev) (s : Nat) (holds : Bool) : Dev := if holds then d.faultOn s else d.faultOff s

/-! ## Wear (R524 to R526) -/

/-- Fractional bits of EQ_u and of AF(T). -/
def wearBits : Nat := 64

/-- A Taylor sum of exp(x) in fixed point with `b` fractional bits: `n` terms left, k the next index, t the present term. -/
def expTerms (b : Nat) (x : Int) : Nat → Nat → Int → Int
  | 0, _, t => t
  | n + 1, k, t => t + expTerms b x n (k + 1) (floorDiv (floorDiv (t * x) (2 ^ b)) k)

/-- Squaring n times in fixed point. -/
def squares (b : Nat) : Nat → Int → Int
  | 0, x => x
  | n + 1, x => squares b n (floorDiv (x * x) (2 ^ b))

/-- exp(num / den) in units of 2^-64, rounded down from 128 fractional bits (notes/assumptions/60.md). -/
def expFixed (num : Int) (den : Nat) : Nat :=
  let x := floorDiv (num * 2 ^ 128) (den * 64)
  (floorDiv (squares 128 6 (expTerms 128 x 40 1 (2 ^ 128))) (2 ^ 64)).toNat

/-- AF(T) of R524 in units of 2^-64, T in 1/16 degree: the exponent is 8,123.5 x (20/7,163 - 80/(5T + 21,852)). -/
def arrhenius (t : Int) : Nat :=
  let k : Nat := max 1 (5 * t + 21852).toNat
  expFixed (81235 * (20 * (k : Int) - 80 * 7163)) (10 * 7163 * k)

/-- THERM_u in per mille from EQ_u in units of 2^-64 s (R524). -/
def thermOf (eq : Nat) : Nat := min 1000 (1000 * eq / (1262304000 * 2 ^ wearBits))

/-- AGE of a site in per mille from its frequency loss in parts per million (R525). -/
def ageOf (loss : Nat) : Nat := min 1000 (loss / 40)

/-- The ageing sites of unit u (R517). -/
def unitSites (u : Nat) : List Nat := (List.range 4).map (4 * u + ·)

/-- AGE_u, THERM_u and WEAR_u (R524 to R526). -/
def Dev.ageUnit (d : Dev) (u : Nat) : Nat := ((unitSites u).map fun i => ageOf (d.cnf.losses.getD i 0)).foldl max 0
def Dev.thermUnit (d : Dev) (u : Nat) : Nat := thermOf (d.cnf.eq.getD u 0)
def Dev.wearUnit (d : Dev) (u : Nat) : Nat := max (d.thermUnit u) (d.ageUnit u)

/-- The device wear, and the lowest unit that has it. -/
def Dev.devWear (d : Dev) : Nat := ((List.range 16).map d.wearUnit).foldl max 0
def Dev.worstUnit (d : Dev) : Nat := ((List.range 16).find? fun u => d.wearUnit u == d.devWear).getD 0

/-- The projected remaining life in hours (R526). -/
def Dev.remainH (d : Dev) : Nat := (1000 - d.devWear) * 350640 / 1000

/-- EQ_u in whole equivalent seconds. -/
def Dev.eqSeconds (d : Dev) (u : Nat) : Nat := d.cnf.eq.getD u 0 / 2 ^ wearBits

/-- Show wear in CNF_UWEARu and CNF_EQSu. -/
def Dev.showWear (d : Dev) : Dev :=
  (List.range 16).foldl (fun d u =>
    (d.wrN (Reg.cnfUwear u) (d.ageUnit u * 2 ^ 10 + d.thermUnit u)).wr64 (Reg.cnfEqs u) (d.eqSeconds u % 2 ^ 64)) d

/-- WEAR_LIMIT and sources 0x89 and 0x8A (R526, R528): the event when the device wear reaches WEAR_WARN. -/
def Dev.wearCheck (d : Dev) : Dev :=
  let w := d.devWear
  let overran := decide (w ≥ d.fld Reg.cnfLim 12 12)
  -- the collector's events enter first (R605)
  let d1 := ((d.modCnf fun c => { c with wearWarned := overran }).condition 0x89 overran).condition 0x8A (decide (d.remainH < 8766))
  if overran && !d.cnf.wearWarned then d1.event 0x8E04 none (le 1 d.worstUnit ++ zeros 1 ++ le 2 w ++ le 4 d.remainH) else d1

/-- A powered second passes (R524): EQ_u grows by AF of the higher of the unit's two sensors. -/
def execWearTick (s : State) : Host.Outcome State Fault Refusal :=
  s.upd fun d =>
    if d.cnfOn = false then d
    else
      let t := fun (u : Nat) => max (d.cnf.sensors.getD (2 * u) 0) (d.cnf.sensors.getD (2 * u + 1) 0)
      let eq := (List.range 16).map fun u => d.cnf.eq.getD u 0 + arrhenius (t u)
      ((d.modCnf fun c => { c with eq := eq, powered := c.powered + 1 }).showWear).wearCheck

/-- The ageing sites are measured, in parts per million of lost frequency, normalised to 85 degrees (R515, R525); source 0x80
while a site's AGE is above 900; `odd`: a site reads implausibly. -/
def execAgeingSample (losses : List Nat) (odd : Bool) (s : State) : Host.Outcome State Fault Refusal :=
  s.upd fun d =>
    if d.cnfOn = false then d
    else
      let ls := (List.range 64).map fun i => losses.getD i (d.cnf.losses.getD i 0)
      let d1 := (d.modCnf fun c => { c with losses := ls, oddSite := odd }).showWear
      (d1.condition 0x80 (ls.any fun l => decide (ageOf l > 900))).condition 0x8C (odd || d1.cnf.oddSensor)

/-! ## Thermal sensors: refresh, fan, trip (R520, R521, R528, R591) -/

/-- TJ_MAX in 1/16 degree. -/
def Dev.tjMax (d : Dev) : Int := d.cnf.sensors.foldl max (d.cnf.sensors.headD 0)

/-- FAN_T in degrees. -/
def Dev.fanT (d : Dev) : Int := d.fld Reg.cnfLim 24 8

/-- Corrected words of stack k within the last hour (R520): the stack of a word is its channel over 16. -/
def Dev.stackCe (d : Dev) (k : Nat) : Nat :=
  (d.cnf.ce.filter fun x => channelOf x.1 / 16 == k && decide (d.now < x.2 + 3600 * cyclesS)).length

/-- Refresh of stack k is doubled (CNF_STAT.REFRESH). -/
def Dev.doubled (d : Dev) (k : Nat) : Bool := d.flag Reg.cnfStat (30 + k)

/-- The refresh of stack k after a sample (R520), while REFRESH is enabled. -/
def Dev.refreshStack (d : Dev) (k : Nat) : Dev :=
  let t := [0, 1].map fun j => d.cnf.sensors.getD (Config.stackSensor k j).val 0
  let ce := d.stackCe k
  let cool := t.all (fun x => decide (x < 80 * 16)) && decide (ce < 2048)
  let since := if cool then some ((d.cnf.coolSince.getD k none).getD d.now) else none
  let d1 := d.modCnf fun c => { c with coolSince := modAt c.coolSince k fun _ => since }
  let set := fun (d : Dev) (on : Bool) => (d.setFlag Reg.cnfStat (30 + k) on).modCnf fun c =>
    { c with doubledSince := modAt c.doubledSince k fun _ => if on then some d.now else none }
  if d.flag Reg.cnfCtrl 29 = false then d1
  else if d.doubled k then
    if since.any (fun x => decide (x + 600 * cyclesS ≤ d.now)) then set d1 false else d1
  else if t.any (fun x => decide (x > 85 * 16)) || decide (ce > 4096) then set d1 true
  else d1

/-- The fan level after a sample (R521), while FAN is enabled: it rises with TJ_MAX, and returns to 0 once TJ_MAX has stayed
3 degrees below FAN_T for 60 s. -/
def Dev.fanLevel (d : Dev) : Dev :=
  let tj := d.tjMax
  let overran := fun (k : Int) => decide (tj > 16 * (d.fanT + k))
  let now := d.fld Reg.cnfStat 28 2
  let want := if overran 10 then 3 else if overran 5 then 2 else if overran 0 then 1 else 0
  let low := decide (tj ≤ 16 * (d.fanT - 3))
  let since := if low then some (d.cnf.fanLowSince.getD d.now) else none
  let d1 := d.modCnf fun c => { c with fanLowSince := since }
  let level := if want > now then want
    else if since.any (fun x => decide (x + 60 * cyclesS ≤ d.now)) then 0 else now
  if d.flag Reg.cnfCtrl 28 = false ∨ level = now then d1
  else
    ((d1.setFld Reg.cnfStat 28 2 level).modCnf fun c =>
      { c with fan3Since := if level = 3 then some d.now else none }).event 0x8E03 none
      (le 1 level ++ zeros 1 ++ sle 2 tj)

/-- The thermal sensors are read, in 1/16 degree (R515, R520, R521, R528, R591); `odd`: a sensor reads implausibly. -/
def execThermalSample (temps : List Int) (odd : Bool) (s : State) : Host.Outcome State Fault Refusal :=
  s.upd fun d =>
    if d.cnfOn = false then d
    else
      let ts := (List.range 32).map fun i => signed 16 (unsigned 16 (temps.getD i (d.cnf.sensors.getD i 0)))
      let d1 := d.modCnf fun c => { c with sensors := ts, oddSensor := odd }
      let d2 := d1.setFld Reg.cnfStat 0 16 (unsigned 16 d1.tjMax)
      let d3 := ((d2.refreshStack 0).refreshStack 1).fanLevel
      let tj := d3.tjMax
      let day := (List.range 2).any fun k => (d3.cnf.doubledSince.getD k none).any fun x => decide (x + 86400 * cyclesS ≤ d3.now)
      let d4 := d3.condition 0x81 (decide (tj > 16 * (d3.fanT + 15)))
      let d5 := d4.condition 0x86 day
      let d6 := d5.condition 0x8C (odd || d5.cnf.oddSite)
      let d7 := d6.condition 0x8D (d6.cnf.fan3Since.any fun x => decide (x + 60 * cyclesS ≤ d6.now))
      d7.condition 0x03 (decide (tj > 16 * (if Config.gradeX then 135 else 115)))

/-! ## Supplies (R528, R574) -/

/-- Limits of the supply of monitor i in 0.1 mV: recommended minimum and maximum, monitor window (R574). -/
def supplyLimits (i : Nat) : Nat × Nat × Nat × Nat :=
  if i ≤ 7 then (7275, 7725, 6900, 8100)
  else if i ≤ 9 ∨ i = 23 then (8245, 8755, 7800, 9200)
  else if i ≤ 11 ∨ i = 14 then (8730, 9270, 8300, 9700)
  else if i ≤ 13 ∨ i = 15 then (11640, 12360, 11000, 13000)
  else if i ≤ 17 then (10670, 11330, 10100, 11900)
  else if i ≤ 19 then (3880, 4120, 3650, 4350)
  else if i = 20 then (17100, 18900, 16500, 19500)
  else if i = 21 then (17100, 18900, 16200, 19800)
  else (31350, 34650, 29700, 36300)

/-- The supply monitors are read, in mV (R515, R528, R574): source 0x02 while a supply lies outside its window on two
consecutive samples, 0x82 while one has been within 1 % of a recommended limit, or beyond it, for 1 s. -/
def execSupplySample (mv : List Nat) (s : State) : Host.Outcome State Fault Refusal :=
  s.upd fun d =>
    if d.cnfOn = false then d
    else
      let v := (List.range 24).map fun i => mv.getD i (d.cnf.supplies.getD i 0) % 2 ^ 16
      let out := (List.range 24).map fun i =>
        let l := supplyLimits i
        decide (10 * v.getD i 0 < l.2.2.1 ∨ 10 * v.getD i 0 > l.2.2.2)
      let near := (List.range 24).map fun i =>
        let l := supplyLimits i
        decide (1000 * v.getD i 0 ≤ 101 * l.1 ∨ 1000 * v.getD i 0 ≥ 99 * l.2.1)
      let since := (List.range 24).map fun i =>
        if near.getD i false then some ((d.cnf.supplyLowSince.getD i none).getD d.now) else none
      let twice := (List.range 24).any fun i => out.getD i false && d.cnf.supplyOut.getD i false
      let d1 := d.modCnf fun c => { c with supplies := v, supplyOut := out, supplyLowSince := since }
      (d1.condition 0x82 (since.any fun x => x.any fun t => decide (t + cyclesS ≤ d1.now))).condition 0x02 twice

/-! ## Eye margins and link errors (R519, R528) -/

/-- A receive lane of R515 is in UP. -/
def Dev.laneUp (d : Dev) (lane : Nat) : Bool :=
  if lane < 64 then d.portState (lane / 4) == 3
  else if lane < 72 then
    let p := (lane - 64) / (8 / d.uplinkPorts)
    d.flag Reg.umacStat (24 + p) && d.flag Reg.umacStat (16 + p)
  else d.bstate (lane - 72) == 3

/-- A lane's eye margin is measured (R515, R516, R519): in UP, below EYE_MIN, with REEQ on and none in the last 60 s, its
equalisation is adapted; `after` is the margin then reached, none when block lock was lost meanwhile (R538). -/
def execEyeSample (lane : Fin 74) (eye : Nat) (after : Option Nat) (s : State) : Host.Outcome State Fault Refusal :=
  s.upd fun d =>
    if d.cnfOn = false then d
    else
      let l := lane.val
      let e := eye % 2 ^ 16
      let d1 := d.modCnf fun c => { c with eyes := modAt c.eyes l fun _ => e }
      let lim := d.fld Reg.cnfLim 0 12
      let recent := d.cnf.reeqAt.any fun x => x.1 == l && decide (d.now < x.2 + 60 * cyclesS)
      let settle := fun (d : Dev) (bad : Bool) =>
        let d2 := d.modCnf fun c => { c with unrestored := (c.unrestored.erase l) ++ (if bad then [l] else []) }
        d2.condition 0x83 (d2.cnf.unrestored != [])
      if e ≥ lim then settle d1 false
      else if d.laneUp l = false ∨ d.flag Reg.cnfCtrl 31 = false ∨ recent = true then d1
      else match after with
        | none => d1
        | some a =>
          if a % 2 ^ 16 < lim then settle d1 true
          else
            let d2 := d1.modCnf fun c => { c with
              eyes := modAt c.eyes l fun _ => a % 2 ^ 16
              reeqAt := (l, d1.now) :: c.reeqAt.filter fun x => x.1 != l }
            (settle d2 false).event 0x8E02 none (le 1 l ++ zeros 1 ++ le 2 e ++ le 2 (a % 2 ^ 16))

/-- Link error rates of the last second (R515, R528): corrected FEC symbols of each uplink lane out of `symbols`, bit errors
of each band port out of `bits`, SYNC_ERR of each head link port out of `blocks`. -/
def execLinkErrorSample (fec : List Nat) (symbols : Nat) (band : List Nat) (bits_ : Nat) (sync : List Nat) (blocks : Nat)
    (s : State) : Host.Outcome State Fault Refusal :=
  s.upd fun d =>
    if d.cnfOn = false then d
    else
      let d1 := d.modCnf fun c => { c with fecLast := min (2 ^ 32 - 1) ((fec.take 8).foldl (· + ·) 0) }
      let d2 := d1.condition 0x87 ((fec.take 8).any fun x => decide (x * 10 ^ 5 > symbols))
      let d3 := d2.condition 0x88 ((band.take 2).any fun x => decide (x * 10 ^ 12 > bits_))
      d3.condition 0x8B ((sync.take 16).any fun x => decide (x * 10 ^ 10 > blocks))

/-! ## The wear record (R527) -/

/-- Every hour the wear record is written into the alternate copy (R527); `ok`: the flash took it (source 0x8E otherwise). -/
def execWearRecordWrite (ok : Bool) (s : State) : Host.Outcome State Fault Refusal :=
  s.upd fun d =>
    if d.cnfOn = false then d
    else if ok = false then d.faultOn 0x8E
    else
      let n := d.cnf.recSeq + 1
      let rec_ : WearRec := ⟨n, Config.uid, d.cnf.eq, d.cnf.retired.filter fun r => !r.pending⟩
      ((d.modCnf fun c => { c with recSeq := n, copies := modAt c.copies (n % 2) fun _ => some rec_ }).emit
        (.flash (0x01000000 + n % 2 * 0x10000) n)).faultOff 0x8E

/-- At boot the copy with the higher sequence and this part's UID is read, one hour is added to every EQ_u, listed pages are
RETIRED; with none, wear starts from zero and source 0x8E is raised (R523, R527). -/
def Dev.loadWear (d : Dev) : Dev :=
  let good := (d.cnf.copies.filterMap id).filter fun r => r.uid == Config.uid
  let best := good.foldl (fun (acc : Option WearRec) r => match acc with
    | some b => if r.seq > b.seq then some r else acc
    | none => some r) none
  match best with
  | none => d.faultOn 0x8E
  | some r =>
    let d1 := d.modCnf fun c => { c with
      recSeq := r.seq, eq := r.eq.map (· + 3600 * 2 ^ wearBits), retired := r.retired }
    (((d1.modHood fun h => { h with retired := (h.retired ++ r.retired.map (·.page)).eraseDups }).showRetired).showFree).showWear

/-! ## Commands -/

/-- HEALTH_READ returns what the conformateur measures (R515). -/
def Dev.healthReport (d : Dev) : Bytes :=
  let seen := (List.range 74).filter fun i => decide (d.cnf.eyes.getD i 0 > 0)
  let worst := (minOf (seen.map fun i => d.cnf.eyes.getD i 0)).getD 0
  let lane := (seen.find? fun i => d.cnf.eyes.getD i 0 == worst).getD 0
  d.cnf.sensors.flatMap (sle 2) ++ d.cnf.supplies.flatMap (le 2)
  ++ le 1 (d.fld Reg.cnfStat 30 2) ++ le 1 (d.fld Reg.cnfStat 28 2) ++ le 2 worst ++ le 1 lane ++ zeros 3
  ++ le 4 d.cnf.fecLast ++ zeros 4

/-- HEALTH_READ (0x0E01). -/
def execHealthRead (r : Req) (s : State) : Host.Outcome State Fault Refusal :=
  s.upd fun d => d.command { code := 0x0E01, len := lenIs 0, objs := fun _ => [.health] } r fun d => .ok d d.healthReport

/-- WEAR_READ returns device and unit wear and the remaining life (R526). -/
def Dev.wearReport (d : Dev) : Bytes :=
  le 2 d.devWear ++ zeros 2 ++ le 4 d.remainH ++ le 8 d.cnf.powered
  ++ (List.range 16).flatMap fun u =>
    le 8 (d.eqSeconds u) ++ le 2 (d.ageUnit u) ++ le 2 (d.thermUnit u) ++ le 2 (d.wearUnit u) ++ zeros 2

/-- WEAR_READ (0x0E02). -/
def execWearRead (r : Req) (s : State) : Host.Outcome State Fault Refusal :=
  s.upd fun d => d.command { code := 0x0E02, len := lenIs 0, objs := fun _ => [.health] } r fun d => .ok d d.wearReport

/-- The adaptation policy in the layout of ADAPT_POLICY. -/
def Dev.policyBytes (d : Dev) : Bytes :=
  le 1 (d.fld Reg.cnfCtrl 31 1 + 2 * d.fld Reg.cnfCtrl 30 1 + 4 * d.fld Reg.cnfCtrl 29 1 + 8 * d.fld Reg.cnfCtrl 28 1) ++ zeros 1
  ++ le 2 (d.fld Reg.cnfCtrl 0 16) ++ le 1 (d.fld Reg.cnfLim 24 8) ++ zeros 1 ++ le 2 (d.fld Reg.cnfLim 0 12)
  ++ le 2 (d.fld Reg.cnfLim 12 12) ++ zeros 2

/-- The settings of an ADAPT_POLICY in their registers. -/
def Dev.setPolicy (d : Dev) (p : Bytes) : Dev :=
  let f := leAt p 0 1
  (d.wrN Reg.cnfCtrl (bits f 0 1 * 2 ^ 31 + bits f 1 1 * 2 ^ 30 + bits f 2 1 * 2 ^ 29 + bits f 3 1 * 2 ^ 28 + leAt p 2 2)).wrN
    Reg.cnfLim (leAt p 4 1 * 2 ^ 24 + leAt p 8 2 * 2 ^ 12 + leAt p 6 2)

/-- The ranges of an ADAPT_POLICY (R519, R521, R522, R526). -/
def policyOk (p : Bytes) : Bool :=
  decide (1 ≤ leAt p 2 2 ∧ 60 ≤ leAt p 4 1 ∧ leAt p 4 1 ≤ 120 ∧ 50 ≤ leAt p 6 2 ∧ leAt p 6 2 ≤ 500 ∧ leAt p 8 2 ≤ 1000)

/-- ADAPT_POLICY sets the adaptation enables and thresholds (R518). -/
def execAdaptPolicy (r : Req) (s : State) : Host.Outcome State Fault Refusal :=
  s.upd fun d => d.command
    { code := 0x0E03, len := lenIs 12, objs := fun _ => [.health],
      reserved := fun p => bits (leAt p 0 1) 4 4 == 0 && zeroAt p 1 1 && zeroAt p 5 1 && zeroAt p 10 2 } r fun d =>
    let p := r.payload
    if policyOk p = false then .err d St.badParam
    else if p = d.policyBytes then ⟨St.alreadyDone, d.policyBytes, d, [], [], false⟩
    else Result.stiff d (.ok (d.setPolicy p) d.policyBytes)

/-- PAGE_RETIRE_LIST returns entries of the retired list (R523). -/
def execPageRetireList (r : Req) (s : State) : Host.Outcome State Fault Refusal :=
  s.upd fun d => d.command { code := 0x0E04, len := lenIs 4, objs := fun _ => [.health] } r fun d =>
    let first := leAt r.payload 0 2
    let n := leAt r.payload 2 2
    if n < 1 ∨ n > 500 then .err d St.badParam
    else
      let es := (d.cnf.retired.drop first).take n
      .ok d (le 2 (d.cnf.retired.filter fun x => !x.pending).length ++ le 2 (d.cnf.retired.filter (·.pending)).length
        ++ le 2 es.length ++ zeros 2
        ++ es.flatMap fun x => le 2 x.page ++ le 1 x.cause ++ le 1 (b2n x.pending) ++ le 1 x.kind ++ zeros 3)

end Sys2Proof.Machine
end

