-- ==== Sys2Proof/Machine/Power.lean ====
section
/-! DEFINITION. Power, reset, start-up from flash, firmware images, test and debug access
(spec/18_power_clocks_boot.md). -/

namespace Sys2Proof.Machine

open Sys2Proof

/-- Change the power part of the state. -/
def Dev.modPwr (d : Dev) (f : Power → Power) : Dev := { d with pwr := f d.pwr }

/-! ## Resets (R553, R554) -/

/-- What outlives every reset: the flash and the fuses, the pins, the numbers of free values and what has left the
device. -/
def Dev.powerOn (d : Dev) (cause : Nat) : Dev :=
  let z : Dev := {}
  let d1 : Dev := { z with
    free := d.free, out := d.out
    cnf := { z.cnf with copies := d.cnf.copies }
    smb := { z.smb with resetLow := d.smb.resetLow }
    pwr := { z.pwr with
      images := d.pwr.images, record := d.pwr.record
      fuseRollback := d.pwr.fuseRollback, revoked := d.pwr.revoked } }
  d1.wrN Reg.rstCause cause

/-- A device reset (R554): what a power-on keeps, and also the frame store's bytes with VALID and RETIRED, the bulk areas, the
bridge scratch, the numbering of the log, and the debug failures; the log is emptied (R470). -/
def Dev.deviceReset (d : Dev) (cause : Nat) : Dev :=
  let z := d.powerOn cause
  let d1 : Dev := { z with
    bulk := d.bulk
    deep := d.deep.filter fun p => deepScratch p.1
    hood := { z.hood with fs := d.hood.fs, valid := d.hood.valid, retired := d.hood.retired, soiled := d.hood.soiled }
    flt := { z.flt with logNext := d.flt.logNext }
    pwr := { z.pwr with
      named := if cause = 2 then none else d.pwr.named, activated := d.pwr.activated
      prevFw := d.pwr.prevFw, extest := d.pwr.extest, jtagIr := d.pwr.jtagIr } }
  (d1.wrN Reg.dbgStat (d.fld Reg.dbgStat 0 2)).logEntry 5 0 FUnit.device

/-! ## Start-up (R556 to R563) -/

/-- The domains that the boot switches on, in order (R562). -/
def bootDomains : List Nat :=
  [122, 123, 124, 125, 130, 131, 132, 133, 134, 114, 115, 116, 117, 118, 119, 120, 121] ++ (List.range 8).map (96 + ·)

/-- The boot control record is changed: SEQ + 1 in the other copy (R560). -/
def Dev.writeRecord (d : Dev) (f : BootRec → BootRec) : Dev :=
  let r := { f d.pwr.record with seq := d.pwr.record.seq + 1 }
  (d.modPwr fun p => { p with record := r }).emit (.flash (0x01020000 + r.seq.toNat % 2 * 0x1000) r.seq.toNat)

/-- The boot ROM chooses the image (R561): BOOT_STAT shows slot, trial and reversion. -/
def Dev.chooseImage (d : Dev) : Dev :=
  let r := d.pwr.record
  let stat := fun (d : Dev) (s : Nat) (trial rev : Bool) =>
    (d.modPwr fun p => { p with slot := s, rejected := [], named := none }).wrN Reg.bootStat
      (s * 2 ^ 31 + b2n trial * 2 ^ 30 + b2n rev * 2 ^ 29 + d.pwr.fuseRollback * 2 ^ 16)
  match d.pwr.named with
  | some s => stat d s false false
  | none =>
    if r.trial && r.tries == 0 then stat (d.writeRecord fun r => { r with tries := 1 }) r.prefer true false
    else if r.trial then stat (d.writeRecord fun r => { r with prefer := 1 - r.prefer, trial := false }) (1 - r.prefer) false true
    else stat d r.prefer false false

/-- Start-up begins (R562): only the domains that are never switched are on, the others queue in the boot's order, and the
boot ROM chooses its image. -/
def Dev.startUp (d : Dev) : Dev :=
  let d1 := (List.range 136).foldl (fun (d : Dev) j => d.setFlag (Reg.pdOn (j / 32)) (j % 32) (decide (126 ≤ j ∧ j < 130))) d
  let d2 := (d1.modPwr fun p => { p with phase := .booting, fwVer := 0, queue := [] }).requestDomains true bootDomains
  ({ d2.chooseImage with smb := { d2.chooseImage.smb with standby := false } } : Dev).updatePin

/-- PWR_OK rises (R552, R554): a power-on reset of everything. -/
def execPwrOkRise (s : State) : Host.Outcome State Fault Refusal :=
  s.updPin { s.pins with pwrOk := true } fun d =>
    if s.pins.pwrOk then d
    else (d.powerOn 1).modPwr fun p => { p with phase := if s.pins.rstN then .reset else .held }

/-- PWR_OK falls (R553, R481): all activity stops, every domain is reset, PD_FLT among them. -/
def execPwrOkFall (s : State) : Host.Outcome State Fault Refusal :=
  s.updPin { s.pins with pwrOk := false } fun d => d.powerOn 1

/-- RST_N goes low (R554, R555): a device reset, without effect in the safe state (R481). -/
def execRstNAssert (s : State) : Host.Outcome State Fault Refusal :=
  s.updPin { s.pins with rstN := false } fun d =>
    if d.safe || !s.pins.pwrOk then d else (d.deviceReset 2).modPwr fun p => { p with phase := .held }

/-- RST_N rises, or is high after a power-on reset, with PWR_OK high: start-up (R562). -/
def execBootStart (s : State) : Host.Outcome State Fault Refusal :=
  s.updPin { s.pins with rstN := true } fun d =>
    if s.pins.pwrOk ∧ (d.pwr.phase = .held ∨ d.pwr.phase = .reset) then d.startUp else d

/-- A device reset owed by RESET_DEVICE or FW_ACTIVATE begins 1 ms after its response, and start-up runs (R93, R562); the safe
state is not ended by it (R481). -/
def execDeviceResetBegin (s : State) : Host.Outcome State Fault Refusal :=
  s.upd fun d =>
    match d.pwr.resetDue with
    | none => d
    | some cause => if d.safe then d else (d.deviceReset cause).startUp

/-- What an image's header says. -/
def imageOf (img : Bytes) : Image := ⟨leAt img 8 4, leAt img 12 4, leAt img 16 4, leAt img 28 1⟩

/-- The conditions of R559 on an image as read: header and body. -/
def Dev.imageOk (d : Dev) (img : Bytes) : Bool :=
  let n := leAt img 16 4
  let body := slice img 512 n
  decide (leAt img 0 4 = 0x4D495A54 ∧ leAt img 4 2 = 1 ∧ 4 ≤ n ∧ n ≤ 3145728 ∧ n % 4 = 0 ∧ 512 + n ≤ img.length)
  && Config.loadOk (leAt img 20 4) n
  && slice img 32 48 == sha384 body
  && (match fusedKey (sha384 (slice img 80 96)) with
      | some k => decide (k < 4) && !bit d.pwr.revoked k
      | none => false)
  && ecdsaOk (slice img 80 96) (slice img 176 96) (sha384 (img.take 176))
  && decide (leAt img 12 4 ≥ d.pwr.fuseRollback ∧ leAt img 12 4 < 64) && decide (leAt img 28 1 ≥ Config.clMax)

/-- Change the header that the device knows of a slot. -/
def Dev.setImage (d : Dev) (s : Nat) (x : Option Image) : Dev := d.modPwr fun p => { p with images := modAt p.images s fun _ => x }

/-- An image has been read from the slot under trial (R559, R561, R563): accepted, the firmware starts; rejected, source 0x08
is raised and the other slot is tried, or the device stays in BOOTING. -/
def execImageLoaded (image : Bytes) (s : State) : Host.Outcome State Fault Refusal :=
  s.upd fun d =>
    if d.pwr.phase ≠ .booting then d
    else
      let sl := d.pwr.slot
      if d.imageOk image then
        (d.setImage sl (some (imageOf image))).modPwr fun p => { p with phase := .firmware, fwVer := leAt image 8 4 }
      else
        let d1 := (d.setFlag Reg.bootStat (28 - sl) true).fault 0x08
        let o := 1 - sl
        if d1.pwr.rejected.contains o then d1.modPwr fun p => { p with phase := .stuck, rejected := sl :: p.rejected }
        else ((d1.modPwr fun p => { p with slot := o, rejected := sl :: p.rejected }).setFld Reg.bootStat 31 1 o).setFlag Reg.bootStat 30 false

/-- The default partition without the retired pages (R333, R523): a retired bulk page is replaced first, and hood 15 gives up
as many pages as are gone. -/
def Dev.bootPartition (d : Dev) : Dev :=
  let bulk := d.hood.retired.filter fun p => decide (usablePages ≤ p)
  let d0 := d.modHood fun h => { h with areas := h.areas.filter (·.kind == 5) }
  let d1 := bulk.foldl (fun (d : Dev) p => match d.hood.freePage with
    | some q => d.modHood fun h => { h with repl := (p, q) :: h.repl }
    | none => d) d0
  let gone := d1.goneUsable.eraseDups.length
  let d2 := d1.setFld (Reg.hoodCfg 15) 0 15 (1401 - min gone 1401)
  let d3 := d2.repartition d2.partition
  if d3.uninitialised = 0 then d3.setFlag Reg.fsStat 30 false else d3

/-- Start-up completes (R562): the frame store is trained, wear and retired pages are read, every boot-set domain is on, the
pair shows health, READY is raised, and FW_ACTIVATED after the first boot of a trial image (R561). -/
def execReady (bootMs : BitVec 16) (s : State) : Host.Outcome State Fault Refusal :=
  s.upd fun d =>
    if d.pwr.phase ≠ .firmware ∨ d.safe = true then d
    else
      let d1 := (List.range 5).foldl (fun (d : Dev) i => d.wr (Reg.pdOn i) (RegMap.resetAt (Reg.pdOn i))) d
      let d2 := ((d1.modPwr fun p => { p with queue := [], phase := .ready }).showSeq).setFld Reg.bootStat 0 16 bootMs.toNat
      let d3 := ((d2.setFlag Reg.fsStat 31 true).loadWear).bootPartition
      let d4 := (d3.updatePin).event 0x8101 none (le 1 d3.pwr.slot ++ zeros 3)
      let fresh := d4.pwr.activated && d4.pwr.record.trial && d4.pwr.slot == d4.pwr.record.prefer
      let d5 := if fresh then
          d4.event 0x9001 none (le 4 d4.pwr.prevFw ++ le 4 d4.pwr.fwVer ++ le 1 d4.pwr.slot ++ zeros 3) else d4
      d5.modPwr fun p => { p with activated := false }

/-- The references slip, or a reference or the PLL is lost (R540): CLK_STAT shows what holds from now on (ROOT_LOCK,
REF_CORE_OK, REF_SERDES_OK, REF_REL as bits 3 to 0), and source 0x01 is raised. -/
def execRefClockSlip (stat : BitVec 4) (s : State) : Host.Outcome State Fault Refusal :=
  s.upd fun d => (d.setFld Reg.clkStat 28 4 stat.toNat).pulse [0x01] 0

/-! ## Firmware commands -/

/-- A slot's part of FW_INFO; what the header of a slot not yet read says is free. -/
def Dev.slotInfo (d : Dev) (s : Nat) : Bytes × Dev :=
  let v := le 1 (bits d.pwr.record.valid s 1)
  match (d.pwr.images.getD s none) with
  | some x => (v ++ le 1 x.clMax ++ zeros 2 ++ le 4 x.fwVer ++ le 4 x.rollback ++ le 4 x.length, d)
  | none =>
    let (a, d1) := d.fresh 8
    let (b, d2) := d1.fresh 32
    let (c, d3) := d2.fresh 32
    let (e, d4) := d3.fresh 32
    (v ++ le 1 a ++ zeros 2 ++ le 4 b ++ le 4 c ++ le 4 e, d4)

/-- FW_INFO reports the slots and the boot state (R560). -/
def execFwInfo (r : Req) (s : State) : Host.Outcome State Fault Refusal :=
  s.upd fun d => d.command { code := 0x1001, len := lenIs 0, objs := fun _ => [.fwImages] } r fun d =>
    let k := d.pwr.record
    let (a, d1) := d.slotInfo 0
    let (b, d2) := d1.slotInfo 1
    .ok d2 (le 1 d.pwr.slot ++ le 1 k.prefer
      ++ le 1 (b2n k.trial + 2 * bits k.tries 0 1 + 4 * d.fld Reg.bootStat 29 1) ++ le 1 d.pwr.fuseRollback
      ++ le 1 (bits d.pwr.revoked 0 4) ++ zeros 3 ++ a ++ b)

/-- Free frame store pages; a snapshot's capture and an import take 8 each (R535), an image being staged 2. -/
def Dev.freePages (d : Dev) : Nat :=
  usablePages - (d.goneUsable.eraseDups.length + sumN ((d.hood.areas.filter (·.kind != 5)).map (·.count))
    + 8 * b2n d.cnf.capture.isSome + 8 * b2n d.cnf.importing.isSome + 2 * b2n (d.accepted.any (·.code == 0x1002)))

/-- FW_STAGE begins to fetch an image for a slot that is not running. -/
def execFwStage (r : Req) (s : State) : Host.Outcome State Fault Refusal :=
  s.upd fun d => d.command
    { code := 0x1002, len := lenIs 28, reserved := fun p => zeroAt p 1 3 && refReserved p 4
      objs := fun p => .fwImages :: refObjs r.mbx.val (bulkRef p 4) } r fun d =>
    let p := r.payload
    let sl := leAt p 0 1
    let b := bulkRef p 4
    if sl > 1 ∨ sl = d.pwr.slot ∨ b.len < 520 ∨ b.len > 3146244 then .err d St.badParam
    else if d.pwr.record.trial then .err d St.badState
    else if d.freePages < 2 then .err d St.noResource
    else match d.refCheck b with
      | some st => .err d st
      | none => .acc (d.fetch r.mbx.val b) (.fwImages :: refObjs r.mbx.val b) []

/-- The staged image has arrived with a good seal: checked under R559, then the slot's VALID is cleared and it is programmed. -/
def Dev.stageImage (d : Dev) (a : Accepted) (data : Bytes) : Dev :=
  let sl := leAt a.req.payload 0 1
  if d.imageOk data && decide (data.length = 512 + leAt data 16 4) then
    (d.modPwr fun p => { p with staging := some (sl, imageOf data) }).writeRecord fun r =>
      { r with valid := r.valid - bits r.valid sl 1 * 2 ^ sl }
  else (d.fault 0x08).followUp a St.notPermitted []

/-- Programming and read-back of a staged image end: the slot is VALID, or left not VALID (R559). -/
def execFwStageDone (ok : Bool) (s : State) : Host.Outcome State Fault Refusal :=
  s.upd fun d =>
    match d.pwr.staging with
    | none => d
    | some (sl, x) =>
      let d1 := d.modPwr fun p => { p with staging := none }
      let d2 := if ok then
          ((d1.setImage sl (some x)).writeRecord fun r => { r with valid := r.valid ||| 2 ^ sl }).emit (.flash (sl * 0x800000) x.fwVer)
        else d1.setImage sl none
      d2.finish (d2.owed 0x1002) (if ok then St.ok else St.internal) []

/-- FW_COMMIT ends a trial of the running image; ADVANCE, on mailbox 0 only, blows the anti-rollback fuses. -/
def execFwCommit (r : Req) (s : State) : Host.Outcome State Fault Refusal :=
  s.upd fun d => d.command { code := 0x1003, len := lenIs 4, objs := fun _ => [.fwImages],
                             reserved := fun p => decide (leAt p 0 1 < 2) && zeroAt p 1 3 } r fun d =>
    let adv := leAt r.payload 0 1 == 1
    let roll := ((d.pwr.images.getD d.pwr.slot none).map (·.rollback)).getD 0
    if adv && r.mbx.val != 0 then .err d St.notPermitted
    else
      let fuse := if adv then max d.pwr.fuseRollback roll else d.pwr.fuseRollback
      let out := le 1 fuse ++ zeros 3
      if d.pwr.record.trial = false ∧ fuse = d.pwr.fuseRollback then ⟨St.alreadyDone, out, d, [], [], false⟩
      else
        let d1 := if d.pwr.record.trial then d.writeRecord fun x => { x with trial := false, prefer := d.pwr.slot } else d
        .ok ((d1.modPwr fun p => { p with fuseRollback := fuse }).setFld Reg.bootStat 16 6 fuse) out

/-- FW_ACTIVATE starts a trial of the other slot: the record is written, and the device reset follows (R561). -/
def execFwActivate (r : Req) (s : State) : Host.Outcome State Fault Refusal :=
  s.upd fun d => d.command { code := 0x1004, len := lenIs 8, objs := fun _ => [.fwImages],
                             reserved := fun p => zeroAt p 5 3 } r fun d =>
    let sl := leAt r.payload 4 1
    if leAt r.payload 0 4 ≠ 0x1680 ∨ sl > 1 then .err d St.badParam
    else if sl = d.pwr.slot ∨ bit d.pwr.record.valid sl = false ∨ d.pwr.record.trial = true then .err d St.badState
    else
      let d1 := d.writeRecord fun x => { x with prefer := sl, trial := true, tries := 0 }
      .ok (d1.modPwr fun p => { p with resetDue := some 4, named := none, activated := true, prevFw := p.fwVer }) []

/-! ## Test and debug access (R564 to R566) -/

/-- DBG_CHAL shifts out the UID and a fresh 32-byte nonce; after three invalid responses it refuses until PWR_OK falls. -/
def execDbgChal (s : State) : Host.Outcome State Fault Refusal :=
  s.upd fun d =>
    if d.fld Reg.dbgStat 0 2 = 3 then d
    else
      let nonce := (List.range 4).flatMap fun i => le 8 (Config.freeValue (d.free + i)).toNat
      (({ d with free := d.free + 4 } : Dev).modPwr fun p => { p with nonce := some nonce }).emit
        (.debug (le 8 Config.uid ++ nonce))

/-- DBG_RESP: a valid signature over SHA-384 of UID, nonce and scope unlocks the scope; another response counts in FAILS. -/
def execDbgResp (scope : BitVec 8) (sig : Bytes) (s : State) : Host.Outcome State Fault Refusal :=
  s.upd fun d =>
    match d.pwr.nonce with
    | none => d
    | some n =>
      let d1 := d.modPwr fun p => { p with nonce := none }
      if ecdsaOk debugKey sig (sha384 (le 8 Config.uid ++ n ++ [scope])) then
        let open_ := d1.fld Reg.dbgStat 28 3 ||| scope.toNat % 8
        (d1.setFlag Reg.dbgStat 31 (open_ != 0)).setFld Reg.dbgStat 28 3 open_
      else d1.incSat Reg.dbgStat 0 2 1

/-- A boundary-scan instruction is taken (R564): the instruction register, and whether it is EXTEST, under which the pins
follow the scan cells. -/
def execJtagInstruction (ir : Nat) (extest : Bool) (s : State) : Host.Outcome State Fault Refusal :=
  s.updPin s.pins fun d => if s.pins.pwrOk then d.modPwr fun p => { p with jtagIr := ir, extest := extest } else d

end Sys2Proof.Machine
end

