-- ==== Sys2Proof/Machine/Snapshot.lean ====
section
/-! DEFINITION. Conduct levels and snapshots (spec/17_conformateur_and_longevity.md R529 to R538). -/

namespace Sys2Proof.Machine

open Sys2Proof

/-! ## Conduct levels -/

/-- The locked conduct level, 0 if none. -/
def Dev.locked (d : Dev) : Nat := d.fld Reg.conduct 0 8

/-- LIST_CONDUCT lists the levels that the part supports (R529). -/
def execListConduct (r : Req) (s : State) : Host.Outcome State Fault Refusal :=
  s.upd fun d => d.command { code := 0x0201, len := lenIs 0, objs := fun _ => [.conduct] } r fun d =>
    .ok d (le 1 Config.clMax ++ le 1 d.locked ++ zeros 2
      ++ (List.range Config.clMax).flatMap fun i => le 1 (i + 1) ++ zeros 3 ++ le 4 (Config.fwMin (i + 1)).toNat)

/-- LOCK_CONDUCT locks a level until the next device reset (R532). -/
def execLockConduct (r : Req) (s : State) : Host.Outcome State Fault Refusal :=
  s.upd fun d => d.command { code := 0x0202, len := lenIs 4, objs := fun _ => [.conduct], reserved := fun p => zeroAt p 1 3 } r fun d =>
    let l := leAt r.payload 0 1
    if l = 0 ∨ l > Config.clMax then .err d St.badParam
    else if d.stiffActive then .err d St.stiffened
    else if d.locked = l then ⟨St.alreadyDone, [], d, [], [], false⟩
    else if d.locked ≠ 0 then .err d St.conductLocked
    else if d.lineStarted || d.anyStream then .err d St.badState
    else .ok (d.setFld Reg.conduct 0 8 l) []

/-! ## The snapshot (R533, R534) -/

/-- Section REGS. -/
def Dev.snapRegs (d : Dev) : Bytes :=
  ((List.range 64).flatMap stiffSlot).flatMap fun a => le 4 a ++ le 4 (d.rdN a)

/-- Section CMDS, with the number of records. -/
def Dev.snapCmds (d : Dev) : Bytes :=
  d.cnf.cmds.flatMap fun c => le 2 c.1 ++ le 2 c.2.2.length ++ c.2.2 ++ zeros ((4 - c.2.2.length % 4) % 4)

/-- The RAMs that a snapshot holds: deep address and bytes, ascending. -/
def snapRams : List (Nat × Nat) :=
  ((List.range 16).flatMap fun n => ([(0, 0x30000), (0x30000, 0x30000), (0x60000, 0x8000), (0x68000, 0x8000), (0x70000, 0x2000),
    (0x72000, 0x2000), (0x74000, 0x800), (0x74800, 0x800), (0x80000, 0x40000), (0xC0000, 0x40000)] : List (Nat × Nat)).map
      fun (x : Nat × Nat) => (tableBase n + x.1, x.2))
  ++ [(0x14000000, 0x2000), (0x14002000, 0x2000)]

/-- Section DEEP; an entry that reads as uncorrectable is a free word there (notes/assumptions/130.md). -/
def Dev.snapDeep (d : Dev) : Bytes :=
  let word := fun (a : Nat) => if (d.liveView 0).isLost a then Config.lostWord a else d.deepRd a
  snapRams.flatMap fun x => le 4 x.1 ++ le 4 x.2 ++ (List.range (x.2 / 4)).flatMap fun i => le 4 (word (x.1 + 4 * i)).toNat

/-- Pad to a multiple of 64. -/
def pad64To (b : Bytes) : Bytes := b ++ zeros ((64 - b.length % 64) % 64)

/-- A directory entry. -/
def snapDir (type off len count : Nat) : Bytes := le 2 type ++ zeros 2 ++ le 4 off ++ le 4 len ++ le 4 count

/-- The whole snapshot of generation g with its seal. -/
def Dev.snapshotBytes (d : Dev) (g : Nat) : Bytes :=
  let regs := d.snapRegs
  let cmds := d.snapCmds
  let deep := d.snapDeep
  let o1 := 128
  let o2 := o1 + (pad64To regs).length
  let o3 := o2 + (pad64To cmds).length
  let len := o3 + deep.length
  let head := le 4 0x4E535A54 ++ le 2 1 ++ le 1 d.locked ++ le 1 3 ++ le 4 len ++ le 4 (d.fld Reg.plantAddr 0 18) ++ le 8 Config.uid
    ++ le 2 Config.step ++ le 1 (if Config.gradeX then 0x58 else 0x49) ++ le 1 d.authMode ++ le 4 d.pwr.fwVer ++ le 8 d.timeNs
    ++ le 4 (scanSeal d.scanRuns).toNat ++ le 4 g ++ zeros 16
  let dir := snapDir 1 o1 regs.length (regs.length / 8) ++ snapDir 2 o2 cmds.length d.cnf.cmds.length
    ++ snapDir 3 o3 deep.length snapRams.length
  withSeal (len + d.locked * 2 ^ 32) (pad64To (head ++ dir) ++ pad64To regs ++ pad64To cmds ++ deep)

/-- SNAPSHOT_EXPORT captures a snapshot at SNAP_OFF 0, and writes one piece of the capture (R535). -/
def execSnapshotExport (r : Req) (s : State) : Host.Outcome State Fault Refusal :=
  s.upd fun d => d.command
    { code := 0x0203, len := lenIs 40,
      objs := fun p => .conduct :: (if bit (leAt p 0 1) 0 then [] else refObjs r.mbx.val (bulkRef p 16)),
      reserved := fun p => decide (leAt p 0 1 < 2) && zeroAt p 1 3 && zeroAt p 12 4 && (bit (leAt p 0 1) 0 || refReserved p 16) } r
    fun d =>
    let p := r.payload
    let off := leAt p 8 4
    let sizeOnly := bit (leAt p 0 1) 0
    let ref := bulkRef p 16
    if off % 4 ≠ 0 ∨ (sizeOnly = true ∧ zeroAt p 16 24 = false) then .err d St.badParam
    else if d.locked = 0 ∨ d.lineStarted = true ∨ d.anyStream = true then .err d St.badState
    else
      -- the next capture releases the last (R535)
      let free := ({ d with cnf := { d.cnf with capture := none } } : Dev)
      let d1 := if off = 0 then
          let c := d.snapshotBytes ((d.cnf.gen + 1) % 2 ^ 32)
          ({ free with cnf := { free.cnf with gen := d.cnf.gen + 1, capture := some c } } : Dev).unitRun 5
            (c.length - 4 + d.locked * 2 ^ 32) (c.take (c.length - 4))
        else d
      match d1.cnf.capture with
      | none => .err d St.badParam
      | some c =>
        if off ≠ 0 ∧ (off > c.length ∨ leAt p 4 4 ≠ d.cnf.gen % 2 ^ 32) then .err d St.badParam
        else if off = 0 ∧ free.freePages < 8 then .err d St.noResource
        else
          let out := fun (n : Nat) => le 4 c.length ++ le 4 (d1.cnf.gen % 2 ^ 32) ++ le 4 n
          if sizeOnly then .ok d1 (out 0)
          else match d1.refCheck ref with
            | some st => .err d st
            | none =>
              let piece := slice c off (min (ref.len - 4) (c.length - off))
              .acc (d1.bulkOut r.mbx.val { ref with len := piece.length + 4 } piece) (.conduct :: refObjs r.mbx.val ref)
                [c.length, d1.cnf.gen % 2 ^ 32, piece.length]

/-- SNAPSHOT_IMPORT begins to fetch a piece of a snapshot (R536). -/
def execSnapshotImport (r : Req) (s : State) : Host.Outcome State Fault Refusal :=
  s.upd fun d => d.command
    { code := 0x0204, len := lenIs 36, objs := fun _ => [.snapshot],
      reserved := fun p => decide (leAt p 0 1 < 4) && zeroAt p 1 3 && zeroAt p 8 4 && refReserved p 12 } r fun d =>
    let p := r.payload
    let off := leAt p 4 4
    let ref := bulkRef p 12
    let first := bit (leAt p 0 1) 0
    let gap := if first then decide (off ≠ 0) else d.cnf.importing.all fun b => decide (b.length ≠ off)
    if gap then .err d St.badParam
    else if d.stiffActive then .err d St.stiffened
    else if d.lineStarted || d.anyStream then .err d St.badState
    else if first && decide (({ d with cnf := { d.cnf with importing := none } } : Dev).freePages < 8) then .err d St.noResource
    else match d.refCheck ref with
      | some st => .err d st
      | none => .acc (d.fetch r.mbx.val ref) [.snapshot] []

/-! ## Applying a snapshot (R536) -/

/-- A section of a snapshot by TYPE: its bytes, if the directory and the bounds hold. -/
def snapSection (b : Bytes) (type : Nat) : Option Bytes :=
  match (List.range (leAt b 7 1)).find? fun i => leAt b (64 + 16 * i) 2 == type with
  | none => none
  | some i =>
    let off := leAt b (64 + 16 * i + 4) 4
    let len := leAt b (64 + 16 * i + 8) 4
    if off % 64 = 0 ∧ off + len ≤ leAt b 8 4 then some (slice b off len) else none

/-- Records of CMDS. -/
def snapRecords : Nat → Bytes → List (Nat × Bytes)
  | 0, _ => []
  | n + 1, b =>
    if b.length < 4 then []
    else
      let len := leAt b 2 2
      (leAt b 0 2, slice b 4 len) :: snapRecords n (b.drop (4 + (len + 3) / 4 * 4))

/-- The domain switches that a replayed command waits for are carried to their end. -/
def Dev.switchAll (d : Dev) : Nat → Dev
  | 0 => d
  | n + 1 => match d.pwr.queue with
    | [] => d
    | (j, on) :: _ => (d.switchDone j on).switchAll n

/-- The meaning of a recorded command. -/
def replayExec (code : Nat) (r : Req) (s : State) : Host.Outcome State Fault Refusal :=
  match code with
  | 0x0301 => execEncoderConfig r s
  | 0x0307 => execCoilMarkConfig r s
  | 0x0401 => execHeadAttach r s
  | 0x0804 => execExposureAuto r s
  | 0x0904 => execBudgetSet r s
  | 0x0A01 => execHoodConfig r s
  | 0x0B01 => execUplinkConfig r s
  | 0x0C01 => execBandConfig r s
  | 0x0C02 => execBandRole r s
  | 0x0C03 => execTimebaseConfig r s
  | 0x0E03 => execAdaptPolicy r s
  | _ => .next s

/-- Replay one record: its command runs to its end, answers nobody, and must succeed. -/
def Dev.replay (d : Dev) (code : Nat) (payload : Bytes) : Option Dev :=
  let r : Req := ⟨0, 0, 0, true, false, [], payload⟩
  let start : Dev := { d with accepted := [], running := [], boxes := List.replicate 8 {} }
  let after := match replayExec code r ⟨start, {}, []⟩ with
    | .next s => s.dev.switchAll 256
    | _ => start
  let ok := ((after.box 0).stored.map (·.status)).any fun st => st == St.ok || st == St.alreadyDone || st == St.accepted
  if ok && (cmdKey code payload).isSome then
    some { after with accepted := d.accepted, running := d.running, boxes := d.boxes, smb := d.smb }
  else none

/-- Replay every record in order. -/
def Dev.replayAll (d : Dev) : List (Nat × Bytes) → Option Dev
  | [] => some d
  | (c, p) :: t => (d.replay c p).bind fun d1 => d1.replayAll t

/-- Write REGS: the writable fields of every register listed, each of which must be stiffened. -/
def Dev.importRegs (d : Dev) : Nat → Bytes → Option Dev
  | 0, _ => some d
  | n + 1, b =>
    let a := leAt b 0 4
    if RegMap.stiffened a = false ∨ a % 4 ≠ 0 then none
    else
      let m := RegMap.rwMask a
      (d.wr a ((BitVec.ofNat 32 (leAt b 4 4) &&& m) ||| (d.rd a &&& ~~~m))).importRegs n (b.drop 8)

/-- Write DEEP: every record names a RAM of a snapshot. -/
def Dev.importDeep (d : Dev) : Nat → Bytes → Option Dev
  | 0, b => if b = [] then some d else none
  | n + 1, b =>
    if b = [] then some d
    else
      let a := leAt b 0 4
      let len := leAt b 4 4
      if snapRams.contains (a, len) ∧ 8 + len ≤ b.length then (d.deepWrBytes a (slice b 8 len)).importDeep n (b.drop (8 + len))
      else none

/-- What the replay of CMDS reads beside its own records: the trigger modes and the role of the snapshot's REGS
(notes/assumptions/61.md). -/
def Dev.presetReplay (d : Dev) (regs : Bytes) : Dev :=
  (List.range (regs.length / 8)).foldl (fun d i =>
    let a := leAt regs (8 * i) 4
    let v := leAt regs (8 * i + 4) 4
    if ((List.range 16).any fun k => Reg.headTrig k == a) then d.wrN a v
    else if a = Reg.bandCfg then d.setFld Reg.bandCfg 30 2 (bits v 30 2)
    else d) d

/-- Every queue pair FREE, every stream stopped, the region table empty (R536). -/
def Dev.emptyPlacement (d : Dev) : Dev :=
  let d1 := (List.range 64).foldl (fun d q => d.wrN (Reg.qpStat q) 0) d
  let d2 := (List.range 8).foldl (fun d s => d.setFlag (Reg.strCfg s) 31 false) d1
  d2.modPlc fun p => { p with
    regions := p.regions.map fun x => { x with live := false }, qps := p.qps.map fun _ => {}, streams := p.streams.map fun _ => {}
    fences := [] }

/-- The checks of a whole snapshot (R536): MAGIC and VERSION, the seal, the level, the authentication mode. -/
def Dev.importCheck (d : Dev) (b : Bytes) : Nat :=
  let len := leAt b 8 4
  let cl := leAt b 6 1
  if leAt b 0 4 ≠ 0x4E535A54 ∨ leAt b 4 2 ≠ 1 then St.badParam
  else if b.length < 64 ∨ b.length ≠ len + 4 ∨ b.length > 16777216 ∨ checkSeal (len + cl * 2 ^ 32) b = none then St.badSeal
  else if cl = 0 ∨ cl > Config.clMax then St.badParam
  else if d.locked ≠ 0 ∧ d.locked ≠ cl then St.conductLocked
  else if leAt b 27 1 ≠ d.authMode then St.badState
  else St.ok

/-- Apply a checked snapshot: CMDS, REGS, DEEP, the level and the plant address, then a stiffening scan; stiffening stays
inactive. None when a step fails. -/
def Dev.importApply (d : Dev) (b : Bytes) : Option (Dev × Bool) :=
  match snapSection b 1, snapSection b 2, snapSection b 3 with
  | some regs, some cmds, some deep =>
    match ((d.presetReplay regs).replayAll (snapRecords cmds.length cmds)).bind fun d1 =>
        (d1.importRegs (regs.length / 8) regs).bind fun d2 => d2.importDeep (snapRams.length + 1) deep with
    | none => none
    | some d3 =>
      let d4 := ((d3.setFld Reg.conduct 0 8 (leAt b 6 1)).setFld Reg.plantAddr 0 18 (leAt b 12 4)).emptyPlacement
      let d5 := (d4.setFlag Reg.stfCtrl 31 false).faultOff 0x04
      let runs := d5.scanRuns
      let d6 := ({ d5 with scan := { d5.scan with rebaseThis := false, serves := false } } : Dev).finishStiff runs
      some (d6, scanSeal runs == BitVec.ofNat 32 (leAt b 40 4))
  | _, _, _ => none

/-- A piece of a snapshot has arrived with a good seal; with LAST the whole is checked and applied, and the follow-up and
TRANSPLANT_TAKEN are given (R536, R537). -/
def Dev.importPiece (d : Dev) (a : Accepted) (data : Bytes) : Dev :=
  let fl := leAt a.req.payload 0 1
  let all := (if bit fl 0 then [] else d.cnf.importing.getD []) ++ data
  let keep := fun (d : Dev) (x : Option Bytes) => ({ d with cnf := { d.cnf with importing := x } } : Dev)
  if bit fl 1 = false then (keep d (some all)).followUp a St.ok []
  else
    let d0 := (keep d none).unitRun 4 (leAt all 8 4 + leAt all 6 1 * 2 ^ 32) (all.take (all.length - 4))
    let st := d0.importCheck all
    if st ≠ St.ok then d0.followUp a st []
    else match d0.importApply all with
      | none => d0.followUp a St.badParam []
      | some (d1, ok) =>
        let head := le 4 (leAt all 12 4) ++ le 1 (leAt all 6 1) ++ le 1 (b2n ok) ++ zeros 2
        (d1.followUp a St.ok head).eventFor a.req.mbx.val 0x8201 none (head ++ le 8 (leAt all 16 8))

end Sys2Proof.Machine
end

