-- ==== Sys2Proof/Machine/Bulk.lean ====
section
/-! DEFINITION. The ends of bulk fetches and bulk writes (spec/02_command_interface.md R75 to R79). -/

namespace Sys2Proof.Machine

open Sys2Proof

/-- A bulk request of mailbox m, of the kind given, is still on a queue pair. -/
def Dev.bulkPending (d : Dev) (k : WKind) : Bool := d.plc.qps.any fun q => q.sq.any fun w => w.kind == k

/-- Its requests are withdrawn. -/
def Dev.dropBulk (d : Dev) (k : WKind) : Dev :=
  d.modPlc fun p => { p with qps := p.qps.map fun q => { q with sq := q.sq.filter fun w => w.kind != k } }

/-- The follow-up of a pixel command whose tables stand in the inactive bank: committed if asked (R214, R253). -/
def Dev.pxDone (d : Dev) (a : Accepted) (payload : Bytes) : Dev :=
  let x := d.pxFinish a.req.payload
  x.1.followUp a x.2 (if x.2 = St.ok then payload else [])

/-- A pixel command applies its fetched data to the inactive bank (R214), and is committed if asked. -/
def Dev.applyPixel (d : Dev) (a : Accepted) (data : List Bytes) : Dev :=
  let p := a.req.payload
  let n := pxHead p
  let b := d.inactive n
  let x := data.headD []
  match a.code with
  | 0x0501 => if d.fusedBusy p then d.followUp a St.badState [] else (d.applyPounce p x).pxDone a []
  | 0x0502 =>
    let c := leAt p 16 2
    if defectsOk (d.width n) (d.defectRows n) c none x then
      ((d.deepWrBytes (tableBase n + 0x60000 + b * 0x8000) x).setFld (Reg.mosCfg n b) 0 13 c).pxDone a []
    else d.followUp a St.badParam []
  | 0x0503 =>
    if kernelsOk (leAt p 17 1 == 2) x then
      ((d.setMosaic n b p).deepWrBytes (tableBase n + 0x70000 + b * 0x2000) x).pxDone a []
    else d.followUp a St.badParam []
  | _ =>
    let fl := leAt p 22 1
    let kern := if bit fl 1 then data.getLast? else none
    -- the grid may have been set anew since the acceptance (R249)
    match d.blockMapBad p with
    | some st => d.followUp a st []
    | none =>
      match d.applyBlock p (if bit fl 0 then some x else none) kern with
      | none => d.followUp a St.badParam []
      | some (d1, lo, hi, anchor) => d1.pxDone a (sle 1 lo ++ sle 1 hi ++ le 2 anchor)

/-- A command applies its fetched data, checked and stripped of their seals (R77). -/
def Dev.applyFetched (d : Dev) (a : Accepted) (data : List Bytes) : Dev :=
  match a.code with
  | 0x0204 => d.importPiece a (data.headD [])
  | 0x1002 => d.stageImage a (data.headD [])
  | _ =>
    match d.pxLate a.req.payload with
    | some st => d.followUp a st []
    | none => d.applyPixel a data

/-- What arrived for a reference, seal included: from the bulk area of mailbox m, or by READ (R77). -/
def Dev.arrivedOf (d : Dev) (m : Nat) (b : BulkRef) (arrived : Bytes) : Bytes :=
  if b.region = bulkArea then d.bulkRd m b.off b.len else arrived.take b.len

/-- Seal unit 4 has run over the data of every reference (R116). -/
def Dev.sealFetched (d : Dev) (m : Nat) : List BulkRef → Bytes → Dev
  | [], _ => d
  | b :: t, arrived =>
    (d.unitRun 4 b.off ((d.arrivedOf m b arrived).take (b.len - 4))).sealFetched m t
      (if b.region = bulkArea then arrived else arrived.drop b.len)

/-- The fetched references of a command, each checked and stripped; the bytes that arrived stand in their order. -/
def Dev.fetchedAll (d : Dev) (m : Nat) : List BulkRef → Bytes → Option (List Bytes)
  | [], _ => some []
  | b :: t, arrived =>
    match d.fetched m b arrived with
    | none => none
    | some x => (d.fetchedAll m t (if b.region = bulkArea then arrived else arrived.drop b.len)).map (x :: ·)

/-- The bulk fetch of mailbox m completes (R77): `data` are the bytes that the READs of its references returned. -/
def execBulkFetchDone (m : Fin 8) (data : Bytes) (x : FetchEnd) (s : State) :
    Host.Outcome State Fault Refusal :=
  s.upd fun d0 =>
    let mm := m.val
    let d := d0.fsErrors x.corrected x.bad
    match d.accepted.find? fun a => a.req.mbx == m && (fetchRefs a.code a.req.payload) != []
        && !(a.code == 0x1002 && d.pwr.staging.isSome) with
    | none => d0
    | some a =>
      let refs := fetchRefs a.code a.req.payload
      let d1 := d.dropBulk (.bulkRead mm)
      if (refs.any fun b => b.region != bulkArea && !d.regionLive b.region) = true then d1.followUp a St.regionRevoked []
      else if x.outcome = 1 then d1.followUp a St.remoteError []
      else if x.bad ≠ [] then d1.followUp a St.badSeal []
      else if d.bulkPending (.bulkRead mm) then d
      else
        let d2 := d.sealFetched mm refs data
        match d2.fetchedAll mm refs data with
        | none => d2.followUp a St.badSeal []
        | some l => d2.applyFetched a l

/-- The outgoing bulk write of mailbox m ends (R78): 0 acknowledged, 1 refused by the responder or a queue pair in error. -/
def execBulkWriteAcked (m : Fin 8) (outcome : Fin 2) (s : State) : Host.Outcome State Fault Refusal :=
  s.upd fun d =>
    let mm := m.val
    match d.accepted.find? fun a => a.req.mbx == m && a.code == 0x0203 with
    | none => d
    | some a =>
      let ref := bulkRef a.req.payload 16
      let d1 := d.dropBulk (.bulkWrite mm)
      if ref.region ≠ bulkArea ∧ d.regionLive ref.region = false then d1.followUp a St.regionRevoked []
      else if outcome = 1 then d1.followUp a St.remoteError []
      else if d.bulkPending (.bulkWrite mm) then d
      else d.followUp a St.ok (a.args.flatMap fun x => le 4 x)

end Sys2Proof.Machine
end

