-- ==== Sys2Proof/Machine/Mailbox.lean ====
section
/-! DEFINITION. The acceptance of requests, the ticks, and the event path (spec/02_command_interface.md R49 to R64, R82 to
R87, R608). -/

namespace Sys2Proof.Machine

open Sys2Proof

/-! ## Acceptance (R60, R61, R64) -/

/-- The request that a message of at least 20 bytes spells; `auth` says that it carries a valid tag, `hits` are its upsets in
the hopper where no other row reads it (an unknown opcode). -/
def reqOf (b : Bytes) (auth : Bool) (hits : Hits) : Req :=
  { mbx := Fin.ofNat 8 (leAt b 10 1), seq := BitVec.ofNat 32 (leAt b 4 4), htag := BitVec.ofNat 32 (leAt b 12 4),
    noresp := bit (leAt b 2 1) 3, auth := auth, hits := if knownOpcode (leAt b 0 2) then [] else hits, payload := slice b 16 (leAt b 8 2) }

/-- Bytes that a message of a PLEN and AUTH has (R54). -/
def msgLen (b : Bytes) : Nat := 20 + leAt b 8 2 + 16 * b2n (bit (leAt b 2 1) 4)

/-- The fold word of a message: MBX in byte 0 and SEQ in bytes 4 to 7 (R57). -/
def msgFold (b : Bytes) : Nat := leAt b 10 1 + 2 ^ 32 * leAt b 4 4

/-- A message carries AUTH and its tag is the one of the loaded key (R58, R61). -/
def Dev.tagValid (d : Dev) (b : Bytes) : Bool :=
  bit (leAt b 2 1) 4 && (match d.authKey with
    | some k =>
      let n := 16 + leAt b 8 2
      slice b n 16 == (hmac k (le 8 (msgFold b) ++ b.take n)).take 16
    | none => false)

/-- A refusal before the hopper, not stored (R60); `valid` says that the request carried a valid tag. -/
def Dev.refuse (d : Dev) (b : Bytes) (src : Option (Nat × Nat)) (status : Nat) (valid : Bool) : Dev :=
  d.answerUnstored ⟨leAt b 0 2, status, BitVec.ofNat 32 (leAt b 4 4), leAt b 10 1, BitVec.ofNat 32 (leAt b 12 4), true, false,
    false, valid, false, []⟩ (bit (leAt b 2 1) 3) src

/-- A count of MBXn_ERR. -/
def Dev.mbxErr (d : Dev) (m lo : Nat) : Dev := d.incSat (Reg.mbxErr m) lo 8 1

/-- Where the answers of a sequence go from now on: to the source of its last request, the repeat of one included (DESIGN
CHOICE, notes/assumptions/117.md); sequences that owe no answer any more are dropped. -/
def Dev.noteSrc (d : Dev) (m : Nat) (seq : Word) (src : Option (Nat × Nat)) : Dev :=
  let owes := fun (q : Word) => ((d.box m).hopper.any fun x => x.2.seq == q)
    || (d.running.any fun x => x.req.mbx.val == m && x.req.seq == q)
    || d.accepted.any fun a => a.req.mbx.val == m && a.req.seq == q
  match src with
  | none => d
  | some a => d.modBox m fun b => { b with srcs := (seq, a) :: b.srcs.filter fun x => x.1 != seq && owes x.1 }

/-- Steps 6 to 8 of R60: replay, discard or entry under R64; every request is new while LAST_SEQ is empty. A replay is tagged
when the repeat carried a valid tag too (R59). -/
def Dev.enterReq (d : Dev) (code : Nat) (r : Req) (b : Bytes) (src : Option (Nat × Nat)) : Dev :=
  let m := r.mbx.val
  let x := d.box m
  let dist := x.lastSeq.map fun l => (r.seq - l).toNat
  if x.lastSeq.isSome && ((x.hopper.any fun q => q.2.seq == r.seq)
      || (d.running.any fun q => q.req.mbx.val == m && q.req.seq == r.seq)) then
    d.mbxErr m 0
  else if dist = some 0 then
    match x.stored with
    | some y =>
      if y.seq = r.seq then
        (if r.noresp then d else (d.noteSrc m r.seq src).send { y with tag := y.tag || r.auth })
      else d.mbxErr m 0
    | none => d.mbxErr m 0
  else if (dist.any fun k => decide (2 ^ 31 ≤ k)) = true then d.mbxErr m 8
  else if x.hopper.length ≥ 8 then d.refuse b src St.noResource r.auth
  else
    ((d.modBox m fun y => { y with hopper := y.hopper ++ [(code, r)], lastSeq := some r.seq }).noteSrc m r.seq src).drainUnknown
      m 8

/-- Seal unit 2 checks the seal of a request (R116): it runs over all but the last 4 bytes. -/
def Dev.sealIn (d : Dev) (b : Bytes) : Dev := d.unitRun 2 (msgFold b) (b.take (b.length - 4))

/-- The acceptance of a message, in the order of R60; `src` is the source of an in-band datagram, none on the management
bus. -/
def Dev.acceptMsg (d : Dev) (b : Bytes) (src : Option (Nat × Nat)) (hits : Hits) : Dev :=
  let m := leAt b 10 1
  let flags := leAt b 2 1
  if b.length < 20 then
    (if src.isSome then d.incSat Reg.mbxMisrouteCnt 0 32 1 else d.incSat Reg.mbErr 0 8 1)
  else if b.length ≠ msgLen b ∨ b.length > 4096 then d.refuse b src St.badLength false
  else if (if src.isSome then m = 0 ∨ m > 7 else m ≠ 0) then d.incSat Reg.mbxMisrouteCnt 0 32 1
  else
    let d := d.sealIn b
    let valid := d.tagValid b
    if checkSeal (msgFold b) b = none then (d.mbxErr m 24).refuse b src St.badSeal valid
    else if flags / 0x40 ≠ 0 ∨ bit flags 5 = true ∨ flags % 8 ≠ 0 ∨ leAt b 3 1 ≠ 0 ∨ leAt b 11 1 ≠ 0 then
      d.refuse b src St.badParam valid
    else if valid || (!bit flags 4 && (src.isNone || decide (d.authMode < 2))) then
      d.enterReq (leAt b 0 2) (reqOf b valid hits) b src
    else
      let d1 := d.mbxErr m 16
      let mask := if bit d1.ev.authMask m then d1.ev.authMask else d1.ev.authMask + 2 ^ m
      let d2 : Dev := { d1 with ev := { d1.ev with authFails := satAdd 32 d1.ev.authFails 1, authMask := mask } }
      d2.refuse b src St.notPermitted false

/-- An in-band datagram arrives (R49 to R52, R74, R359): to another port or address family it is no mailbox datagram. -/
def execMbxDatagramRx (g : Datagram) (s : State) : Host.Outcome State Fault Refusal :=
  s.upd fun d =>
    if d.domainOn 135 = false ∨ d.safe = true then d
    else if d.fld Reg.mbxCfg 0 16 = 0 ∨ g.port.toNat ≠ d.fld Reg.mbxCfg 0 16 ∨ g.v6 ≠ d.flag Reg.umacCfg 0 then
      d.incSat Reg.umacDisc 0 32 1
    else if g.fragment ∨ g.lengthOk = false ∨ (if g.csumZero then g.v6 else !g.csumOk) = true then
      d.incSat Reg.mbxMisrouteCnt 0 32 1
    else d.acceptMsg g.data (some (g.src, g.srcPort.toNat)) g.hits

/-! ## Ticks (R63, R608) -/

/-- A second ends: AUTH_REJECTED if a failure occurred in it, and the limit of R63 starts again. -/
def execSecondTick (s : State) : Host.Outcome State Fault Refusal :=
  s.upd fun d =>
    let boxes := d.boxes.map fun (b : Mailbox) => { b with unstored := 0 }
    let d1 : Dev := { d with ev := { d.ev with authFails := 0, authMask := 0 }, boxes := boxes }
    if d.ev.authFails = 0 then d1
    else d1.event 0x8104 none (le 4 d.ev.authFails ++ le 1 d.ev.authMask ++ zeros 3)

/-- LATE_ROWS, LADDER_EXHAUSTED and STAGING_OVERRUN of the millisecond (R238, spec/10_fulling.md). -/
def Dev.fulTick (d : Dev) : Dev :=
  let d1 := match d.ful.lateBatt with
    | none => d
    | some b =>
      let counts := (List.range 16).flatMap fun n => le 2 (d.pipes.getD n {}).lateRows
      let pipes := d.pipes.map fun (p : Pipe) => { p with lateRows := 0 }
      ({ d with pipes := pipes, ful := { d.ful with lateBatt := none } } : Dev).event 0x8602 (some b) counts
  let d2 := match d1.ful.exhaustEv with
    | none => d1
    | some (b, rung, budget, size) =>
      ({ d1 with ful := { d1.ful with exhausted := 0, exhaustEv := none } } : Dev).event 0x8902 (some b)
        (le 1 rung ++ zeros 3 ++ le 4 d1.ful.exhausted ++ le 8 budget ++ le 8 size)
  match d2.ful.overrunEv with
  | none => d2
  | some (b, free, need) =>
    ({ d2 with ful := { d2.ful with overrun := 0, overrunEv := none } } : Dev).event 0x8903 (some b)
      (le 4 d2.ful.overrun ++ zeros 4 ++ le 8 free ++ le 8 need)

/-- CONGESTION of a queue pair cut in the millisecond (R362). -/
def Dev.congestionTick (d : Dev) (q : Nat) : Dev :=
  let n := (d.qp q).cuts
  if n = 0 then d
  else (d.modQp q fun x => { x with cuts := 0 }).event 0x8B04 none
    (le 1 q ++ zeros 3 ++ le 4 (d.fld (Reg.qpRate q) 0 17) ++ le 4 n)

/-- A millisecond ends (R608): the rate-limited events of its occurrences in the order of R605; a REGION_REVOKE whose fence has
been open for 1 ms answers ACCEPTED (R387), and so does a register command whose items have taken more than 1 ms. -/
def execMillisecondTick (s : State) : Host.Outcome State Fault Refusal :=
  s.upd fun d => ((List.range 64).foldl Dev.congestionTick d.fulTick).acceptRevokes.regAccept

/-! ## The event path (R82 to R87) -/

/-- The event writer, a duty of Milliner pair 1, takes the next event of the hopper to its route while that has room (R31, R83,
R84); read with poison it is lost (R102, R109). -/
def execEventWrite (hits : Hits) (s : State) : Host.Outcome State Fault Refusal :=
  s.upd fun d =>
    match d.ev.hopper with
    | [] => d
    | m :: _ =>
      let bad := badWords (m.bytes []) hits
      if d.pair1Off then d
      else if bad ≠ [] then
        let d1 := (d.hopRead 8).poisonRead 8 0 bad
        ({ d1 with ev := d1.ev.advance d1.ev.route } : Dev).loseEvent
      else match d.writeEvent with
        | some d1 => d1.hopRead 8
        | none => d

/-- EVENTS_LOST once space has returned after losses (R85). -/
def execEventsLost (s : State) : Host.Outcome State Fault Refusal :=
  s.upd fun d =>
    if d.ev.lostSince = 0 ∨ d.eventRoom = false then d
    else ({ d with ev := { d.ev with lostSince := 0 } } : Dev).event 0x8102 none (le 4 d.ev.lostSince)

/-- A request of a kind is outstanding on a queue pair. -/
def Dev.asking (d : Dev) (q : Nat) (k : WKind) : Bool := (d.qp q).sq.any fun w => w.kind == k

/-- While a ring is full its consumer count is read by RDMA READ (R84, R372): ring 8 is the event ring that the writer writes
to, rings 0 to 7 are the rings of a stream, whose two counts lie side by side. -/
def execConsumerCountPoll (ring : Fin 9) (s : State) : Host.Outcome State Fault Refusal :=
  s.upd fun d =>
    let t := ring.val
    if t = 8 then
      match d.ev.route with
      | none => d
      | some g =>
        if g.written - g.consumed < g.slots ∨ d.asking (d.regionQp g.region) (.eventCount g.id) = true then d
        else d.postRead (.eventCount g.id) g.region g.consOff 4
    else
      match (d.str t).bind with
      | none => d
      | some b =>
        let full := decide (b.cmpWritten - b.cmpRead ≥ b.cmpSlots)
          || (!d.flag (Reg.strCfg t) 9 && decide (b.descWritten - b.descRead ≥ b.descSlots))
        if full = false ∨ d.asking (d.regionQp b.cmpRegion) (.streamCounts t) = true then d
        else d.postRead (.streamCounts t) b.cmpRegion b.consOff 8

/-- Why writes of an event ring fail, if they do: its region is gone, or its queue pair is not READY. -/
def Dev.ringFailure (d : Dev) (g : Ring) : Option Nat :=
  if d.regionLive g.region = false then some St.regionRevoked
  else if d.qpState (d.regionQp g.region) ≠ 1 then some St.remoteError else none

/-- A ring fails: its requests go, and what it still had to take goes to the mailbox 0 queue (R87). -/
def Dev.dropRing (d : Dev) (g : Ring) : Dev :=
  let d1 := d.modPlc fun p => { p with qps := p.qps.map fun q => { q with
    sq := q.sq.filter fun w => !(w.kind == .event g.id || w.kind == .eventCount g.id) } }
  let off := fun (x : Option Ring) => if x.any (·.id == g.id) then none else x
  { d1 with ev := { d1.ev with ring := off d1.ev.ring, past := d1.ev.past.map fun x => (x.1, off x.2) } }

/-- A write of the event ring fails (R87): the route is unbound, what the hopper holds moves to the mailbox 0 queue in order,
and EVENT_ROUTE_DOWN is raised. What an earlier ring that fails still had to take goes to that queue too
(notes/assumptions/118.md). -/
def execEventRouteDown (s : State) : Host.Outcome State Fault Refusal :=
  s.upd fun d =>
    let d1 := (d.ev.past.filterMap (·.2)).foldl (fun d g => if (d.ringFailure g).isSome then d.dropRing g else d) d
    match d1.ev.ring with
    | none => d1
    | some g =>
      match d1.ringFailure g with
      | none => d1
      | some st =>
        let d2 := d1.dropRing g
        (d2.drainEvents d2.ev.hopper.length).event 0x8103 none (le 1 st ++ zeros 3)

end Sys2Proof.Machine
end

