-- ==== Sys2Proof/Machine/Smbus.lean ====
section
/-! DEFINITION. The management bus port (spec/16_management_bus.md): addressing, the command codes, mailbox 0 in chunks, the
register window, status and alerts, Host Notify, errors, standby and reset. A transaction is one command: its address,
its data, the PEC that ends a write, and how many bytes the controller clocks in of a read. -/

namespace Sys2Proof.Machine

open Sys2Proof

/-! ## Addressing (R490, R491) -/

/-- Addresses that SMBus 3.2 reserves. -/
def smbReserved (a : Nat) : Bool :=
  decide (a ≤ 8 ∨ a = 0x0C ∨ a = 0x28 ∨ a = 0x37 ∨ a = 0x61 ∨ (0x78 ≤ a ∧ a ≤ 0x7F))

/-- Whether the device answers an address, and whether its slot is LIMITED. -/
def Dev.smbSlot (d : Dev) (a : Nat) : Option Bool :=
  if smbReserved a then none
  else if d.flag Reg.smbCfg 31 then
    let mask := d.fld Reg.smbMask 8 7
    if a &&& mask = d.fld Reg.smbMask 0 7 &&& mask then some false else none
  else (List.range 4).findSome? fun i =>
    if d.flag (Reg.smbSlot i) 31 ∧ d.fld (Reg.smbSlot i) 0 7 = a then some (d.flag (Reg.smbSlot i) 30) else none

/-- The interface serves transactions: awake, MB_RST_N high, no transaction held under R501. -/
def Dev.smbServes (d : Dev) : Bool := !d.smb.standby && !d.smb.resetLow && d.smb.win.isNone

/-- The last byte of a transaction is acknowledged or not. -/
def Dev.smbAck (d : Dev) (b : Bool) : Dev := { d with smb := { d.smb with acked := b } }

/-- A transaction is refused (R493): a byte is not acknowledged and MB_ERR.CMD counts. -/
def Dev.smbRefuse (d : Dev) : Dev := (d.smbAck false).incSat Reg.mbErr 16 8 1

/-- The address byte of a write and of a read, and the command code (R494). -/
def smbHead (addr code : Nat) : Bytes := [BitVec.ofNat 8 (2 * addr), BitVec.ofNat 8 code]

/-- A write transaction of a code that a LIMITED slot refuses: `body` is what follows the code, `pec` the byte beyond it; `ok`
says that the count is in range; `f` is its effect (R491 to R494). -/
def Dev.smbWrite (d : Dev) (addr code : Nat) (body : Bytes) (pec : Option Byte) (ok : Bool) (f : Dev → Dev) : Dev :=
  if d.smbServes = false then d.smbAck false
  else match d.smbSlot addr with
    | none => d.smbAck false
    | some true => d.smbRefuse
    | some false =>
      if ok = false then d.smbRefuse
      else match pec with
        | none => if d.flag Reg.smbCfg 30 then (d.smbAck true).incSat Reg.mbErr 24 8 1 else f (d.smbAck true)
        | some p =>
          if p = pecOf (smbHead addr code ++ body) then f (d.smbAck true)
          else (d.smbAck false).incSat Reg.mbErr 24 8 1

/-- A read transaction that clocks in n bytes: `f` gives the block and the device after it (R491 to R494). -/
def Dev.smbRead (d : Dev) (addr code n : Nat) (limited : Bool) (f : Dev → Bytes × Dev) : Dev :=
  if d.smbServes = false then d.smbAck false
  else match d.smbSlot addr with
    | none => d.smbAck false
    | some l =>
      if l && !limited then d.smbRefuse
      else
        let (blk, d1) := f (d.smbAck true)
        { d1 with smb := { d1.smb with lastRead := readBytes addr code n blk } }

/-! ## Mailbox 0 in chunks (R495 to R498) -/

/-- MB_ERR.DROP counts. -/
def Dev.smbDrop (d : Dev) : Dev := d.incSat Reg.mbErr 0 8 1

/-- A chunk arrives (R495). -/
def Dev.chunkIn (d : Dev) (ctl : Nat) (part : Bytes) (hits : Hits) : Dev :=
  let put := fun (d : Dev) (m : Option Bytes) (skip : Bool) =>
    ({ d with smb := { d.smb with reasm := m, dropping := skip } } : Dev)
  let go := fun (d : Dev) (m : Bytes) =>
    if m.length > 4096 then (put d none true).smbDrop
    else if bit ctl 6 then (put d none false).acceptMsg m none hits
    else put d (some m) false
  if bit ctl 7 then go (if d.smb.reasm.isSome then d.smbDrop else d) part
  else if d.smb.dropping then d
  else match d.smb.reasm with
    | none => d.smbDrop
    | some m => go d (m ++ part)

/-- MBX_WRITE: a Block Write of a control byte and message bytes (R492, R495). -/
def execMbxWrite (addr : BitVec 7) (block : Bytes) (x : ChunkEnd) (s : State) : Host.Outcome State Fault Refusal :=
  s.upd fun d => d.smbWrite addr.toNat 0x10 (le 1 block.length ++ block) x.pec
    (decide (2 ≤ block.length ∧ block.length ≤ 255)) fun d => d.chunkIn (leAt block 0 1) (block.drop 1) x.hits

/-- The message to be read out (R497): the one in progress, else the head of the response queue, else of the event queue; an
event read with poison is lost (R109). -/
def Dev.pickOut (d : Dev) (hits : Hits) : Dev :=
  if d.smb.outbound.isSome then d
  else
    let put := fun (d : Dev) (x : Option Outbound) => ({ d with smb := { d.smb with outbound := x } } : Dev)
    match d.smb.respQ with
    | m :: _ => put d (some ⟨false, m.bytes [], 0, true⟩)
    | [] =>
      let bad := badWords ((d.ev.q0.head?.map fun m => m.bytes []).getD []) hits
      let d1 := if d.ev.q0 != [] && bad != [] then
          let d0 := (d.hopRead 9).poisonRead 9 0 bad
          ({ d0 with ev := { d0.ev with q0 := d0.ev.q0.drop 1 } } : Dev).loseEvent
        else d
      put d1 (d1.ev.q0.head?.map fun m => ⟨true, m.bytes [], 0, true⟩)

/-- Message bytes of a chunk (SMB_CFG.CHUNK). -/
def Dev.chunkSize (d : Dev) : Nat :=
  let c := d.fld Reg.smbCfg 0 8
  if c = 0 ∨ c = 255 then 254 else c

/-- The message in progress has been read to its end: it leaves its queue (R498). -/
def Dev.releaseOut (d : Dev) (o : Outbound) : Dev :=
  let d1 : Dev := { d with smb := { d.smb with outbound := none, released := some { o with pos := 0, queued := false } } }
  if o.queued = false then d1
  else if o.isEvent then ({ d1 with ev := { d1.ev with q0 := d1.ev.q0.drop 1 } } : Dev).hopRead 9
  else { d1 with smb := { d1.smb with respQ := d1.smb.respQ.drop 1 } }

/-- The next chunk (R497): its block, and the device after; a chunk counts as read when all of its block has been clocked in. -/
def Dev.chunkOut (d : Dev) (n : Nat) : Bytes × Dev :=
  match d.smb.outbound with
  | none => (le 1 1 ++ le 1 0x20, d)
  | some o =>
    let part := slice o.bytes o.pos d.chunkSize
    let pos := o.pos + part.length
    let ends := decide (o.bytes.length ≤ pos)
    let blk := le 1 (part.length + 1)
      ++ le 1 (0x80 * b2n (o.pos == 0) + 0x40 * b2n ends + 0x10 * b2n o.isEvent) ++ part
    if n < blk.length then (blk, d)
    else
      let d1 : Dev := { d with smb := { d.smb with
        released := if o.pos = 0 then none else d.smb.released, outbound := some { o with pos := pos } } }
      (blk, if ends then d1.releaseOut o else d1)

/-- MBX_READ: a Block Read of the next chunk (R497); `hits` are the upsets of the event that it would take. -/
def execMbxRead (addr : BitVec 7) (n : Nat) (hits : Hits) (s : State) : Host.Outcome State Fault Refusal :=
  s.upd fun d => d.smbRead addr.toNat 0x11 n false fun d => (d.pickOut hits).chunkOut n

/-- MBX_REWIND: a Send Byte that restarts the message in progress, or the one released last (R498). -/
def execMbxRewind (addr : BitVec 7) (pec : Option Byte) (s : State) : Host.Outcome State Fault Refusal :=
  s.upd fun d => d.smbWrite addr.toNat 0x12 [] pec true fun d =>
    { d with smb := { d.smb with outbound := match d.smb.outbound with
      | some o => some { o with pos := 0 }
      | none => d.smb.released } }

/-! ## The register window (R499 to R501) -/

/-- WIN_ADDR written: a Write 32 (R499); reserved bits stay 0. -/
def execWinAddrWrite (addr : BitVec 7) (value : Word) (pec : Option Byte) (s : State) : Host.Outcome State Fault Refusal :=
  s.upd fun d => d.smbWrite addr.toNat 0x20 (le 4 value.toNat) pec true fun d =>
    { d with smb := { d.smb with winAddr := value &&& 0x07FFFFFF#32 } }

/-- WIN_ADDR read: a Read 32 (R499). -/
def execWinAddrRead (addr : BitVec 7) (n : Nat) (s : State) : Host.Outcome State Fault Refusal :=
  s.upd fun d => d.smbRead addr.toNat 0x20 n false fun d => (le 4 d.smb.winAddr.toNat, d)

/-- Width of WIN_ADDR.SIZE. -/
def Dev.winSize (d : Dev) : Size := [Size.b8, .b16, .b32, .b64].getD (bits d.smb.winAddr.toNat 24 2) .b32

/-- Make the access of a WIN_DATA transaction at ADDR on the management bus path; the answer ends the transaction. -/
def Dev.winAccess (d : Dev) (t : WinTx) (w : Option Nat) (hw : Bool) : Dev :=
  ({ d with smb := { d.smb with win := some t } } : Dev).accessHw .management (d.smb.winAddr.toNat % 2 ^ 24) d.winSize w hw

/-- WIN_DATA read: a Block Read of one access (R500). While the path still waits for the bridge nothing is acknowledged. -/
def execWinDataRead (addr : BitVec 7) (n : Nat) (s : State) : Host.Outcome State Fault Refusal :=
  s.upd fun d =>
    if d.smbServes = false ∨ d.pathWaits .management = true then d.smbAck false
    else match d.smbSlot addr.toNat with
      | none => d.smbAck false
      | some true => d.smbRefuse
      | some false => (d.smbAck true).winAccess ⟨false, addr.toNat, n, true⟩ none false

/-- WIN_DATA written: a Block Write of one access (R501), of as many bytes as the width; MB_SCL is held until it is made. -/
def execWinDataWrite (addr : BitVec 7) (data : Bytes) (x : DataEnd) (s : State) : Host.Outcome State Fault Refusal :=
  s.upd fun d =>
    if d.pathWaits .management then d.smbAck false
    else d.smbWrite addr.toNat 0x21 (le 1 data.length ++ data) x.pec (data.length == d.winWidth) fun d =>
      d.winAccess ⟨true, addr.toNat, 0, true⟩ (some (leAt data 0 data.length)) x.hw

/-- WIN_STATUS: a Read Byte of MB_WSTAT (R501). -/
def execWinStatus (addr : BitVec 7) (n : Nat) (s : State) : Host.Outcome State Fault Refusal :=
  s.upd fun d => d.smbRead addr.toNat 0x22 n false fun d => (le 1 (d.fld Reg.mbWstat 0 8), d)

/-! ## Status, faults and alerts (R502 to R504) -/

/-- Byte 3 of STATUS: TJ_MAX in whole degrees, toward minus infinity, clamped; 0x80 with PD_CNF off. -/
def Dev.tjByte (d : Dev) : Nat :=
  if d.domainUp 132 then unsigned 8 (max (-127) (min 127 (floorDiv (signed 16 (d.fld Reg.cnfStat 0 16)) 16))) else 0x80

/-- The 4 bytes of STATUS. -/
def Dev.statusBytes (d : Dev) : Bytes :=
  let occ := min 8 (d.box 0).hopper.length
  le 1 d.stateCode
  ++ le 1 (b2n (d.flag Reg.fltState 30) + 2 * b2n (d.smb.respQ != []) + 4 * b2n (d.ev.q0 != []) + 8 * b2n (occ == 8)
      + 16 * b2n (d.fld Reg.mbWstat 0 8 != 0) + 32 * b2n (d.rdN Reg.mbAlert != 0))
  ++ le 1 occ ++ le 1 d.tjByte

/-- STATUS: a Read 32, also on a LIMITED slot and in the safe state (R502, R512). -/
def execStatus (addr : BitVec 7) (n : Nat) (s : State) : Host.Outcome State Fault Refusal :=
  s.upd fun d => d.smbRead addr.toNat 0x30 n true fun d => (d.statusBytes, d)

/-- FAULT_SUMMARY: a Block Read of FLT_STATE, FLT_UREC and the sticky bits, without side effects (R503). -/
def execFaultSummary (addr : BitVec 7) (n : Nat) (s : State) : Host.Outcome State Fault Refusal :=
  s.upd fun d => d.smbRead addr.toNat 0x31 n true fun d =>
    (le 1 40 ++ le 4 (d.show_ Reg.fltState).1 ++ le 4 (d.rdN Reg.fltUrec)
      ++ (List.range 8).flatMap fun i => le 4 (d.rdN (Reg.fltSticky i)), d)

/-- ALERT_CAUSE: a Read 32 that clears the bits of the bytes it returns; `fresh` are the causes set in its cycle, which stay
(R442, R504). -/
def execAlertCause (addr : BitVec 7) (n : Nat) (fresh : BitVec 17) (s : State) : Host.Outcome State Fault Refusal :=
  s.upd fun d => d.smbRead addr.toNat 0x32 n true fun d =>
    let v := d.rd Reg.mbAlert
    (le 4 v.toNat, d.wr Reg.mbAlert ((v &&& ~~~(laneMask 0 (min n 4))) ||| fresh.zeroExtend 32))

/-- MB_ALERT_N is driven low while ALERT_PIN is 1 and ALERT_CAUSE is not 0 (R504), but released while MB_RST_N is low
(R511). -/
def Dev.alertLow (d : Dev) : Bool :=
  d.flag Reg.smbCfg 29 && d.rdN Reg.mbAlert != 0 && !d.smb.resetLow

/-! ## Refusals and errors (R493, R508, R510) -/

/-- The codes of R492 that a direction offers, and those accepted on a LIMITED slot. -/
def smbCode (read : Bool) (c : Nat) : Bool :=
  if read then [0x11, 0x20, 0x21, 0x22, 0x30, 0x31, 0x32].contains c else [0x10, 0x12, 0x20, 0x21].contains c
def smbLimited (c : Nat) : Bool := [0x30, 0x31, 0x32].contains c

/-- Whether a case of R493 applies on a slot: the code, the direction, the count of a Block Write, a byte beyond the length. -/
def Dev.smbRefused (d : Dev) (limited : Bool) : SmbRefusal → Bool
  | .code c => !(smbCode true c.toNat || smbCode false c.toNat) || (limited && !smbLimited c.toNat)
  | .direction c read => !smbCode read c.toNat
  | .count c n =>
    if c = 0x10#8 then decide (n.toNat < 2) else c == 0x21#8 && n.toNat != d.winWidth
  | .extra c => smbCode false c.toNat

/-- A transaction that R493 refuses: the byte is not acknowledged and MB_ERR.CMD counts; nothing else happens. -/
def execSmbusRefused (addr : BitVec 7) (why : SmbRefusal) (s : State) : Host.Outcome State Fault Refusal :=
  s.upd fun d =>
    if d.smbServes = false then d.smbAck false
    else match d.smbSlot addr.toNat with
      | none => d.smbAck false
      | some l => if d.smbRefused l why then d.smbRefuse else d

/-- A repeated start or a stop where an acknowledge or a data bit was due (R508): the transaction ends without effect, except
for a WIN_DATA read already made; MB_PROTO_ERR counts. -/
def execSmbusProtocolError (addr : BitVec 7) (readMade : Bool) (s : State) : Host.Outcome State Fault Refusal :=
  s.upd fun d =>
    if d.smbServes = false then d
    else
      let d1 := if readMade && d.smbSlot addr.toNat == some false && !d.pathWaits .management then
        d.winAccess ⟨false, addr.toNat, 0, false⟩ none false else d
      d1.incSat Reg.mbProtoErr 0 32 1

/-- The interface resets (R511): the transaction in progress and any partial mailbox 0 message are abandoned, the outbound
message is rewound. -/
def Dev.smbReset (d : Dev) : Dev :=
  { d with smb := { d.smb with
    reasm := none, outbound := d.smb.outbound.map fun o => { o with pos := 0 },
    win := d.smb.win.map fun t => { t with live := false } } }

/-- The controller holds MB_SCL low for longer than tTIMEOUT (R510). -/
def execSclTimeout (s : State) : Host.Outcome State Fault Refusal :=
  s.upd fun d => if d.smb.resetLow then d else d.smbReset.incSat Reg.mbProtoErr 0 32 1

/-- MB_RST_N goes low (R511). -/
def execMbRstN (s : State) : Host.Outcome State Fault Refusal :=
  s.updPin s.pins fun d => { d.smbReset with smb := { d.smbReset.smb with resetLow := true } }

/-- MB_RST_N rises: 10 us later transactions are served again (R511). -/
def execMbRstNRise (s : State) : Host.Outcome State Fault Refusal :=
  s.updPin s.pins fun d => { d with smb := { d.smb with resetLow := false } }

/-! ## Host Notify (R505 to R507) -/

/-- The device address byte of a Host Notify; with no slot enabled it is free. -/
def Dev.notifyAddr (d : Dev) : Nat × Dev :=
  if d.flag Reg.smbCfg 31 then (2 * d.fld Reg.smbMask 0 7, d)
  else match (List.range 4).find? fun i => d.flag (Reg.smbSlot i) 31 with
    | some i => (2 * d.fld (Reg.smbSlot i) 0 7, d)
    | none => d.fresh 8

/-- The data word: ALERT_CAUSE[15:0], bit 12 also set with FAULT. -/
def Dev.notifyData (d : Dev) : Nat := (d.fld Reg.mbAlert 0 16) ||| (if d.flag Reg.mbAlert 16 then 0x1000 else 0)

/-- The device sends a Host Notify; with arbitration lost it withdraws, and owes it when the bus is free (R506). -/
def Dev.notify (d : Dev) (lost : Bool) : Dev :=
  let d1 : Dev := { d with smb := { d.smb with notifyDue := false, retryNotify := lost } }
  if lost then d1.incSat Reg.mbErr 8 8 1
  else
    let (a, d2) := d1.notifyAddr
    d2.emit (.hostNotify a d2.notifyData)

/-- The device may act as controller: NOTIFY is 1 and the port works. -/
def Dev.mayNotify (d : Dev) : Bool := d.flag Reg.smbCfg 28 && d.smbServes

/-- ALERT_CAUSE has become non-zero and a Host Notify goes out (R505); `lost` says that arbitration is lost (R506, R507). -/
def execHostNotify (lost : Bool) (s : State) : Host.Outcome State Fault Refusal :=
  s.upd fun d => if d.mayNotify && d.smb.notifyDue then d.notify lost else d

/-- NOTIFY_REP ms have passed with ALERT_CAUSE unread and not 0 (R505). -/
def execNotifyRepeat (lost : Bool) (s : State) : Host.Outcome State Fault Refusal :=
  s.upd fun d => if d.mayNotify && d.rdN Reg.mbAlert != 0 then d.notify lost else d

/-- The bus is free after a lost arbitration: the notification goes out with the data of that moment (R506). -/
def execBusFree (lost : Bool) (s : State) : Host.Outcome State Fault Refusal :=
  s.upd fun d => if d.mayNotify && d.smb.retryNotify then d.notify lost else d

/-! ## Standby (R509) -/

/-- A start condition or a new alert cause wakes the interface once CK_CTL runs. -/
def execSmbusWake (s : State) : Host.Outcome State Fault Refusal :=
  s.upd fun d => { d with smb := { d.smb with standby := false } }

/-- IDLE_SLEEP ms have passed without a start: standby. -/
def execSmbusIdleSleep (s : State) : Host.Outcome State Fault Refusal :=
  s.upd fun d =>
    if d.fld Reg.smbCfg 8 8 = 0 ∨ d.smb.win.isSome = true then d else { d with smb := { d.smb with standby := true } }

end Sys2Proof.Machine
end

