-- ==== Sys2Proof/Machine/Pins.lean ====
section
/-! DEFINITION. What the output pins show as functions of the state (spec/15_faults_and_recovery.md R484, R485,
spec/19_pins_and_electrical.md R583, spec/04_strip_position.md R149, spec/16_management_bus.md R504): the fault pair,
MB_ALERT_N, the GPIO status mirrors and the strobe outputs. -/

namespace Sys2Proof.Machine

open Sys2Proof

/-- What a pin shows: driven low or high, not driven, or as its boundary-scan cell gives while EXTEST is in force (R564). -/
inductive Level where
  | low | high | highZ | scanned
  deriving DecidableEq, Repr

/-- A driven level. -/
def Level.of (b : Bool) : Level := if b then .high else .low

/-- A pin's level while EXTEST is in force follows its scan cell. -/
def Dev.pin (d : Dev) (l : Level) : Level := if d.pwr.extest then .scanned else l

/-- The fault collector runs: from the rise of RST_N with PWR_OK high (R485, R562); the state without power is that after a
power-on reset. -/
def Dev.collectorRuns (d : Dev) : Bool :=
  match d.pwr.phase with
  | .held => false
  | .reset => false
  | _ => true

/-- FLT_A and FLT_B (R484, R485): both low until the collector runs; 1 and 0 for health, 0 and 1 for fault. -/
def Dev.fltPair (d : Dev) : Level × Level :=
  if d.collectorRuns then (d.pin (Level.of !(d.flag Reg.fltState 30)), d.pin (Level.of (d.flag Reg.fltState 30)))
  else (d.pin .low, d.pin .low)

/-- MB_ALERT_N, an open-drain pin (R504, R511). -/
def Dev.alertPin (d : Dev) : Level := d.pin (if d.alertLow then .low else .highZ)

/-- The status that GPIO pin k mirrors (R583); a status whose unit is powered down reads 0. -/
def Dev.gpioStatus (d : Dev) (k : Nat) : Bool :=
  let n := d.fld (Reg.gpioCfg k) 8 4
  match d.fld (Reg.gpioCfg k) 0 8 with
  | 1 => d.flag Reg.fltState 30
  | 2 => d.domainUp 131 && d.flag Reg.posStat 31
  | 3 => d.domainUp 131 && d.flag Reg.posStat 30
  | 4 => d.domainUp 131 && d.flag Reg.posStat 28
  | 5 => d.domainUp 131 && d.flag Reg.posStat 27
  | 6 => d.domainUp 131 && d.fld Reg.tbStat 30 2 == 2
  | 7 => d.rdN Reg.mbAlert != 0
  | 8 => d.isReady
  | 9 => d.domainUp n && d.fld (Reg.hlStat n) 29 3 == 3
  | 10 => d.safe
  | 11 => d.domainUp 133 && d.flag Reg.stfStat 31
  | _ => false

/-- GPIO pin k: driven while EN is 1, inverted by INV. -/
def Dev.gpioPin (d : Dev) (k : Nat) : Level :=
  d.pin (if d.flag (Reg.gpioCfg k) 31 && d.collectorRuns then Level.of (d.gpioStatus k != d.flag (Reg.gpioCfg k) 30) else .highZ)

/-- STRBn_P and STRBn_N (R149). -/
def Dev.strobePins (d : Dev) (n : Nat) : Level × Level :=
  (d.pin (Level.of (d.strobeLevel n)), d.pin (Level.of !(d.strobeLevel n)))

end Sys2Proof.Machine
end

