-- ==== Sys2Proof/Machine/Dispatch.lean ====
section
/-! DEFINITION. One arm per command of the table: the meaning the command runs. -/

namespace Sys2Proof.Machine

open Sys2Proof

def exec (i : Instr) (s : State) : Host.Outcome State Fault Refusal :=
  match i with
  | .identify r => Sys2Proof.Machine.execIdentify r s
  | .getState r => Sys2Proof.Machine.execGetState r s
  | .setPlantAddress r => Sys2Proof.Machine.execSetPlantAddress r s
  | .resetUnit r => Sys2Proof.Machine.execResetUnit r s
  | .unitResetDone m faulted => Sys2Proof.Machine.execUnitResetDone m faulted s
  | .resetDevice r => Sys2Proof.Machine.execResetDevice r s
  | .setEventRoute r => Sys2Proof.Machine.execSetEventRoute r s
  | .setAuthKey r => Sys2Proof.Machine.execSetAuthKey r s
  | .bulkPut r => Sys2Proof.Machine.execBulkPut r s
  | .bulkGet r => Sys2Proof.Machine.execBulkGet r s
  | .listConduct r => Sys2Proof.Machine.execListConduct r s
  | .lockConduct r => Sys2Proof.Machine.execLockConduct r s
  | .snapshotExport r => Sys2Proof.Machine.execSnapshotExport r s
  | .snapshotImport r => Sys2Proof.Machine.execSnapshotImport r s
  | .encoderConfig r => Sys2Proof.Machine.execEncoderConfig r s
  | .triggerPlan r => Sys2Proof.Machine.execTriggerPlan r s
  | .positionRead r => Sys2Proof.Machine.execPositionRead r s
  | .battGeometry r => Sys2Proof.Machine.execBattGeometry r s
  | .lineStart r => Sys2Proof.Machine.execLineStart r s
  | .lineStop r => Sys2Proof.Machine.execLineStop r s
  | .coilMarkConfig r => Sys2Proof.Machine.execCoilMarkConfig r s
  | .encoderTick enc a b run => Sys2Proof.Machine.execEncoderTick enc a b run s
  | .encoderOpen enc => Sys2Proof.Machine.execEncoderOpen enc s
  | .markEdge x => Sys2Proof.Machine.execMarkEdge x s
  | .triggerFire head x => Sys2Proof.Machine.execTriggerFire head x s
  | .triggerRearm head => Sys2Proof.Machine.execTriggerRearm head s
  | .strobeActive out => Sys2Proof.Machine.execStrobeActive out s
  | .strobeEnd out => Sys2Proof.Machine.execStrobeEnd out s
  | .headAttach r => Sys2Proof.Machine.execHeadAttach r s
  | .headDetach r => Sys2Proof.Machine.execHeadDetach r s
  | .headLinkStatus r => Sys2Proof.Machine.execHeadLinkStatus r s
  | .headMessage r => Sys2Proof.Machine.execHeadMessage r s
  | .hmsgSent head => Sys2Proof.Machine.execHmsgSent head s
  | .laneBlockLock head lane => Sys2Proof.Machine.execLaneBlockLock head lane s
  | .laneMarker head lane marker x => Sys2Proof.Machine.execLaneMarker head lane marker x s
  | .markerLock head => Sys2Proof.Machine.execMarkerLock head s
  | .portDown head x => Sys2Proof.Machine.execPortDown head x s
  | .portRetrain head => Sys2Proof.Machine.execPortRetrain head s
  | .trainRestart head => Sys2Proof.Machine.execTrainRestart head s
  | .linkctlTrain head => Sys2Proof.Machine.execLinkctlTrain head s
  | .errorBlock head kind inPacket => Sys2Proof.Machine.execErrorBlock head kind inPacket s
  | .strayDataBlock head => Sys2Proof.Machine.execStrayDataBlock head s
  | .frameStart head h => Sys2Proof.Machine.execFrameStart head h s
  | .frameEnd head h => Sys2Proof.Machine.execFrameEnd head h s
  | .lineStartPacket head h => Sys2Proof.Machine.execLineStartPacket head h s
  | .lineEnd head h => Sys2Proof.Machine.execLineEnd head h s
  | .pixelPacket head h p => Sys2Proof.Machine.execPixelPacket head h p s
  | .headMessagePacket head h x => Sys2Proof.Machine.execHeadMessagePacket head h x s
  | .discardedPacket head h payload => Sys2Proof.Machine.execDiscardedPacket head h payload s
  | .lineTimeout head => Sys2Proof.Machine.execLineTimeout head s
  | .linePounce head hits corrected bad => Sys2Proof.Machine.execLinePounce head hits corrected bad s
  | .bankCopyDone head corrected bad => Sys2Proof.Machine.execBankCopyDone head corrected bad s
  | .mosaicLine x => Sys2Proof.Machine.execMosaicLine x s
  | .cardRowResolve head => Sys2Proof.Machine.execCardRowResolve head s
  | .blockRow head => Sys2Proof.Machine.execBlockRow head s
  | .napTileRow head => Sys2Proof.Machine.execNapTileRow head s
  | .cardWrite head overflow hits trHits btrHits => Sys2Proof.Machine.execCardWrite head overflow hits trHits btrHits s
  | .battClose => Sys2Proof.Machine.execBattClose s
  | .battDeadlineExpiry batt => Sys2Proof.Machine.execBattDeadlineExpiry batt s
  | .loopDecision group => Sys2Proof.Machine.execLoopDecision group s
  | .decisionPoint => Sys2Proof.Machine.execDecisionPoint s
  | .seamWaitExpiry batt => Sys2Proof.Machine.execSeamWaitExpiry batt s
  | .fullingStart corrected bad => Sys2Proof.Machine.execFullingStart corrected bad s
  | .fullingDone slice hits => Sys2Proof.Machine.execFullingDone slice hits s
  | .recallBattStart run corrected bad => Sys2Proof.Machine.execRecallBattStart run corrected bad s
  | .pageSeal page corrected bad => Sys2Proof.Machine.execPageSeal page corrected bad s
  | .bufferAssign stream => Sys2Proof.Machine.execBufferAssign stream s
  | .parcelIssue stream hits => Sys2Proof.Machine.execParcelIssue stream hits s
  | .packetSend engine corrected bad => Sys2Proof.Machine.execPacketSend engine corrected bad s
  | .roceAckRx qp psn => Sys2Proof.Machine.execRoceAckRx qp psn s
  | .roceNakRx qp kind syndrome psn => Sys2Proof.Machine.execRoceNakRx qp kind syndrome psn s
  | .retransmitTimeout qp => Sys2Proof.Machine.execRetransmitTimeout qp s
  | .rnrWaitExpiry qp => Sys2Proof.Machine.execRnrWaitExpiry qp s
  | .readResponseRx qp ce data => Sys2Proof.Machine.execReadResponseRx qp ce data s
  | .cnpRx qp => Sys2Proof.Machine.execCnpRx qp s
  | .ccPeriodEnd qp => Sys2Proof.Machine.execCcPeriodEnd qp s
  | .completionWrite stream hits => Sys2Proof.Machine.execCompletionWrite stream hits s
  | .descriptorWrite stream => Sys2Proof.Machine.execDescriptorWrite stream s
  | .revokeFenceDone => Sys2Proof.Machine.execRevokeFenceDone s
  | .pfcFrameRx port pcp quanta => Sys2Proof.Machine.execPfcFrameRx port pcp quanta s
  | .uplinkFrameRx port kind addr qp => Sys2Proof.Machine.execUplinkFrameRx port kind addr qp s
  | .uplinkLaneLoss lane => Sys2Proof.Machine.execUplinkLaneLoss lane s
  | .uplinkLinkUp link => Sys2Proof.Machine.execUplinkLinkUp link s
  | .uplinkConfig r => Sys2Proof.Machine.execUplinkConfig r s
  | .qpCreate r => Sys2Proof.Machine.execQpCreate r s
  | .qpDestroy r => Sys2Proof.Machine.execQpDestroy r s
  | .regionAdd r => Sys2Proof.Machine.execRegionAdd r s
  | .regionRevoke r => Sys2Proof.Machine.execRegionRevoke r s
  | .ringBind r => Sys2Proof.Machine.execRingBind r s
  | .buffersPost r => Sys2Proof.Machine.execBuffersPost r s
  | .parcelAbort r => Sys2Proof.Machine.execParcelAbort r s
  | .streamStart r => Sys2Proof.Machine.execStreamStart r s
  | .streamStop r => Sys2Proof.Machine.execStreamStop r s
  | .streamStopDone stream => Sys2Proof.Machine.execStreamStopDone stream s
  | .placementStatus r => Sys2Proof.Machine.execPlacementStatus r s
  | .bandConfig r => Sys2Proof.Machine.execBandConfig r s
  | .bandRole r => Sys2Proof.Machine.execBandRole r s
  | .timebaseConfig r => Sys2Proof.Machine.execTimebaseConfig r s
  | .bandStatus r => Sys2Proof.Machine.execBandStatus r s
  | .positionSend p x => Sys2Proof.Machine.execPositionSend p x s
  | .positionRx m spos rate flags dt => Sys2Proof.Machine.execPositionRx m spos rate flags dt s
  | .positionMiss dt => Sys2Proof.Machine.execPositionMiss dt s
  | .bandHoldExpiry => Sys2Proof.Machine.execBandHoldExpiry s
  | .unlockMaxExpiry => Sys2Proof.Machine.execUnlockMaxExpiry s
  | .timeSend p dt => Sys2Proof.Machine.execTimeSend p dt s
  | .timeRx m time state dt => Sys2Proof.Machine.execTimeRx m time state dt s
  | .probeSend p t1 => Sys2Proof.Machine.execProbeSend p t1 s
  | .probeRx m t1 pair t4 => Sys2Proof.Machine.execProbeRx m t1 pair t4 s
  | .hopDelayUpdate p => Sys2Proof.Machine.execHopDelayUpdate p s
  | .rollSend p => Sys2Proof.Machine.execRollSend p s
  | .rollRx m role pos plant first last size => Sys2Proof.Machine.execRollRx m role pos plant first last size s
  | .bandBlockLockLoss p => Sys2Proof.Machine.execBandBlockLockLoss p s
  | .bandRetrain p => Sys2Proof.Machine.execBandRetrain p s
  | .configRx m c spos => Sys2Proof.Machine.execConfigRx m c spos s
  | .lineStateRepeat => Sys2Proof.Machine.execLineStateRepeat s
  | .exposeRx m target source group cmd seq entries => Sys2Proof.Machine.execExposeRx m target source group cmd seq entries s
  | .reportRx m rep => Sys2Proof.Machine.execReportRx m rep s
  | .seamRowSend p corrected bad => Sys2Proof.Machine.execSeamRowSend p corrected bad s
  | .seamRowRx m batt row col planes => Sys2Proof.Machine.execSeamRowRx m batt row col planes s
  | .battCloseRx m batt flagged => Sys2Proof.Machine.execBattCloseRx m batt flagged s
  | .battOpenRx m pos batt => Sys2Proof.Machine.execBattOpenRx m pos batt s
  | .groupStopRx m origin source stop => Sys2Proof.Machine.execGroupStopRx m origin source stop s
  | .safeStopRx m origin role => Sys2Proof.Machine.execSafeStopRx m origin role s
  | .bandAckRx m acked => Sys2Proof.Machine.execBandAckRx m acked s
  | .bandRetransmit p lseq => Sys2Proof.Machine.execBandRetransmit p lseq s
  | .ptpAnnounceRx h a => Sys2Proof.Machine.execPtpAnnounceRx h a s
  | .ptpSyncRx h twoStep t1 err dt => Sys2Proof.Machine.execPtpSyncRx h twoStep t1 err dt s
  | .announceTimeout => Sys2Proof.Machine.execAnnounceTimeout s
  | .seamSet r => Sys2Proof.Machine.execSeamSet r s
  | .ladderSet r => Sys2Proof.Machine.execLadderSet r s
  | .outputFormat r => Sys2Proof.Machine.execOutputFormat r s
  | .budgetSet r => Sys2Proof.Machine.execBudgetSet r s
  | .ladderStatus r => Sys2Proof.Machine.execLadderStatus r s
  | .pounceLoad r => Sys2Proof.Machine.execPounceLoad r s
  | .defectLoad r => Sys2Proof.Machine.execDefectLoad r s
  | .mosaicSet r => Sys2Proof.Machine.execMosaicSet r s
  | .channelMatrixSet r => Sys2Proof.Machine.execChannelMatrixSet r s
  | .bulkFetchDone m data x => Sys2Proof.Machine.execBulkFetchDone m data x s
  | .bulkWriteAcked m outcome => Sys2Proof.Machine.execBulkWriteAcked m outcome s
  | .cardOffsets r => Sys2Proof.Machine.execCardOffsets r s
  | .lineDelays r => Sys2Proof.Machine.execLineDelays r s
  | .cardStatus r => Sys2Proof.Machine.execCardStatus r s
  | .battDeadline r => Sys2Proof.Machine.execBattDeadline r s
  | .blockMapLoad r => Sys2Proof.Machine.execBlockMapLoad r s
  | .stripGridSet r => Sys2Proof.Machine.execStripGridSet r s
  | .brimConfig r => Sys2Proof.Machine.execBrimConfig r s
  | .brimRead r => Sys2Proof.Machine.execBrimRead r s
  | .napConfig r => Sys2Proof.Machine.execNapConfig r s
  | .statsConfig r => Sys2Proof.Machine.execStatsConfig r s
  | .exposureSet r => Sys2Proof.Machine.execExposureSet r s
  | .exposureAuto r => Sys2Proof.Machine.execExposureAuto r s
  | .statsRead r => Sys2Proof.Machine.execStatsRead r s
  | .hoodConfig r => Sys2Proof.Machine.execHoodConfig r s
  | .pageInitDone => Sys2Proof.Machine.execPageInitDone s
  | .markSet r => Sys2Proof.Machine.execMarkSet r s
  | .recallBatts r => Sys2Proof.Machine.execRecallBatts r s
  | .recallDone run => Sys2Proof.Machine.execRecallDone run s
  | .markRelease r => Sys2Proof.Machine.execMarkRelease r s
  | .hoodStatus r => Sys2Proof.Machine.execHoodStatus r s
  | .faultConfig r => Sys2Proof.Machine.execFaultConfig r s
  | .faultStatus r => Sys2Proof.Machine.execFaultStatus r s
  | .faultLogRead r => Sys2Proof.Machine.execFaultLogRead r s
  | .quietSet r => Sys2Proof.Machine.execQuietSet r s
  | .faultOccurrence srcs qps => Sys2Proof.Machine.execFaultOccurrence srcs qps s
  | .quietPeriodEnd kind idx => Sys2Proof.Machine.execQuietPeriodEnd kind idx s
  | .faultLogSample => Sys2Proof.Machine.execFaultLogSample s
  | .watchdogExpiry => Sys2Proof.Machine.execWatchdogExpiry s
  | .healthRead r => Sys2Proof.Machine.execHealthRead r s
  | .wearRead r => Sys2Proof.Machine.execWearRead r s
  | .adaptPolicy r => Sys2Proof.Machine.execAdaptPolicy r s
  | .pageRetireList r => Sys2Proof.Machine.execPageRetireList r s
  | .thermalSample temps odd => Sys2Proof.Machine.execThermalSample temps odd s
  | .supplySample mv => Sys2Proof.Machine.execSupplySample mv s
  | .eyeSample lane eye after => Sys2Proof.Machine.execEyeSample lane eye after s
  | .ageingSample losses odd => Sys2Proof.Machine.execAgeingSample losses odd s
  | .linkErrorSample fec symbols band bits sync blocks => Sys2Proof.Machine.execLinkErrorSample fec symbols band bits sync blocks s
  | .wearTick => Sys2Proof.Machine.execWearTick s
  | .wearRecordWrite ok => Sys2Proof.Machine.execWearRecordWrite ok s
  | .regRead r => Sys2Proof.Machine.execRegRead r s
  | .regWrite x => Sys2Proof.Machine.execRegWrite x s
  | .stiffen r => Sys2Proof.Machine.execStiffen r s
  | .unstiffen r => Sys2Proof.Machine.execUnstiffen r s
  | .bankCommit r => Sys2Proof.Machine.execBankCommit r s
  | .stiffenScanDue => Sys2Proof.Machine.execStiffenScanDue s
  | .scanDone corrected bad => Sys2Proof.Machine.execScanDone corrected bad s
  | .scanGo path space => Sys2Proof.Machine.execScanGo path space s
  | .sealStart path n nofold => Sys2Proof.Machine.execSealStart path n nofold s
  | .sealData path n size data => Sys2Proof.Machine.execSealData path n size data s
  | .sealRunLoad path n value hw => Sys2Proof.Machine.execSealRunLoad path n value hw s
  | .fwInfo r => Sys2Proof.Machine.execFwInfo r s
  | .fwStage r => Sys2Proof.Machine.execFwStage r s
  | .fwStageDone ok => Sys2Proof.Machine.execFwStageDone ok s
  | .fwCommit r => Sys2Proof.Machine.execFwCommit r s
  | .fwActivate r => Sys2Proof.Machine.execFwActivate r s
  | .mbxDatagramRx g => Sys2Proof.Machine.execMbxDatagramRx g s
  | .secondTick => Sys2Proof.Machine.execSecondTick s
  | .millisecondTick => Sys2Proof.Machine.execMillisecondTick s
  | .eventWrite hits => Sys2Proof.Machine.execEventWrite hits s
  | .eventsLost => Sys2Proof.Machine.execEventsLost s
  | .consumerCountPoll ring => Sys2Proof.Machine.execConsumerCountPoll ring s
  | .eventRouteDown => Sys2Proof.Machine.execEventRouteDown s
  | .hopperFlushBoundary hopper => Sys2Proof.Machine.execHopperFlushBoundary hopper s
  | .tailNotice hopper => Sys2Proof.Machine.execTailNotice hopper s
  | .registerWrite a data hw => Sys2Proof.Machine.execRegisterWrite a data hw s
  | .rcRegisterRead a => Sys2Proof.Machine.execRcRegisterRead a s
  | .fltStickyRead path idx => Sys2Proof.Machine.execFltStickyRead path idx s
  | .setAliasWrite a data => Sys2Proof.Machine.execSetAliasWrite a data s
  | .clearAliasWrite a data => Sys2Proof.Machine.execClearAliasWrite a data s
  | .toggleAliasWrite a data => Sys2Proof.Machine.execToggleAliasWrite a data s
  | .shadowHighRead a => Sys2Proof.Machine.execShadowHighRead a s
  | .shadowHighWrite a data => Sys2Proof.Machine.execShadowHighWrite a data s
  | .shadowLowWrite a data => Sys2Proof.Machine.execShadowLowWrite a data s
  | .accessTimeout a write data => Sys2Proof.Machine.execAccessTimeout a write data s
  | .inbandWrWrite path on => Sys2Proof.Machine.execInbandWrWrite path on s
  | .nextBankPipe path mask => Sys2Proof.Machine.execNextBankPipe path mask s
  | .nextBankFul path => Sys2Proof.Machine.execNextBankFul path s
  | .fltInjectGo path source => Sys2Proof.Machine.execFltInjectGo path source s
  | .idxDataWrite path data => Sys2Proof.Machine.execIdxDataWrite path data s
  | .idxDataPostedWrite path data => Sys2Proof.Machine.execIdxDataPostedWrite path data s
  | .idxWriteComplete path farError => Sys2Proof.Machine.execIdxWriteComplete path farError s
  | .idxWriteTimeout path => Sys2Proof.Machine.execIdxWriteTimeout path s
  | .idxDataRead path => Sys2Proof.Machine.execIdxDataRead path s
  | .idxFetchDone path farError => Sys2Proof.Machine.execIdxFetchDone path farError s
  | .idxHoldExpiry path => Sys2Proof.Machine.execIdxHoldExpiry path s
  | .idxPerrCntRead path => Sys2Proof.Machine.execIdxPerrCntRead path s
  | .mbxWrite addr block x => Sys2Proof.Machine.execMbxWrite addr block x s
  | .mbxRead addr n hits => Sys2Proof.Machine.execMbxRead addr n hits s
  | .mbxRewind addr pec => Sys2Proof.Machine.execMbxRewind addr pec s
  | .winAddrWrite addr value pec => Sys2Proof.Machine.execWinAddrWrite addr value pec s
  | .winAddrRead addr n => Sys2Proof.Machine.execWinAddrRead addr n s
  | .winDataRead addr n => Sys2Proof.Machine.execWinDataRead addr n s
  | .winDataWrite addr data x => Sys2Proof.Machine.execWinDataWrite addr data x s
  | .winStatus addr n => Sys2Proof.Machine.execWinStatus addr n s
  | .status addr n => Sys2Proof.Machine.execStatus addr n s
  | .faultSummary addr n => Sys2Proof.Machine.execFaultSummary addr n s
  | .alertCause addr n fresh => Sys2Proof.Machine.execAlertCause addr n fresh s
  | .smbusRefused addr why => Sys2Proof.Machine.execSmbusRefused addr why s
  | .hostNotify lost => Sys2Proof.Machine.execHostNotify lost s
  | .notifyRepeat lost => Sys2Proof.Machine.execNotifyRepeat lost s
  | .smbusProtocolError addr readMade => Sys2Proof.Machine.execSmbusProtocolError addr readMade s
  | .sclTimeout => Sys2Proof.Machine.execSclTimeout s
  | .mbRstN => Sys2Proof.Machine.execMbRstN s
  | .smbusWake => Sys2Proof.Machine.execSmbusWake s
  | .smbusIdleSleep => Sys2Proof.Machine.execSmbusIdleSleep s
  | .pwrOkRise => Sys2Proof.Machine.execPwrOkRise s
  | .pwrOkFall => Sys2Proof.Machine.execPwrOkFall s
  | .rstNAssert => Sys2Proof.Machine.execRstNAssert s
  | .bootStart => Sys2Proof.Machine.execBootStart s
  | .imageLoaded image => Sys2Proof.Machine.execImageLoaded image s
  | .ready bootMs => Sys2Proof.Machine.execReady bootMs s
  | .domainSwitchDone => Sys2Proof.Machine.execDomainSwitchDone s
  | .refClockSlip stat => Sys2Proof.Machine.execRefClockSlip stat s
  | .dbgChal => Sys2Proof.Machine.execDbgChal s
  | .dbgResp scope sig => Sys2Proof.Machine.execDbgResp scope sig s
  | .jtagInstruction ir extest => Sys2Proof.Machine.execJtagInstruction ir extest s
  | .deviceResetBegin => Sys2Proof.Machine.execDeviceResetBegin s
  | .shadowLowRead a => Sys2Proof.Machine.execShadowLowRead a s
  | .registerReadError a => Sys2Proof.Machine.execRegisterReadError a s
  | .uplinkLaneLock lane => Sys2Proof.Machine.execUplinkLaneLock lane s
  | .ptpFollowUpRx h t1 => Sys2Proof.Machine.execPtpFollowUpRx h t1 s
  | .ptpDelayRespRx h t4 => Sys2Proof.Machine.execPtpDelayRespRx h t4 s
  | .mbRstNRise => Sys2Proof.Machine.execMbRstNRise s
  | .busFree lost => Sys2Proof.Machine.execBusFree lost s

end Sys2Proof.Machine
end

