-- ==== Sys2Proof/Machine/Step.lean ====
section
/-! DEFINITION. The step: the command at the front of the queue runs; on an empty queue one CK_CTL cycle passes. -/

namespace Sys2Proof.Machine

open Sys2Proof

/-- One step of the block (notes/assumptions/3.md for the empty queue). -/
def step (s : State) : Host.Outcome State Fault Refusal :=
  match s.pending with
  | [] => Sys2Proof.Machine.idle s
  | c :: rest => Sys2Proof.Machine.exec c { s with pending := rest }

/-- s with the command that a word spells put at the front of its queue; s itself, since no word spells one. -/
def State.withFetchWord (s : State) (nbits w : Nat) : State :=
  match decodeTableWord nbits w with
  | some c => { s with pending := c :: s.pending }
  | none => s

end Sys2Proof.Machine
end

