-- ==== Sys2Proof/Safety.lean ====
section
/-! DEFINITION. The words that the statements use: a device that runs, a request that can begin, a command that is answered,
what a step leaves as it was, and the device without power. -/

namespace Sys2Proof.Machine

open Sys2Proof

/-- The device acts: it has power, and neither RST_N nor a start-up not yet begun holds it. -/
def State.alive (s : State) : Prop := s.dead = false

/-- The device is READY, not in the safe state and in no device recovery (R74). -/
def State.serves (s : State) : Prop :=
  s.alive ∧ s.dev.pwr.phase = .ready ∧ s.dev.safe = false ∧ s.dev.devRec = false

/-- A request can begin (R62, R69, R71, R74): the device serves, no command of its mailbox is executing, no command in
progress holds an object that it needs, and no word of it is read with poison (R102). That it is the next of its mailbox is the
premise of `Does`, `Accepts`, `TurnsAway` and `GoesOn`, which know its opcode. -/
structure Begins (s : State) (r : Req) (objs : List Obj) : Prop where
  serves : s.serves
  idle : s.dev.runs r.mbx.val = false
  ownFree : s.dev.heldBySame r.mbx.val objs = false
  otherFree : s.dev.heldByOther r.mbx.val objs = false
  clean : ∀ code, poisonWords code r = []

/-- The command of a request that is the next of its mailbox (R69) is done: a device in which its effect stands keeps it if it is a configuration command (R533) and
answers OK with a payload; requests of unknown opcode next in the hopper are answered too (R62, R69). -/
def Does (i : Instr) (s : State) (code : Nat) (r : Req) (payload : Bytes) (effect : Dev → Prop) : Prop :=
  s.dev.behind code r = false →
    ∃ d, exec i s = .next { s with dev := ((d.record code r.payload).answer code r St.ok payload).drainUnknown r.mbx.val 8 }
      ∧ effect d

/-- The command of a request that is the next of its mailbox (R69) is accepted: a device in which its effect stands enters it with the objects it holds and the values
it keeps until its follow-up, keeps it if it is a configuration command, and answers ACCEPTED (R66, R71). -/
def Accepts (i : Instr) (s : State) (code : Nat) (r : Req) (held : List Obj) (args : List Nat) (effect : Dev → Prop) : Prop :=
  s.dev.behind code r = false →
    ∃ d : Dev, effect d ∧
      let d1 : Dev := { d with accepted := d.accepted ++ [⟨code, r, held, args⟩] }
      let d2 := ((d1.record code r.payload).answer code r St.accepted []).drainUnknown r.mbx.val 8
      exec i s = .next { s with dev := d2 }

/-- The command of a request that is the next of its mailbox (R69) is turned away with a status, an empty payload and no effect (R89). -/
def TurnsAway (i : Instr) (s : State) (code : Nat) (r : Req) (status : Nat) : Prop :=
  s.dev.behind code r = false →
    exec i s = .next { s with dev := ((s.dev.takeReq code r).answer code r status []).drainUnknown r.mbx.val 8 }

/-- The command of a request that is the next of its mailbox has begun and answers later (R69, R545): it is entered among the
running commands, and what happens after this step is not its doing (R54). -/
def GoesOn (i : Instr) (s : State) (code : Nat) (r : Req) (effect : Dev → Running → Prop) : Prop :=
  s.dev.behind code r = false →
    ∃ d x, exec i s = .next { s with dev := { d with cause := none, running := d.running ++ [x] } } ∧ x.code = code ∧ x.req = r
      ∧ effect d x

/-- A command or event changes the device alone: the pins and the queue stay. -/
def Becomes (i : Instr) (s : State) (effect : Dev → Prop) : Prop :=
  ∃ d, exec i s = .next { s with dev := d } ∧ effect d

/-- Every register but those listed reads as before. -/
def Dev.regsKept (d t : Dev) (l : List Nat) : Prop := ∀ a, a ∉ l → t.rd a = d.rd a

/-- Deep space, the bulk areas and the frame store read as before. -/
def Dev.memKept (d t : Dev) : Prop :=
  (∀ a, t.deepRd a = d.deepRd a) ∧ (∀ m o n, t.bulkRd m o n = d.bulkRd m o n) ∧ ∀ a n, t.fsRd a n = d.fsRd a n

/-- Nothing of the device is different but registers, which are those listed at most. -/
def Dev.onlyRegs (d t : Dev) (l : List Nat) : Prop := t = { d with regs := t.regs } ∧ d.regsKept t l

/-- The device of a part without power: as after a power-on reset, with nothing in progress, no line, nothing waiting anywhere
(R553). -/
def Dev.unpowered (d : Dev) : Prop :=
  d.lineStarted = false ∧ d.running = [] ∧ d.accepted = [] ∧ d.boxes = List.replicate 8 {} ∧ d.authKey = none
  ∧ d.ev = {} ∧ d.pos = {} ∧ d.ful = {} ∧ d.plc = {} ∧ d.pipes = List.replicate 16 {} ∧ d.ports = List.replicate 16 {}
  ∧ d.band = {} ∧ d.bulk = [] ∧ d.deep = [] ∧ d.hood.fs = [] ∧ d.flt.log = []
  ∧ ∀ a, a ≠ Reg.rstCause → d.rd a = RegMap.resetAt a

/-! ## Lost lines -/

/-- The lines that a record still awaits, reported lost with a cause (R172, R175). -/
def TrigRec.lostLines (t : TrigRec) (cause : Nat) : List Line :=
  (List.range (t.awaits - t.got)).map fun j => t.line (t.got + j) cause t.why []

/-- The line in progress of a port and the lines that its records await, reported lost with a cause (R186, R188). -/
def Port.lostLines (p : Port) (cause : Nat) : List Line :=
  (p.line.toList.map fun l => l.rcd.line l.sub cause l.why []) ++ (p.inUse.toList ++ p.table).flatMap fun t => t.lostLines cause

/-! ## Band messages -/

/-- A message of a kind, reliable or not, comes valid out of the BAND_RX hopper of a port that takes it, in its order (R395, R398, R399). -/
def Dev.bandValid (d : Dev) (m : BandMsg) (reliable : Bool) : Prop :=
  d.bandRuns m.port.val = true ∧ m.how.val = 0 ∧ badWords [] m.hits = []
  ∧ (reliable = true → d.bstate m.port.val = 3 ∧ m.lseq.toNat = (d.bport m.port.val).rxSeq)

/-- The device that has taken such a message (R398, R399): block lock shows, and one of a reliable kind is acknowledged and the next
LSEQ awaited. -/
def Dev.bandTaken (d : Dev) (m : BandMsg) (reliable : Bool) : Dev :=
  let d1 := (d.hopRead (69 + m.port.val)).modBport m.port.val fun b => { b with blockLock := true }
  if reliable then (d1.modBport m.port.val fun b => { b with rxSeq := (m.lseq.toNat + 1) % 65536 }).emit
    (.band m.port.val 13 (d.hopsOf 13) 0 [(m.lseq.toNat : Int)])
  else d1

/-- A device passes a message on, away from the port it came from (R398, R415): on the other port if that is UP and the device is
not safe, under that port's next LSEQ and with the hops its value has come by then (R395), 63 at most; what goes outward from the
lead does not go back to it. -/
def Dev.passedOn (d : Dev) (m : BandMsg) (kind hops : Nat) (outward : Bool) (body : List Int) : Dev :=
  let q := 1 - m.port.val
  let n := (d.bport q).txSeq
  if d.bstate q = 3 ∧ d.safe = false ∧ (outward = false ∨ (d.bport q).nbrRole ≠ 1) then
    (d.modBport q fun b => { b with txSeq := (n + 1) % 65536, unacked := b.unacked ++ [⟨n, kind, min 63 hops, body, 1⟩] }).emit
      (.band q kind (min 63 hops) n body)
  else d

/-! ## Register accesses -/

/-- A path may issue an access (R450, R452), and no transaction of WIN_DATA waits for an answer of its own. -/
def Dev.pathFree (d : Dev) (p : Path) : Prop := d.pathWaits p = false ∧ d.smb.win = none

/-- The device in which the last access of a path has been answered. -/
def Dev.answered (d : Dev) (p : Path) (x : Answer) : Dev :=
  { d with bus := { d.bus with answers := modAt d.bus.answers (pathNo p) fun _ => x } }

/-- The word that an access within 32 bits touches, the bits of its lanes, and its data in them (R436). -/
def accWord (addr : Nat) : Nat := winDirect addr / 4 * 4
def accLanes (addr : Nat) (size : Size) : Word := laneMask (winDirect addr % 4) (sizeBytes size)
def accData (addr : Nat) (size : Size) (v : Nat) : Word :=
  BitVec.ofNat 32 (v % 2 ^ (8 * sizeBytes size) * 2 ^ (8 * (winDirect addr % 4)))

/-- A register word whose write sets nothing off beside the value: not NEXT_BANK, the seal units, the scan engine, FLT_CLASSs,
FLT_CFG, FLT_INJECT, POS_CTRL or STRBn_CFG, nor the bridge. -/
def storesOnly (a : Nat) : Bool :=
  (RegMap.descAt a).isSome && !isIdx a && a != Reg.nextBank && a != Reg.fltCfg && a != Reg.fltInject && a != Reg.posCtrl
  && !decide (0x90200 ≤ a ∧ a < 0x90320) && !decide (Reg.scanCtrl ≤ a ∧ a ≤ Reg.scanLen)
  && !decide (Reg.fltClass 0 ≤ a ∧ a < Reg.fltClass 256) && !decide (Reg.strbCfg 0 ≤ a ∧ a < Reg.strbCfg 8 ∧ a % 0x10 = 0)

/-- A register word that reads as the value it holds. -/
def Dev.holdsWord (d : Dev) (a : Nat) : Prop := isIdx a = false ∧ d.show_ a = (d.rdN a, d)

/-- The window address of a register seen through alias k: 1 set, 2 clear, 3 toggle (R427). -/
def aliasAddr (k a : Nat) : Nat := a / 0x10000 * 0x10000 + 0x4000 * k + a % 0x4000

/-- What a view writes: the lanes' bits through the direct view, ones set, cleared or inverted through an alias (R427, R440). -/
def viewed (view : Nat) (old v en : Word) : Word :=
  if view = 0 then (old &&& ~~~en) ||| (v &&& en)
  else if view = 1 then old ||| (v &&& en) else if view = 2 then old &&& ~~~(v &&& en) else old ^^^ (v &&& en)

/-- The step gives a device in which one register word is new and the access has been answered; all else is as before. -/
def Dev.wordDone (d t : Dev) (p : Path) (a : Nat) (v : Word) (x : Answer) : Prop :=
  t = { d with regs := t.regs, bus := (d.answered p x).bus } ∧ t.rd a = v ∧ d.regsKept t [a]

end Sys2Proof.Machine
end

