-- ==== Sys2Proof/Certificates/Slice0/Obligations.lean ====
section
/-! DEFINITION. The statements about the block, for the provers. -/

open Sys2Proof Sys2Proof.Machine

/-- R427, R436, R440: an access of 8, 16 or 32 bits that is not refused writes, through the direct view, the writable bits of
the lanes it enables; through an alias, the writable bits written 1 become 1, become 0 or are inverted. Every other register and
all else stay; of RATE_NOM, which hardware updates, an update in the same cycle is lost and sets LOST_UPDATE (R443, R444). The word is
one whose write sets nothing else off and is no word of a 64-bit quantity; the path holds no write shadow of the block. -/
def Obligations.RegisterWordWrites : Prop :=
  ∀ (s : State) (p : Path) (addr : BitVec 32) (size : Size) (data : BitVec 64), s.alive → s.dev.pathFree p → size ≠ .b64 →
    storesOnly (accWord addr.toNat) = true → RegMap.isWide (accWord addr.toNat) = false →
    shadowOf s.dev.bus.writeShadows (accWord addr.toNat / 0x10000) p = none →
    let a := accWord addr.toNat
    let put := fun view => viewed view (s.dev.rd a) (accData addr.toNat size data.toNat) (accLanes addr.toNat size &&& RegMap.rwMask a)
    let ok := fun x => s.dev.accessError p x size (some data.toNat) = none
    (∀ hw, (hw = true → a ≠ Reg.rateNom) → ok addr.toNat → Becomes (.registerWrite ⟨p, addr, size⟩ data hw) s fun t =>
      s.dev.wordDone t p a (put (winView addr.toNat)) .done)
    ∧ (a = Reg.rateNom → ok addr.toNat → Becomes (.registerWrite ⟨p, addr, size⟩ data true) s fun t => ∃ d : Dev,
      s.dev.wordDone d p a (put (winView addr.toNat)) .done ∧ t = d.setFlag (Reg.luMap (winSlot addr.toNat / 32)) (winSlot addr.toNat % 32) true)
    ∧ (ok (aliasAddr 1 addr.toNat) → Becomes (.setAliasWrite ⟨p, addr, size⟩ data) s fun t => s.dev.wordDone t p a (put 1) .done)
    ∧ (ok (aliasAddr 2 addr.toNat) → Becomes (.clearAliasWrite ⟨p, addr, size⟩ data) s fun t => s.dev.wordDone t p a (put 2) .done)
    ∧ (ok (aliasAddr 3 addr.toNat) → Becomes (.toggleAliasWrite ⟨p, addr, size⟩ data) s fun t => s.dev.wordDone t p a (put 3) .done)

/-- R436, R442: a read of 8, 16 or 32 bits returns its lanes of the register and clears the clear-on-read bits that it returns;
through an alias it clears nothing (R441). FLT_STICKYi and IDX_PERR_CNT
are such registers (R467, R452); a sticky bit whose source's live bit is 1 is set again in the same cycle (R464). -/
def Obligations.ReadsClearWhatTheyReturn : Prop :=
  ∀ (s : State) (p : Path) (addr : BitVec 32) (size : Size), s.alive → s.dev.pathFree p →
    (∀ a, size ≠ .b64 → a = accWord addr.toNat → s.dev.holdsWord a → RegMap.isWide a = false →
      s.dev.accessError p addr.toNat size none = none →
      Becomes (.rcRegisterRead ⟨p, addr, size⟩) s fun t => s.dev.wordDone t p a
        (if winView addr.toNat = 0 then s.dev.rd a &&& ~~~(s.dev.rcBits a &&& accLanes addr.toNat size) else s.dev.rd a)
        (.value (BitVec.ofNat 64 ((s.dev.rd a).toNat / 2 ^ (8 * (winDirect addr.toNat % 4)) % 2 ^ (8 * sizeBytes size)))))
    ∧ (∀ i : Fin 8, s.dev.domainUp 128 = true → Becomes (.fltStickyRead p i) s fun t =>
        s.dev.wordDone t p (Reg.fltSticky i.val) (s.dev.rd (Reg.fltSticky i.val) &&& s.dev.rd (Reg.fltLive i.val)) (.value ((s.dev.rd (Reg.fltSticky i.val)).zeroExtend 64)))
    ∧ (s.dev.domainUp 134 = true → Becomes (.idxPerrCntRead p) s fun t =>
        s.dev.wordDone t p Reg.idxPerrCnt 0 (.value ((s.dev.rd Reg.idxPerrCnt).zeroExtend 64)))

/-- R437, with R439 for the 64-bit read: a read that touches the low word of a 64-bit quantity loads the path's read shadow of the
block with the whole high word; a read of the high word returns a shadow tagged for the quantity and clears the tag, and the
live high word otherwise. Clear-on-read bits that are returned are cleared (R442); nothing else changes. -/
def Obligations.ReadShadows : Prop :=
  ∀ (s : State) (p : Path) (addr : BitVec 32) (size : Size) (q : Nat), s.alive → s.dev.pathFree p → RegMap.isWide q = true →
    q % 8 = 0 → s.dev.holdsWord q → s.dev.holdsWord (q + 4) → winView addr.toNat = 0 →
    s.dev.accessError p addr.toNat size none = none →
    let slot := q / 0x10000
    let lo := (s.dev.rd q).toNat
    let hi := s.dev.rd (q + 4)
    let lanes := fun v => Answer.value (BitVec.ofNat 64 (v / 2 ^ (8 * (winDirect addr.toNat % 4)) % 2 ^ (8 * sizeBytes size)))
    let en := accLanes addr.toNat size
    let rest := fun (t : Dev) => t = { s.dev with regs := t.regs, bus := t.bus } ∧ s.dev.regsKept t [q, q + 4]
      ∧ t.bus.writeShadows = s.dev.bus.writeShadows ∧ t.bus.bridges = s.dev.bus.bridges
      ∧ ∀ k x, (k, x) ≠ (slot, p) → shadowOf t.bus.readShadows k x = shadowOf s.dev.bus.readShadows k x
    (size ≠ .b64 → accWord addr.toNat = q → Becomes (.shadowLowRead ⟨p, addr, size⟩) s fun t => rest t
      ∧ shadowOf t.bus.readShadows slot p = some ⟨slot, p, q, hi⟩ ∧ t.answerOf p = lanes lo
      ∧ t.rd q = s.dev.rd q &&& ~~~(s.dev.rcBits q &&& en) ∧ t.rd (q + 4) = hi)
    ∧ (size = .b64 → winDirect addr.toNat = q → Becomes (.shadowLowRead ⟨p, addr, size⟩) s fun t => rest t
      ∧ shadowOf t.bus.readShadows slot p = some ⟨slot, p, q, hi⟩
      ∧ t.answerOf p = .value (BitVec.ofNat 64 (lo + 2 ^ 32 * hi.toNat))
      ∧ t.rd q = s.dev.rd q &&& ~~~s.dev.rcBits q ∧ t.rd (q + 4) = hi &&& ~~~s.dev.rcBits (q + 4))
    ∧ (size ≠ .b64 → accWord addr.toNat = q + 4 → ∀ v, shadowOf s.dev.bus.readShadows slot p = some ⟨slot, p, q, v⟩ →
      Becomes (.shadowHighRead ⟨p, addr, size⟩) s fun t => rest t ∧ shadowOf t.bus.readShadows slot p = none
        ∧ t.answerOf p = lanes v.toNat ∧ t.rd q = s.dev.rd q ∧ t.rd (q + 4) = hi &&& ~~~(s.dev.rcBits (q + 4) &&& en &&& v))
    ∧ (size ≠ .b64 → accWord addr.toNat = q + 4 → (∀ v, shadowOf s.dev.bus.readShadows slot p ≠ some ⟨slot, p, q, v⟩) →
      Becomes (.shadowHighRead ⟨p, addr, size⟩) s fun t => rest t
        ∧ shadowOf t.bus.readShadows slot p = shadowOf s.dev.bus.readShadows slot p
        ∧ t.answerOf p = lanes hi.toNat ∧ t.rd q = s.dev.rd q ∧ t.rd (q + 4) = hi &&& ~~~(s.dev.rcBits (q + 4) &&& en))

/-- R438, R439: a write to the high word loads the path's write shadow of the block, with the live bytes for those not enabled; a
write to the low word commits the shadow with it if the shadow is tagged for the quantity, and is alone otherwise; a 64-bit write
commits its own eight bytes and clears the tag; a write to another quantity or register of the block discards the shadow and
counts in SHD_DROP_CNT. -/
def Obligations.WriteShadows : Prop :=
  ∀ (s : State) (p : Path) (addr : BitVec 32) (size : Size) (data : BitVec 64) (q : Nat), s.alive → s.dev.pathFree p →
    RegMap.isWide q = true → q % 8 = 0 → storesOnly q = true → storesOnly (q + 4) = true → winView addr.toNat = 0 →
    s.dev.accessError p addr.toNat size (some data.toNat) = none →
    let slot := q / 0x10000
    let v := accData addr.toNat size data.toNat
    let en := accLanes addr.toNat size
    let put := fun a v en => viewed 0 (s.dev.rd a) v (en &&& RegMap.rwMask a)
    let rest := fun (t : Dev) => t = { s.dev with regs := t.regs, bus := t.bus } ∧ t.answerOf p = .done
      ∧ t.bus.readShadows = s.dev.bus.readShadows ∧ t.bus.bridges = s.dev.bus.bridges
      ∧ ∀ k x, (k, x) ≠ (slot, p) → shadowOf t.bus.writeShadows k x = shadowOf s.dev.bus.writeShadows k x
    let own := shadowOf s.dev.bus.writeShadows slot p
    let mine := own = none ∨ ∃ w, own = some ⟨slot, p, q, w⟩
    (size ≠ .b64 → accWord addr.toNat = q + 4 → mine → ∃ t, exec (.shadowHighWrite ⟨p, addr, size⟩ data) s = .next { s with dev := t } ∧ rest t
      ∧ shadowOf t.bus.writeShadows slot p = some ⟨slot, p, q, (s.dev.rd (q + 4) &&& ~~~en) ||| (v &&& en)⟩ ∧ s.dev.regsKept t [])
    ∧ (size ≠ .b64 → accWord addr.toNat = q → own = none → ∃ t, exec (.shadowLowWrite ⟨p, addr, size⟩ data) s = .next { s with dev := t } ∧ rest t
      ∧ shadowOf t.bus.writeShadows slot p = none ∧ t.rd q = put q v en ∧ s.dev.regsKept t [q])
    ∧ (size ≠ .b64 → accWord addr.toNat = q → ∀ w, own = some ⟨slot, p, q, w⟩ →
      ∃ t, exec (.shadowLowWrite ⟨p, addr, size⟩ data) s = .next { s with dev := t } ∧ rest t ∧ shadowOf t.bus.writeShadows slot p = none
        ∧ t.rd q = put q v en ∧ t.rd (q + 4) = put (q + 4) w 0xFFFFFFFF#32 ∧ s.dev.regsKept t [q, q + 4])
    ∧ (size = .b64 → winDirect addr.toNat = q → mine → ∃ t, exec (.shadowLowWrite ⟨p, addr, size⟩ data) s = .next { s with dev := t } ∧ rest t
      ∧ shadowOf t.bus.writeShadows slot p = none ∧ t.rd q = put q (data.truncate 32) 0xFFFFFFFF#32
      ∧ t.rd (q + 4) = put (q + 4) ((data >>> 32).truncate 32) 0xFFFFFFFF#32 ∧ s.dev.regsKept t [q, q + 4])
    ∧ (size ≠ .b64 → accWord addr.toNat = q ∨ accWord addr.toNat = q + 4 → ∀ w o, o ≠ q → own = some ⟨slot, p, o, w⟩ →
      q ≠ Reg.shdDropCnt → q + 4 ≠ Reg.shdDropCnt → ∀ low, low = (accWord addr.toNat = q : Bool) →
      Becomes (if low then .shadowLowWrite ⟨p, addr, size⟩ data else .shadowHighWrite ⟨p, addr, size⟩ data) s fun t => rest t
        ∧ t.fld Reg.shdDropCnt 0 32 = satAdd 32 (s.dev.fld Reg.shdDropCnt 0 32) 1
        ∧ shadowOf t.bus.writeShadows slot p ≠ some ⟨slot, p, o, w⟩ ∧ s.dev.regsKept t [q, Reg.shdDropCnt]
        ∧ t.rd q = if low then put q v en else s.dev.rd q)

/-- R430, R435 (with R429, R447, R448, R604): the kind of the first rule that an access breaks, in the order EMPTY_SLOT, UNALIGNED, DENIED,
POWERED_OFF; such an access, a read or a write by any row of the table and through any alias, has no effect but its error response and one
entry in the violation log: it wakes nothing and raises no fault; VIOL_CNT counts it, VIOL_PTR moves on, its slot takes the address and
what the access was. -/
def Obligations.RefusedAccesses : Prop :=
  ∀ (s : State) (p : Path) (addr : BitVec 32) (size : Size) (data : BitVec 64), s.alive → s.dev.pathFree p →
    (∀ (x : Nat) w, s.dev.accessError p x size w =
      if RegMap.slotRows (winSlot x) = none then some 1
      else if x % sizeBytes size ≠ 0 then some 2
      else if denied p x size w = true then some 5
      else if s.dev.domainUp (regDomain (winDirect x)) = false then some 3 else none)
    ∧ ∀ (k x : Nat),
      let j := s.dev.rdN Reg.violPtr % 16
      let n := (s.dev.rdN Reg.violCnt + 1) % 2 ^ 32
      let acc : Access := ⟨p, addr, size⟩
      let refused := fun (write : Bool) (t : Dev) =>
        t = { s.dev with regs := t.regs, bus := (s.dev.answered p (.error k)).bus }
        ∧ s.dev.regsKept t [Reg.violCnt, Reg.violPtr, Reg.violAddr j, Reg.violInfo j]
        ∧ t.rdN Reg.violCnt = n ∧ t.rdN Reg.violPtr = (j + 1) % 16 ∧ t.rdN (Reg.violAddr j) = x % 2 ^ 24
        ∧ t.flag (Reg.violInfo j) 31 = true ∧ t.fld (Reg.violInfo j) 29 2 = pathNo p ∧ t.flag (Reg.violInfo j) 28 = false
        ∧ t.fld (Reg.violInfo j) 24 4 = k ∧ t.flag (Reg.violInfo j) 23 = write
        ∧ t.fld (Reg.violInfo j) 21 2 = sizeCode size ∧ t.fld (Reg.violInfo j) 0 16 = n % 2 ^ 16
      (x = addr.toNat → s.dev.accessError p x size none = some k → Becomes (.registerReadError acc) s (refused false))
      ∧ (∀ i : Instr, i ∈ ([.rcRegisterRead acc, .shadowHighRead acc, .shadowLowRead acc] : List Instr) → x = addr.toNat →
          s.dev.accessError p x size none = some k → Becomes i s (refused false))
      ∧ (∀ i : Instr, i ∈ ([.registerWrite acc data false, .registerWrite acc data true, .shadowHighWrite acc data, .shadowLowWrite acc data] : List Instr) →
          x = addr.toNat → s.dev.accessError p x size (some data.toNat) = some k → Becomes i s (refused true))
      ∧ (∀ (v : Nat) (i : Instr), (v, i) ∈ ([(1, .setAliasWrite acc data), (2, .clearAliasWrite acc data), (3, .toggleAliasWrite acc data)] : List (Nat × Instr)) →
          x = aliasAddr v addr.toNat → s.dev.accessError p x size (some data.toNat) = some k → Becomes i s (refused true))

/-- R431: an access that its block does not complete is refused with kind 4, logged, and raises source 0x0A; a read leaves the
block alone, and whether a write took effect is open. -/
def Obligations.AccessTimeouts : Prop :=
  ∀ (s : State) (p : Path) (addr : BitVec 32) (size : Size) (data : BitVec 64), s.alive → s.dev.pathFree p →
    covers addr.toNat size 0x40004 = false →
    let late := fun (d : Dev) (write : Bool) =>
      ((d.violation p (addr.toNat % 2 ^ 24) false 4 write (sizeCode size)).answered p (.error 4)).pulse [0x0A] 0
    (s.dev.accessError p addr.toNat size none = none →
      Becomes (.accessTimeout ⟨p, addr, size⟩ false data) s fun t => t = late s.dev false)
    ∧ (s.dev.accessError p addr.toNat size (some data.toNat) = none → s.dev.smb.win = none →
      ∃ d, (d = (s.dev.fresh 1).2 ∨ d = ((s.dev.fresh 1).2.writeAccess p addr.toNat size data.toNat).1) ∧
        exec (.accessTimeout ⟨p, addr, size⟩ true data) s = .next { s with dev :=
          (((d.violation p (addr.toNat % 2 ^ 24) false 4 true (sizeCode size)).reply p (.error 4)).pulse [0x0A] 0) })

/-- R446, R448, R488: INBAND_WR is written on the management bus path alone; NEXT_BANK requests the swap of each named unit with
the target all ones, and sets the unit's bit of NB_REFUSED when a swap is pending, a copy runs or its bank fails its check; a
write of FLT_INJECT.GO on the management bus path makes SOURCE occur for one cycle, a reserved source nothing. -/
def Obligations.AccessSwapAndInject : Prop :=
  ∀ (s : State) (p : Path), s.alive → s.dev.pathFree p → s.dev.domainUp 126 = true → s.dev.domainUp 128 = true →
    (∀ k, shadowOf s.dev.bus.writeShadows k p = none) →
    (∀ on, p = .management → Becomes (.inbandWrWrite p on) s fun t =>
      s.dev.wordDone t p Reg.regAccess ((s.dev.rd Reg.regAccess &&& ~~~1) ||| BitVec.ofNat 32 (b2n on)) .done)
    ∧ (∀ on, p ≠ .management → Becomes (.inbandWrWrite p on) s fun t =>
      t = (s.dev.violation p Reg.regAccess false 5 true 2).answered p (.error 5))
    ∧ (∀ mask : BitVec 16, Becomes (.nextBankPipe p mask) s fun t => t =
        ((maskList 16 mask.toNat).foldl (fun (d : Dev) n =>
          if d.bankBusy n || !d.commitOk n then d.setFlag Reg.nbRefused n true else d.commitBank n noBatt)
          (s.dev.wr Reg.nextBank (s.dev.rd Reg.nextBank))).reply p .done)
    ∧ Becomes (.nextBankFul p) s (fun t => t =
        ((fun (d : Dev) => if d.fulBusy then d.setFlag Reg.nbRefused 16 true else d.commitFul noBatt)
          (s.dev.wr Reg.nextBank (s.dev.rd Reg.nextBank))).reply p .done)
    ∧ ∀ src : BitVec 8, p = .management → Becomes (.fltInjectGo p src) s fun t => ∃ d : Dev,
        s.dev.wordDone (d.answered p .done) p Reg.fltInject ((s.dev.rd Reg.fltInject &&& ~~~0xFF#32) ||| src.zeroExtend 32) .done
        ∧ t = (if FaultSource.reserved src.toNat then d
            else if src = 0x6D#8 ∨ src = 0x6E#8 then (d.fresh 64).2.pulse [src.toNat] (d.fresh 64).1 else d.pulse [src.toNat] 0).reply p .done

/-- R450, R452, R454, R455: a write to IDX_DATA goes to the far side; with POST it has completed for its path and IDX_ADDR advances
under AINC; without, the path waits. A write refused by its address fails at once. The far side then stores the word, or the
failure is an error response, or for a posted write is counted; one not done in time fails (R451), and whether it took effect is
open. A register command that waits for the bridge of the in-band path goes on with each of these (R434). -/
def Obligations.BridgeWrites : Prop :=
  ∀ (s : State) (p : Path) (v : Word), s.alive → s.dev.smb.win = none → (s.dev.bridge p).next = none →
    s.dev.domainUp 134 = true → (∀ k, shadowOf s.dev.bus.writeShadows k p = none) →
    let b := s.dev.bridge p
    let a := b.addr.toNat
    let d0 := s.dev.modBridge p fun b => { b with data := v }
    (b.writing = none → b.post = false → s.dev.deepKind p a true = none ∨ s.dev.deepKind p a true = some 7 →
      Becomes (.idxDataWrite p v) s fun t =>
        t = (s.dev.modBridge p fun b => { b with data := v, writing := some (a, v, false) }).answered p .waiting)
    ∧ (b.writing = none → b.post = false → ∀ k, s.dev.deepKind p a true = some k → k ≠ 7 →
      Becomes (.idxDataWrite p v) s fun t => t = (d0.violation p a true k true 2).answered p (.error k))
    ∧ (b.writing = none → b.post = true → s.dev.deepKind p a true = none ∨ s.dev.deepKind p a true = some 7 →
      Becomes (.idxDataPostedWrite p v) s fun t =>
        t = (s.dev.modBridge p fun b => ({ b with data := v, writing := some (a, v, true) } : Bridge).advance).answered p .done)
    ∧ (b.writing = none → b.post = true → ∀ k, s.dev.deepKind p a true = some k → k ≠ 7 →
      Becomes (.idxDataPostedWrite p v) s fun t => t = ((d0.postFailed p a k).modBridge p Bridge.advance).answered p .done)
    ∧ (∀ x post, b.writing = some (x, v, post) → s.dev.deepKind p x true = none →
      Becomes (.idxWriteComplete p false) s fun t => ∃ w : Dev, t = w.bridgeMoved p ∧ (deepTuning x = false → w.deepRd x = v)
        ∧ (∀ y, y ≠ x ∨ deepTuning x = true → w.deepRd y = s.dev.deepRd y) ∧ (w.bridge p).writing = none
        ∧ w = { (if post then s.dev.modBridge p fun b => { b with writing := none }
            else (s.dev.modBridge p fun b => ({ b with writing := none } : Bridge).advance).answered p .done) with deep := w.deep, lost := w.lost })
    ∧ (∀ x far, b.writing = some (x, v, false) → far = true ∨ (s.dev.deepKind p x true).isSome = true → Becomes (.idxWriteComplete p far) s fun t =>
        t = (((s.dev.modBridge p fun b => { b with writing := none }).violation p x true 7 true 2).answered p (.error 7)).bridgeMoved p)
    ∧ (∀ x far, b.writing = some (x, v, true) → far = true ∨ (s.dev.deepKind p x true).isSome = true → Becomes (.idxWriteComplete p far) s fun t =>
        t = ((s.dev.modBridge p fun b => { b with writing := none }).postFailed p x 7).bridgeMoved p)
    ∧ (∀ x, b.writing = some (x, v, false) → s.dev.deepKind p x true = none → Becomes (.idxWriteTimeout p) s fun t => ∃ d : Dev,
        d = { ((s.dev.modBridge p fun b => { b with writing := none }).fresh 1).2 with deep := d.deep, lost := d.lost }
        ∧ (∀ y, y ≠ x → d.deepRd y = s.dev.deepRd y) ∧ (d.deepRd x = v ∨ d.deepRd x = s.dev.deepRd x)
        ∧ t = ((d.violation p x true 8 true 2).answered p (.error 8)).bridgeMoved p)
    ∧ (∀ x k, b.writing = some (x, v, false) → s.dev.deepKind p x true = some k → Becomes (.idxWriteTimeout p) s fun t =>
        t = (((s.dev.modBridge p fun b => { b with writing := none }).violation p x true k true 2).answered p (.error k)).bridgeMoved p)

/-- R453, R454: a read of IDX_DATA returns a held value for its address and releases it; while a fetch is in progress it receives
RETRY; otherwise a fetch begins, and a value held for another address is discarded and counted. A held failure is the error
response. A completed fetch is held, or its failure is, of a word with an uncorrectable error too; one not collected in time is discarded
and counted. -/
def Obligations.BridgeReads : Prop :=
  ∀ (s : State) (p : Path), s.alive → s.dev.pathFree p → (s.dev.bridge p).writing = none → s.dev.domainUp 134 = true →
    let b := s.dev.bridge p
    let a := b.addr.toNat
    let start := fun (d : Dev) => (d.modBridge p fun b => { b with fetching := some a }).answered p .retry
    (∀ v, b.held = some (.value a v) → Becomes (.idxDataRead p) s fun t =>
        t = (s.dev.modBridge p fun b => ({ b with held := none } : Bridge).advance).answered p (.value (v.zeroExtend 64)))
    ∧ (∀ k, b.held = some (.error a k) → Becomes (.idxDataRead p) s fun t =>
        t = ((s.dev.modBridge p fun b => { b with held := none }).violation p a true k false 2).answered p (.error k))
    ∧ (b.held = none → b.fetching.isSome = true → Becomes (.idxDataRead p) s fun t => t = s.dev.answered p .retry)
    ∧ (b.held = none → b.fetching = none → Becomes (.idxDataRead p) s fun t => t = start s.dev)
    ∧ (∀ h x, ((∃ v, h = Held.value x v) ∨ ∃ k, h = Held.error x k) → x ≠ a → b.held = some h →
        (b.fetching = none → Becomes (.idxDataRead p) s fun t =>
          t = start ((s.dev.modBridge p fun b => { b with held := none }).incSat Reg.idxDiscardCnt 0 32 1))
        ∧ (b.fetching.isSome = true → Becomes (.idxDataRead p) s fun t => t = s.dev.answered p .retry))
    ∧ (∀ x, b.fetching = some x → s.dev.deepKind p x false = none → (∀ e ∈ s.dev.lost, ramEntry x ≠ some e) → Becomes (.idxFetchDone p false) s fun t =>
        t = ((s.dev.deepFetch x).2.modBridge p fun b =>
          { b with fetching := none, held := some (.value x (BitVec.ofNat 32 (s.dev.deepFetch x).1)) }).bridgeMoved p)
    ∧ (∀ x far, b.fetching = some x → s.dev.deepKind p x false = none → far = true ∨ (∃ e ∈ s.dev.lost, ramEntry x = some e) →
        Becomes (.idxFetchDone p far) s fun t =>
        t = (s.dev.modBridge p fun b => { b with fetching := none, held := some (.error x 7) }).bridgeMoved p)
    ∧ (∀ x k far, b.fetching = some x → s.dev.deepKind p x false = some k → Becomes (.idxFetchDone p far) s fun t =>
        t = (s.dev.modBridge p fun b => { b with fetching := none, held := some (.error x k) }).bridgeMoved p)
    ∧ (b.held = none → Becomes (.idxHoldExpiry p) s (· = s.dev))
    ∧ (b.held.isSome = true → Becomes (.idxHoldExpiry p) s fun t =>
        t = (s.dev.modBridge p fun b => { b with held := none }).incSat Reg.idxDiscardCnt 0 32 1)

/-- R112, R114, R443, R444: START of a seal unit loads 0xFFFF_FFFF into SEALn_RUN and processes the fold word, unless NOFOLD; a write
of SEALn_DATA processes its bytes in ascending order; SEALn_RUN takes a written value, and a hardware update that it meets
is lost and sets LOST_UPDATE of slot 9. For units 7 and 8, which the Milliner leaves to diagnostics (R116, R120), nothing else
changes. -/
def Obligations.SealUnits : Prop :=
  ∀ (s : State) (p : Path) (n : Fin 9) (data : Word), s.alive → s.dev.pathFree p → s.dev.domainUp 133 = true → 7 ≤ n.val →
    shadowOf s.dev.bus.writeShadows 9 p = none →
    let run := s.dev.rd (Reg.sealRun n.val)
    let done := fun (t : Dev) (l : List Nat) => t = { s.dev with regs := t.regs, bus := (s.dev.answered p .done).bus } ∧ s.dev.regsKept t l
    (∀ nofold, Becomes (.sealStart p n nofold) s fun t => done t [Reg.sealCtrl n.val, Reg.sealRun n.val]
      ∧ t.flag (Reg.sealCtrl n.val) 1 = nofold
      ∧ t.rd (Reg.sealRun n.val) = if nofold then 0xFFFFFFFF#32
          else crcRun 0xFFFFFFFF#32 (le 8 (s.dev.rd64 (Reg.sealFold n.val))))
    ∧ (∀ size, size ≠ .b64 → Becomes (.sealData p n size data) s fun t => done t [Reg.sealRun n.val]
      ∧ t.rd (Reg.sealRun n.val) = crcRun run (le (sizeBytes size) data.toNat))
    ∧ Becomes (.sealRunLoad p n data false) s (fun t => done t [Reg.sealRun n.val] ∧ t.rd (Reg.sealRun n.val) = data)
    ∧ Becomes (.sealRunLoad p n data true) s (fun t => done t [Reg.sealRun n.val, Reg.luMap 0] ∧ t.rd (Reg.sealRun n.val) = data
      ∧ t.flag (Reg.luMap 0) 9 = true)

/-- R118, R119: a GO write of SCAN_CTRL, or a stiffening scan that falls due, starts a scan, or waits while one runs; SCAN_CTRL
shows BUSY and PENDING. A stiffening scan that waits is the next to start; it takes the stiffened registers as they stand at its
start. -/
def Obligations.ScansStartOrWait : Prop :=
  ∀ (s : State) (p : Path), s.alive → s.dev.pathFree p → s.dev.domainUp 133 = true →
    shadowOf s.dev.bus.writeShadows 9 p = none →
    let busy := fun (t : Dev) (b w : Bool) => t.flag Reg.scanCtrl 31 = b ∧ t.flag Reg.scanCtrl 30 = w ∧ t.flag (Reg.sealCtrl 6) 31 = b
    let shown := [Reg.scanCtrl, Reg.sealCtrl 6]
    let with_ := fun (t : Dev) (x : Scan) => ({ s.dev with regs := t.regs, scan := x } : Dev)
    let starts := fun (q : ScanReq) (x : Scan) => ({ x with running := some q, spoiled := false } : Scan)
    let waits := fun (q : ScanReq) (x : Scan) => ({ x with waiting := x.waiting ++ [q] } : Scan)
    let leads := fun (x : Scan) => ({ x with waiting := x.waiting.takeWhile (·.stiffening) ++ ScanReq.stiff :: x.waiting.dropWhile (·.stiffening) } : Scan)
    let taken := fun (x : Scan) => ({ x with runs := s.dev.scanRuns, rebaseThis := s.dev.flag Reg.stfStat 30, changed := false, serves := (s.dev.owed 0x0F03).isSome } : Scan)
    let req := fun (space : Fin 4) => (⟨space.val, s.dev.rd64 Reg.scanAddr, s.dev.rdN Reg.scanLen, false⟩ : ScanReq)
    (∀ space, s.dev.scan.running = none → s.dev.scan.waiting = [] → Becomes (.scanGo p space) s fun t =>
      t = (with_ t (starts (req space) s.dev.scan)).answered p .done
      ∧ busy t true false ∧ t.fld Reg.scanCtrl 6 2 = space.val ∧ s.dev.regsKept t shown)
    ∧ (∀ space x, s.dev.scan.running = some x → Becomes (.scanGo p space) s fun t =>
      t = (with_ t (waits (req space) { s.dev.scan with spoiled := s.dev.scan.spoiled || p != .milliner })).answered p .done
      ∧ busy t true true ∧ s.dev.regsKept t shown)
    ∧ (s.dev.scan.running = none → s.dev.scan.waiting = [] → s.dev.domainOn 133 = true → Becomes .stiffenScanDue s fun t =>
      t = with_ t (starts ScanReq.stiff (taken s.dev.scan))
      ∧ busy t true false ∧ s.dev.regsKept t shown)
    ∧ (∀ x, s.dev.scan.running = some x → s.dev.domainOn 133 = true → Becomes .stiffenScanDue s fun t =>
      t = with_ t (leads s.dev.scan)
      ∧ busy t true true ∧ s.dev.regsKept t shown)
    ∧ (s.dev.domainOn 133 = false → Becomes .stiffenScanDue s (· = s.dev))

/-- R457, R458, R460, with R112 and R114 for other scans: the end of a scan with no other waiting. A stiffening scan leaves its seal in STF_LAST and
its running value after each slot in STF_BLASTk and counts in STF_SCANS. While ACTIVE is 0 that is all; while it is 1 a seal
equal to STF_REF clears MISMATCH, and a rebase replaces STF_REF and every STF_BREFk and counts. A scan of the frame store leaves
the running value of its pages with their address as fold word in SEAL6_RUN, and each page of it with an uncorrectable word raises
HOOD_SCAN_ERROR (R329); what pages without laid-out bytes give is a free value (assumption 136). -/
def Obligations.ScanResults : Prop :=
  ∀ (s : State) (corrected bad : List Nat), s.alive → s.dev.scan.waiting = [] → s.dev.scan.spoiled = false →
    let runs := s.dev.scan.runs
    let results := fun (t : Dev) => t.rd Reg.stfLast = scanSeal runs ∧ (∀ k, k < 64 → t.rd (Reg.stfBlast k) = runs.getD k 0)
      ∧ t.fld Reg.stfScans 0 32 = wrapAdd 32 (s.dev.fld Reg.stfScans 0 32) 1 ∧ t.scan.running = none
      ∧ t.flag Reg.scanCtrl 31 = false
    let written := fun (a : Nat) => a = Reg.stfLast ∨ (∃ k, k < 64 ∧ a = Reg.stfBlast k) ∨ a = Reg.stfScans ∨ a = Reg.sealRun 6
      ∨ a = Reg.scanCtrl ∨ a = Reg.sealCtrl 6
    (s.dev.scan.running = some ScanReq.stiff → s.dev.scan.rebaseThis = false → s.dev.scan.serves = false →
      s.dev.stiffActive = false → Becomes (.scanDone corrected bad) s fun t => results t
        ∧ t = { s.dev with regs := t.regs, scan := t.scan } ∧ ∀ a, ¬ written a → t.rd a = s.dev.rd a)
    ∧ (s.dev.scan.running = some ScanReq.stiff → s.dev.scan.rebaseThis = false → s.dev.scan.serves = false →
      s.dev.stiffActive = true → scanSeal runs = s.dev.rd Reg.stfRef → Becomes (.scanDone corrected bad) s fun t => results t
        ∧ t.flag Reg.stfStat 31 = false ∧ t.fld Reg.stfStat 8 8 = 0xFF ∧ t.live 0x04 = false
        ∧ t = { s.dev with regs := t.regs, scan := t.scan }
        ∧ ∀ a, ¬ written a → a ≠ Reg.stfStat → a ≠ Reg.fltLive 0 → t.rd a = s.dev.rd a)
    ∧ (s.dev.scan.running = some ScanReq.stiff → s.dev.scan.rebaseThis = true → s.dev.scan.serves = false →
      Becomes (.scanDone corrected bad) s fun t => results t ∧ t.rd Reg.stfRef = scanSeal runs
        ∧ (∀ k, k < 64 → t.rd (Reg.stfBref k) = runs.getD k 0) ∧ t.flag Reg.stfStat 30 = s.dev.scan.changed
        ∧ t.fld Reg.stfStat 0 8 = satAdd 8 (s.dev.fld Reg.stfStat 0 8) 1 ∧ t = { s.dev with regs := t.regs, scan := t.scan })
    ∧ (∀ a len, 4 ≤ len → len ≤ 2097152 → len % 4 = 0 → a % 4 = 0 → s.dev.scan.running = some ⟨1, a, len, false⟩ →
      (corrected = [] → bad = [] → ∀ x, s.dev.storeBytes a len = some x → Becomes (.scanDone corrected bad) s fun t =>
        t.rd (Reg.sealRun 6) = crcRun (crcRun 0xFFFFFFFF#32 (le 8 a)) x ∧ t.scan.running = none
        ∧ s.dev.regsKept t [Reg.sealRun 6, Reg.scanCtrl, Reg.sealCtrl 6] ∧ t = { s.dev with regs := t.regs, scan := t.scan })
      ∧ Becomes (.scanDone corrected bad) s fun t => ∃ w v : Dev,
        w = (bad.map (· / pageSize)).eraseDups.foldl (fun d p => d.scanError p 1 none)
          (({ s.dev with scan := { s.dev.scan with running := none } } : Dev).fsErrors corrected bad)
        ∧ v = (match w.storeBytes a len with
          | some x => w.wr (Reg.sealRun 6) (crcRun (crcRun 0xFFFFFFFF#32 (le 8 a)) x)
          | none => (w.fresh 32).2.wrN (Reg.sealRun 6) (w.fresh 32).1)
        ∧ t = ({ v with scan := { v.scan with spoiled := false } } : Dev).nextScan)

/-- R104, R106, R107: the boundary of a flush ends it for its hopper: what it holds is discarded, the lines of an RX and the rows of a TR
or CW becoming lost ones and the batt of a slice going back, and nothing else of the hoppers changes; the tail notice of a hopper that
holds something is raised when its timer, not disabled, runs out, and that of a FUL hopper closes the last parcels of its batts
(R374). -/
def Obligations.HopperFlushAndTail : Prop :=
  ∀ (s : State) (h : Fin 71), s.alive →
    let u := s.dev.modHop h.val fun x => { x with flushing := false }
    let n := (h.val - 10) % 16
    ((s.dev.hoppers.getD h.val {}).flushing = false → Becomes (.hopperFlushBoundary h) s (· = s.dev))
    ∧ ((s.dev.hoppers.getD h.val {}).flushing = true → Becomes (.hopperFlushBoundary h) s fun t =>
      (h.val < 8 → t = { u with boxes := t.boxes } ∧ (t.box h.val).hopper = [] ∧ ∀ m, m ≠ h.val → t.box m = s.dev.box m)
      ∧ (h.val = 8 → t = { u with ev := { s.dev.ev with hopper := [], past := [] } })
      ∧ (h.val = 9 → t = { u with ev := { s.dev.ev with q0 := [] } })
      ∧ (10 ≤ h.val → h.val < 58 → t = { u with pipes := t.pipes } ∧ ∀ m, m < 16 → t.pipe m = if m ≠ n then s.dev.pipe m
          else if h.val < 26 then { s.dev.pipe m with rx := (s.dev.pipe m).rx.map Line.flushed }
          else { s.dev.pipe m with cards := (s.dev.pipe m).cards.map Card.flush })
      ∧ (59 ≤ h.val → h.val < 67 → t = { u with ful := { s.dev.ful with
          batts := s.dev.ful.batts.map fun x => if x.slice = some (h.val - 59) then x.rollback else x } })
      ∧ (h.val = 58 ∨ 67 ≤ h.val → t = u))
    ∧ (let mine := fun (b : Batt) => b.cutter = some (h.val - 59) ∧ b.state ≠ .closed
      let held := s.dev.hopItems h.val ≠ 0 ∧ s.dev.fld (Reg.hopCfg h.val) 0 16 ≠ 0 ∧ s.dev.domainOn (hopDomain h.val) = true
      (¬ held → Becomes (.tailNotice h) s (· = s.dev))
      ∧ (held → (59 ≤ h.val → h.val < 67 → ∀ b ∈ s.dev.ful.batts, ¬ mine b) →
        Becomes (.tailNotice h) s fun t => t = s.dev.modHop h.val fun x => { x with tail := true })
      ∧ (held → 59 ≤ h.val → h.val < 67 → (∃ b ∈ s.dev.ful.batts, mine b) → Becomes (.tailNotice h) s fun t =>
        t = { s.dev.modHop h.val (fun x => { x with tail := false }) with ful := { s.dev.ful with
          batts := s.dev.ful.batts.map fun b => if b.cutter = some (h.val - 59) ∧ b.state ≠ .closed then { b with cutter := none } else b } }))

/-- The register commands (R434, R449, R457 to R461, R446): REG_READ and REG_WRITE of one 32-bit register that a write only stores
read it and write its writable bits, and of one word of deep space hold the path until its bridge has done; STIFFEN is accepted and asks for a scan; UNSTIFFEN returns the previous reference and ends
the comparison; BANK_COMMIT requests the named swaps with one target. -/
def Obligations.RegisterCommands : Prop :=
  ∀ (s : State) (r : Req),
    let p := r.payload
    let a := leAt p 0 4
    let one := regOk p = true ∧ regSpace p = 0 ∧ leAt p 5 1 = 2 ∧ regCount p = 1 ∧ winView a = 0 ∧ RegMap.isWide (winDirect a) = false
      ∧ winDirect a % 4 = 0
    let path := s.dev.pathFree .inBand
    (Begins s r [.inBandPath] → p.length = 8 → one → path → (s.dev.takeReq 0x0F01 r).holdsWord (winDirect a) →
      s.dev.accessError .inBand a .b32 none = none →
      Does (.regRead r) s 0x0F01 r (le 2 1 ++ zeros 2 ++ le 4 (s.dev.rdN (winDirect a))) fun d =>
        (s.dev.takeReq 0x0F01 r).wordDone d .inBand (winDirect a) (s.dev.rd (winDirect a) &&& ~~~s.dev.rcBits (winDirect a))
          (.value (BitVec.ofNat 64 (s.dev.rdN (winDirect a)))))
    ∧ (∀ hw : List Nat, (0 ∈ hw → winDirect a ≠ Reg.rateNom) → Begins s r [.inBandPath] → p.length = 16 → zeroAt p 8 4 = true → one → path → storesOnly (winDirect a) = true →
      shadowOf s.dev.bus.writeShadows (winDirect a / 0x10000) .inBand = none → s.dev.stiffActive = false →
      (r.mbx = 0 ∨ s.dev.flag Reg.regAccess 0 = true) → s.dev.accessError .inBand a .b32 (some (leAt p 12 4)) = none →
      Does (.regWrite ⟨r, hw⟩) s 0x0F02 r (le 2 1 ++ zeros 2) fun d =>
        (s.dev.takeReq 0x0F02 r).wordDone d .inBand (winDirect a)
          (viewed 0 (s.dev.rd (winDirect a)) (BitVec.ofNat 32 (leAt p 12 4)) (RegMap.rwMask (winDirect a))) .done)
    ∧ (regOk p = true → regSpace p = 1 → regCount p = 1 → path → (s.dev.bridge .inBand).writing = none → Begins s r [.inBandPath] →
      (p.length = 8 → (s.dev.bridge .inBand).held = none → (s.dev.bridge .inBand).fetching = none →
        GoesOn (.regRead r) s 0x0F01 r fun d x => x.objs = [.inBandPath] ∧ x.args = [0, s.dev.now, 1]
          ∧ (d.bridge .inBand).fetching = some a ∧ d = { s.dev.takeReq 0x0F01 r with bus := d.bus })
      ∧ (p.length = 16 → zeroAt p 8 4 = true → (r.mbx = 0 ∨ s.dev.flag Reg.regAccess 0 = true) →
        s.dev.deepKind .inBand a true = none ∨ s.dev.deepKind .inBand a true = some 7 →
        ∀ hw, GoesOn (.regWrite ⟨r, hw⟩) s 0x0F02 r fun d x => x.objs = [.inBandPath] ∧ x.args = [0, s.dev.now, 0]
          ∧ (d.bridge .inBand).writing = some (a, BitVec.ofNat 32 (leAt p 12 4), false) ∧ d = { s.dev.takeReq 0x0F02 r with bus := d.bus }))
    ∧ (Begins s r [.stiffening] → p.length = 8 → bits (leAt p 0 1) 1 7 = 0 → zeroAt p 1 3 = true →
      (bit (leAt p 0 1) 0 = true ∨ leAt p 4 4 = 0) → s.dev.owed 0x0F03 = none → s.dev.behind 0x0F03 r = false →
      ∃ d u : Dev, d = { s.dev.takeReq 0x0F03 r with accepted := s.dev.accepted ++ [⟨0x0F03, r, [.stiffening], []⟩] }
        ∧ u = (d.answer 0x0F03 r St.accepted []).drainUnknown r.mbx.val 8
        ∧ exec (.stiffen r) s = .next { s with dev := if (u.owed 0x0F03).isSome then u.requestScan ScanReq.stiff else u })
    ∧ (Begins s r [.stiffening] → p.length = 0 → s.dev.stiffActive = true →
      Does (.unstiffen r) s 0x0F04 r (le 4 (s.dev.rdN Reg.stfRef)) fun d =>
        d.stiffActive = false ∧ d.flag Reg.stfStat 31 = false ∧ d.live 0x04 = false
        ∧ (s.dev.takeReq 0x0F04 r).onlyRegs d [Reg.stfCtrl, Reg.stfStat, Reg.fltLive 0])
    ∧ (∀ u t, u = leAt p 0 4 → t = leAt p 8 8 →
      Begins s r ((maskList 16 u).map Obj.pipe ++ (if bit u 16 then [.fulConfig] else [])) → p.length = 16 → zeroAt p 4 4 = true →
      u ≠ 0 → u < 2 ^ 17 → (t = noBatt ∨ t < 2 ^ 48) →
      (∀ n, n ∈ maskList 16 u → s.dev.flag Reg.fltUrec n = false ∧ s.dev.commitOk n = true ∧ s.dev.bankBusy n = false
        ∧ s.dev.targetLate t = false) →
      (bit u 16 = true → s.dev.fulBusy = false ∧ s.dev.fulLate t = false ∧ ∀ k, k < 8 → s.dev.flag Reg.fltUrec (16 + k) = false) →
      Does (.bankCommit r) s 0x0F05 r [] fun d =>
        d = let d1 := (maskList 16 u).foldl (fun (d : Dev) n => d.commitBank n t) (s.dev.takeReq 0x0F05 r)
            if bit u 16 then d1.commitFul t else d1)

/-- ENCODER_CONFIG (R125), TRIGGER_PLAN (R139, R147), POSITION_READ (R131), BATT_GEOMETRY (R134) and COIL_MARK_CONFIG (R132):
the registers take the fields of the request, and nothing else changes but what a new master (R127) or a strobe binding brings. -/
def Obligations.PositionSettings : Prop :=
  ∀ (s : State) (r : Req), Begins s r [.position] →
    let p := r.payload
    let took := fun c => s.dev.takeReq c r
    (∀ e role flags ratio limit, e = leAt p 0 1 → role = leAt p 1 1 → flags = leAt p 3 1 → ratio = leAt p 4 4 →
      limit = leAt p 8 4 → p.length = 16 → flags < 8 → e ≤ 3 → role ≤ 2 →
      (if role = 2 then 0 < ratio ∧ 0 < limit ∧ limit < 2 ^ 31 else ratio = 0 ∧ limit = 0) →
      (role = 1 → leAt p 14 2 ≤ 1000 ∧ s.dev.isFollower = false ∧ ∀ x, x < 4 → x ≠ e → s.dev.encRole x ≠ 1) →
      (s.dev.lineStarted = true → (s.dev.master = some e ↔ role = 1)) → s.dev.stiffActive = false →
      Does (.encoderConfig r) s 0x0301 r [] fun d =>
        d = { took 0x0301 with regs := d.regs, pos := d.pos }
        ∧ d.rdN (Reg.encCfg e) = role * 2 ^ 30 + bits flags 0 1 * 2 ^ 29 + leAt p 2 1 * 2 ^ 16
        ∧ d.rdN (Reg.encRatio e) = ratio ∧ d.rdN (Reg.encLimit e) = limit
        ∧ (role = 1 → d.rdN Reg.posCtrl = bits flags 1 1 * 2 ^ 31 + bits flags 2 1 * 2 ^ 30 + e * 2 ^ 28 + 2 ^ 27
            + leAt p 14 2 * 2 ^ 16 + leAt p 12 2)
        ∧ (role ≠ 1 → s.dev.master = some e → d.master = none)
        ∧ (role ≠ 1 → s.dev.master ≠ some e → d.rd Reg.posCtrl = s.dev.rd Reg.posCtrl)
        ∧ (took 0x0301).regsKept d [Reg.encCfg e, Reg.encRatio e, Reg.encLimit e, Reg.posCtrl]
        ∧ (if d.master = s.dev.master then d.pos = s.dev.pos
           else d.pos.f = s.dev.fraction ∧ d.pos.n = s.dev.pos.n ∧ d.pos.lastTick = none ∧ d.pos.period = none))
    ∧ (∀ k mode pitch off mask, k = leAt p 0 1 → mode = leAt p 1 1 → pitch = leAt p 4 4 → off = leAt p 8 8 →
      mask = leAt p 16 1 → p.length = 20 → pitch < 2 ^ 24 → off < 2 ^ 48 → k ≤ 15 → mode ≤ 2 →
      (if mode = 1 then 0x100 ≤ pitch else pitch = 0) → (s.dev.lineStarted = true → s.dev.mode k = 0 ∧ mode = 0) →
      s.dev.stiffActive = false → s.dev.isFollower = false →
      (s.dev.mode k == mode && s.dev.pitch k == pitch && s.dev.offset256 k == off && s.dev.rdN (Reg.headMinp k) == leAt p 2 2
        && s.dev.strobesEqual k mask (leAt p 17 1) (leAt p 18 2)) = false →
      Does (.triggerPlan r) s 0x0302 r [] fun d =>
        d.mode k = mode ∧ d.pitch k = pitch ∧ d.offset256 k = off ∧ d.rdN (Reg.headMinp k) = leAt p 2 2
        ∧ (∀ n, n < 8 → bit mask n = true → d.rdN (Reg.strbCfg n)
            = 2 ^ 31 + b2n (bit (leAt p 17 1) n) * 2 ^ 30 + k * 2 ^ 24 + leAt p 18 2)
        ∧ (∀ n, n < 8 → bit mask n = false → d.rd (Reg.strbCfg n)
            = if s.dev.flag (Reg.strbCfg n) 31 = true ∧ s.dev.fld (Reg.strbCfg n) 24 4 = k then 0 else s.dev.rd (Reg.strbCfg n))
        ∧ (∀ j, j < 16 → j ≠ k → d.rd (Reg.headTrig j) = s.dev.rd (Reg.headTrig j) ∧ d.offset256 j = s.dev.offset256 j)
        ∧ ∃ x, d = { took 0x0302 with regs := d.regs, pos := { s.dev.pos with strobes := x } })
    ∧ (p.length = 0 → Does (.positionRead r) s 0x0303 r
        (sle 8 s.dev.spos ++ le 8 s.dev.timeNs ++ le 8 (s.dev.rd64 Reg.sposHwm) ++ le 4 (s.dev.rdN Reg.posRate)
          ++ le 1 (b2n s.dev.lineStarted + 2 * b2n (s.dev.flag Reg.posStat 30) + 4 * b2n s.dev.isFollower
              + 8 * b2n (s.dev.flag Reg.posStat 28) + 16 * b2n s.dev.unlocked)
          ++ le 1 (s.dev.master.getD 0xFF) ++ zeros 2 ++ le 8 (s.dev.rd64 Reg.lineOrigin) ++ le 8 s.dev.refBatt
          ++ le 4 (s.dev.rdN Reg.coilNum) ++ zeros 4 ++ le 4 (s.dev.rdN (Reg.encCnt 0)) ++ le 4 (s.dev.rdN (Reg.encCnt 1))
          ++ le 4 (s.dev.rdN (Reg.encCnt 2)) ++ le 4 (s.dev.rdN (Reg.encCnt 3))) fun d => d = took 0x0303)
    ∧ (∀ pitch h, pitch = leAt p 0 4 → h = leAt p 4 1 → p.length = 8 → zeroAt p 5 3 = true → 0x100 ≤ pitch → pitch < 2 ^ 24 →
      6 ≤ h → h ≤ 13 → s.dev.lineStarted = false → s.dev.isFollower = false → s.dev.stiffActive = false →
      Does (.battGeometry r) s 0x0304 r [] fun d =>
        d = ((took 0x0304).wrN Reg.battCfg (h * 2 ^ 28 + pitch)).fanOut 0x0304 [(pitch : Int), (h : Int)]
        ∧ (s.dev.isLead = false → (took 0x0304).onlyRegs d [Reg.battCfg]))
    ∧ (∀ c src flags, c = leAt p 0 1 → src = leAt p 1 1 → flags = leAt p 2 1 → p.length = 16 → flags < 4 →
      zeroAt p 12 4 = true → c ≤ 1 → src ≤ 6 → (1 ≤ src → src ≤ 4 → leAt p 3 1 = 0) → leAt p 8 4 < 2 ^ 31 →
      s.dev.stiffActive = false → Does (.coilMarkConfig r) s 0x0307 r [] fun d =>
        (took 0x0307).onlyRegs d [Reg.mkCfg c, Reg.mkOffset c, Reg.mkHold c]
        ∧ d.rdN (Reg.mkCfg c) = src * 2 ^ 29 + bits flags 0 1 * 2 ^ 28 + bits flags 1 1 * 2 ^ 27 + leAt p 3 1 * 2 ^ 16
        ∧ d.rdN (Reg.mkOffset c) = leAt p 4 4 ∧ d.rdN (Reg.mkHold c) = leAt p 8 4)

/-- LINE_START and LINE_STOP (R134, R155, R156), and the trigger generators (R141 to R143, R607): a line has its origin and first
batt, its heads start at line 0; a head fires, skips or suppresses its next line once SPOS has reached it, and is re-armed at
the smallest line above SPOS; a stop ends triggering now or after a batt. -/
def Obligations.LineAndTriggers : Prop :=
  ∀ (s : State),
    (∀ (r : Req) (when_ fb first : Nat) (o : Int), Begins s r [.position] → when_ = leAt r.payload 0 1 → fb = leAt r.payload 16 8 →
      r.payload.length = 24 → zeroAt r.payload 1 7 = true →
      (∀ edge : Int, edge = s.dev.spos + 64 * (s.dev.guard : Int) →
        (when_ = 1 ∧ leAt r.payload 8 8 = 0 ∧ o % 64 = 0 ∧ edge ≤ o ∧ o < edge + 64)
        ∨ (when_ = 0 ∧ o = sleAt r.payload 8 8 ∧ edge ≤ o)) →
      (∀ last, last = s.dev.rd64 Reg.battLastUsed % 2 ^ 48 →
        (fb = 2 ^ 48 - 1 ∧ first = if last = 2 ^ 48 - 1 then 0 else last + 1)
        ∨ (fb < 2 ^ 48 - 1 ∧ first = fb ∧ (last = 2 ^ 48 - 1 ∨ last < fb))) →
      s.dev.lineStarted = false → s.dev.isFollower = false → s.dev.master.isSome = true →
      Does (.lineStart r) s 0x0305 r (sle 8 o ++ le 8 first) fun d =>
        d.lineStarted = true ∧ d.rd64 Reg.lineOrigin = unsigned 64 o ∧ d.battFirst = first
        ∧ d.pos.pitch = s.dev.fld Reg.battCfg 0 24 ∧ d.pos.hlog = s.dev.fld Reg.battCfg 28 4
        ∧ d.pos.contributing = s.dev.enabledHeads ∧ d.ful.nextOpen = first ∧ d.spos = s.dev.spos
        ∧ (∀ k, k < s.dev.pos.gens.length → k < 16 → (d.gen k).iNext = 0 ∧ (d.gen k).stopped = !s.dev.enabledHeads.contains k)
        ∧ d.deep = s.dev.deep ∧ d.bulk = s.dev.bulk ∧ d.hood = { s.dev.hood with laps := d.hood.laps } ∧ d.plc = s.dev.plc
        ∧ (s.dev.isLead = false → d.out = s.dev.out))
    ∧ (∀ (r : Req) (last : Nat), Begins s r [.position] → s.dev.behind 0x0306 r = false → last = leAt r.payload 8 8 → leAt r.payload 0 1 = 0 →
      r.payload.length = 16 → zeroAt r.payload 1 7 = true → last < 2 ^ 48 → s.dev.battFirst ≤ last → s.dev.lineStarted = true →
      s.dev.isFollower = false → s.dev.tooLate (last + 1) = false →
      ∃ d : Dev, exec (.lineStop r) s = .next { s with dev := (((({ d with accepted := d.accepted ++ [⟨0x0306, r, [.position], []⟩] } : Dev).record
          0x0306 r.payload).answer 0x0306 r St.accepted []).drainUnknown r.mbx.val 8).settleStop } ∧ d.pos.stopAfter = some last
        ∧ (d.lineStarted = true ∨ d.rd64 Reg.battLastUsed = last))
    ∧ (∀ r : Req, Begins s r [.position] → s.dev.behind 0x0306 r = false → leAt r.payload 0 1 = 1 → leAt r.payload 8 8 = 0 →
      r.payload.length = 16 → zeroAt r.payload 1 7 = true → s.dev.lineStarted = true → s.dev.isFollower = false →
      ∃ d : Dev, exec (.lineStop r) s = .next { s with dev := (((({ d with accepted := d.accepted ++ [⟨0x0306, r, [.position], []⟩] } : Dev).record
          0x0306 r.payload).answer 0x0306 r St.accepted []).drainUnknown r.mbx.val 8).settleStop } ∧ d.lineStarted = false
        ∧ d.rd64 Reg.battLastUsed = s.dev.lastReached % 2 ^ 64 ∧ d.rd64 Reg.spos = s.dev.rd64 Reg.spos)
    ∧ (∀ (head : Fin 16) (late : Bool) (phase : Fin 10) (k i : Nat), s.alive → k = head.val → i = (s.dev.gen k).iNext → s.dev.lineStarted = true →
      s.dev.mode k ≠ 0 → (s.dev.gen k).stopped = false → s.dev.trigPos k i ≤ 4 * s.dev.spos → s.dev.pos.stopAfter = none →
      s.dev.battOfLine k i < s.dev.ful.nextOpen →
      let soon := (s.dev.gen k).lastFire.any fun t => decide (s.dev.now < t + s.dev.minPeriod k)
      let detached := s.dev.portState k = 0 ∨ (s.dev.port k).halted = true
      let first := s.dev.firstOf k (s.dev.battOfLine k i); let newexp := !late && (s.dev.gen k).pending.any fun c => decide (c.target ≤ s.dev.battOfLine k i)
      Becomes (.triggerFire head ⟨late, phase⟩) s fun t =>
        (t.gen k).iNext = i + 1 ∧ t.rd64 Reg.spos = s.dev.rd64 Reg.spos ∧ t.lineStarted = true
        ∧ (∀ j, j < 16 → j ≠ k → (t.gen j).iNext = (s.dev.gen j).iNext ∧ t.fld (Reg.headCnt j) 8 24 = s.dev.fld (Reg.headCnt j) 8 24
            ∧ t.rd (Reg.headLines j) = s.dev.rd (Reg.headLines j))
        ∧ (detached → t.out = s.dev.out ∧ t.rd (Reg.headCnt k) = s.dev.rd (Reg.headCnt k) ∧ t.rd (Reg.headLines k) = s.dev.rd (Reg.headLines k))
        ∧ (¬ detached → soon = true → t.out = s.dev.out ∧ t.fld (Reg.headCnt k) 8 8 = satAdd 8 (s.dev.fld (Reg.headCnt k) 8 8) 1
            ∧ t.rd (Reg.headLines k) = s.dev.rd (Reg.headLines k))
        ∧ (¬ detached → soon = false → Out.trigger k (i % 65536) (t.gen k).setting.expid first newexp phase.val
              (pecOf (le 1 (32 * b2n newexp + 16 * b2n first + phase.val) ++ le 2 (i % 65536) ++ le 1 (t.gen k).setting.expid)).toNat ∈ t.out
            ∧ t.fld (Reg.headCnt k) 16 16 = i % 65536 ∧ t.fld (Reg.headLines k) 0 32 = wrapAdd 32 (s.dev.fld (Reg.headLines k) 0 32) 1))
    ∧ (∀ (head : Fin 16) (k : Nat), s.alive → k = head.val → s.dev.lineStarted = true → s.dev.mode k ≠ 0 →
      (s.dev.gen k).stopped = false → s.dev.flag Reg.posCtrl 30 = false → (s.dev.gen k).iNext ≠ 0 → 0 < s.dev.linePitch256 k →
      4 * s.dev.spos ≤ s.dev.trigPos k ((s.dev.gen k).iNext - 1) - 256 * (s.dev.revHyst : Int) →
      Becomes (.triggerRearm head) s fun t => ∃ i, t = s.dev.modGen k (fun g => { g with iNext := i })
        ∧ 4 * s.dev.spos < s.dev.trigPos k i ∧ ∀ j, j < i → s.dev.trigPos k j ≤ 4 * s.dev.spos)

/-- Encoders (R123, R124, R127), coil marks (R132, R133) and strobes (R147, R148): a step of the quadrature phase counts one tick
forward or backward, and moves SPOS to a whole tick when the encoder is the master; a level held for FILTER samples or fewer is
not accepted; a change of both levels counts as an illegal
transition and moves nothing; an open pair counts; an edge beyond LAST + HOLD is an accepted mark, another a repeat; a pulse that
falls due sets its output or restarts its width count. -/
def Obligations.EncodersMarksStrobes : Prop :=
  ∀ (s : State), s.alive →
    (∀ (enc : Fin 4) (a b : Bool) (held dt e : Nat) (d : Dev), e = enc.val → d = (if dt = 0 then s.dev else (s.dev.advance (dt - 1)).clock) →
      let x := d.enc e
      let delta := (phaseOf a b + 4 - phaseOf x.a x.b) % 4
      let fwd := (delta == 1) != d.flag (Reg.encCfg e) 29
      let step : Int := if fwd then 1 else -1
      let low := held ≤ d.fld (Reg.encCfg e) 16 8
      Becomes (.encoderTick enc a b ⟨held, dt⟩) s fun t =>
        ((low ∨ delta = 0) → t = d.formSpos)
        ∧ (¬ low → delta = 2 → t = (((d.modEnc e fun x => { x with a := a, b := b }).incSat (Reg.encErr e) 16 16 1).encFault e).formSpos)
        ∧ (¬ low → delta = 1 ∨ delta = 3 → ∃ u : Dev, t = (if u.master.isSome then (List.range 4).foldl (fun (d : Dev) i => d.slipCheck i) u else u).formSpos
            ∧ (u.enc e).a = a ∧ (u.enc e).b = b ∧ u.rdN (Reg.encCnt e) = unsigned 32 ((d.rdN (Reg.encCnt e) : Int) + step)
            ∧ (∀ j, j < 4 → j ≠ e → (u.enc j).a = (d.enc j).a ∧ (u.enc j).b = (d.enc j).b
              ∧ u.rd (Reg.encCnt j) = d.rd (Reg.encCnt j))
            ∧ if d.master = some e ∧ d.isFollower = false then
                u.pos.n = d.pos.n + step ∧ u.pos.f = 0 ∧ u.rd64 Reg.spos = unsigned 64 (64 * (d.pos.n + step))
              else u.pos.n = d.pos.n ∧ u.rd64 Reg.spos = d.rd64 Reg.spos))
    ∧ (∀ enc : Fin 4, Becomes (.encoderOpen enc) s fun t =>
        t = let d := (s.dev.modEnc enc.val fun x => { x with openPair := true }).incSat (Reg.encErr enc.val) 8 8 1
            if s.dev.encRole enc.val = 0 then d else d.faultOn (0x73 + enc.val))
    ∧ (∀ (ch : Fin 2) (c src held filt : Nat) (st : Int), c = ch.val → src = s.dev.fld (Reg.mkCfg c) 29 3 → 1 ≤ src → src ≤ 6 →
      filt = (if src ≤ 4 then s.dev.fld (Reg.encCfg (src - 1)) 16 8 else s.dev.fld (Reg.mkCfg c) 16 8) → (held ≤ filt → exec (.markEdge ⟨ch, held⟩) s = .next s)
      ∧ (filt < held → st = s.dev.spos - 64 * signed 32 (s.dev.rdN (Reg.mkOffset c)) →
      Becomes (.markEdge ⟨ch, held⟩) s fun t =>
        if s.dev.rdI64 (Reg.mkLast c) + 64 * (s.dev.rdN (Reg.mkHold c) : Int) < st then
          t.rd64 (Reg.mkLast c) = unsigned 64 st ∧ t.fld (Reg.mkCnt c) 16 16 = wrapAdd 16 (s.dev.fld (Reg.mkCnt c) 16 16) 1
          ∧ t.fld Reg.coilNum 0 32 = (if s.dev.flag (Reg.mkCfg c) 27 then wrapAdd 32 (s.dev.fld Reg.coilNum 0 32) 1
              else s.dev.fld Reg.coilNum 0 32)
          ∧ t.fld (Reg.mkCnt c) 0 16 = s.dev.fld (Reg.mkCnt c) 0 16
        else t.fld (Reg.mkCnt c) 0 16 = satAdd 16 (s.dev.fld (Reg.mkCnt c) 0 16) 1 ∧ s.dev.regsKept t [Reg.mkCnt c]
          ∧ t.fld (Reg.mkCnt c) 16 16 = s.dev.fld (Reg.mkCnt c) 16 16 ∧ t.ev = s.dev.ev))
    ∧ (∀ (out : Fin 8) (n w : Nat) (rest : List Nat), n = out.val → (s.dev.pos.strobes.getD n {}).due = w :: rest →
      s.dev.lineStarted = true → s.dev.flag (Reg.strbCfg n) 31 = true → s.dev.safe = false →
      let d := { s.dev with pos := { s.dev.pos with strobes := modAt s.dev.pos.strobes n fun _ => ⟨true, rest⟩ } }
      Becomes (.strobeActive out) s fun t =>
        t = if (s.dev.pos.strobes.getD n {}).active then d.incSat (Reg.strbStat n) 0 16 1 else d.emit (.strobe n true))
    ∧ (∀ (out : Fin 8) (n : Nat), n = out.val → (s.dev.pos.strobes.getD n {}).active = true →
      let x := modAt s.dev.pos.strobes n fun x => { x with active := false }
      Becomes (.strobeEnd out) s fun t => t = ({ s.dev with pos := { s.dev.pos with strobes := x } } : Dev).emit (.strobe n false))

/-- HEAD_ATTACH (R184), HEAD_DETACH (R188), HEAD_LINK_STATUS (R183), HEAD_MESSAGE and its end (R182): an attach sets the port's
registers and asks for its power domains, a detach reports the line and the records lost and asks for the domains to go off, a
message leaves in fragments of 16 bytes. -/
def Obligations.HeadPortCommands : Prop :=
  ∀ (s : State),
    (∀ (r : Req) (n : Nat), Begins s r [.pipe n] → n = leAt r.payload 0 1 →
      let p := r.payload
      let took := fun c => s.dev.takeReq c r
      (p.length = 16 → bits (leAt p 5 1) 5 3 = 0 → zeroAt p 14 2 = true → attachOk p = true → s.dev.portState n = 0 →
        s.dev.stiffActive = false → s.dev.flag Reg.fltUrec n = false → (∃ j ∈ pipeDomains n, s.dev.domainOn j = false) →
        GoesOn (.headAttach r) s 0x0401 r fun d x =>
          x.objs = [.pipe n] ∧ x.args = [n] ∧ x.switch = s.dev.lastSwitch true (pipeDomains n)
          ∧ d.rdN (Reg.hlCfg n) = 2 ^ 31 + leAt p 1 1 * 2 ^ 28
              + (if leAt p 2 1 = 1 then 0 else if leAt p 2 1 = 2 then 1 else 2) * 2 ^ 26 + bits (leAt p 5 1) 0 1 * 2 ^ 25
              + leAt p 3 1 * 2 ^ 16 + leAt p 4 1 * 2 ^ 8 + bits (leAt p 5 1) 1 4 * 2 ^ 4 + (leAt p 7 1 - 1)
          ∧ d.rdN (Reg.hlGeom n) = leAt p 10 2 * 2 ^ 16 + leAt p 8 2 ∧ d.rdN (Reg.hlLanemap n) = leAt p 6 1
          ∧ d.rdN (Reg.hlTimeout n) = leAt p 12 2
          ∧ d.pwr = { s.dev.pwr with queue := s.dev.pwr.queue
              ++ ((pipeDomains n).filter fun j => s.dev.domainOn j != true).map fun j => (j, true) }
          ∧ (∀ m, m < 16 → m ≠ n → d.port m = s.dev.port m ∧ d.pipe m = s.dev.pipe m ∧ d.gen m = s.dev.gen m)
          ∧ (took 0x0401).regsKept d ([Reg.hlCfg n, Reg.hlGeom n, Reg.hlLanemap n, Reg.hlTimeout n, Reg.hlStat n, Reg.pdSeq,
              Reg.expNow n, Reg.expTime n, Reg.expTarget n, Reg.expTarget n + 4] ++ (List.range 8).map Reg.strbWidth
              ++ identityRegs n 0 ++ identityRegs n 1)
          ∧ (∀ a, (a < tableBase n ∨ tableBase n + 0x100000 ≤ a) → d.deepRd a = s.dev.deepRd a)
          ∧ d = { took 0x0401 with
              regs := d.regs, pos := d.pos, ports := d.ports, pipes := d.pipes, deep := d.deep, lost := d.lost, pwr := d.pwr })
      ∧ (p.length = 4 → zeroAt p 1 3 = true → n ≤ 15 → s.dev.portState n ≠ 0 → (s.dev.lineStarted = true → s.dev.mode n = 0) →
        s.dev.stiffActive = false → (∃ j ∈ pipeDomains n, s.dev.domainOn j = true) →
        (∀ x ∈ s.dev.running, x.code = 0x0404 → x.args ≠ [n]) →
        GoesOn (.headDetach r) s 0x0402 r fun d x =>
          x.objs = [.pipe n] ∧ x.args = [n] ∧ x.switch = s.dev.lastSwitch false (pipeDomains n).reverse
          ∧ d.out = List.replicate 3 (.backChannel n 4 [3, 0, (pecOf [3, 0]).toNat]) ++ s.dev.out
          ∧ (d.port n).table = [] ∧ (d.port n).inUse = none ∧ (d.port n).line = none ∧ (d.port n).halted = true
          ∧ (d.pipe n).rx = (s.dev.pipe n).rx ++ (s.dev.port n).lostLines Cause.detached
          ∧ d.flag (Reg.hlCfg n) 31 = false
          ∧ d.pwr = { s.dev.pwr with queue := s.dev.pwr.queue
              ++ ((pipeDomains n).reverse.filter fun j => s.dev.domainOn j != false).map fun j => (j, false) }
          ∧ (∀ m, m < 16 → m ≠ n → d.port m = s.dev.port m ∧ d.pipe m = s.dev.pipe m)
          ∧ (took 0x0402).regsKept d [Reg.hlCfg n, Reg.pdSeq]
          ∧ d = { took 0x0402 with regs := d.regs, ports := d.ports, pipes := d.pipes, pwr := d.pwr, out := d.out })
      ∧ (p.length = 4 → zeroAt p 1 3 = true → n ≤ 15 →
        let st := s.dev.rdN (Reg.hlStat n)
        Does (.headLinkStatus r) s 0x0403 r
          (le 1 (bits st 29 3) ++ le 1 (bits st 24 4) ++ le 1 (bits st 23 1) ++ le 1 (bits st 0 8) ++ le 1 (bits st 8 6)
            ++ le 1 (s.dev.fld (Reg.hlCfg n) 28 3) ++ le 1 (2 ^ s.dev.fld (Reg.hlCfg n) 26 2) ++ zeros 1
            ++ le 4 (s.dev.rdN (Reg.hlLines n)) ++ le 4 (s.dev.rdN (Reg.hlErr0 n)) ++ le 4 (s.dev.rdN (Reg.hlErr1 n))
            ++ le 4 (s.dev.rdN (Reg.hlErr2 n)) ++ le 4 (s.dev.rdN (Reg.hlErr3 n)) ++ zeros 4
            ++ (match (s.dev.port n).lastDown with
              | some x => sle 8 x
              | none => List.replicate 8 0xFF)) fun d => d = took 0x0403)
      ∧ (p.length = 4 + leAt p 2 2 → zeroAt p 1 1 = true → n ≤ 15 → 1 ≤ leAt p 2 2 → leAt p 2 2 ≤ 256 → s.dev.portState n = 3 →
        GoesOn (.headMessage r) s 0x0404 r fun d x =>
          x.objs = [.pipe n] ∧ x.args = [n] ∧ x.switch = none ∧ d = took 0x0404))
    ∧ (∀ (head : Fin 16) (x : Running), s.alive → s.dev.running.find? (fun x => x.code == 0x0404 && x.args == [head.val]) = some x →
      let data := x.req.payload.drop 4
      Becomes (.hmsgSent head) s fun t => ∃ out,
        t = (let u : Dev := { s.dev with out := out, running := s.dev.running.erase x }
          if x.void then u else u.answer 0x0404 x.req St.ok []).drainUnknown x.req.mbx.val 8
        ∧ ∀ j, 16 * j < data.length →
            let piece := (data.drop (16 * j)).take 16
            let chars := le 1 ((if j = 0 then 0x80 else 0) + (if data.length ≤ 16 * (j + 1) then 0x40 else 0) + j) ++ le 1 piece.length ++ piece
            Out.backChannel head.val 3 ((chars ++ [pecOf chars]).map (·.toNat)) ∈ out)

/-- The state of a head link port (R163, R183 to R186): block lock, a lane marker and marker lock in training, the loss of an UP
port with every line that it awaited, the return to training, its restart, and LINKCTL TRAIN. -/
def Obligations.HeadLinkStates : Prop :=
  ∀ (s : State) (head : Fin 16) (n : Nat), s.alive → n = head.val →
    (∀ lane : Fin 4, (s.dev.portState n = 0 ∨ s.dev.logicalLane n lane.val = none) → exec (.laneBlockLock head lane) s = .next s)
    ∧ (∀ lane : Fin 4, s.dev.portState n ≠ 0 → s.dev.logicalLane n lane.val ≠ none → Becomes (.laneBlockLock head lane) s fun t =>
      s.dev.onlyRegs t [Reg.hlStat n] ∧ ∀ i, i < 32 → t.flag (Reg.hlStat n) i = (decide (i = 24 + lane.val) || s.dev.flag (Reg.hlStat n) i))
    ∧ (∀ (lane : Fin 4) (m : Bytes) (skew blocks k : Nat), m.length = 8 → s.dev.portState n ≠ 0 → k < s.dev.laneCount n →
      (List.range (s.dev.laneCount n)).find? (fun k => s.dev.laneMap n k == lane.val) = some k →
      let good := byteAt m 1 / 64 = lcodeOf (s.dev.laneCount n) ∧ byteAt m 1 % 4 = k
      let last := (s.dev.port n).mcount.getD k none
      (pecOf (m.take 7) ≠ m.getD 7 0 → Becomes (.laneMarker head lane m ⟨skew, blocks⟩) s fun t =>
        t = s.dev.setFld (Reg.hlErr2 n) 0 8 (satAdd 8 (s.dev.fld (Reg.hlErr2 n) 0 8) 1))
      ∧ (pecOf (m.take 7) = m.getD 7 0 → s.dev.portState n ≠ 3 → Becomes (.laneMarker head lane m ⟨skew, blocks⟩) s fun t =>
        t = { s.dev with regs := t.regs, ports := t.ports } ∧ s.dev.regsKept t [Reg.hlStat n]
        ∧ t.fld (Reg.hlStat n) 0 8 = byteAt m 4 ∧ t.fld (Reg.hlStat n) 8 6 = min skew 32 ∧ t.portState n = s.dev.portState n
        ∧ (t.port n).mcount.getD k none = (if k < (s.dev.port n).mcount.length then some (leAt m 2 2) else none)
        ∧ (k < (s.dev.port n).runs.length → (t.port n).runs.getD k 0 =
            if good ∧ skew ≤ 32 then
              (if blocks = 16383 ∧ last.any (fun c => (c + 1) % 65536 == leAt m 2 2) = true then (s.dev.port n).runs.getD k 0 + 1 else 1)
            else 0)
        ∧ ∀ j, j < 16 → j ≠ n → t.port j = s.dev.port j)
      ∧ (pecOf (m.take 7) = m.getD 7 0 → s.dev.portState n = 3 → Becomes (.laneMarker head lane m ⟨skew, blocks⟩) s fun t =>
        let u := (s.dev.setFld (Reg.hlStat n) 0 8 (byteAt m 4)).setFld (Reg.hlStat n) 8 6 (min skew 32)
        let gap := if blocks % 16384 = 16383 then blocks / 16384 + 1 else 0
        let follows := ∀ c, last = some c → gap ≠ 0 ∧ (c + gap) % 65536 = leAt m 2 2
        (32 < skew → t = u.linkDown n 3) ∧ (skew ≤ 32 → 2 < gap → t = u.linkDown n 1)
        ∧ (skew ≤ 32 → gap ≤ 2 → ¬ (good ∧ follows) → t = u.linkDown n 2)
        ∧ (skew ≤ 32 → gap ≤ 2 → good → follows → t = { u with ports := t.ports } ∧ t.portState n = 3
          ∧ (t.port n).mcount.getD k none = (if k < (s.dev.port n).mcount.length then some (leAt m 2 2) else none))))
    ∧ (∀ (kind : Fin 3) (inPacket : Bool), s.dev.portState n ≠ 0 → s.dev.portState n ≠ 3 → Becomes (.errorBlock head kind inPacket) s fun t =>
        t.fld (Reg.hlErr2 n) 0 8 = satAdd 8 (s.dev.fld (Reg.hlErr2 n) 0 8) (b2n (kind == 0))
        ∧ t.fld (Reg.hlErr3 n) 16 16 = satAdd 16 (s.dev.fld (Reg.hlErr3 n) 16 16) (b2n (kind == 1))
        ∧ s.dev.onlyRegs t [Reg.hlErr2 n, Reg.hlErr3 n])
    ∧ (s.dev.portState n ≠ 0 → Becomes (.strayDataBlock head) s fun t =>
        t.fld (Reg.hlErr2 n) 8 8 = satAdd 8 (s.dev.fld (Reg.hlErr2 n) 8 8) 1 ∧ s.dev.onlyRegs t [Reg.hlErr2 n])
    ∧ (s.dev.safe = true → exec (.markerLock head) s = .next s)
    ∧ (s.dev.portState n = 2 → s.dev.safe = false → s.dev.markersGood n = true → s.dev.owedArgs 0x0401 (· == [n]) = none → s.dev.groupOn 4 = true →
      s.dev.eventRoom = true → bit s.dev.ev.urgent.toNat 4 = false → s.dev.live (0x10 + n) = false →
      Becomes (.markerLock head) s fun t =>
        t.portState n = 3 ∧ t.flag (Reg.hlStat n) 23 = true ∧ t.out = List.replicate 3 (.backChannel n 4 [2, 0, (pecOf [2, 0]).toNat]) ++ s.dev.out
        ∧ (∃ m, t.ev.hopper = s.dev.ev.hopper ++ [m] ∧ m.code = 0x8401
            ∧ m.payload.drop 32 = le 1 n ++ le 1 (s.dev.fld (Reg.hlCfg n) 28 3) ++ le 1 (s.dev.laneCount n)
                ++ le 1 (s.dev.fld (Reg.hlStat n) 0 8))
        ∧ t.pos = s.dev.pos ∧ t.ports = s.dev.ports ∧ t.pipes = s.dev.pipes ∧ t.memKept s.dev)
    ∧ (∀ cause lane : Fin 4, (s.dev.portState n = 0 ∨ cause = 0 ∧ s.dev.logicalLane n lane.val = none) →
        exec (.portDown head ⟨cause, lane⟩) s = .next s)
    ∧ (∀ cause lane : Fin 4, s.dev.portState n ≠ 0 → s.dev.portState n ≠ 3 → (cause = 0 → s.dev.logicalLane n lane.val ≠ none) →
        Becomes (.portDown head ⟨cause, lane⟩) s fun t => t = if cause = 0 then s.dev.setFlag (Reg.hlStat n) (24 + lane.val) false else s.dev)
    ∧ (∀ cause lane : Fin 4, s.dev.portState n = 3 → (cause = 0 → s.dev.logicalLane n lane.val ≠ none) →
        Becomes (.portDown head ⟨cause, lane⟩) s fun t => ∃ u : Dev,
        t = ((u.abortMessage n).faultOn (0x10 + n)).event 0x8402 none (le 1 n ++ le 1 cause.val ++ zeros 2)
        ∧ u.portState n = 4 ∧ u.fld (Reg.hlErr3 n) 0 8 = satAdd 8 (s.dev.fld (Reg.hlErr3 n) 0 8) 1
        ∧ u.flag (Reg.hlStat n) 23 = false
        ∧ (∀ i : Fin 4, u.flag (Reg.hlStat n) (24 + i.val) = (s.dev.flag (Reg.hlStat n) (24 + i.val) && !(decide (cause = 0) && decide (i = lane))))
        ∧ (u.pipe n).rx = (s.dev.pipe n).rx ++ (s.dev.port n).lostLines Cause.link
        ∧ (u.port n).table = [] ∧ (u.port n).inUse = none ∧ (u.port n).line = none ∧ (u.port n).lastDown = some s.dev.spos
        ∧ (∀ m, m < 16 → m ≠ n → u.port m = s.dev.port m ∧ u.pipe m = s.dev.pipe m)
        ∧ s.dev.regsKept u [Reg.hlStat n, Reg.hlErr3 n]
        ∧ u = { s.dev with regs := u.regs, ports := u.ports, pipes := u.pipes })
    ∧ (s.dev.portState n = 4 → Becomes (.portRetrain head) s fun t =>
        t.portState n = 2 ∧ t.flag (Reg.hlStat n) 23 = false ∧ (t.port n).runs = [0, 0, 0, 0] ∧ s.dev.regsKept t [Reg.hlStat n]
        ∧ t = { s.dev with regs := t.regs, ports := t.ports })
    ∧ (s.dev.portState n = 2 → Becomes (.trainRestart head) s fun t => ∃ u : Dev,
        t = u.finish (s.dev.owedArgs 0x0401 (· == [n])) St.remoteError (le 1 2 ++ zeros 3)
        ∧ u.portState n = 2 ∧ u.fld (Reg.hlStat n) 24 4 = 0 ∧ u.flag (Reg.hlStat n) 23 = false ∧ (u.port n).runs = [0, 0, 0, 0]
        ∧ s.dev.regsKept u [Reg.hlStat n] ∧ u = { s.dev with regs := u.regs, ports := u.ports })
    ∧ (s.dev.portState n = 2 → s.dev.safe = false → Becomes (.linkctlTrain head) s fun t =>
        let chars := le 1 1 ++ le 1 (s.dev.fld (Reg.hlCfg n) 28 3 + 16 * lcodeOf (s.dev.laneCount n))
        t = { s.dev with out := .backChannel n 4 ((chars ++ [pecOf chars]).map (·.toNat)) :: s.dev.out })

/-- Packets (R160, R165, R167, R168, R170, R172 to R174): a header error or another virtual channel is counted and nothing else
happens; error and stray blocks are counted; a Line Start consumes its record and retires the older ones; pixels join the open
line, which passes on at WIDTH pixels; a line that fails its footer or its time is lost with a cause. -/
def Obligations.HeadPackets : Prop :=
  ∀ (s : State) (head : Fin 16) (n : Nat), s.alive → n = head.val → s.dev.portState n = 3 → s.dev.safe = false →
    (∀ (h : Word) (px : Pixels) (data : Bytes) (footer : BitVec 16) (types : Nat → Bool) (c : Word → Instr),
      (types, c) ∈ [((· == 0), Instr.frameStart head), ((· == 1), .frameEnd head), ((· == 2), .lineStartPacket head), ((· == 3), .lineEnd head),
        (pixelType, (.pixelPacket head · px)), ((· == 0x37), (.headMessagePacket head · ⟨data, footer⟩)),
        ((fun t => decide (t > 3) && t != 0x37 && (s.dev.planeOf n t).isNone), (.discardedPacket head · data))] →
      (eccCheck h = none → Becomes (c h) s fun t => t = s.dev.setFld (Reg.hlErr0 n) 16 8 (satAdd 8 (s.dev.fld (Reg.hlErr0 n) 16 8) 1))
      ∧ (∀ w, eccCheck h = some (w, false) → hdrVc w ≠ s.dev.fld (Reg.hlCfg n) 16 4 → Becomes (c h) s fun t =>
          t = s.dev.setFld (Reg.hlErr1 n) 16 16 (satAdd 16 (s.dev.fld (Reg.hlErr1 n) 16 16) 1))
      ∧ (∀ w v, eccCheck h = some (w, true) → eccCheck v = some (v, false) → hdrVc v = hdrVc w → hdrType v = hdrType w → hdrField v = hdrField w →
          (types (hdrType w) = true ∨ hdrVc w ≠ s.dev.fld (Reg.hlCfg n) 16 4) → exec (c h) s = exec (c v) { s with dev := s.dev.setFld (Reg.hlErr0 n) 24 8 (satAdd 8 (s.dev.fld (Reg.hlErr0 n) 24 8) 1) }))
    ∧ (∀ (kind : Fin 3) (inPacket : Bool), Becomes (.errorBlock head kind inPacket) s fun t =>
        t.fld (Reg.hlErr2 n) 0 8 = satAdd 8 (s.dev.fld (Reg.hlErr2 n) 0 8) (b2n (kind == 0) + b2n inPacket)
        ∧ t.fld (Reg.hlErr3 n) 16 16 = satAdd 16 (s.dev.fld (Reg.hlErr3 n) 16 16) (b2n (kind == 1))
        ∧ s.dev.onlyRegs t [Reg.hlErr2 n, Reg.hlErr3 n])
    ∧ Becomes (.strayDataBlock head) s (fun t => t.fld (Reg.hlErr2 n) 8 8 = satAdd 8 (s.dev.fld (Reg.hlErr2 n) 8 8) 1
        ∧ s.dev.onlyRegs t [Reg.hlErr2 n])
    ∧ (∀ h w : Word, eccCheck h = some (w, false) → hdrVc w = s.dev.fld (Reg.hlCfg n) 16 4 →
      let ty := hdrType w; let fd := hdrField w; let p := s.dev.port n
      let sp := fun (d t : Dev) (q : Port) => t = { d with ports := modAt d.ports n fun _ => q }
      (ty = 0 → Becomes (.frameStart head h) s (fun t =>
        sp (if p.frameOpen then s.dev.setFld (Reg.hlErr1 n) 0 8 (satAdd 8 (s.dev.fld (Reg.hlErr1 n) 0 8) 1) else s.dev) t
          { p with frameOpen := true, echo := some (fd % 256) }))
      ∧ (ty = 1 → Becomes (.frameEnd head h) s (fun t => sp s.dev t { p with frameOpen := false }))
      ∧ (ty = 3 → Becomes (.lineEnd head h) s (fun t => if p.line.any (·.rcd.tag == fd) then t = s.dev
          else t = s.dev.setFld (Reg.hlErr1 n) 0 8 (satAdd 8 (s.dev.fld (Reg.hlErr1 n) 0 8) 1)))
      ∧ (ty = 2 → p.line = none → (∀ x ∈ p.table, x.tag ≠ fd) → (∀ x, p.inUse = some x → x.tag ≠ fd ∨ x.awaits ≤ x.got) →
          Becomes (.lineStartPacket head h) s fun t =>
            t = s.dev.setFld (Reg.hlErr2 n) 24 8 (satAdd 8 (s.dev.fld (Reg.hlErr2 n) 24 8) 1))
      ∧ (∀ (older rest : List TrigRec) (x : TrigRec), ty = 2 → p.line = none → p.table = older ++ x :: rest → x.tag = fd →
          (∀ y ∈ older, y.tag ≠ fd) → (∀ y, p.inUse = some y → y.tag ≠ fd ∨ y.awaits ≤ y.got) →
          let gone := (p.inUse.filter fun y => decide (y.got < y.awaits)).toList ++ older
          Becomes (.lineStartPacket head h) s fun t =>
            (t.port n).table = rest ∧ (t.port n).inUse = some { x with got := x.got + 1 }
            ∧ (t.port n).echo = none ∧ (∃ l, (t.port n).line = some l ∧ l.rcd = x ∧ l.sub = x.got ∧ l.planes = [] ∧ l.packets = 0)
            ∧ (t.pipe n).rx = (s.dev.pipe n).rx ++ gone.flatMap (·.lostLines Cause.noLine)
            ∧ t.fld (Reg.hlErr2 n) 16 8 = satAdd 8 (s.dev.fld (Reg.hlErr2 n) 16 8) gone.length
            ∧ t.fld (Reg.hlErr3 n) 8 8 = (if p.echo.any (· != x.expid) then satAdd 8 (s.dev.fld (Reg.hlErr3 n) 8 8) 1
                else s.dev.fld (Reg.hlErr3 n) 8 8)
            ∧ s.dev.regsKept t [Reg.hlErr2 n, Reg.hlErr3 n] ∧ t = { s.dev with regs := t.regs, ports := t.ports, pipes := t.pipes })
      ∧ (∀ x : TrigRec, ty = 2 → p.line = none → p.inUse = some x → x.tag = fd → x.got < x.awaits → p.echo = none → 0 < x.got →
          Becomes (.lineStartPacket head h) s fun t => ∃ l, sp s.dev t { p with inUse := some { x with got := x.got + 1 }, line := some l }
            ∧ l.rcd = x ∧ l.sub = x.got ∧ l.planes = [])
      ∧ (∀ (px : Pixels) (l : OpenLine), p.line = some l → pixelType ty = true → ty = s.dev.fld (Reg.hlCfg n) 8 6 →
          s.dev.flag (Reg.hlCfg n) 25 = false → l.planes.length ≤ 1 →
          let new := l.planes.getD 0 [] ++ unpack ty (px.payload.length / unitBytes ty) px.payload
          let ok := px.footer = csiCrc px.payload
          let lost := fun (d t : Dev) (cause : Nat) => t = { d with
            ports := modAt d.ports n fun _ => { p with line := none },
            pipes := modAt d.pipes n fun q => { q with rx := q.rx ++ [l.rcd.line l.sub cause l.why []] } }
          (¬ ok → Becomes (.pixelPacket head h px) s fun t =>
            lost (s.dev.setFld (Reg.hlErr0 n) 8 8 (satAdd 8 (s.dev.fld (Reg.hlErr0 n) 8 8) 1)) t Cause.checksum)
          ∧ (ok → s.dev.width n < new.length ∨ (8 ≤ l.packets + 1 ∧ new.length < s.dev.width n) →
            Becomes (.pixelPacket head h px) s fun t =>
              lost (s.dev.setFld (Reg.hlErr0 n) 0 8 (satAdd 8 (s.dev.fld (Reg.hlErr0 n) 0 8) 1)) t Cause.length)
          ∧ (ok → new.length < s.dev.width n → l.packets + 1 < 8 → Becomes (.pixelPacket head h px) s fun t =>
            sp s.dev t { p with line := some { l with planes := [new], packets := l.packets + 1, overflow := l.overflow || px.overflow } })
          ∧ (ok → new.length = s.dev.width n → (l.overflow || px.overflow) = true → Becomes (.pixelPacket head h px) s fun t =>
              t.fld (Reg.hopCnt (10 + n)) 8 8 = satAdd 8 (s.dev.fld (Reg.hopCnt (10 + n)) 8 8) 1
              ∧ (t.pipe n).rx = (s.dev.pipe n).rx ++ [l.rcd.line l.sub Cause.rxOverflow l.why []] ∧ (t.port n).line = none
              ∧ s.dev.regsKept t [Reg.hopCnt (10 + n)] ∧ t = { s.dev with regs := t.regs, ports := t.ports, pipes := t.pipes })
          ∧ (ok → new.length = s.dev.width n → l.overflow = false → px.overflow = false →
            Becomes (.pixelPacket head h px) s fun t =>
              t.fld (Reg.hlLines n) 0 32 = wrapAdd 32 (s.dev.fld (Reg.hlLines n) 0 32) 1
              ∧ (t.pipe n).rx = (s.dev.pipe n).rx ++ [l.rcd.line l.sub 0 l.why [new]] ∧ (t.port n).line = none
              ∧ s.dev.regsKept t [Reg.hlLines n] ∧ t = { s.dev with regs := t.regs, ports := t.ports, pipes := t.pipes }))
      ∧ (∀ px : Pixels, p.line = none → pixelType ty = true → ty = s.dev.fld (Reg.hlCfg n) 8 6 → Becomes (.pixelPacket head h px) s fun t =>
          t = s.dev.setFld (Reg.hlErr0 n) 0 8 (satAdd 8 (s.dev.fld (Reg.hlErr0 n) 0 8) 1))
      ∧ (∀ (data : Bytes) (footer : BitVec 16), ty = 0x37 → data.length = 0 ∨ 256 < data.length → Becomes (.headMessagePacket head h ⟨data, footer⟩) s fun t =>
          t = s.dev.setFld (Reg.hlErr1 n) 8 8 (satAdd 8 (s.dev.fld (Reg.hlErr1 n) 8 8) 1))
      ∧ (∀ (data : Bytes) (footer : BitVec 16), ty = 0x37 → 1 ≤ data.length → data.length ≤ 256 → footer ≠ csiCrc data →
          Becomes (.headMessagePacket head h ⟨data, footer⟩) s fun t => t = s.dev.setFld (Reg.hlErr0 n) 8 8 (satAdd 8 (s.dev.fld (Reg.hlErr0 n) 8 8) 1))
      ∧ (∀ data : Bytes, ty = 0x37 → 1 ≤ data.length → data.length ≤ 256 → Becomes (.headMessagePacket head h ⟨data, csiCrc data⟩) s fun t =>
          t = s.dev.event 0x8403 none (le 1 n ++ zeros 1 ++ le 2 data.length ++ data))
      ∧ (4 ≤ ty → ty ≠ 0x37 → ty ≠ s.dev.fld (Reg.hlCfg n) 8 6 →
          (s.dev.flag (Reg.hlCfg n) 25 = true → ty < 0x30 ∨ 0x33 < ty) → ∀ payload, Becomes (.discardedPacket head h payload) s fun t =>
          t = s.dev.setFld (Reg.hlErr1 n) 8 8 (satAdd 8 (s.dev.fld (Reg.hlErr1 n) 8 8) 1))
      ∧ (∀ l, p.line = some l → Becomes (.lineTimeout head) s fun t =>
          t = { s.dev.setFld (Reg.hlErr0 n) 0 8 (satAdd 8 (s.dev.fld (Reg.hlErr0 n) 0 8) 1) with
            ports := modAt s.dev.ports n fun _ => { p with line := none },
            pipes := modAt s.dev.pipes n fun q => { q with rx := q.rx ++ [l.rcd.line l.sub Cause.length l.why []] } }))

/-- The commands that write a pipeline's inactive bank (R197, R201, R210, R214 to R218): POUNCE_LOAD, and DEFECT_LOAD and
MOSAIC_SET with a table, are accepted and fetch it; a DEFECT_LOAD of no entry, a MOSAIC_SET without kernels and a
CHANNEL_MATRIX_SET write the bank; COMMIT makes it active with the line not started, or from the target batt on. -/
def Obligations.PixelBankCommands : Prop :=
  ∀ (s : State) (r : Req) (n : Nat), n = pxHead r.payload → n ≤ 15 → s.dev.flag Reg.fltUrec n = false →
    s.dev.stiffActive = false → s.dev.bankBusy n = false →
    (pxCommit r.payload = true → s.dev.targetLate (pxTarget r.payload) = false) →
    let p := r.payload
    let b := s.dev.inactive n
    let took := fun c => s.dev.takeReq c r
    let held := fun (o : Nat) => Obj.pipe n :: refObjs r.mbx.val (bulkRef p o)
    let fetches := fun (d : Dev) (c o : Nat) => if (bulkRef p o).region = bulkArea then d = took c
      else d = (took c).postRead (.bulkRead r.mbx.val) (bulkRef p o).region (bulkRef p o).off (bulkRef p o).len
    (Begins s r (held 64) → p.length = 88 → pxReserved 3 p = true → zeroAt p 18 2 = true → zeroAt p 60 4 = true → refReserved p 64 = true →
      1 ≤ leAt p 16 1 → leAt p 16 1 ≤ 8 → leAt p 17 1 ≤ 8 → leAt p 20 4 < 2 ^ depthOf (s.dev.fld (Reg.hlCfg n) 8 6) →
      (∀ c, c < 9 → leAt p (24 + 4 * c) 4 < 2 ^ 24) → ¬ (pounceFused p = true ∧ pxCommit p = true) → (s.dev.pipe n).width ≠ none →
      leAt p 16 1 * s.dev.width n ≤ (if pounceFused p then 98304 else 49152) → leAt p 80 4 = leAt p 16 1 * s.dev.width n * 4 + 4 →
      ((pounceFused p = true ∨ s.dev.flag (Reg.ppMode n) 0 = true) → s.dev.lineStarted = false ∨ s.dev.mode n = 0) →
      s.dev.refCheck (bulkRef p 64) = none →
      Accepts (.pounceLoad r) s 0x0501 r (held 64) [] fun d => fetches d 0x0501 64)
    ∧ (Begins s r (held 24) → p.length = 48 → pxReserved 1 p = true → zeroAt p 18 6 = true → refReserved p 24 = true → 1 ≤ leAt p 16 2 → leAt p 16 2 ≤ 4096 →
      leAt p 40 4 = leAt p 16 2 * 8 + 4 → (s.dev.pipe n).width ≠ none → s.dev.refCheck (bulkRef p 24) = none →
      Accepts (.defectLoad r) s 0x0502 r (held 24) [] fun d => fetches d 0x0502 24)
    ∧ (Begins s r (held 96) → p.length = 120 → pxReserved 1 p = true → zeroAt p 22 2 = true → zeroAt p 28 4 = true → refReserved p 96 = true →
      (leAt p 17 1 = 1 ∨ leAt p 17 1 = 2) → s.dev.mosaicBad p = none → s.dev.refCheck (bulkRef p 96) = none →
      Accepts (.mosaicSet r) s 0x0503 r (held 96) [] fun d => fetches d 0x0503 96)
    ∧ (Begins s r [.pipe n] → pxCommit p = false →
      (p.length = 48 → pxReserved 1 p = true → zeroAt p 16 32 = true → (s.dev.pipe n).width ≠ none →
        Does (.defectLoad r) s 0x0502 r [] fun d => (took 0x0502).onlyRegs d [Reg.mosCfg n b]
          ∧ d.rd (Reg.mosCfg n b) = s.dev.rd (Reg.mosCfg n b) &&& 0xFFFFE000#32)
      ∧ (p.length = 120 → pxReserved 1 p = true → zeroAt p 22 2 = true → zeroAt p 28 4 = true → zeroAt p 96 24 = true →
        (leAt p 17 1 = 0 ∨ leAt p 17 1 = 3) → s.dev.mosaicBad p = none →
        Does (.mosaicSet r) s 0x0503 r [] fun d =>
          (took 0x0503).onlyRegs d ([Reg.mosCfg n b, Reg.mosEdgeT n b] ++ (List.range 16).map (Reg.mosSite n b))
          ∧ (let v := d.liveView b
             v.mosMode n = leAt p 17 1 ∧ v.px n = leAt p 18 1 ∧ v.py n = leAt p 19 1 ∧ v.nplanes n = leAt p 20 1 ∧ v.nin n = leAt p 21 1
             ∧ v.edgeT n = leAt p 24 4 ∧ v.defCount n = (s.dev.liveView b).defCount n
             ∧ ∀ y x, y < 8 → x < 8 → v.site n y x = (byteAt p (32 + 8 * y + x) / 16, byteAt p (32 + 8 * y + x) % 16)))
      ∧ (p.length = 72 → pxReserved 1 p = true →
        (∀ j, j < 4 → unsigned 32 (signed 25 (leAt p (56 + 4 * j) 4)) = leAt p (56 + 4 * j) 4) →
        Does (.channelMatrixSet r) s 0x0504 r [] fun d =>
          (took 0x0504).onlyRegs d ((List.range 4).flatMap fun j => [Reg.matW0 n b j, Reg.matW1 n b j, Reg.matW2 n b j, Reg.matW3 n b j])
          ∧ ∀ j, j < 4 → (d.liveView b).bias n j = signed 32 (leAt p (56 + 4 * j) 4)
              ∧ ∀ i, i < 5 → (d.liveView b).matrix n j i = signed 16 (leAt p (16 + 10 * j + 2 * i) 2)))
    ∧ (Begins s r [.pipe n] → pxCommit p = true → p.length = 72 → pxReserved 1 p = true →
      (∀ j, j < 4 → unsigned 32 (signed 25 (leAt p (56 + 4 * j) 4)) = leAt p (56 + 4 * j) 4) → s.dev.commitOk n = true →
      Does (.channelMatrixSet r) s 0x0504 r [] fun d =>
        (∀ j, j < 4 → (d.liveView b).bias n j = signed 32 (leAt p (56 + 4 * j) 4)
          ∧ ∀ i, i < 5 → (d.liveView b).matrix n j i = signed 16 (leAt p (16 + 10 * j + 2 * i) 2))
        ∧ if s.dev.lineStarted then
            d.flag (Reg.ppStat n) 30 = true ∧ d.activeBank n = s.dev.activeBank n
            ∧ d.rd64 (Reg.ppSwapBatt n) = s.dev.swapTarget (pxTarget p) % 2 ^ 48 ∧ d = { took 0x0504 with regs := d.regs }
          else d.activeBank n = b ∧ d.flag (Reg.ppStat n) 30 = false ∧ d.flag (Reg.ppStat n) 29 = true
            ∧ (d.pipe n).epoch = (s.dev.pipe n).epoch + 1
            ∧ ∀ m, m < 16 → m ≠ n → d.pipe m = s.dev.pipe m ∧ d.rd (Reg.ppStat m) = s.dev.rd (Reg.ppStat m))

/-- The ends of bulk transfers (R76 to R78) and of a bank copy (R217, R611): a fetch that failed changes nothing and says why; a
calibration table with its seal stands in the inactive bank with its parameters; a bulk write that was acknowledged ends its
export; after a copy both banks hold the same. -/
def Obligations.BulkAndBankCopy : Prop :=
  ∀ (s : State), s.alive →
    (∀ (m : Fin 8) (data : Bytes) (outcome : Fin 2) (corrected bad : List Nat) (a : Accepted) (u : Dev), u = s.dev.fsErrors corrected bad →
      u.accepted.find? (fun a => a.req.mbx == m && (fetchRefs a.code a.req.payload) != []
        && !(a.code == 0x1002 && u.pwr.staging.isSome)) = some a →
      let refs := fetchRefs a.code a.req.payload
      let gone := refs.any fun b => b.region != bulkArea && !u.regionLive b.region
      let dropped := u.dropBulk (.bulkRead m.val)
      (gone = true → Becomes (.bulkFetchDone m data ⟨outcome, corrected, bad⟩) s fun t => t = dropped.followUp a St.regionRevoked [])
      ∧ (gone = false → outcome = 1 → Becomes (.bulkFetchDone m data ⟨outcome, corrected, bad⟩) s fun t => t = dropped.followUp a St.remoteError [])
      ∧ (gone = false → outcome = 0 → bad ≠ [] → Becomes (.bulkFetchDone m data ⟨outcome, corrected, bad⟩) s fun t => t = dropped.followUp a St.badSeal [])
      ∧ (gone = false → outcome = 0 → bad = [] → u.bulkPending (.bulkRead m.val) = false →
          u.fetchedAll m.val refs data = none → Becomes (.bulkFetchDone m data ⟨outcome, corrected, bad⟩) s fun t => t = (u.sealFetched m.val refs data).followUp a St.badSeal [])
      ∧ (∀ (x : Bytes) (n b : Nat), n = pxHead a.req.payload → b = s.dev.inactive n → gone = false → outcome = 0 → corrected = [] → bad = [] →
          s.dev.bulkPending (.bulkRead m.val) = false → a.code = 0x0501 → s.dev.fetchedAll m.val refs data = some [x] → n ≤ 15 →
          pounceFused a.req.payload = false → s.dev.flag (Reg.ppMode n) 0 = false → pxCommit a.req.payload = false → s.dev.stiffActive = false → s.dev.bankBusy n = false → x.length % 4 = 0 →
          1 ≤ leAt a.req.payload 16 1 → leAt a.req.payload 16 1 ≤ 8 → leAt a.req.payload 17 1 ≤ 8 → leAt a.req.payload 20 4 < 2 ^ 24 →
          (∀ c, c < 9 → leAt a.req.payload (24 + 4 * c) 4 < 2 ^ 24) →
          Becomes (.bulkFetchDone m data ⟨outcome, corrected, bad⟩) s fun t => ∃ u : Dev, t = u.followUp a St.ok []
            ∧ (∀ e, 4 * e < x.length → (u.liveView b).cal n e = (signed 16 (leAt x (4 * e) 2), leAt x (4 * e + 2) 2))
            ∧ (let v := u.liveView b
               v.calRows n = leAt a.req.payload 16 1 ∧ v.darkShift n = leAt a.req.payload 17 1 ∧ v.satCode n = leAt a.req.payload 20 4
               ∧ ∀ c, c < 9 → v.blackLevel n c = leAt a.req.payload (24 + 4 * c) 4)
            ∧ (∀ k, (k < tableBase n + b * 0x30000 ∨ tableBase n + b * 0x30000 + x.length ≤ k) → u.deepRd k = s.dev.deepRd k)
            ∧ s.dev.regsKept u ([Reg.sealRun 4, Reg.ppMode n, Reg.ppCfg n b] ++ (List.range 9).map (Reg.ppBl n b)) ∧ u.flag (Reg.ppMode n) 0 = false
            ∧ u = { s.dev with regs := u.regs, deep := u.deep, lost := u.lost }))
    ∧ (∀ (m : Fin 8) (outcome : Fin 2) (a : Accepted),
      s.dev.accepted.find? (fun a => a.req.mbx == m && a.code == 0x0203) = some a →
      ((bulkRef a.req.payload 16).region = bulkArea ∨ s.dev.regionLive (bulkRef a.req.payload 16).region = true) →
      (outcome = 1 → Becomes (.bulkWriteAcked m outcome) s fun t =>
        t = (s.dev.dropBulk (.bulkWrite m.val)).followUp a St.remoteError [])
      ∧ (outcome = 0 → s.dev.bulkPending (.bulkWrite m.val) = false → Becomes (.bulkWriteAcked m outcome) s fun t =>
        t = s.dev.followUp a St.ok (a.args.flatMap fun x => le 4 x)))
    ∧ (∀ (head : Fin 17) (n corrected : Nat) (bad : List Nat), n = head.val → n < 16 → s.dev.safe = false → s.dev.flag (Reg.ppStat n) 29 = true →
      s.dev.flag (Reg.ppMode n) 0 = false → Sparse.wf deepDefault s.dev.deep = true →
      let a := s.dev.activeBank n
      let i := s.dev.inactive n
      let read := (bad.filterMap ramEntry ++ s.dev.lost).filter (s.dev.copyReads n)
      (read ≠ [] → Becomes (.bankCopyDone head corrected bad) s fun t => ∃ w : Dev,
        t = (((w.fault (0x30 + n)).copyBank n).rebase).setFlag (Reg.ppStat n) 29 false ∧ (∀ x ∈ read, x ∈ w.lost)
        ∧ w.fld (Reg.ppCnt n) 16 8 = satAdd 8 (s.dev.fld (Reg.ppCnt n) 16 8) corrected
        ∧ w.fld (Reg.ppCnt n) 8 8 = satAdd 8 (s.dev.fld (Reg.ppCnt n) 8 8) (w.lost.filter read.contains).length)
      ∧ (read = [] → Becomes (.bankCopyDone head corrected bad) s fun t =>
        t.flag (Reg.ppStat n) 29 = false ∧ t.activeBank n = a ∧ t.flag (Reg.ppStat n) 30 = s.dev.flag (Reg.ppStat n) 30
        ∧ (∀ lo size, (lo, size) ∈ [(0, 0x30000), (0x60000, 0x8000), (0x70000, 0x2000), (0x74000, 0x800), (0x80000, 0x40000)] →
            ∀ o, o < size → t.deepRd (tableBase n + lo + i * size + o) = s.dev.deepRd (tableBase n + lo + a * size + o)
              ∧ t.deepRd (tableBase n + lo + a * size + o) = s.dev.deepRd (tableBase n + lo + a * size + o))
        ∧ (∀ w, w < 64 → t.rd (Reg.ppCfg n i + 4 * w) = s.dev.rd (Reg.ppCfg n a + 4 * w)
            ∧ t.rd (Reg.ppCfg n a + 4 * w) = s.dev.rd (Reg.ppCfg n a + 4 * w))
        ∧ (∀ w, w < 128 → t.rd (Reg.napCfg n i + 4 * w) = s.dev.rd (Reg.napCfg n a + 4 * w))
        ∧ t.fld (Reg.ppCnt n) 16 8 = satAdd 8 (s.dev.fld (Reg.ppCnt n) 16 8) corrected
        ∧ t.pipes = s.dev.pipes ∧ t.ports = s.dev.ports ∧ t.out = s.dev.out ∧ t.ev = s.dev.ev
        ∧ (∀ m, m < 16 → m ≠ n → t.rd (Reg.ppStat m) = s.dev.rd (Reg.ppStat m)) ∧ t.flag Reg.stfStat 30 = true))

/-- A line enters pouncing (R190, R192, R193, R213, R215): a pending swap whose target it reaches takes effect first; every sample
of a line that arrived goes through black level, dark offset and gain of the active bank, and a clipped one is marked and counted;
a lost line passes as it is; the line goes on to the mosaic with its marks. -/
def Obligations.LinePouncing : Prop :=
  ∀ (s : State) (head : Fin 16) (n : Nat) (l : Line) (rest : List Line), s.alive → n = head.val → s.dev.stageOn (16 + n) = true → (s.dev.pipe n).rx = l :: rest →
    (∀ corrected : Nat, (s.dev.flag (Reg.ppStat n) 30 = false ∨ l.batt < s.dev.rd64 (Reg.ppSwapBatt n)) →
      (l.cause = 0 → s.dev.lost.filter (s.dev.calRead (s.dev.liveView (s.dev.activeBank n)) n l).contains = []) →
      Becomes (.linePounce head [] corrected []) s fun t => ∃ x : Line,
        (t.pipe n).rx = rest ∧ (t.pipe n).mosQ = (s.dev.pipe n).mosQ ++ [x] ∧ (t.pipe n).pounced = x :: (s.dev.pipe n).pounced
        ∧ x = { l with epoch := (s.dev.pipe n).epoch, planes := x.planes, sats := x.sats }
        ∧ (l.cause ≠ 0 → x.planes = l.planes ∧ x.sats = l.sats ∧ t.fld (Reg.ppSatcnt n) 0 32 = s.dev.fld (Reg.ppSatcnt n) 0 32)
        ∧ (l.cause = 0 →
            let v := s.dev.liveView (s.dev.activeBank n)
            let depth := depthOf (s.dev.fld (Reg.hlCfg n) 8 6)
            let satEff := if v.satCode n = 0 then 2 ^ depth - 1 else v.satCode n
            t.fld (Reg.ppSatcnt n) 0 32 = satAdd 32 (s.dev.fld (Reg.ppSatcnt n) 0 32) ((l.planes.flatMap id).countP fun y => decide (satEff ≤ y))
            ∧ ∀ q c, q < l.planes.length → c < (l.planes.getD q []).length → c < s.dev.width n →
                let k := if s.dev.lineMode n l.gen = 2 then l.sub * v.calRows n / s.dev.lineAwaits n l.gen
                  else if v.mosMode n = 3 then q else l.sub % v.calRows n
                let e := v.cal n (k * s.dev.width n + c)
                let code := (l.planes.getD q []).getD c 0
                let a : Int := ((code * 2 ^ (24 - depth) : Nat) : Int) - v.blackLevel n (v.channel n l q c)
                let y : Int := ((a - e.1 * (2 ^ v.darkShift n : Nat)) * e.2 + 8192) / 16384
                ((x.planes.getD q []).getD c 0, (x.sats.getD q []).getD c false) =
                  if satEff ≤ code then (0xFFFFFF, true) else if y < 0 then (0, false)
                  else if 0xFFFFFF < y then (0xFFFFFF, true) else (y.toNat, false))
        ∧ t.fld (Reg.ppCnt n) 16 8 = satAdd 8 (s.dev.fld (Reg.ppCnt n) 16 8) (if l.cause = 0 then corrected else 0)
        ∧ (∀ m, m < 16 → m ≠ n → t.pipe m = s.dev.pipe m) ∧ s.dev.regsKept t [Reg.ppSatcnt n, Reg.ppCnt n]
        ∧ t = { s.dev with regs := t.regs, pipes := t.pipes, hoppers := t.hoppers })
    ∧ (∀ corrected : Nat, s.dev.flag (Reg.ppStat n) 30 = true → s.dev.rd64 (Reg.ppSwapBatt n) ≤ l.batt → l.cause ≠ 0 →
      Becomes (.linePounce head [] corrected []) s fun t =>
        t.activeBank n = s.dev.inactive n ∧ t.flag (Reg.ppStat n) 30 = false ∧ t.flag (Reg.ppStat n) 29 = true
        ∧ (t.pipe n).rx = rest ∧ (t.pipe n).epoch = (s.dev.pipe n).epoch + 1
        ∧ (t.pipe n).mosQ = (s.dev.pipe n).mosQ ++ [{ l with epoch := (s.dev.pipe n).epoch + 1 }]
        ∧ t.fld (Reg.ppCnt n) 16 8 = s.dev.fld (Reg.ppCnt n) 16 8)
    ∧ (∀ hits : Hits, badWords [] hits ≠ [] → s.dev.lost = [] → Becomes (.linePounce head hits 0 []) s fun t =>
        ∃ (u : Dev) (x : Line), (u.pipe n).mosQ = (s.dev.pipe n).mosQ ++ [x] ∧ x.damaged = true ∧ x.batt = l.batt ∧ x.cause = l.cause
          ∧ t = u.poisonRead (10 + n) 1 (badWords [] hits))
    ∧ (∀ bad : List Nat, s.dev.flag (Reg.ppStat n) 30 = false → l.cause = 0 →
      let read := s.dev.calRead (s.dev.liveView (s.dev.activeBank n)) n l
      (∃ a ∈ read, a ∈ s.dev.lost ∨ a ∈ bad.filterMap ramEntry) → Becomes (.linePounce head [] 0 bad) s fun t =>
        ∃ (w : Dev) (x : Line), (t.pipe n).mosQ = ((w.fault (0x30 + n)).pipe n).mosQ ++ [x] ∧ x.damaged = true ∧ x.batt = l.batt
          ∧ x.cause = 0 ∧ (w.pipe n).mosQ = (s.dev.pipe n).mosQ
          ∧ w.fld (Reg.ppCnt n) 8 8 = satAdd 8 (s.dev.fld (Reg.ppCnt n) 8 8) (w.lost.filter read.contains).length
          ∧ ∀ a, a ∈ w.lost ↔ a ∈ s.dev.lost ∨ (a ∈ read ∧ a ∈ bad.filterMap ramEntry))

/-- The mosaic stage (R198 to R201, R204 to R210, R212): a lost line passes; without defects a BYPASS line keeps its samples, a
MULTIPLANE line goes through the channel matrix, a MULTILINE line through its kernels along itself, an AREA line through
gradients, kernels and matrix over its window, for which it waits; a defect of a LINE head takes the mean of its neighbours; a line whose
defect or kernel entries read as uncorrectable is damaged. -/
def Obligations.MosaicLines : Prop :=
  ∀ (s : State) (head : Fin 16) (n corrected : Nat) (l : Line) (rest : List Line) (v : View), s.alive → n = head.val → s.dev.stageOn (16 + n) = true →
    (s.dev.pipe n).mosQ = l :: rest → v = s.dev.lineView n l →
    let passes := fun (t : Dev) (out : Line) (subst unres : Nat) => ∃ u : Dev, t = u.cardArrive n out
      ∧ (u.pipe n).mosQ = rest ∧ (u.pipe n).cards = (s.dev.pipe n).cards ∧ (u.pipe n).pounced = (s.dev.pipe n).pounced
      ∧ u.fld (Reg.ppCnt n) 24 8 = satAdd 8 (s.dev.fld (Reg.ppCnt n) 24 8) unres
      ∧ u.fld (Reg.ppCnt n) 0 8 = satAdd 8 (s.dev.fld (Reg.ppCnt n) 0 8) subst
      ∧ u.fld (Reg.ppCnt n) 16 8 = satAdd 8 (s.dev.fld (Reg.ppCnt n) 16 8) (if l.cause = 0 then corrected else 0)
      ∧ (∀ m, m < 16 → m ≠ n → u.pipe m = s.dev.pipe m) ∧ s.dev.regsKept u [Reg.ppCnt n]
      ∧ u = { s.dev with regs := u.regs, pipes := u.pipes }
    let px := fun (y : Line) (q c : Nat) => (y.at? q c).getD (0, false)
    let clamped := fun (a : Int) (m : Bool) => if a < 0 then (0, m) else if 0xFFFFFF < a then (0xFFFFFF, true) else (a.toNat, m)
    let matrix := fun (j : Nat) (ins : Nat → Nat × Bool) =>
      clamped ((v.matrix n j 0 * (ins 0).1 + v.matrix n j 1 * (ins 1).1 + v.matrix n j 2 * (ins 2).1 + v.matrix n j 3 * (ins 3).1
        + v.matrix n j 4 * (ins 4).1 + v.bias n j * 4096 + 2048) / 4096) ((List.range 5).any fun i => v.matrix n j i != 0 && (ins i).2)
    let clean := s.dev.lost.filter ((s.dev.viewAt n l.epoch).mosaicRead n l).contains = []
    (∀ bad, l.cause = 0 → v.mosMode n = 0 → s.dev.lineMode n l.gen ≠ 2 →
      (∃ a ∈ (s.dev.viewAt n l.epoch).mosaicRead n l, a ∈ s.dev.lost ∨ a ∈ bad.filterMap ramEntry) →
      Becomes (.mosaicLine ⟨head, corrected, bad⟩) s fun t => ∃ (u : Dev) (out : Line), t = u.cardArrive n out ∧ out.damaged = true ∧ out.batt = l.batt)
    ∧ (l.cause ≠ 0 → Becomes (.mosaicLine ⟨head, corrected, []⟩) s fun t => passes t l 0 0)
    ∧ (l.cause = 0 → clean → v.defCount n = 0 →
      (v.mosMode n = 0 → Becomes (.mosaicLine ⟨head, corrected, []⟩) s fun t => passes t l 0 0)
      ∧ (v.mosMode n = 3 → Becomes (.mosaicLine ⟨head, corrected, []⟩) s fun t => ∃ out, passes t out 0 0
          ∧ out = { l with planes := out.planes, sats := out.sats } ∧ out.planes.length = v.nplanes n
          ∧ ∀ j c, j < v.nplanes n → c < s.dev.width n → px out j c = matrix j fun i => if i < v.nin n then px l i c else (0, false))
      ∧ (v.mosMode n = 2 → Becomes (.mosaicLine ⟨head, corrected, []⟩) s fun t => ∃ out, passes t out 0 0
          ∧ out = { l with planes := out.planes, sats := out.sats } ∧ out.planes.length = 1
          ∧ ∀ c, c < s.dev.width n →
              let cls := (v.site n l.sub (c % v.px n)).1
              let k := fun (i : Nat) => v.kernel n 0 cls 0 (10 + i)
              let x := fun (i : Nat) => px l 0 (windowCol (v.px n) (s.dev.width n) c ((i : Int) - 2))
              px out 0 c = clamped ((k 0 * (x 0).1 + k 1 * (x 1).1 + k 2 * (x 2).1 + k 3 * (x 3).1 + k 4 * (x 4).1 + 512) / 1024)
                ((List.range 5).any fun i => k i != 0 && (x i).2))
      ∧ (v.mosMode n = 1 → s.dev.window v n l = none → Becomes (.mosaicLine ⟨head, corrected, []⟩) s fun t => t = s.dev)
      ∧ (∀ (rows : List Line) (k : Nat), v.mosMode n = 1 → s.dev.window v n l = some (rows, k) →
          (∀ y ∈ rows, (s.dev.lineView n y).defCount n = 0) → Becomes (.mosaicLine ⟨head, corrected, []⟩) s fun t => ∃ out, passes t out k 0
            ∧ out = { l with planes := out.planes, sats := out.sats } ∧ out.planes.length = v.nplanes n
            ∧ ∀ j c, j < v.nplanes n → c < s.dev.width n →
                let w := fun (i : Nat) => px (rows.getD (i / 5) l) 0 (windowCol (v.px n) (s.dev.width n) c (((i % 5 : Nat) : Int) - 2))
                let dif := fun (a b : Nat) => ((w a).1 - (w b).1) + ((w b).1 - (w a).1)
                let gh := ((List.range 5).map fun y => dif (5 * y + 3) (5 * y + 1) + dif (5 * y + 4) (5 * y)).sum
                let gv := ((List.range 5).map fun x => dif (15 + x) (5 + x) + dif (20 + x) x).sum
                let cls := (v.site n (l.sub % v.py n) (c % v.px n)).1
                let acc := fun (j h : Nat) => ((List.range 25).map fun i => v.kernel n j cls h i * ((w i).1 : Int)).sum
                let mark := fun (j h : Nat) => (List.range 25).any fun i => v.kernel n j cls h i != 0 && (w i).2
                let plane := fun (j : Nat) => if v.nplanes n ≤ j then (0, false)
                  else if gh + v.edgeT n < gv then clamped ((acc j 0 + 512) / 1024) (mark j 0)
                  else if gv + v.edgeT n < gh then clamped ((acc j 1 + 512) / 1024) (mark j 1)
                  else clamped ((acc j 0 + acc j 1 + 1024) / 2048) (mark j 0 || mark j 1)
                px out j c = matrix j fun i => if i = 4 then px l 0 c else plane i))
    ∧ (l.cause = 0 → clean → v.mosMode n = 0 → s.dev.lineMode n l.gen ≠ 2 → 0 < v.defCount n → Becomes (.mosaicLine ⟨head, corrected, []⟩) s fun t =>
        ∃ out unres, passes t out 0 unres ∧ out.planes.length = l.planes.length
          ∧ ∀ q c, q < l.planes.length → c < (l.planes.getD q []).length →
              let defect := fun (c : Nat) => (v.defects n).find? fun e => e.1 == (l.sub % v.calRows n) * 65536 + c
              let left := if c = 0 ∨ (defect (c - 1)).isSome then none else l.at? q (c - 1)
              let right := if (defect (c + 1)).isSome then none else l.at? q (c + 1)
              match defect c with
              | none => px out q c = px l q c
              | some e =>
                let near := if e.2 = 1 then left.toList else if e.2 = 2 then right.toList else left.toList ++ right.toList
                if near = [] then px out q c = px l q c
                else px out q c = (((near.map (·.1)).sum + near.length / 2) / near.length, near.any (·.2)))

/-- CARD_OFFSETS (R220, R223), LINE_DELAYS (R224, R226), CARD_STATUS (R237) and BATT_DEADLINE (R243, R245): the settings of the
inactive bank, a report that clears nothing, and the deadlines of every batt that is not CLOSED. -/
def Obligations.CardingCommands : Prop :=
  ∀ (s : State),
    (∀ (r : Req) (n b : Nat), Begins s r [.pipe n] → n = pxHead r.payload → n ≤ 15 → b = s.dev.inactive n →
      s.dev.flag Reg.fltUrec n = false → s.dev.stiffActive = false → s.dev.bankBusy n = false → pxCommit r.payload = false →
      r.payload.length = 32 → pxReserved 1 r.payload = true →
      let p := r.payload
      (bits (leAt p 23 1) 1 7 = 0 → zeroAt p 27 5 = true → leAt p 20 1 ≤ 1 → leAt p 21 1 ≤ 1 →
        leAt p 22 1 ≤ s.dev.fld (Reg.hlCfg n) 0 3 → (leAt p 21 1 = 0 → leAt p 22 1 = 0) → 0x100 ≤ leAt p 24 3 →
        Does (.cardOffsets r) s 0x0601 r [] fun d =>
          (s.dev.takeReq 0x0601 r).onlyRegs d [Reg.cdCfg n b, Reg.cdTrim n b, Reg.cdFpitch n b]
          ∧ (let v := d.liveView b
             v.trim n = sleAt p 16 4 ∧ v.fourtap n = bit (leAt p 20 1) 0 ∧ v.lptSelect n = bit (leAt p 21 1) 0 ∧ v.lineSel n = leAt p 22 1
             ∧ v.frameRev n = bit (leAt p 23 1) 0 ∧ v.framePitch n = leAt p 24 3))
      ∧ (zeroAt p 26 6 = true → (∀ i, i < 5 → leAt p (16 + 2 * i) 2 ≤ 0x0FFF) →
        (let py := (s.dev.liveView b).py n
         (∃ i, i < 5 ∧ i < py ∧ leAt p (16 + 2 * i) 2 = 0)
         ∧ (((List.range 5).take py).map fun i => ((leAt p (16 + 2 * i) 2 + 255) / 256 + 1) * s.dev.width n).sum ≤ 524288) →
        Does (.lineDelays r) s 0x0602 r [] fun d =>
          (s.dev.takeReq 0x0602 r).onlyRegs d [Reg.cdDly0 n b, Reg.cdDly1 n b, Reg.cdDly2 n b]
          ∧ ∀ i, i < 5 → (d.liveView b).delay n i = leAt p (16 + 2 * i) 2))
    ∧ (∀ (r : Req) (n : Nat), Begins s r [] → n = leAt r.payload 0 1 → n ≤ 15 → r.payload.length = 4 → zeroAt r.payload 1 3 = true →
      Does (.cardStatus r) s 0x0603 r
        (le 1 (b2n (s.dev.pipe n).unlk + 2 * b2n (s.dev.flag Reg.fltUrec n)) ++ zeros 7 ++ le 8 (s.dev.rd64 (Reg.cardRowLast n))
          ++ le 8 (s.dev.rd64 (Reg.cardLineHwm n))
          ++ (if s.dev.rd64 Reg.btOpenMin % 2 ^ 48 = 2 ^ 48 - 1 then List.replicate 8 0xFF else le 8 (s.dev.rd64 Reg.btOpenMin % 2 ^ 48))
          ++ le 4 (s.dev.rdN (Reg.cardLateCnt n)) ++ le 4 (s.dev.rdN (Reg.cardWrovfCnt n)) ++ le 4 (s.dev.rdN (Reg.cardDupCnt n))
          ++ le 4 (s.dev.rdN (Reg.cardFbkCnt n)) ++ le 4 (s.dev.rdN (Reg.cardMissCnt n)) ++ le 4 (s.dev.rdN (Reg.cardUnlkCnt n)))
        fun d => d = s.dev.takeReq 0x0603 r)
    ∧ (∀ (r : Req) (pos t : Nat), Begins s r [.position] → pos = leAt r.payload 0 4 → t = leAt r.payload 4 4 → r.payload.length = 8 →
      1 ≤ pos → 100 ≤ t → t ≤ 10000000 → s.dev.isFollower = false → s.dev.stiffActive = false →
      Does (.battDeadline r) s 0x0604 r (le 4 (s.dev.rdN Reg.btDlPos) ++ le 4 (s.dev.rdN Reg.btDlTime)) fun d =>
        d = (((s.dev.takeReq 0x0604 r).wrN Reg.btDlPos pos).wrN Reg.btDlTime t).fanOut 0x0604 [(pos : Int), (t : Int)]
        ∧ (s.dev.isLead = false → (s.dev.takeReq 0x0604 r).onlyRegs d [Reg.btDlPos, Reg.btDlTime]
            ∧ d.rdN Reg.btDlPos = pos ∧ d.rdN Reg.btDlTime = t))

/-- CARD_ROW_RESOLVE on a LINE head with one line per trigger (R227 to R232, R234): the next row waits for its taps; it is the
weighted sum of its taps when they have one exposure identifier; across an exposure change it is the reference tap alone; with a
lost inner tap it is missing with that tap's cause. -/
def Obligations.CardedRows : Prop :=
  ∀ (s : State) (head : Fin 16) (n r : Nat) (c : Card) (v : View) (i0 : Int) (ph : Nat), s.alive → n = head.val → s.dev.stageOn (32 + n) = true →
    (s.dev.pipe n).cards = [c] → c.mode = 1 → r = c.rowNext → v = s.dev.viewOf n (c.battOf r) → c.inLine r = true →
    (∀ x ∈ c.carded, x.r ≠ r) → c.awaits = 1 → v.mosMode n ≠ 2 → 0 < c.pitch → c.resc = [] →
    i0 = (((r * c.grid.pitch : Nat) : Int) - v.trim n) / c.pitch →
    (ph : Int) = (((r * c.grid.pitch : Nat) : Int) - v.trim n - i0 * c.pitch) * 1024 / c.pitch →
    let ref := if ph < 512 then i0 else i0 + 1
    let marks := fun (ls : List Line) => (if ls.all (·.why == 0) then 0 else 256) + (if ls.any (·.unlocked) then 512 else 0)
      + (if ls.any (·.damaged) then 1024 else 0)
    let becomes := fun (fb : Bool) (P : Row → Prop) => Becomes (.cardRowResolve head) s fun t => ∃ (x : Row) (c' : Card),
      (t.pipe n).cards = [c'] ∧ c' = { c with carded := c.carded ++ [x], rowNext := c'.rowNext, late := c'.late } ∧ r < c'.rowNext
      ∧ x.r = r ∧ P x ∧ t.rd64 (Reg.cardRowLast n) = r % 2 ^ 64
      ∧ t.fld (Reg.cardFbkCnt n) 0 32 = satAdd 32 (s.dev.fld (Reg.cardFbkCnt n) 0 32) (b2n fb)
      ∧ t.fld (Reg.cardMissCnt n) 0 32 = satAdd 32 (s.dev.fld (Reg.cardMissCnt n) 0 32) (b2n (x.status % 16 != 0))
      ∧ (∀ m, m < 16 → m ≠ n → t.pipe m = s.dev.pipe m)
      ∧ (bit x.status 9 = (s.dev.pipe n).unlk ∨ x.status % 16 ≠ 0 → t = { s.dev with regs := t.regs, pipes := t.pipes }
          ∧ s.dev.regsKept t [Reg.cardRowLast n, Reg.cardRowLast n + 4, Reg.cardFbkCnt n, Reg.cardMissCnt n, Reg.cardUnlkCnt n])
    let formed := fun (fb : Bool) (id : Nat) (use : List (Int × Line)) => becomes fb fun x =>
      x.expid = id ∧ x.status = marks (use.map fun (z : Int × Line) => z.2) + (if fb then 2048 else 0)
      ∧ ∀ (q col : Nat) (first : Line), (use.map fun (z : Int × Line) => z.2).head? = some first → q < first.planes.length →
          col < (first.planes.getD q []).length →
          let y : Int := ((use.map fun (z : Int × Line) => z.1 * (((z.2.at? q col).getD (0, false)).1 : Int)).sum + 512) / 1024
          ((x.planes.getD q []).getD col 0, (x.sats.getD q []).getD col false) =
            (if y < 0 then 0 else if 0xFFFFFF < y then 0xFFFFFF else y.toNat,
             decide (0xFFFFFF < y) || use.any fun (z : Int × Line) => ((z.2.at? q col).getD (0, false)).2)
    ((v.fourtap n = false →
        (∀ l, ph = 0 → c.raw i0 0 = .line l → formed false l.expid [(1024, l)])
        ∧ (∀ a b : Line, ph ≠ 0 → c.raw i0 0 = .line a → c.raw (i0 + 1) 0 = .line b → a.expid = b.expid →
            formed false a.expid [(1024 - (ph : Int), a), ((ph : Int), b)])
        ∧ (∀ a b : Line, ph ≠ 0 → c.raw i0 0 = .line a → c.raw (i0 + 1) 0 = .line b → a.expid ≠ b.expid →
            formed true (if ph < 512 then a.expid else b.expid) [(1024, if ph < 512 then a else b)])
        ∧ (ph ≠ 0 → (c.raw i0 0 = .waiting ∨ c.raw (i0 + 1) 0 = .waiting) → Becomes (.cardRowResolve head) s fun t => t = s.dev)
        ∧ (∀ k, ph ≠ 0 → (c.raw i0 0 = .lost k ∧ c.raw (i0 + 1) 0 ≠ .waiting ∨ (∃ l, c.raw i0 0 = .line l) ∧ c.raw (i0 + 1) 0 = .lost k) →
            1 ≤ k → k ≤ 15 → becomes false fun x =>
            x.status = k ∧ x.planes = [] ∧ x.sats = []
            ∧ x.expid = match c.raw ref 0 with
                | .line l => l.expid
                | _ => s.dev.expidOf n (c.battOf r)))
      ∧ (∀ a b e f : Line, v.fourtap n = true → ph ≠ 0 → c.raw (i0 - 1) 0 = .line a → c.raw i0 0 = .line b →
          c.raw (i0 + 1) 0 = .line e → c.raw (i0 + 2) 0 = .line f → b.expid = a.expid → e.expid = a.expid → f.expid = a.expid →
          (∀ z ∈ fourTap ph, z ≠ 0) →
          (∀ w0 w1 w2 w3 : Int, fourTap ph = [w0, w1, w2, w3] → formed false a.expid [(w0, a), (w1, b), (w2, e), (w3, f)])))

/-- The batt tracker (R242 to R244): the lowest open batt closes once every contributing head has finished it, and not before;
a deadline expires only once SPOS has reached the batt's last point, by position when SPOS is DL_POS beyond it. -/
def Obligations.BattTracker : Prop :=
  ∀ (s : State), s.alive → s.dev.safe = false →
    (∀ b : Batt, s.dev.ful.batts.filter (fun b => b.state == .opened && b.recalled.isNone) = [b] →
      (∀ x ∈ s.dev.ful.batts, x.num = b.num → x = b) → s.dev.finishedBatt b = true → Becomes .battClose s fun t =>
        (∃ x ∈ t.ful.batts, x.num = b.num ∧ x.state = .closed ∧ x.map = s.dev.missingMap b ∧ x.closedAt = s.dev.now
          ∧ x.closeTime = s.dev.timeNs ∧ x.heads = b.heads ∧ x.grid = b.grid)
        ∧ t.fld Reg.btStat 0 16 = 0 ∧ t.rd64 Reg.btOpenMin % 2 ^ 48 = 2 ^ 48 - 1 ∧ t.ports = s.dev.ports ∧ t.plc = s.dev.plc)
    ∧ ((∀ b rest, s.dev.ful.batts.filter (fun b => b.state == .opened && b.recalled.isNone) = b :: rest → s.dev.finishedBatt b = false) →
      Becomes .battClose s fun t => t = s.dev)
    ∧ (∀ (batt : Nat) (b : Batt), s.dev.ful.batts.find? (fun b => b.num == batt && b.recalled.isNone && b.state == .opened && !b.expired) = some b →
      (4 * s.dev.rdI64 Reg.sposHwm < s.dev.lastPoint b → Becomes (.battDeadlineExpiry batt) s fun t => t = s.dev)
      ∧ (s.dev.lastPoint b ≤ 4 * s.dev.rdI64 Reg.sposHwm → Becomes (.battDeadlineExpiry batt) s fun t =>
          ∃ (u : Dev) (miss : List Nat) (rows k : Nat), (∀ m ∈ miss, m ∈ b.heads) ∧ t = Dev.closeReady k
            (((u.modBatt b.num fun x => { x with expired := true, missing := listMask miss }).incSat Reg.btStat 16 16 1).event 0x8601
              (some b.num) (le 2 (listMask miss)
                ++ le 1 (if s.dev.lastPoint b + 256 * (max 1 (s.dev.rdN Reg.btDlPos) : Nat) ≤ 4 * s.dev.spos then 0 else 1)
                ++ zeros 1 ++ le 4 rows))))

/-- BLOCK_MAP_LOAD (R249, R251), STRIP_GRID_SET (R246 to R248), BRIM_CONFIG (R260, R269) and BRIM_READ (R265): an identity map
stands at once and a map is fetched, the grid is set with the line stopped, the inactive bank takes the brim settings, the crop
settings wait for their batt, and the kept edge records are returned. -/
def Obligations.BlockingCommands : Prop :=
  ∀ (s : State),
    (∀ (r : Req) (n b : Nat), Begins s r [.pipe n] → n = pxHead r.payload → n ≤ 15 → b = s.dev.inactive n →
      s.dev.flag Reg.fltUrec n = false → s.dev.stiffActive = false → s.dev.bankBusy n = false →
      let p := r.payload
      (pxCommit p = false → p.length = 72 → pxReserved 1 p = true → leAt p 16 4 < 2 ^ 20 → zeroAt p 20 52 = true →
        (s.dev.pipe n).width ≠ none →
        s.dev.fld Reg.devFirst 0 20 ≤ leAt p 16 4 + 256 → leAt p 16 4 + s.dev.width n ≤ s.dev.fld Reg.devLast 0 20 + 1 + 256 →
        leAt p 16 4 + s.dev.width n ≤ s.dev.fld Reg.gridW 0 21 →
        Does (.blockMapLoad r) s 0x0701 r [] fun d =>
          (s.dev.takeReq 0x0701 r).onlyRegs d [Reg.bkCol0 n b, Reg.bkCfg n b, Reg.bkAnchor n b]
          ∧ (d.liveView b).col0 n = leAt p 16 4 ∧ (d.liveView b).mapped n = false ∧ (d.liveView b).ncol n = s.dev.width n)
      ∧ (pxCommit p = false → p.length = 72 → pxReserved 1 p = true → leAt p 22 1 = 1 → zeroAt p 23 1 = true → zeroAt p 48 24 = true →
        refReserved p 24 = true → Begins s r (.pipe n :: refObjs r.mbx.val (bulkRef p 24)) → s.dev.blockMapBad p = none → s.dev.refCheck (bulkRef p 24) = none →
        Accepts (.blockMapLoad r) s 0x0701 r (.pipe n :: refObjs r.mbx.val (bulkRef p 24)) [] fun d =>
          d = (s.dev.takeReq 0x0701 r).fetch r.mbx.val (bulkRef p 24))
      ∧ (p.length = 56 → pxReserved 5 p = true → bits (leAt p 16 1) 3 5 = 0 → zeroAt p 42 2 = true → zeroAt p 52 4 = true →
        s.dev.brimBad p = none →
        let set := fun (d : Dev) => (let v := d.liveView b
          v.brLeft n = bit (leAt p 16 1) 0 ∧ v.brRight n = bit (leAt p 16 1) 1 ∧ v.brDark n = bit (leAt p 16 1) 2
          ∧ v.brPlane n = leAt p 17 1 ∧ v.brStep n = leAt p 18 1 ∧ v.brShift n = leAt p 19 1 ∧ v.brLost n = leAt p 34 2
          ∧ v.fld (Reg.brThresh n b) 0 24 = leAt p 20 4 ∧ v.fld (Reg.brLband n b) 0 16 = leAt p 24 2
          ∧ v.fld (Reg.brLband n b) 16 16 = leAt p 26 2 ∧ v.fld (Reg.brRband n b) 0 16 = leAt p 28 2
          ∧ v.fld (Reg.brRband n b) 16 16 = leAt p 30 2 ∧ v.fld (Reg.brGate n b) 0 16 = leAt p 32 2)
        (leAt p 1 1 = 0 → Does (.brimConfig r) s 0x0703 r [] fun d => set d
          ∧ (s.dev.takeReq 0x0703 r).onlyRegs d [Reg.brCfg n b, Reg.brThresh n b, Reg.brLband n b, Reg.brRband n b, Reg.brGate n b])
        ∧ (leAt p 1 1 = 5 → s.dev.lineStarted = true → s.dev.targetLate (pxTarget p) = false → s.dev.commitOk n = true →
          Does (.brimConfig r) s 0x0703 r [] fun d => set d ∧ d.flag (Reg.ppStat n) 30 = true
            ∧ d.ful.cropPending = s.dev.ful.cropPending ++ [(s.dev.swapTarget (pxTarget p), p)] ∧ d.ful.batts = s.dev.ful.batts
            ∧ (s.dev.takeReq 0x0703 r).regsKept d [Reg.brCfg n b, Reg.brThresh n b, Reg.brLband n b, Reg.brRband n b, Reg.brGate n b,
                Reg.ppStat n, Reg.ppSwapBatt n, Reg.ppSwapBatt n + 4])))
    ∧ (∀ (r : Req) (w nm a z : Nat), Begins s r [.fulConfig] → w = leAt r.payload 0 4 → nm = leAt r.payload 4 4 →
      a = leAt r.payload 8 4 → z = leAt r.payload 12 4 → r.payload.length = 16 → 64 ≤ w → w ≤ 1048576 → w % 64 = 0 → 1 ≤ nm →
      nm ≤ 1048575 → a % 64 = 0 → (z + 1) % 64 = 0 → a ≤ z → z < w → s.dev.lineStarted = false → s.dev.stiffActive = false →
      (∀ n, n < 16 → s.dev.portState n ≠ 0 → ∀ b, b < 2 → let v := s.dev.liveView b
        a ≤ v.col0 n + 256 ∧ v.col0 n + v.ncol n ≤ z + 1 + 256 ∧ v.col0 n + v.ncol n ≤ w) →
      ¬ (s.dev.rdN Reg.gridW = w ∧ s.dev.rdN Reg.gridPitch = nm ∧ s.dev.rdN Reg.devFirst = a ∧ s.dev.rdN Reg.devLast = z) →
      Does (.stripGridSet r) s 0x0702 r [] fun d =>
        d.rdN Reg.gridW = w ∧ d.rdN Reg.gridPitch = nm ∧ d.rdN Reg.devFirst = a ∧ d.rdN Reg.devLast = z
        ∧ (s.dev.takeReq 0x0702 r).onlyRegs d [Reg.gridW, Reg.gridPitch, Reg.devFirst, Reg.devLast])
    ∧ (∀ (r : Req) (k : Nat), Begins s r [] → k = leAt r.payload 0 1 → r.payload.length = 4 → zeroAt r.payload 1 3 = true → 1 ≤ k → k ≤ 16 →
      Does (.brimRead r) s 0x0704 r (le 1 (min k s.dev.ful.edges.length) ++ zeros 7 ++ (s.dev.ful.edges.take k).flatten)
        fun d => d = s.dev.takeReq 0x0704 r)

/-- BLOCK_ROW (R253 to R258, R261 to R263): the next blocked row waits for the carded rows it needs; every column is formed by the
first case that applies, from its rows, taps and kernel, or the row is missing with the cause of the lowest column without one; an
identity bank copies its head's columns; a present row moves the filter of each searched side, a missing row does not. -/
def Obligations.BlockedRows : Prop :=
  ∀ (s : State) (head : Fin 16) (n r : Nat) (c : Card) (v : View), s.alive → n = head.val → s.dev.stageOn (48 + n) = true → (s.dev.pipe n).cards = [c] →
    r = c.blkNext → v = s.dev.viewOf n (c.battOf r) → c.inLine r = true → (∀ x ∈ c.blocked, x.r ≠ r) →
    let lo := (v.skews n).1
    let hi := (v.skews n).2
    ((∃ j : Nat, lo + j ≤ hi ∧ c.source false (r + lo + j) = none) → Becomes (.blockRow head) s fun t => t = s.dev)
    ∧ (∀ np : Nat, (∀ j : Nat, lo + j ≤ hi → c.source false (r + lo + j) ≠ none) → 0 < v.ncol n →
      (∀ u, u < v.ncol n → lo * 16 ≤ (v.mapEntry n u).2.1 ∧ (v.mapEntry n u).2.1 ≤ hi * 16) →
      (∀ x ∈ c.carded, x.status % 16 = 0 → x.planes.length = np) → (v.mapped n = true → v.anchor n < v.ncol n) →
      let row := fun (k : Int) => (c.source false k).getD default
      let skew := fun (u : Nat) => (v.mapEntry n u).2.1
      let a := fun (u : Nat) => row (r + skew u / 16)
      let b := fun (u : Nat) => if skew u % 16 = 0 then a u else row (r + skew u / 16 + 1)
      let ref := fun (u : Nat) => if skew u % 16 < 8 then a u else b u
      let anchorRow : Int := let k := skew (if v.mapped n then v.anchor n else 0)
        r + k / 16 + (if k % 16 < 8 then 0 else 1)
      let id := if 0 ≤ anchorRow ∧ (c.cardedRow anchorRow.toNat).isSome then (row anchorRow).expid else s.dev.expidOf n (c.battOf r)
      let usable := fun (x : Row) => x.status % 16 == 0 && x.expid == id
      let caseOf := fun (u : Nat) => if usable (a u) && usable (b u) then 1 else if usable (ref u) then 2
        else if (ref u).status % 16 = 0 then 3 else 4
      let any := fun (k : Nat) => (List.range (v.ncol n)).any fun u => caseOf u == k
      Becomes (.blockRow head) s fun t => ∃ (x : Row) (c' : Card),
        (t.pipe n).cards = [c'] ∧ c' = { c with blocked := c.blocked ++ [x], blkNext := c'.blkNext } ∧ r < c'.blkNext ∧ x.r = r ∧ x.expid = id
        ∧ (∀ u, u < v.ncol n → caseOf u = 4 → (∀ w, w < u → caseOf w ≠ 4) → x.status = (ref u).status ∧ x.planes = [])
        ∧ (any 4 = false → x.status % 16 = 0 ∧ x.planes.length = np ∧ (any 2 = true → bit x.status 11 = true) ∧ (any 3 = true → bit x.status 8 = true)
            ∧ ∀ q u, q < np → u < v.ncol n →
              let fst := if caseOf u = 1 then a u else ref u
              let snd := if caseOf u = 1 then b u else ref u
              let g := if caseOf u = 1 then (skew u % 16).toNat else 0
              let i := (v.mapEntry n u).1 / 4096
              if v.mapped n then
                let tap := fun (t : Nat) =>
                  let col := (clampI 0 ((s.dev.width n : Int) - 1) ((i : Int) + t - 1)).toNat
                  if g = 0 then fst.pix q col
                  else (((fst.pix q col).1 * (16 - g) + (snd.pix q col).1 * g + 8) / 16, (fst.pix q col).2 || (snd.pix q col).2)
                let k := fun (t : Nat) => v.blockKernel n (v.mapEntry n u).2.2 ((v.mapEntry n u).1 % 4096 / 64) t
                let y : Int := (k 0 * (tap 0).1 + k 1 * (tap 1).1 + k 2 * (tap 2).1 + k 3 * (tap 3).1 + 512) / 1024
                x.pix q u = (if y < 0 then 0 else if 0xFFFFFF < y then 0xFFFFFF else y.toNat,
                  decide (0xFFFFFF < y) || (List.range 4).any fun t => k t != 0 && (tap t).2)
              else x.pix q u = fst.pix q u)
        ∧ t.fld (Reg.bkFbkCnt n) 0 32 = satAdd 32 (s.dev.fld (Reg.bkFbkCnt n) 0 32) (b2n (!any 4 && any 2))
        ∧ t.fld (Reg.bkXexpCnt n) 0 32 = satAdd 32 (s.dev.fld (Reg.bkXexpCnt n) 0 32) (b2n (!any 4 && any 3))
        ∧ (∀ m, m < 16 → m ≠ n → t.pipe m = s.dev.pipe m)
        ∧ (v.brLeft n = false → v.brRight n = false → (t.pipe n).brims = (s.dev.pipe n).brims
            ∧ s.dev.regsKept t [Reg.bkFbkCnt n, Reg.bkXexpCnt n, Reg.napCnt n] ∧ t = { s.dev with regs := t.regs, pipes := t.pipes })
        ∧ (∀ right : Bool, v.searches n right.toNat = true →
            let f := (s.dev.pipe n).brims.getD right.toNat {}
            let f' := (t.pipe n).brims.getD right.toNat {}
            let gate := v.fld (Reg.brGate n v.bank) 0 16
            let val := fun (u : Nat) => ((x.pix (v.brPlane n) u).1 : Int)
            let beside := fun (u : Nat) => if right then u + v.brStep n else u - v.brStep n
            let grad := fun (u : Nat) => if v.brDark n then val (beside u) - val u else val u - val (beside u)
            let band := if right then Reg.brRband n v.bank else Reg.brLband n v.bank
            let edge := fun (u : Nat) => v.fld band 0 16 ≤ u ∧ u ≤ v.fld band 16 16
              ∧ (v.fld (Reg.brThresh n v.bank) 0 24 : Int) ≤ grad u
            (x.status % 16 ≠ 0 → f' = f)
            ∧ (x.status % 16 = 0 → (∀ u, ¬ edge u) → f' =
                if f.valid = true ∧ v.brLost n ≤ f.miss + 1 then { f with valid := false, miss := 0 } else { f with miss := f.miss + 1 })
            ∧ (∀ u, x.status % 16 = 0 → edge u → (∀ w, edge w → if right then w ≤ u else u ≤ w) →
                let e : Int := 256 * (v.col0 n + u)
                (f.valid = false → f'.valid = true ∧ (f'.s : Int) = e ∧ f'.miss = 0)
                ∧ (f.valid = true → (gate = 0 ∨ (e - f.s).natAbs ≤ 256 * gate) →
                    f'.valid = true ∧ f'.s = ((f.s : Int) + (e - f.s) / (2 ^ v.brShift n : Nat)).toNat ∧ f'.miss = 0)
                ∧ (f.valid = true → 0 < gate → 256 * gate < (e - f.s).natAbs → f'.s = f.s
                    ∧ f'.valid = decide (f.miss + 1 < v.brLost n)))))

/-- NAP_CONFIG (R274, R277, R279), STATS_CONFIG (R282, R283) and STATS_READ (R285, R286) of the inactive bank and of the kept
statistics; EXPOSURE_SET (R150, R152, R288, R289) gives every head it names its change in one cycle and no other head any;
EXPOSURE_AUTO (R291, R292) turns a loop group on from the setting in force at its lowest head, or off. -/
def Obligations.NapAndExposureCommands : Prop :=
  ∀ (s : State) (r : Req), let p := r.payload
    (∀ n b : Nat, Begins s r [.pipe n] → n = pxHead p → n ≤ 15 → b = s.dev.inactive n → s.dev.flag Reg.fltUrec n = false →
      s.dev.stiffActive = false → s.dev.bankBusy n = false → pxCommit p = false → pxReserved 1 p = true →
      (p.length = 272 → zeroAt p 17 3 = true → zeroAt p 70 2 = true → (∀ m, m < 4 → zeroAt p (84 + 16 * m) 4 = true) →
        leAt p 16 1 ≤ 3 → (∀ m, m < 4 → leAt p (72 + 16 * m) 2 < 2 ^ 12 ∧ leAt p (74 + 16 * m) 2 < 2 ^ 12 ∧ leAt p (76 + 16 * m) 2 < 2 ^ 12
          ∧ leAt p (82 + 16 * m) 2 < 2 ^ 12 ∧ bit (leAt p (82 + 16 * m) 2) 5 = false) →
        Does (.napConfig r) s 0x0801 r [] fun d =>
          (s.dev.takeReq 0x0801 r).onlyRegs d ([Reg.napCfg n b, Reg.napK12 n b] ++ (List.range 12).map (Reg.napK n b)
            ++ (List.range 4).flatMap (fun m => [Reg.napThrW0 n b m, Reg.napThrW1 n b m, Reg.napThrW2 n b m])
            ++ (List.range 34).map (Reg.napClass n b))
          ∧ (let v := d.liveView b
             v.scorePlane n = leAt p 16 1 ∧ v.hmode n = (s.dev.liveView b).hmode n ∧ v.hshift n = (s.dev.liveView b).hshift n
             ∧ v.hpub n = (s.dev.liveView b).hpub n
             ∧ (∀ dy dx, dy < 5 → dx < 5 → v.napK n (dy * 5 + dx) = signed 16 (leAt p (20 + 2 * (dy * 5 + dx)) 2))
             ∧ (∀ m, m < 4 → v.thresholds n m = ⟨leAt p (72 + 16 * m) 2, leAt p (74 + 16 * m) 2, leAt p (76 + 16 * m) 2,
                 leAt p (78 + 16 * m) 2, leAt p (80 + 16 * m) 2, leAt p (82 + 16 * m) 2⟩)
             ∧ ∀ t, v.tileClass n t = if t < 544 then bits (byteAt p (136 + t / 4)) (2 * (t % 4)) 2 else 0))
      ∧ (p.length = 28 → bits (leAt p 18 1) 1 7 = 0 → zeroAt p 19 1 = true → leAt p 16 1 ≤ 1 →
        leAt p 17 1 ≤ (if leAt p 16 1 = 0 then 16 else 8) → leAt p 20 4 ≤ leAt p 24 4 → leAt p 24 4 < 2 ^ 20 →
        Does (.statsConfig r) s 0x0802 r [] fun d =>
          (s.dev.takeReq 0x0802 r).onlyRegs d [Reg.napCfg n b, Reg.napHfirst n b, Reg.napHlast n b]
          ∧ (let v := d.liveView b
             v.scorePlane n = (s.dev.liveView b).scorePlane n ∧ v.hmode n = leAt p 16 1 ∧ v.hshift n = leAt p 17 1
             ∧ v.hpub n = bit (leAt p 18 1) 0 ∧ v.fld (Reg.napHfirst n b) 0 20 = leAt p 20 4 ∧ v.fld (Reg.napHlast n b) 0 20 = leAt p 24 4)))
    ∧ (∀ (n plane : Nat) (x : Stat), Begins s r [] → n = leAt p 0 1 → plane = leAt p 1 1 → p.length = 16 → zeroAt p 2 6 = true → n ≤ 15 →
      s.dev.flag Reg.fltUrec n = false → (leAt p 8 8 = noBatt ∨ leAt p 8 8 < 2 ^ 48) →
      (if leAt p 8 8 = noBatt then (s.dev.pipe n).kept.head? else (s.dev.pipe n).kept.find? fun y => y.batt == leAt p 8 8) = some x →
      (plane = 0xFF ∨ (plane < 4 ∧ plane < x.bins.length)) →
      Does (.statsRead r) s 0x0805 r
        (le 8 x.batt ++ le 1 n ++ le 1 x.expid ++ le 1 ((if x.excl = 0 ∧ 0 < x.npix then 1 else 0) + 2 * x.hmode) ++ le 1 x.hshift
          ++ le 1 x.bins.length ++ zeros 3 ++ le 4 x.npix ++ le 4 x.excl ++ zeros 8
          ++ if plane = 0xFF then [] else (x.bins.getD plane []).flatMap (le 4))
        fun d => d = s.dev.takeReq 0x0805 r)
    ∧ (∀ (es : List ExpEntry) (t : Nat), Begins s r [.exposure] → es = expEntries p → p.length = 16 + 16 * leAt p 8 1 → 1 ≤ leAt p 8 1 →
      leAt p 8 1 ≤ 64 → zeroAt p 9 7 = true → (∀ e, e < leAt p 8 1 → zeroAt p (19 + 16 * e) 1 = true ∧ zeroAt p (28 + 16 * e) 4 = true) →
      s.dev.isFollower = false → s.dev.isLead = false →
      (∀ e ∈ es, e.dev = s.dev.position ∧ e.dev < s.dev.groupSize ∧ e.head ≤ 15 ∧ 1 ≤ e.setting.expid ∧ e.setting.expid ≤ 0x7F
        ∧ e.setting.time < 2 ^ 24 ∧ e.setting.expid ≠ (s.dev.gen e.head).setting.expid
        ∧ (∀ c ∈ (s.dev.gen e.head).pending, c.setting.expid ≠ e.setting.expid) ∧ s.dev.groupOfHead e.head = none
        ∧ s.dev.portState e.head ≠ 0 ∧ s.dev.mode e.head ≠ 0 ∧ s.dev.flag Reg.fltUrec e.head = false
        ∧ (((s.dev.gen e.head).pending.any fun c => c.target == t) = true ∨ (s.dev.gen e.head).pending.length < 4)) →
      (es.map (·.head)).Nodup →
      (if s.dev.lineStarted then (leAt p 0 8 < 2 ^ 48 ∧ t = leAt p 0 8 ∨ leAt p 0 8 = noBatt ∧ t = s.dev.lowestInTime) ∧ s.dev.tooLate t = false
        else leAt p 0 8 = noBatt ∧ t = noBatt) →
      Does (.exposureSet r) s 0x0803 r (le 8 t ++ sle 8 s.dev.spos) fun d =>
        d.pos.nextCmd = s.dev.pos.nextCmd + 1
        ∧ (∀ k, (∀ e ∈ es, e.head ≠ k) → d.gen k = s.dev.gen k)
        ∧ (∀ e ∈ es,
            let g := s.dev.gen e.head
            let g' := d.gen e.head
            g' = { g with pending := g'.pending, committed := g'.committed }
            ∧ g'.pending.filter (fun c => c.target == t) = [⟨t, e.setting, s.dev.pos.nextCmd⟩]
            ∧ g'.pending.filter (fun c => c.target != t) = g.pending.filter (fun c => c.target != t)
            ∧ g'.committed = (g.committed.filter fun c => c.1 != t) ++ [(t, e.setting.expid)]
            ∧ d.rdN (Reg.expTime e.head) = g.setting.time % 2 ^ 32
            ∧ d.rd64 (Reg.expTarget e.head) = (g'.pending.getLast?.elim noBatt (·.target)) % 2 ^ 48)
        ∧ s.dev.memKept d ∧ d.ports = s.dev.ports ∧ d.pipes = s.dev.pipes ∧ d.ful = s.dev.ful ∧ d.plc = s.dev.plc)
    ∧ (∀ g : Nat, Begins s r [.exposure] → g = leAt p 0 1 → g ≤ 7 → p.length = 68 → zeroAt p 34 2 = true →
      let l := s.dev.ful.loops.getD g {}
      let heads := maskList 16 (leAt p 4 2)
      (leAt p 1 1 = 0 → zeroAt p 2 66 = true → l.on = true → Does (.exposureAuto r) s 0x0804 r (zeros 4) fun d =>
        d = { s.dev.takeReq 0x0804 r with ful := { s.dev.ful with loops := modAt s.dev.ful.loops g fun _ => { l with on := false } } })
      ∧ (leAt p 1 1 = 1 → s.dev.autoBad p = false → (∀ k ∈ heads, s.dev.portState k ≠ 0 ∧ s.dev.mode k ≠ 0 ∧ s.dev.flag Reg.fltUrec k = false) →
        s.dev.lineStarted = true →
        let st := (s.dev.gen (heads.headD 0)).setting
        let offMax := (maxOf (heads.map s.dev.offset256)).getD 0
        let lead := 1 + ceilDiv (offMax - s.dev.minOffset.getD 0 + 256 * leAt p 28 4) (max 1 s.dev.battLen256)
        Does (.exposureAuto r) s 0x0804 r (le 2 (lead % 2 ^ 16) ++ zeros 2) fun d => ∃ l' : Loop,
          d = { s.dev.takeReq 0x0804 r with ful := { s.dev.ful with loops := modAt s.dev.ful.loops g fun _ => l' } }
          ∧ l'.on = true ∧ l'.params = p ∧ l'.lead = lead ∧ l'.lastId = st.expid ∧ l'.decided = false ∧ l'.skipped = 0 ∧ l'.nextId = l.nextId
          ∧ l'.width = st.width ∧ l'.x = st.time * max 1 (leAt p (38 + 4 * l'.gain) 2) / 256
          ∧ (∀ i, i < leAt p 33 1 → leAt p (36 + 4 * i) 2 = st.gain → (∀ k, k < i → leAt p (36 + 4 * k) 2 ≠ st.gain) → l'.gain = i)
          ∧ ((∀ i, i < leAt p 33 1 → leAt p (36 + 4 * i) 2 ≠ st.gain) → l'.gain = 0)))

/-- NAP_TILE_ROW (R270 to R280): the next tile row of a head is scored once its rows, and the two below it that its filter reads
(notes/assumptions/49.md), are formed; every record has its key, place, count, flags, class and scores. LOOP_DECISION (R293 to R295):
a batt without confirmed statistics of the group's last identifier is skipped; from one that has them, with a Milliner pair running, the exposure product is scaled by
the factor of R294, and every head of the group gets the change for batt B + L. -/
def Obligations.TileRowsAndLoopDecisions : Prop :=
  ∀ (s : State), s.alive →
    (∀ (head : Fin 16) (n b trow r0 : Nat) (c : Card) (v : View), n = head.val → s.dev.stageOn (64 + n) = true → (s.dev.pipe n).cards = [c] → 0 < c.tileRows →
      b = c.grid.first + c.napNext / c.tileRows → trow = c.napNext % c.tileRows → v = s.dev.viewOf n b → r0 = c.first b + 64 * trow →
      c.inLine r0 = true → (∀ x ∈ c.blocked, ∀ pl ∈ x.planes, ∀ y ∈ pl, y < 2 ^ 24) → (∀ x ∈ c.tiles, ¬ (x.batt = b ∧ x.trow = trow)) →
      ((∃ j, j < 66 ∧ 64 * trow + j < c.height ∧ ∀ x ∈ c.blocked, x.r ≠ r0 + j) → Becomes (.napTileRow head) s fun t => t = s.dev)
      ∧ ((∀ j, j < 66 → 64 * trow + j < c.height → ∃ x ∈ c.blocked, x.r = r0 + j) →
        Becomes (.napTileRow head) s fun t => ∃ (recs : List Bytes) (c' : Card),
          (t.pipe n).cards = [c'] ∧ c' = { c with tiles := c.tiles ++ [⟨b, trow, recs⟩], napNext := c'.napNext } ∧ c.napNext < c'.napNext
          ∧ (∀ m, m ≠ n → t.pipe m = s.dev.pipe m) ∧ t = { s.dev with regs := t.regs, pipes := t.pipes }
          ∧ s.dev.regsKept t [Reg.napTiles n, Reg.napCnt n] ∧ recs.length = (s.dev.tileCols v n).2
          ∧ t.rdN (Reg.napTiles n) = (s.dev.rdN (Reg.napTiles n) + recs.length) % 2 ^ 32
          ∧ t.fld (Reg.napCnt n) 16 16 = satAdd 16 (s.dev.fld (Reg.napCnt n) 16 16) (recs.countP fun x => bit (leAt x 12 2) 15)
          ∧ t.fld (Reg.napCnt n) 0 16 = s.dev.fld (Reg.napCnt n) 0 16
          ∧ ∀ j, j < recs.length →
            let rec' := recs.getD j []
            let tc := (s.dev.tileCols v n).1 + j
            let fl := leAt rec' 12 2
            let w := leAt rec' 16 16
            let mean := fun (q : Nat) => bits w (24 * q) 12
            let spread := fun (q : Nat) => bits w (24 * q + 12) 12
            let us := (List.range (v.ncol n)).filter fun u => (v.col0 n + u) / 64 == tc
            let rows := (List.range 64).filterMap fun i => c.usable b ((r0 + i : Nat) : Int)
            let cnt := us.length * rows.length
            let px := fun (q : Nat) => rows.flatMap fun x => us.map fun u => x.pix q u
            let s1 := fun (q : Nat) => sumN ((px q).map (·.1))
            let s2 := fun (q : Nat) => sumN ((px q).map fun y => y.1 * y.1)
            let sp := v.scorePlane n
            let cls := v.tileClass n (tc - v.col0 n / 64)
            let th := v.thresholds n cls
            let id := s.dev.expidOf n b
            rec'.length = 32 ∧ rec'.take 8 = le 8 (b + id * 2 ^ 48 + n * 2 ^ 56) ∧ (rec'.drop 8).take 4 = le 4 (trow * 2 ^ 16 + tc)
            ∧ leAt rec' 14 2 = cnt
            ∧ (cnt = 0 → w = 0 ∧ bits fl 0 5 = 0)
            ∧ (0 < cnt → ∀ q, q < 4 → q < v.nplanes n → mean q = (pf12 (s1 q) cnt).1
                ∧ ∀ k, k * k ≤ cnt * s2 q - s1 q * s1 q → cnt * s2 q - s1 q * s1 q < (k + 1) * (k + 1) → spread q = (pf12 k cnt).1)
            ∧ (∀ q, q < 4 → v.nplanes n ≤ q → mean q = 0 ∧ spread q = 0)
            ∧ (sp < v.nplanes n → 0 < cnt →
                let val := fun (x : Row) (u : Nat) => (x.pix sp u).1
                let hs := rows.flatMap fun x => (us.filter fun u => us.contains (u + 1)).map fun u => ((val x (u + 1) : Int) - val x u).natAbs
                let vs := rows.flatMap fun x => match rows.find? fun y => y.r == x.r + 1 with
                  | some y => us.map fun u => ((val y u : Int) - val x u).natAbs
                  | none => []
                let line := fun (x : Row) (dy : Int) => (c.usable b (x.r + dy)).getD ((c.usable b (x.r - dy)).getD x)
                let col := fun (u : Nat) (dx : Int) => if 0 ≤ (u : Int) + dx ∧ (u : Int) + dx < v.ncol n then ((u : Int) + dx).toNat
                  else if 0 ≤ (u : Int) - dx ∧ (u : Int) - dx < v.ncol n then ((u : Int) - dx).toNat else u
                let y := fun (x : Row) (u : Nat) => ((((List.range 25).map fun i => v.napK n i
                    * (val (line x ((i / 5 : Nat) - 2)) (col u ((i % 5 : Nat) - 2)) : Int)).foldl (· + ·) 0 + 512) / 1024).natAbs
                (hs.length + vs.length = 0 → bits w 96 16 = 0)
                ∧ (0 < hs.length + vs.length → bits w 96 16 = (pf16 (sumN hs + sumN vs : Nat) (hs.length + vs.length)).1)
                ∧ bits w 112 16 = (pf16 ((rows.flatMap fun x => us.map fun u => y x u).foldl max 0 : Nat) 1).1)
            ∧ bits fl 12 2 = cls ∧ bit fl 14 = false ∧ bit fl 5 = false
            ∧ bit fl 0 = (decide (0 < cnt) && decide (mean sp < th.meanLo)) ∧ bit fl 1 = (decide (0 < cnt) && decide (th.meanHi < mean sp))
            ∧ bit fl 2 = (decide (0 < cnt) && decide (th.spreadHi < spread sp))
            ∧ bit fl 3 = (decide (0 < cnt) && decide (th.edgeHi < bits w 96 16)) ∧ bit fl 4 = (decide (0 < cnt) && decide (th.fmaxHi < bits w 112 16))
            ∧ ((∃ q, q < v.nplanes n ∧ ∃ y ∈ px q, y.2 = true) → bit fl 6 = true)
            ∧ bit fl 7 = (decide (0 < cnt) && rows.any fun x => bit x.status 10)
            ∧ bit fl 8 = (decide (0 < cnt) && rows.any fun x => bit x.status 8 || x.expid != id)
            ∧ bit fl 9 = (decide (0 < cnt) && rows.any fun x => bit x.status 9)
            ∧ bit fl 10 = decide (0 < cnt ∧ cnt < 4096) ∧ bit fl 11 = decide (cnt = 0)
            ∧ bit fl 15 = (bit fl 7 || (bits fl 0 12 &&& th.mask) != 0)))
    ∧ (∀ (group : Fin 8) (l : Loop) (b : Nat), l = s.dev.ful.loops.getD group.val {} → l.on = true → s.dev.safe = false → s.dev.pair1Off = false →
      minOf ((s.dev.ful.batts.filter fun x => x.recalled.isNone && x.state != .opened && decide (l.seen ≤ x.num)).map (·.num)) = some b →
      let p := l.params
      let heads := maskList 16 (leAt p 4 2)
      let block := fun (k : Nat) => (s.dev.pipe k).kept.find? fun x => x.batt == b
      let good := ∀ k ∈ heads, ∃ x, block k = some x ∧ x.excl = 0 ∧ 0 < x.npix ∧ x.expid = l.lastId
      let skipped := s.dev.modLoop group.val fun l => { l with seen := b + 1, skipped := l.skipped + 1 }
      let kept := s.dev.modLoop group.val fun l => { l with seen := b + 1 }
      ((¬ good ∨ (l.decided = true ∧ b < l.lastTarget)) → Becomes (.loopDecision group) s fun t => t = skipped)
      ∧ (good → (l.decided = true → l.lastTarget ≤ b) → heads ≠ [] → 0 < leAt p 16 2 →
        let bin := fun (j : Nat) => sumN (heads.map fun k => (((block k).getD default).bins.getD (leAt p 2 1) []).getD j 0)
        let total := sumN ((List.range 256).map bin)
        let below := fun (j : Nat) => sumN ((List.range j).map bin)
        (total = 0 → Becomes (.loopDecision group) s fun t => t = skipped)
        ∧ (∀ j, 0 < total → j < 256 → total * leAt p 6 2 ≤ below (j + 1) * 1024 → (∀ i, i < j → below (i + 1) * 1024 < total * leAt p 6 2) →
          let x0 := (block (heads.headD 0)).getD default
          let rep := max 1 (if x0.hmode = 0 then j * 2 ^ x0.hshift + 2 ^ x0.hshift / 2
            else if j < 16 then (16 * j + 8) * 2 ^ x0.hshift else (256 + 16 * (j % 16) + 8) * 2 ^ (j / 16 - 1) * 2 ^ x0.hshift)
          let q0 := min (max (leAt p 8 4 * 65536 / rep) (65536 * 256 / leAt p 16 2)) (65536 * leAt p 16 2 / 256)
          let q1 : Int := if ((q0 : Int) - 65536).natAbs ≤ leAt p 12 4 then 65536 else q0
          let q2 : Nat := (65536 + (q1 - 65536) / (2 ^ leAt p 3 1 : Nat)).toNat
          let q := if leAt p 18 2 * total < bin 255 * 1024 then min q2 49152 else q2
          (q = 65536 → Becomes (.loopDecision group) s fun t => t = kept)
          ∧ (q ≠ 65536 → s.dev.lineStarted = true → s.dev.isFollower = false → s.dev.isLead = false → s.dev.tooLate (b + l.lead) = false →
            (∀ k ∈ heads, s.dev.fifth k (b + l.lead) = false) → ∀ gi : Nat,
            let x2 := l.x * q / 65536
            (gi < leAt p 33 1 ∧ x2 * 256 / l.factor gi ≤ leAt p 24 4 ∧ (∀ i, i < gi → leAt p 24 4 < x2 * 256 / l.factor i)
              ∨ gi = leAt p 33 1 - 1 ∧ ∀ i, i < leAt p 33 1 → leAt p 24 4 < x2 * 256 / l.factor i) →
            let time := min (max (x2 * 256 / l.factor gi) (leAt p 20 4)) (leAt p 24 4)
            let width := if leAt p 32 1 = 1 then min 65535 (time * 25 / 2) else l.width
            let st : Setting := ⟨time, l.gainCode gi, width, l.nextId⟩
            Becomes (.loopDecision group) s fun t =>
              t.ful = { s.dev.ful with loops := modAt s.dev.ful.loops group.val fun l => { l with
                seen := b + 1, x := time * l.factor gi / 256, gain := gi, width := width, lastId := l.nextId, lastTarget := b + l.lead,
                decided := true, nextId := if l.nextId = 0xFF then 0x80 else l.nextId + 1 } }
              ∧ (∀ k ∈ heads, (t.gen k).pending.filter (fun c => c.target == b + l.lead) = [⟨b + l.lead, st, s.dev.pos.nextCmd⟩]
                  ∧ (t.gen k).pending.filter (fun c => c.target != b + l.lead) = (s.dev.gen k).pending.filter (fun c => c.target != b + l.lead)
                  ∧ (t.gen k).setting = (s.dev.gen k).setting)
              ∧ (∀ k, k < 16 → k ∉ heads → t.gen k = s.dev.gen k)))))

/-- The fulling commands (R301, R302, R308, R317, R321, R322, R326): SEAM_SET, LADDER_SET and OUTPUT_FORMAT write the inactive bank;
COMMIT makes it active with the line not started and is pending otherwise; BUDGET_SET returns the previous values; LADDER_STATUS
reports the last decision and clears nothing; after the copy both banks hold the same; a seam wait expires only for a closed,
undecided batt whose neighbour close is missing (R305). -/
def Obligations.FullingCommands : Prop :=
  ∀ (s : State),
    (∀ (r : Req) (b : Nat), Begins s r [.fulConfig] → b = 1 - s.dev.fulActive → s.dev.stiffActive = false → s.dev.fulBusy = false →
      fxReserved r.payload = true →
      let p := r.payload
      (fxCommit p = false →
        (∀ seam w : Nat, seam = leAt p 16 1 → w = leAt p 24 2 → p.length = 28 + 2 * w → zeroAt p 26 2 = true → s.dev.seamBad p = false →
          (leAt p 17 1 = 1 → Does (.seamSet r) s 0x0901 r [] fun d =>
            (d.liveView b).seam? seam = some ⟨seam, leAt p 18 1, leAt p 19 1, leAt p 20 4, w⟩
            ∧ (∀ i, i < w → (d.liveView b).ramp ⟨seam, leAt p 18 1, leAt p 19 1, leAt p 20 4, w⟩ i = leAt p (28 + 2 * i) 2)
            ∧ (∀ a, ¬ (rampAddr b seam ≤ a ∧ a < rampAddr b seam + 512) → d.deepRd a = s.dev.deepRd a)
            ∧ (s.dev.takeReq 0x0901 r).regsKept d [Reg.seamCfg b seam, Reg.seamCol b seam]
            ∧ d = { s.dev.takeReq 0x0901 r with regs := d.regs, deep := d.deep })
          ∧ (leAt p 17 1 = 0 → Does (.seamSet r) s 0x0901 r [] fun d =>
            (d.liveView b).seam? seam = none ∧ (s.dev.takeReq 0x0901 r).onlyRegs d [Reg.seamCfg b seam, Reg.seamCol b seam]))
        ∧ (∀ n : Nat, n = leAt p 16 1 → p.length = 52 → leAt p 17 1 < 2 → zeroAt p 18 2 = true → 1 ≤ n → n ≤ 8 →
          (∀ i, i < 8 → if i < n then rungBad i n (s.dev.liveView b).outPlanes (leAt p (20 + 4 * i) 4) = false else leAt p (20 + 4 * i) 4 = 0) →
          (s.dev.flag Reg.budgetCfg 31 = true → s.dev.fld Reg.budgetCfg 24 3 < n) →
          Does (.ladderSet r) s 0x0902 r [] fun d =>
            (s.dev.takeReq 0x0902 r).onlyRegs d (Reg.outCfg b :: (List.range 8).map (Reg.rung b))
            ∧ (let v := d.liveView b
               v.rungs = n ∧ v.allowFlagged = bit (leAt p 17 1) 0 ∧ v.outPlanes = (s.dev.liveView b).outPlanes
               ∧ ∀ i, i < 8 → v.rungWord i = leAt p (20 + 4 * i) 4))
        ∧ (∀ n : Nat, n = leAt p 16 1 → p.length = 52 → zeroAt p 17 3 = true → 1 ≤ n → n ≤ 4 →
          (∀ f j, f < 4 → j < 4 → leAt p (20 + 4 * f + j) 1 ≤ if f = 0 then 16 else 8) → (∀ j, j < 4 → leAt p (36 + 4 * j) 4 < 2 ^ 24) →
          (∀ i, i < (s.dev.liveView b).rungs → bits ((s.dev.liveView b).rungWord i) (2 * n) (8 - 2 * n) = 0) →
          Does (.outputFormat r) s 0x0903 r [] fun d =>
            (s.dev.takeReq 0x0903 r).onlyRegs d (Reg.outCfg b :: (List.range 4).map (Reg.outShift b) ++ (List.range 4).map (Reg.outFill b))
            ∧ (let v := d.liveView b
               v.outPlanes = n ∧ v.rungs = (s.dev.liveView b).rungs ∧ v.allowFlagged = (s.dev.liveView b).allowFlagged
               ∧ (∀ f j, f < 4 → j < 4 → v.shiftOf f j = leAt p (20 + 4 * f + j) 1) ∧ ∀ j, j < 4 → v.fill j = leAt p (36 + 4 * j) 4)))
      ∧ (fxCommit p = true → s.dev.fulLate (fxTarget p) = false → p.length = 52 → leAt p 17 1 < 2 → zeroAt p 18 2 = true → leAt p 16 1 = 1 →
        rungBad 0 1 (s.dev.liveView b).outPlanes (leAt p 20 4) = false → zeroAt p 24 28 = true → s.dev.flag Reg.budgetCfg 31 = false →
        Does (.ladderSet r) s 0x0902 r [] fun d =>
          (d.liveView b).rungs = 1 ∧ (d.liveView b).rungWord 0 = leAt p 20 4
          ∧ d.rd64 Reg.fulSwapBatt = (if fxTarget p = noBatt then s.dev.undecided else fxTarget p) % 2 ^ 48
          ∧ if s.dev.lineStarted then d.fulActive = s.dev.fulActive ∧ d.flag Reg.fulBank 30 = true ∧ d.ful = s.dev.ful
            else d.fulActive = b ∧ d.flag Reg.fulBank 30 = false ∧ d.flag Reg.fulBank 29 = true
              ∧ d.ful = { s.dev.ful with cur := 0, cPrev := 1 }))
    ∧ (∀ r : Req, Begins s r [.fulConfig] → let p := r.payload
      (p.length = 12 → zeroAt p 2 2 = true → zeroAt p 10 2 = true → leAt p 0 1 ≤ 1 → (leAt p 0 1 = 0 → leAt p 1 1 = 0) →
        leAt p 1 1 < s.dev.nrungs → leAt p 4 4 ≤ 100000 → leAt p 8 2 ≤ 1000 → p ≠ s.dev.budgetBytes → s.dev.stiffActive = false →
        Does (.budgetSet r) s 0x0904 r (le 1 (b2n (s.dev.flag Reg.budgetCfg 31)) ++ le 1 (s.dev.fld Reg.budgetCfg 24 3) ++ zeros 2
            ++ le 4 (s.dev.fld Reg.budgetCfg 0 17) ++ le 2 (s.dev.fld Reg.seamWait 0 10) ++ zeros 2) fun d =>
          (s.dev.takeReq 0x0904 r).onlyRegs d [Reg.budgetCfg, Reg.seamWait] ∧ d.budgetBytes = p)
      ∧ (p = [] → Does (.ladderStatus r) s 0x0905 r
          (le 1 (s.dev.fld Reg.ladStat 24 3) ++ le 1 (s.dev.fld Reg.ladStat 16 4) ++ le 1 (s.dev.fld Reg.ladStat 8 4)
            ++ le 1 (b2n (s.dev.flag Reg.budgetCfg 31)) ++ zeros 4
            ++ (if s.dev.rd64 Reg.ladBatt % 2 ^ 48 = 2 ^ 48 - 1 then List.replicate 8 0xFF else le 8 (s.dev.rd64 Reg.ladBatt % 2 ^ 48))
            ++ le 8 (s.dev.rd64 Reg.ladBudget) ++ le 4 (s.dev.rdN Reg.ladRate) ++ le 4 (s.dev.rdN Reg.ladRecall)
            ++ le 4 (s.dev.fld Reg.budgetCfg 0 17) ++ zeros 4 ++ ((List.range 8).map fun i => le 8 (s.dev.rd64 (Reg.ladSize i))).flatten
            ++ le 4 (s.dev.rdN Reg.ladCnt) ++ le 4 (s.dev.rdN Reg.ladCapdef) ++ le 4 (s.dev.rdN Reg.ladSeamwait) ++ zeros 4)
          fun d => d = s.dev.takeReq 0x0905 r))
    ∧ (s.alive → s.dev.safe = false →
      (∀ (c : Nat) (u : List Nat), s.dev.flag Reg.fulBank 29 = true → Becomes (.bankCopyDone 16 c u) s fun t =>
        t.fulActive = s.dev.fulActive ∧ t.flag Reg.fulBank 29 = false ∧ t.flag Reg.fulBank 30 = s.dev.flag Reg.fulBank 30
        ∧ (∀ k, k < 88 → t.rd (Reg.seamCfg (1 - s.dev.fulActive) 0 + 4 * k) = s.dev.rd (Reg.seamCfg s.dev.fulActive 0 + 4 * k)
            ∧ t.rd (Reg.seamCfg s.dev.fulActive 0 + 4 * k) = s.dev.rd (Reg.seamCfg s.dev.fulActive 0 + 4 * k))
        ∧ (∀ o, o < 0x2000 → o % 4 = 0 → t.deepRd (rampAddr (1 - s.dev.fulActive) 0 + o) = s.dev.deepRd (rampAddr s.dev.fulActive 0 + o)
            ∧ t.deepRd (rampAddr s.dev.fulActive 0 + o) = s.dev.deepRd (rampAddr s.dev.fulActive 0 + o))
        ∧ t.ful = s.dev.ful ∧ t.pipes = s.dev.pipes ∧ t.bulk = s.dev.bulk)
      ∧ (∀ (batt : Nat) (b : Batt), s.dev.ful.batts.find? (fun b => b.num == batt && b.recalled.isNone) = some b →
        let waits := b.state = .closed ∧ b.decision = none ∧ b.seamExpired = false
          ∧ s.dev.closesIn (s.dev.liveView (s.dev.fulBankFor b.num)) b.num = false
        (waits → Becomes (.seamWaitExpiry batt) s fun t =>
          (∀ x ∈ t.ful.batts, x.num = batt → x.recalled = none → x.seamExpired = true)
          ∧ t.ful.batts.map (fun x => { x with seamExpired := true }) = s.dev.ful.batts.map (fun x => { x with seamExpired := true })
          ∧ t.rdN Reg.ladSeamwait = satAdd 32 (s.dev.rdN Reg.ladSeamwait) 1
          ∧ t = { s.dev with regs := t.regs, ful := t.ful } ∧ s.dev.regsKept t [Reg.ladSeamwait])
        ∧ (¬ waits → Becomes (.seamWaitExpiry batt) s fun t => t = s.dev)))

/-- DECISION_POINT (R318, R320 to R323): S of every rung, the budget, the rung that the ladder chooses and what LAD_STAT shows, the
staging reserved or the batt OVERRUN_DEFERRED. FULLING_START (R298, R303, R304, R307 to R309, R315 to R317): the slice, the index
entries, and the bytes of every tile that is neither binned, coded nor PF12, from the positions of its columns. FULLING_DONE (R319):
the batt is FULLED and its counts are entered. -/
def Obligations.DecisionAndFulling : Prop :=
  ∀ (s : State), s.alive →
    (∀ b : Batt, s.dev.safe = false → s.dev.nextDecision = some b → s.dev.battKey b.key = some b → s.dev.flag Reg.fulBank 30 = false →
      s.dev.ful.cPrev ≤ 8 → (∀ x ∈ s.dev.cnf.retired, x.pending = false) →
      let v := s.dev.fulSnapshot s.dev.fulActive
      let tiles := outTiles (2 ^ b.grid.hlog) b.cropFirst b.cropLast
      let flags := tiles.map fun t => s.dev.tileFlags b (s.dev.sourceOf b v (s.dev.band.seamRows.filter fun r => r.batt == b.num))
        (s.dev.band.closes.filter fun c => c.batt == b.num) t
      let np := v.outPlanes
      let z := fun (r f : Nat) =>
        let w := if bit f 15 = true ∧ ¬ (r = 7 ∧ v.rungs = 8 ∧ v.allowFlagged = true ∧ bit (v.rungWord 7) 27 = true) then v.rungWord 0 else v.rungWord r
        let side := 64 / 2 ^ bits w 28 2
        let raw := sumN ((List.range np).map fun j => let g := bits w (2 * j) 2
          if g = 0 then side * side else if g = 1 then side * side * 3 / 2 else side * side * 2)
        let bound := (raw + 4 * np + 15) / 16 * 16
        if bit w 31 then 0 else if bit w 30 = false then raw
        else if bits w 16 8 = 0 then bound else min bound (raw * bits w 16 8 / 256 / 16 * 16)
      let size := fun (r : Nat) => sumN (flags.map (z r)) + 16 * tiles.length
      let m0 := s.dev.ful.marks.getLastD s.dev.rateMark
      let m1 := s.dev.rateMark
      let rate := if m1.busy - m0.busy < cyclesMs then s.dev.fld Reg.rateNom 0 17 else (m1.done - m0.done) * 300 / (m1.busy - m0.busy)
      let back := if m1.cycle = m0.cycle then 0 else (m1.recalled - m0.recalled) * 300 / (m1.cycle - m0.cycle)
      let speed := (signed 32 (s.dev.rdN Reg.posRate)).natAbs
      let budget := if speed = 0 then 2 ^ 64 - 1
        else min (2 ^ 64 - 1) ((rate - s.dev.fld Reg.budgetCfg 0 17 - back) * 10 ^ 6 * 2 ^ b.grid.hlog * b.grid.pitch * 16 / (256 * speed))
      ∀ c : Nat, (c < v.rungs ∧ size c ≤ budget ∨ c = v.rungs) → (∀ r, r < c → budget < size r) →
        let held := if c = v.rungs then v.rungs - 1 else if s.dev.ful.cur ≤ c then c
          else if s.dev.ful.cPrev < s.dev.ful.cur then max c s.dev.ful.cPrev else s.dev.ful.cur
        let chosen := if c < v.rungs ∧ budget < (if held < v.rungs then size held else 0) then c else held
        let rung := if s.dev.flag Reg.budgetCfg 31 then min (s.dev.fld Reg.budgetCfg 24 3) (v.rungs - 1) else chosen
        (rung < v.rungs → Becomes .decisionPoint s fun t => ∃ (y : Batt) (x : Decision),
          t.battKey b.key = some y ∧ y.decision = some x ∧ x.rung = rung ∧ x.flags = flags ∧ x.size = size rung ∧ x.view = v
          ∧ t.ful.cur = chosen ∧ t.ful.cPrev = c ∧ t.ful.lastRung = rung
          ∧ t.fld Reg.ladStat 24 3 = rung ∧ t.fld Reg.ladStat 16 4 = c ∧ t.fld Reg.ladStat 8 4 = s.dev.ful.cPrev
          ∧ t.flag Reg.ladStat 0 = (!s.dev.flag Reg.budgetCfg 31 && c == v.rungs)
          ∧ t.rd64 Reg.ladBudget = budget ∧ t.rd64 Reg.ladBatt = b.num % 2 ^ 64
          ∧ (∀ r, r < 8 → t.rd64 (Reg.ladSize r) = if r < v.rungs then size r % 2 ^ 64 else 2 ^ 64 - 1)
          ∧ (let need := size rung + (4 * tiles.length + 63) / 64 * 64 + (8 * b.map.length + 63) / 64 * 64 + 64 + b.statLen
             x.need = need ∧ x.overrun = decide (s.dev.stagingFree < need)
             ∧ t.fld Reg.ladCnt 0 16 = satAdd 16 (s.dev.fld Reg.ladCnt 0 16) (b2n x.overrun))
          ∧ (s.dev.ful.lastRung = rung → t.ev = s.dev.ev) ∧ t.pipes = s.dev.pipes ∧ t.pos = s.dev.pos))
    ∧ (∀ (b : Batt) (x : Decision) (k : Nat),
      s.dev.ful.batts.find? (fun b => b.recalled.isNone && b.state == .closed && b.decision.isSome && b.slice.isNone) = some b →
      s.dev.battKey b.key = some b → b.decision = some x → s.dev.idleSlice = some k → s.dev.devRec = false → s.dev.safe = false →
      let v := x.view
      let np := v.outPlanes
      let src := s.dev.sourceOf b v x.remote
      let tiles := outTiles (2 ^ b.grid.hlog) b.cropFirst b.cropLast
      x.flags.length = tiles.length → x.rung < 8 →
      ((b.again && s.dev.notHooded b) = true → Becomes (.fullingStart [] []) s fun t =>
        ∃ y, t.battKey b.key = some y ∧ y.state = .failed ∧ y.cause = 1)
      ∧ ((b.again && s.dev.notHooded b) = false → Becomes (.fullingStart [] []) s fun t => ∃ y : Batt, t.battKey b.key = some y
        ∧ y = { b with slice := some k, cutter := some k, data := y.data, index := y.index, deferred := y.deferred, capped := y.capped }
        ∧ t.flag (Reg.fulStat k) 31 = true ∧ t.rd64 (Reg.fulBatt k) = b.num % 2 ^ 64
        ∧ s.dev.regsKept t [Reg.fulStat k, Reg.fulBatt k, Reg.fulBatt k + 4] ∧ t = { s.dev with regs := t.regs, ful := t.ful, hood := s.dev.hood.soil 3 }
        ∧ y.index.length = 16 * tiles.length
        ∧ ∀ q, q < tiles.length →
          let f := x.flags.getD q 0
          let tile := tiles.getD q (0, 0)
          let e := slice y.index (16 * q) 16
          let keep0 := bit f 15 = true ∧ ¬ (x.rung = 7 ∧ v.rungs = 8 ∧ v.allowFlagged = true ∧ bit (v.rungWord 7) 27 = true)
          let w := if keep0 then v.rungWord 0 else v.rungWord x.rung
          let off := leAt e 0 4
          let pixel := fun (dy dx : Nat) =>
            let row := 64 * tile.1 + dy
            let col := 64 * tile.2 + dx
            let fill := (List.range np).map fun j => (v.fill j, false)
            match v.seams.find? fun m => decide (m.first ≤ col ∧ col < m.first + m.width) with
            | some m =>
              let g := v.ramp m (col - m.first)
              match src.pixel m.left row col, src.pixel m.right row col with
              | some l, some r => (l.zip r).map fun (y : (Nat × Bool) × (Nat × Bool)) => ((y.1.1 * g + y.2.1 * (1024 - g) + 512) / 1024, (y.1.2 && g != 0) || (y.2.2 && g != 1024))
              | some l, none => l
              | none, some r => r
              | none, none => fill
            | none => match (s.dev.localHeads b).find? fun h => src.covers h col && v.seams.all fun m =>
                !(m.left == h && decide (m.first + m.width ≤ col)) && !(m.right == h && decide (col < m.first)) with
              | some h => (src.pixel h row col).getD fill
              | none => fill
          (q = 0 → off = 0)
          ∧ (q + 1 < tiles.length → leAt y.index (16 * (q + 1)) 4 = (off + leAt e 4 4) % 2 ^ 32)
          ∧ leAt e 8 2 = tile.2 % 2 ^ 16 ∧ leAt e 10 1 = tile.1 % 2 ^ 8
          ∧ bits (leAt e 11 1) 0 4 = (if keep0 then 8 else x.rung) ∧ bit (leAt e 11 1) 6 = bit w 30
          ∧ leAt e 14 1 = bits w 28 2 ∧ leAt e 15 1 = w % 2 ^ (2 * np) % 2 ^ 8
          ∧ (bit w 31 = true → leAt e 4 4 = 0 ∧ bit (leAt e 11 1) 4 = true ∧ bit (leAt e 11 1) 5 = false)
          ∧ (bit w 31 = false → bit w 30 = false → bits w 28 2 = 0 → (∀ j, j < np → bits w (2 * j) 2 ≠ 1) → y.data.length < 2 ^ 32 →
              leAt e 4 4 = sumN ((List.range np).map fun j => if bits w (2 * j) 2 = 0 then 4096 else 8192)
              ∧ bit (leAt e 11 1) 4 = false
              ∧ ∀ j dy dx, j < np → dy < 64 → dx < 64 →
                let g := bits w (2 * j) 2
                let sh := v.shiftOf g j
                let start := off + sumN ((List.range j).map fun j => if bits w (2 * j) 2 = 0 then 4096 else 8192)
                let u := ((pixel dy dx).getD j (0, false)).1
                let h := if 0 < sh then 2 ^ (sh - 1) else 0
                (g = 0 → byteAt y.data (start + 64 * dy + dx) = min 255 ((u + h) / 2 ^ sh))
                ∧ (g = 2 → leAt y.data (start + 2 * (64 * dy + dx)) 2 = min 65535 ((u + h) / 2 ^ sh))
                ∧ (g = 3 → leAt y.data (start + 2 * (64 * dy + dx)) 2 = (pf16 (u : Nat) (2 ^ sh)).1))))
    ∧ (∀ (k : Fin 8) (b : Batt) (hits : Hits), badWords [] hits = [] → s.dev.ful.batts.find? (fun b => b.slice == some k.val) = some b → s.dev.battKey b.key = some b →
      s.dev.devRec = false → s.dev.safe = false → s.dev.flag Reg.fltUrec (16 + k.val) = false → s.dev.recallVoid b = false → b.owed ≠ [] →
      Becomes (.fullingDone k hits) s fun t => t.battKey b.key = some { b with slice := none, state := .fulled }
        ∧ t.flag (Reg.fulStat k.val) 31 = false
        ∧ t.rdN (Reg.fulTiles k.val) = (s.dev.rdN (Reg.fulTiles k.val) + (b.index.length / 16 - b.deferred.length / 4)) % 2 ^ 32
        ∧ t.rdN Reg.ladCapdef = satAdd 32 (s.dev.rdN Reg.ladCapdef) b.capped
        ∧ t.pipes = s.dev.pipes ∧ t.pos = s.dev.pos ∧ t.plc = s.dev.plc)

/-- The hood commands (R333, R345, R347, R349, R350, R355): HOOD_CONFIG sets the policies, or divides the pages among the areas and
voids live marks when a hood's pages change; PAGE_INIT_DONE makes every page of an area VALID and gives the follow-up (R332);
MARK_SET makes a free mark live; MARK_RELEASE frees it; HOOD_STATUS reports and changes nothing; RECALL creates a recall batt for
every batt of the range and holds the mark. -/
def Obligations.HoodCommands : Prop :=
  ∀ (s : State) (r : Req), let p := r.payload
    (Begins s r [.hood 16] → p.length = 48 → zeroAt p 1 1 = true → s.dev.stiffActive = false →
      (leAt p 0 1 = 1 → zeroAt p 4 42 = true → (∃ n, n < 16 ∧ bit (leAt p 2 2) n ≠ s.dev.flag (Reg.hoodCfg n) 31) →
        Does (.hoodConfig r) s 0x0A01 r [] fun d => (s.dev.takeReq 0x0A01 r).onlyRegs d ((List.range 16).map Reg.hoodCfg)
          ∧ ∀ n, n < 16 → d.flag (Reg.hoodCfg n) 31 = bit (leAt p 2 2) n ∧ d.fld (Reg.hoodCfg n) 0 31 = s.dev.fld (Reg.hoodCfg n) 0 31)
      ∧ (leAt p 0 1 = 0 → zeroAt p 6 2 = true → zeroAt p 46 2 = true → (∀ n, n < 16 → leAt p (8 + 2 * n) 2 ≤ 24544) → 256 ≤ leAt p 40 2 →
        leAt p 40 2 ≤ 24544 → leAt p 42 2 ≤ 4096 → 1 ≤ leAt p 44 2 → leAt p 44 2 ≤ 256 → s.dev.lineStarted = false → s.dev.stagingInUse = false →
        sumN ((List.range 16).map fun n => leAt p (8 + 2 * n) 2) + leAt p 42 2 + leAt p 40 2 + leAt p 44 2
          ≤ 24544 - s.dev.goneUsable.eraseDups.length → p ≠ s.dev.partition →
        Accepts (.hoodConfig r) s 0x0A01 r [.hood 16] [] fun d =>
          (∀ n, n < 16 → d.flag (Reg.hoodCfg n) 31 = bit (leAt p 2 2) n ∧ d.flag (Reg.hoodCfg n) 30 = bit (leAt p 4 2) n
            ∧ d.fld (Reg.hoodCfg n) 0 15 = leAt p (8 + 2 * n) 2 ∧ (d.hood.pagesOf 1 n).length = leAt p (8 + 2 * n) 2
            ∧ ∀ q ∈ d.hood.pagesOf 1 n, q < 24544 ∧ q ∉ s.dev.hood.retired)
          ∧ d.fld Reg.hoodPool 16 15 = leAt p 42 2 ∧ (d.hood.pagesOf 2 0).length = leAt p 42 2
          ∧ d.fld Reg.hoodPool 0 15 = leAt p 40 2 ∧ (d.hood.pagesOf 3 0).length = leAt p 40 2
          ∧ d.fld Reg.hoodAtt 0 9 = leAt p 44 2 ∧ (d.hood.pagesOf 4 0).length = leAt p 44 2
          ∧ d.flag Reg.fsStat 30 = true ∧ d.hood.fs = s.dev.hood.fs ∧ d.hood.valid = s.dev.hood.valid
          ∧ (let moved := ∃ n, n < 16 ∧ d.hood.areas.filter (fun a => a.kind == 1 && a.owner == n)
               ≠ s.dev.hood.areas.filter fun a => a.kind == 1 && a.owner == n
             ∀ m, m < 16 → (moved → s.dev.markState m = 1 → d.markState m = 2)
               ∧ (¬ moved ∨ s.dev.markState m ≠ 1 → d.markState m = s.dev.markState m))))
    ∧ (s.alive → Becomes .pageInitDone s fun t =>
        (∀ a ∈ t.hood.areas, ∀ i, i < a.count → t.hood.isValid (a.first + i) = true) ∧ t.hood.areas = s.dev.hood.areas
        ∧ t.hood.fs = s.dev.hood.fs ∧ t.flag Reg.fsStat 30 = false ∧ t.fld Reg.fsStat 0 15 = 0
        ∧ (∀ a, s.dev.owed 0x0A01 = some a → ∃ d : Dev, t = d.followUp a St.ok (le 2 (s.dev.fld Reg.hoodFree 0 15) ++ zeros 2
            ++ (List.range 16).flatMap fun n => le 4 (s.dev.fld (Reg.hoodCfg n) 0 15 * 2097152
              / max (s.dev.rowBytes (s.dev.liveView 0) n) (s.dev.rowBytes (s.dev.liveView 1) n)))
            ∧ (s.dev.onlyRegs { d with hood := s.dev.hood } [Reg.fsStat])))
    ∧ (∀ m : Nat, Begins s r [.hood 16, .hood m] → m = leAt p 0 1 → m ≤ 15 →
      (∀ first last : Nat, p.length = 24 → leAt p 1 1 < 2 → zeroAt p 2 6 = true → first = leAt p 8 8 → last = leAt p 16 8 → last < 2 ^ 48 →
        first ≤ last → last < first + 4096 → s.dev.markState m = 0 → s.dev.lostBatt first = false →
        Does (.markSet r) s 0x0A02 r [] fun d =>
          (s.dev.takeReq 0x0A02 r).onlyRegs d [Reg.markStat m, Reg.markFirst m, Reg.markFirst m + 4, Reg.markLast m, Reg.markLast m + 4]
          ∧ d.markState m = 1 ∧ d.flag (Reg.markStat m) 29 = bit (leAt p 1 1) 0 ∧ d.flag (Reg.markStat m) 28 = false
          ∧ d.markFirst m = first ∧ d.markLast m = last)
      ∧ (p.length = 4 → zeroAt p 1 3 = true → s.dev.markState m ≠ 0 → (∀ n, n < 16 → s.dev.flag Reg.hoodHeld n = false) →
        Does (.markRelease r) s 0x0A04 r [] fun d => d.rd (Reg.markStat m) = 0
          ∧ (s.dev.takeReq 0x0A04 r).regsKept d [Reg.markStat m] ∧ d.hood.slots = s.dev.hood.slots ∧ d.hood.fs = s.dev.hood.fs
          ∧ (let seals := fun (k q : Nat) => s.dev.markState k ≠ 0 ∧ s.dev.flag (Reg.markStat k) 29 = true
               ∧ ∃ x ∈ s.dev.hood.slots, q ∈ x.pages ∧ s.dev.markFirst k ≤ x.batt ∧ x.batt ≤ s.dev.markLast k
             ∀ q, q ∈ d.hood.sealed ↔ q ∈ s.dev.hood.sealed ∧ (¬ seals m q ∨ ∃ k, k < 16 ∧ k ≠ m ∧ seals k q)))
      ∧ (∀ (rung st first last : Nat), p.length = 24 → rung = leAt p 1 1 → st = leAt p 2 2 → leAt p 4 1 < 2 → zeroAt p 5 3 = true →
        first = leAt p 8 8 → last = leAt p 16 8 → last < 2 ^ 48 → first ≤ last → rung < s.dev.nrungs → st ≤ 7 → s.dev.started st = true →
        s.dev.isRecall st = true → s.dev.markState m = 1 → s.dev.markFirst m ≤ first → last ≤ s.dev.markLast m →
        (∀ b, first ≤ b → b ≤ last → ∃ x, s.dev.liveBatt b = some x ∧ x.described = true) → s.dev.ful.recalls.length < 2 →
        let id := s.dev.ful.nextRecall
        Accepts (.recallBatts r) s 0x0A03 r [.hood m] [id] fun d => ∃ bs : List Batt,
          d.ful = { s.dev.ful with
            batts := s.dev.ful.batts ++ bs,
            recalls := s.dev.ful.recalls ++ [⟨id, m, st, rung, leAt p 4 1 == 1, (List.range (last + 1 - first)).map (first + ·), 0, 0, 0⟩],
            nextRecall := id + 1 }
          ∧ bs.length = last + 1 - first
          ∧ (∀ i b x, bs[i]? = some b → s.dev.liveBatt (first + i) = some x →
              b.num = first + i ∧ b.recalled = some (id, rung, leAt p 4 1 == 1) ∧ b.state = .closed ∧ b.owed = [st] ∧ b.described = false
              ∧ b.slice = none ∧ b.cropFirst = x.cropFirst ∧ b.cropLast = x.cropLast ∧ b.map = x.map ∧ b.edge = x.edge ∧ b.stats = x.stats
              ∧ b.heads = x.heads ∧ b.grid = x.grid ∧ ∃ y, b.decision = some y ∧ y.rung = rung ∧ y.remote = []
                ∧ y.view = s.dev.fulSnapshot s.dev.fulActive)
          ∧ (d.str st).batts.map (·.batt) = (s.dev.str st).batts.map (·.batt)
              ++ (List.range (last + 1 - first)).map (fun i => (first + i, some id))
          ∧ d.flag (Reg.markStat m) 28 = true ∧ (s.dev.takeReq 0x0A03 r).regsKept d [Reg.markStat m] ∧ d.hood = s.dev.hood))
    ∧ (Begins s r [.hood 16] → p = [] → Does (.hoodStatus r) s 0x0A05 r
        (le 2 (s.dev.fld Reg.hoodFree 0 15) ++ le 2 (s.dev.fld Reg.hoodFree 16 15) ++ le 4 (s.dev.rdN Reg.hoodStgUsed)
          ++ le 2 (s.dev.fld Reg.hoodHeld 0 16) ++ zeros 6
          ++ (List.range 16).flatMap (fun n => (if s.dev.rd64 (Reg.hoodOldest n) % 2 ^ 48 = 2 ^ 48 - 1 then List.replicate 8 0xFF
              else le 8 (s.dev.rd64 (Reg.hoodOldest n) % 2 ^ 48)) ++ le 4 (s.dev.rdN (Reg.hoodNslot n)) ++ le 4 (s.dev.rdN (Reg.hoodRowb n)))
          ++ (List.range 16).flatMap fun m => le 1 (s.dev.markState m)
            ++ le 1 (s.dev.fld (Reg.markStat m) 29 1 + 2 * s.dev.fld (Reg.markStat m) 28 1) ++ zeros 6 ++ le 8 (s.dev.markFirst m) ++ le 8 (s.dev.markLast m))
        fun d => d = s.dev.takeReq 0x0A05 r)

/-- CARD_WRITE (R335, R337 to R343): a row goes to its slot; a reader of the hood then finds its status, records, samples and
marks, and every other byte of the frame store is as before; over a row of a batt not FULLED it is recorded missing HOOD_FULL and
nothing is written; a row of a CLOSED batt is late and discarded (R341). -/
def Obligations.CardRowsInTheHood : Prop :=
  ∀ (s : State) (head : Fin 16) (n ns len o b k : Nat) (c : Card) (row : Row) (recs : List Bytes) (v : View) (pages : List Nat) (hits trHits btrHits : Hits),
    s.alive → s.dev.stageOn (80 + n) = true → badWords [] hits = [] → badWords [] trHits = [] → badWords [] btrHits = [] → s.dev.pipeRecov n = false → n = head.val → (s.dev.pipe n).cards = [c] → c.late = [] → c.toWrite c.written = some (row, recs) → row.r = c.written →
    b = c.battOf row.r → v = s.dev.viewOf n b →
    ns = s.dev.rdN (Reg.hoodNslot n) → len = s.dev.rdN (Reg.hoodRowb n) → 0 < ns → 0 < len → len < 2 ^ 20 → o = row.r % ns * len →
    k = (recs.length + 63) / 64 → pages.length = (slotVPages o len).length →
    (∀ i v, (slotVPages o len)[i]? = some v → ∃ l, l.phys = some (pages.getD i 0)
      ∧ s.dev.hood.laps.find? (fun l => l.pipe == n && l.lap == row.r / ns && l.v == v && l.past.isNone) = some l) →
    let closed := ∃ y ∈ s.dev.ful.batts, y.num = b ∧ y.grid.gen = c.grid.gen ∧ y.recalled = none ∧ y.state ≠ .opened
    let meets := fun (x : SlotRec) => x.pipe = n ∧ x.off < o + len ∧ o < x.off + x.len ∧ (∃ q ∈ x.pages, q ∈ pages) ∧ (x.row ≠ row.r ∨ x.batt ≠ b)
    (closed → Becomes (.cardWrite head false hits trHits btrHits) s fun t => t.hood.fs = s.dev.hood.fs
        ∧ t.rdN (Reg.cardLateCnt n) = satAdd 32 (s.dev.rdN (Reg.cardLateCnt n)) 1 ∧ ∀ m, m ≠ n → t.pipe m = s.dev.pipe m)
    ∧ (¬ closed → (∃ x ∈ s.dev.hood.slots, meets x ∧ s.dev.unfulled x.batt = true) →
        Becomes (.cardWrite head false hits trHits btrHits) s fun t => t.hood.fs = s.dev.hood.fs
        ∧ ∃ c', (t.pipe n).cards = [c'] ∧ c'.written > c.written
          ∧ ∀ x ∈ c'.blocked, x.r = row.r → x.status = row.status / 16 * 16 + 10 ∧ x.planes = [])
    ∧ (¬ closed → (∀ x ∈ s.dev.hood.slots, ¬ meets x) → pages.Nodup → (∀ q ∈ pages, q ∉ s.dev.hood.pagesOf 2 0) →
        row.status < 2 ^ 16 → row.expid < 2 ^ 8 → row.r < 2 ^ 63 → b < 2 ^ 48 → v.ncol n ≤ 32768 → recs.length < 2 ^ 16 →
        (∀ x ∈ recs, x.length = 32) → (∀ pl ∈ row.planes, ∀ y ∈ pl, y < 2 ^ 24) →
        let lin := s.dev.flag (Reg.hoodCfg n) 30
        64 + up64 (32 * k) + v.nplanes n * (up64 (v.ncol n * (if lin then 3 else 2)) + up64 ((v.ncol n + 7) / 8)) ≤ len →
        Becomes (.cardWrite head false hits trHits btrHits) s fun t =>
          let x := t.hoodRow n row.r b
          x.status = row.status ∧ x.expid = row.expid ∧ x.col0 = v.col0 n ∧ x.ncol = v.ncol n ∧ x.ntc = recs.length
          ∧ (∀ j, j < k → (h : row.r % 64 * k + j < recs.length) → slice x.share (32 * j) 32 = recs[row.r % 64 * k + j])
          ∧ (row.status % 16 ≠ 0 → x.planes = [])
          ∧ (row.status % 16 = 0 → x.planes.length = v.nplanes n ∧ ∀ q u, q < v.nplanes n → u < v.ncol n →
              (x.planes.getD q []).getD u 0 = (if lin then (row.pix q u).1 else min 0xFFFFFF (pfDecode 12 (pf16 (row.pix q u).1 1).1))
              ∧ (x.sats.getD q []).getD u false = (row.pix q u).2)
          ∧ (∀ a, (∀ i y, i < pages.length → y < 2097152 → a = pages.getD i 0 * 2097152 + y →
              ¬ (o ≤ (o / 2097152 + i) * 2097152 + y ∧ (o / 2097152 + i) * 2097152 + y < o + len)) → t.fsRd a 1 = s.dev.fsRd a 1)
          ∧ (let w := signed 64 (s.dev.rd64 (Reg.hoodWptr n))
             signed 64 (t.rd64 (Reg.hoodWptr n)) = if w < row.r then (row.r : Int) else w)
          ∧ ∃ c', (t.pipe n).cards = [c'] ∧ c'.written > c.written ∧ c'.tiles = c.tiles ∧ c'.carded = c.carded)

/-- RECALL_BATT_START (R350, R352), RECALL_DONE (R350) and PAGE_SEAL (R353): the next recall batt goes to the lowest idle slice with its
staging, or is FAILED when its mark is not live or a pipeline has lost its batt; the follow-up comes when no recall batt awaits its
descriptor; a settled page of a sealed live mark gets the seal of its bytes under its address (a free one where no rule fixes
its bytes, notes/assumptions/136.md), any other page none. -/
def Obligations.RecallsAndSeals : Prop :=
  ∀ (s : State), s.alive →
    (∀ (run : Fin 2) (r : RecallRun) (b : Batt) (x : Decision) (k : Nat), s.dev.ful.recalls[run.val]? = some r →
      s.dev.ful.batts.find? (fun b => b.recalled.any (·.1 == r.id) && b.state == .closed && b.slice.isNone
        && (s.dev.str r.stream).batts.any fun p => p.batt == b.key && p.fail == 0) = some b →
      s.dev.battKey b.key = some b → b.decision = some x → s.dev.idleSlice = some k → s.dev.devRec = false → s.dev.safe = false →
      (b.staged = 0 → x.need ≤ s.dev.stagingFree) →
      ((s.dev.markState r.mark ≠ 1 ∨ s.dev.notHooded b = true) → Becomes (.recallBattStart run [] []) s fun t =>
        ∃ y, t.battKey b.key = some y ∧ y.state = .failed ∧ y.cause = 1)
      ∧ (s.dev.markState r.mark = 1 → s.dev.notHooded b = false → r.verify = false → Becomes (.recallBattStart run [] []) s fun t =>
        ∃ y f, t.battKey b.key = some y ∧ f = (s.dev.sourceOf b x.view x.remote).full x.rung (outTiles (2 ^ b.grid.hlog) b.cropFirst b.cropLast) x.flags
        ∧ y = { b with slice := some k, cutter := some k, staged := x.need, data := f.data, index := f.index, deferred := f.deferred, capped := f.capped }
        ∧ t.flag (Reg.fulStat k) 31 = true ∧ t.rd64 (Reg.fulBatt k) = b.num % 2 ^ 64
        ∧ s.dev.regsKept t [Reg.fulStat k, Reg.fulBatt k, Reg.fulBatt k + 4, Reg.hoodStgUsed] ∧ t.hood = s.dev.hood.soil 3 ∧ t.plc = s.dev.plc))
    ∧ (∀ (run : Fin 2) (r : RecallRun), s.dev.ful.recalls[run.val]? = some r →
      ((∃ p ∈ (s.dev.str r.stream).batts, p.batt.2 = some r.id) → Becomes (.recallDone run) s fun t => t = s.dev)
      ∧ (∀ a : Accepted, (∀ p ∈ (s.dev.str r.stream).batts, p.batt.2 ≠ some r.id) → s.dev.owedArgs 0x0A03 (fun a => a == [r.id]) = some a →
        Becomes (.recallDone run) s fun t => ∃ d : Dev,
          t = d.followUp a (if s.dev.markState r.mark ≠ 1 then St.markLost else if r.failed ≠ 0 then St.partialDone else St.ok)
            (le 4 r.count ++ le 4 r.failed ++ le 4 r.unverified ++ zeros 4)
          ∧ d.flag (Reg.markStat r.mark) 28 = false ∧ d.ful = { s.dev.ful with recalls := s.dev.ful.recalls.erase r }
          ∧ d = { s.dev with regs := d.regs, ful := d.ful } ∧ s.dev.regsKept d [Reg.markStat r.mark]))
    ∧ (∀ page : Fin 24544, let p := page.val
      let due := s.dev.settled p = true ∧ s.dev.sealable p = true ∧ p ∉ s.dev.hood.sealed ∧ s.dev.scan.running = none ∧ s.dev.scan.waiting = []
      (¬ due → Becomes (.pageSeal page [] []) s fun t => t = s.dev)
      ∧ (due → Becomes (.pageSeal page [] []) s fun t =>
          (∀ bytes, s.dev.storeBytes (p * 2097152) 2097152 = some bytes → t.deepRd (0x18020000 + 4 * p) = sealOf (p * 2097152) bytes)
          ∧ (∀ a, a ≠ 0x18020000 + 4 * p → t.deepRd a = s.dev.deepRd a) ∧ t.hood = { s.dev.hood with sealed := s.dev.hood.sealed ++ [p] }
          ∧ s.dev.regsKept t [Reg.sealRun 6] ∧ t = { s.dev with regs := t.regs, deep := t.deep, hood := t.hood, free := t.free }))

/-- The uplink and its queue pairs (R356, R357, R359, R362, R364, R365, R612): UPLINK_CONFIG sets mode, ports, RATE_NOM and management
address and answers ACCEPTED, once its last power domain has switched; QP_CREATE makes a queue pair READY at its starting PSN with
c = RATE_MAX; QP_DESTROY frees it; REGION_ADD enters the lowest free index under a new GEN; links, pauses and other frames follow. -/
def Obligations.UplinkAndQueuePairs : Prop :=
  ∀ (s : State) (r : Req), let p := r.payload
    (∀ mode split en : Nat, Begins s r [.uplink] → p.length = 40 → mode = leAt p 0 1 → split = leAt p 1 1 → en = leAt p 2 1 → mode ≤ 1 →
      split ≤ 3 → (mode = 1 → split = 0) → en < 2 ^ 2 ^ split → leAt p 3 1 < 8 → bits (leAt p 4 2) 12 1 = 0 → zeroAt p 13 3 = true →
      zeroAt p 32 8 = true → leAt p 12 1 < 2 ^ split → (bit (leAt p 3 1) 0 = false → zeroAt p 20 12 = true) →
      (∀ q, q < 64 → s.dev.qpState q ≠ 0 → bit en (s.dev.qpPort q) = true) → s.dev.anyStream = false → s.dev.stiffActive = false →
      let ports := 2 ^ split
      let lanes := (maskList ports en).flatMap fun q => (List.range (8 / ports)).map fun l => 104 + (q * (8 / ports) + l)
      let on := lanes ++ if en = 0 then [] else [135]
      let set := fun (d : Dev) => d.fld Reg.umacCfg 31 1 = mode ∧ d.fld Reg.umacCfg 28 2 = split ∧ d.fld Reg.umacCfg 16 8 = en
        ∧ d.fld Reg.umacCfg 0 3 = leAt p 3 1 ∧ d.rd Reg.umacStat = 0
        ∧ d.fld Reg.rateNom 0 17 = (maskList ports en).length * (if mode = 1 then 103897 else [98125, 49062, 24531, 12265].getD split 0)
        ∧ d.plc = { s.dev.plc with mgmtPort := leAt p 12 1, mgmtMac := leAt p 6 6, mgmtVlan := leAt p 4 2, mgmtIp := slice p 16 16, paused := [] }
        ∧ d.pipes = s.dev.pipes ∧ d.ful = s.dev.ful ∧ d.pos = s.dev.pos ∧ s.dev.regsKept d [Reg.umacCfg, Reg.umacStat, Reg.rateNom, Reg.pdSeq]
      let same := (∀ j ∈ on, s.dev.domainOn j = true) ∧ ∀ j ∈ (List.range 8).map (104 + ·) ++ [135], j ∉ on → s.dev.domainOn j = false
      (same → Accepts (.uplinkConfig r) s 0x0B01 r [.uplink] [] fun d => set d ∧ d.pwr = s.dev.pwr)
      ∧ (¬ same → GoesOn (.uplinkConfig r) s 0x0B01 r fun d x => set d ∧ x.objs = [.uplink] ∧ x.switch = d.pwr.queue.getLast?
          ∧ d.pwr.queue = s.dev.pwr.queue
            ++ (((List.range 8).map (104 + ·) ++ [135]).filter fun j => !on.contains j && s.dev.domainOn j).map (·, false)
            ++ (on.filter fun j => !s.dev.domainOn j).map (·, true)))
    ∧ (∀ q : Nat, Begins s r [.qp q] → q = leAt p 0 1 → q ≤ 63 →
      (p.length = 64 → leAt p 1 1 ≤ 7 → leAt p 2 1 ≤ 3 → leAt p 3 1 < 4 → leAt p 4 4 < 2 ^ 24 → zeroAt p 11 1 = true → 1 ≤ leAt p 12 1 →
        leAt p 12 1 ≤ 20 → leAt p 13 1 ≤ 7 → leAt p 14 1 ≤ 6 → leAt p 15 1 ≤ 63 → bits (leAt p 22 2) 12 1 = 0 → zeroAt p 60 4 = true →
        bit (s.dev.fld Reg.umacCfg 16 8) (leAt p 1 1) = true → 100 ≤ leAt p 56 4 →
        leAt p 56 4 ≤ (if s.dev.fld Reg.umacCfg 31 1 = 1 then 103897 else [98125, 49062, 24531, 12265].getD (s.dev.fld Reg.umacCfg 28 2) 0) →
        s.dev.qpState q ≠ 1 → s.dev.stiffActive = false →
        Does (.qpCreate r) s 0x0B02 r (le 4 (0x100 + q)) fun d =>
          d.qpState q = 1 ∧ d.fld (Reg.qpStat q) 0 24 = leAt p 8 3 ∧ d.fld (Reg.qpCfg q) 29 3 = leAt p 1 1 ∧ d.fld (Reg.qpCfg q) 27 2 = leAt p 2 1
          ∧ d.flag (Reg.qpCfg q) 26 = bit (leAt p 3 1) 0 ∧ d.fld (Reg.qpCfg q) 0 24 = leAt p 4 4 ∧ d.rdN (Reg.qpRmax q) = leAt p 56 4
          ∧ d.rdN (Reg.qpRate q) = leAt p 56 4
          ∧ d.plc = { s.dev.plc with qps := modAt s.dev.plc.qps q fun _ => { timeout := leAt p 12 1, retry := leAt p 13 1, rnrRetry := leAt p 14 1, dscp := leAt p 15 1, vlan := if bit (leAt p 3 1) 1 then some (leAt p 22 2) else none, destMac := leAt p 16 6, destIp := slice p 24 16, srcIp := slice p 40 16, tokens := 8192 * 300, tokensAt := s.dev.now, una := leAt p 8 3, held := d.qpInRec q } }
          ∧ d.pipes = s.dev.pipes ∧ d.ful = s.dev.ful ∧ d.hood = s.dev.hood
          ∧ ((∀ st, st < 8 → s.dev.started st = true → s.dev.qpReady (s.dev.curQp st) = true) → d.ev = s.dev.ev
            ∧ (s.dev.takeReq 0x0B02 r).regsKept d [Reg.qpCfg q, Reg.qpRmax q, Reg.qpRate q, Reg.qpStat q, Reg.fltQprec, Reg.fltQprec + 4]))
      ∧ (p.length = 4 → zeroAt p 1 3 = true →
        (s.dev.qpState q = 0 → TurnsAway (.qpDestroy r) s 0x0B03 r St.alreadyDone)
        ∧ (s.dev.qpState q ≠ 0 → s.dev.stiffActive = false → (∀ st, st < 8 → s.dev.started st = true → s.dev.curQp st ≠ q
              ∧ (s.dev.flag (Reg.strCfg st) 23 = true → s.dev.fld (Reg.strCfg st) 16 6 ≠ q)) →
            (∀ g ∈ s.dev.plc.regions, g.live = true → g.qp ≠ q) → Does (.qpDestroy r) s 0x0B03 r [] fun d => d.rd (Reg.qpStat q) = 0
              ∧ d.rd (Reg.qpCfg q) = 0 ∧ (s.dev.takeReq 0x0B03 r).regsKept d [Reg.qpStat q, Reg.qpCfg q, Reg.fltQprec, Reg.fltQprec + 4]
              ∧ d.plc = { s.dev.plc with qps := modAt s.dev.plc.qps q fun _ => {} }))
      ∧ (p.length = 24 → leAt p 1 1 < 4 → leAt p 1 1 ≠ 0 → zeroAt p 2 2 = true → leAt p 8 8 % 4096 = 0 → 4096 ≤ leAt p 16 8 →
        leAt p 16 8 ≤ 2 ^ 48 → leAt p 16 8 % 4096 = 0 → s.dev.qpState q = 1 →
        ((∀ i, i < 1024 → (s.dev.plc.regions.getD i {}).live = true) → TurnsAway (.regionAdd r) s 0x0B04 r St.noResource)
        ∧ (∀ i gen : Nat, i < 1024 → (s.dev.plc.regions.getD i {}).live = false → (∀ j, j < i → (s.dev.plc.regions.getD j {}).live = true) →
            gen = (let g := s.dev.plc.regions.getD i {}; if g.len = 0 then g.gen else (g.gen + 1) % 65536) →
            Does (.regionAdd r) s 0x0B04 r (le 4 (gen * 65536 + i)) fun d =>
              d.plc.regions.getD i {} = ⟨gen, true, q, leAt p 1 1, leAt p 4 4, leAt p 8 8, leAt p 16 8⟩
              ∧ (∀ j, j ≠ i → d.plc.regions.getD j {} = s.dev.plc.regions.getD j {})
              ∧ d = { s.dev.takeReq 0x0B04 r with plc := { s.dev.plc with regions := d.plc.regions } })))
    ∧ (s.alive →
      (∀ (link : BitVec 8) (a : Accepted) (en : Nat), en = s.dev.fld Reg.umacCfg 16 8 → s.dev.owed 0x0B01 = some a →
        Becomes (.uplinkLinkUp link) s fun t => ∃ d : Dev, s.dev.onlyRegs d [Reg.umacStat] ∧ d.fld Reg.umacStat 24 8 = en &&& link.toNat
          ∧ t = d.followUp a (if en &&& link.toNat = en then St.ok else St.partialDone)
            (le 4 (s.dev.fld Reg.rateNom 0 17) ++ le 1 (en &&& link.toNat) ++ zeros 3))
      ∧ (∀ lane : Fin 8, let port := lane.val / (8 / s.dev.uplinkPorts)
        (bit (s.dev.fld Reg.umacCfg 16 8) port = false → Becomes (.uplinkLaneLoss lane) s (· = s.dev) ∧ Becomes (.uplinkLaneLock lane) s (· = s.dev))
        ∧ (bit (s.dev.fld Reg.umacCfg 16 8) port = true → Becomes (.uplinkLaneLoss lane) s (fun t => ∃ d : Dev, s.dev.onlyRegs d [Reg.umacStat]
              ∧ d.flag Reg.umacStat (16 + port) = false ∧ d.fld Reg.umacStat 24 8 = s.dev.fld Reg.umacStat 24 8 ∧ t = d.faultOn (0x60 + lane.val))
          ∧ Becomes (.uplinkLaneLock lane) s fun t => t.live (0x60 + lane.val) = false
              ∧ s.dev.onlyRegs t [Reg.umacStat, Reg.fltLive ((0x60 + lane.val) / 32)]
              ∧ ((∀ l, l < 8 → l ≠ lane.val → l / (8 / s.dev.uplinkPorts) = port → s.dev.live (0x60 + l) = false) → t.flag Reg.umacStat (16 + port) = true)))
      ∧ (∀ (port pcp : Fin 8) (quanta : BitVec 16), let off := s.dev.flag Reg.umacCfg 2 = false ∨ s.dev.flag Reg.umacCfg 31 = true
        (off → Becomes (.pfcFrameRx port pcp quanta) s fun t => s.dev.onlyRegs t [Reg.umacDisc]
            ∧ t.rdN Reg.umacDisc = satAdd 32 (s.dev.rdN Reg.umacDisc) 1)
        ∧ (¬ off → Becomes (.pfcFrameRx port pcp quanta) s fun t => t = { s.dev with plc := { s.dev.plc with paused := t.plc.paused } }
            ∧ (let rate := 10 * (800 / s.dev.uplinkPorts)
               (port.val, pcp.val, s.dev.now + (quanta.toNat * 1536 + rate - 1) / rate) ∈ t.plc.paused)
            ∧ ∀ q, q < 64 → s.dev.qpPort q = port.val → (∀ v, (s.dev.qp q).vlan = some v → v / 2 ^ 13 = pcp.val) → (s.dev.qp q).vlan ≠ none →
              (t.pausedQp q = decide (0 < quanta.toNat))))
      ∧ (∀ (port : Fin 8) (addr : Bytes) (qp : Fin 64),
        Becomes (.uplinkFrameRx port 3 addr qp) s (fun t => s.dev.onlyRegs t [Reg.umacDisc] ∧ t.rdN Reg.umacDisc = satAdd 32 (s.dev.rdN Reg.umacDisc) 1)
        ∧ (s.dev.qpState qp.val = 0 → Becomes (.uplinkFrameRx port 2 addr qp) s fun t => s.dev.onlyRegs t [Reg.umacDisc]
            ∧ t.rdN Reg.umacDisc = satAdd 32 (s.dev.rdN Reg.umacDisc) 1)
        ∧ (s.dev.qpState qp.val ≠ 0 → Becomes (.uplinkFrameRx port 2 addr qp) s fun t => s.dev.onlyRegs t [Reg.qpCnt qp.val]
            ∧ t.fld (Reg.qpCnt qp.val) 0 8 = satAdd 8 (s.dev.fld (Reg.qpCnt qp.val) 0 8) 1
            ∧ t.fld (Reg.qpCnt qp.val) 8 24 = s.dev.fld (Reg.qpCnt qp.val) 8 24)
        ∧ ∀ (v6 : Bool) (kind : Fin 4) (n : Nat), kind.val = b2n v6 → n = (if v6 then 16 else 4) → s.dev.safe = false →
            let mine := (port.val = s.dev.plc.mgmtPort ∧ s.dev.flag Reg.umacCfg 0 = v6 ∧ addr = slice s.dev.plc.mgmtIp 0 n)
              ∨ ∃ q, q < 64 ∧ s.dev.qpState q ≠ 0 ∧ s.dev.qpPort q = port.val ∧ s.dev.flag (Reg.qpCfg q) 26 = v6 ∧ addr = slice (s.dev.qp q).srcIp 0 n
            (mine → addr.length = n → Becomes (.uplinkFrameRx port kind addr qp) s fun t =>
              t = s.dev.emit (.frame kind.val [port.val, (s.dev.plc.mgmtMac + port.val : Nat), (leAt addr 0 n : Nat)]))
            ∧ (¬ mine → Becomes (.uplinkFrameRx port kind addr qp) s fun t => s.dev.onlyRegs t [Reg.umacDisc]
              ∧ t.rdN Reg.umacDisc = satAdd 32 (s.dev.rdN Reg.umacDisc) 1)))

/-- The stream commands (R365 to R368, R372, R387 to R389): RING_BIND, BUFFERS_POST, STREAM_START, STREAM_STOP and PARCEL_ABORT do what
their tables say; REGION_REVOKE removes the region's buffers, withdraws its issues not begun, and has its outcome at once or when the
fence is complete; a stopped stream ends when its last batt has its descriptor; PLACEMENT_STATUS changes nothing. -/
def Obligations.StreamCommands : Prop :=
  ∀ (s : State) (r : Req), let p := r.payload
    (∀ st : Nat, Begins s r [.stream st] → st = leAt p 0 1 → st ≤ 7 →
      (∀ (slots psize dr dn doff cr cn coff cons : Nat) (send : Bool), p.length = 48 → leAt p 1 1 < 4 → send = bit (leAt p 1 1) 1 → slots = leAt p 2 2 →
        psize = leAt p 4 4 → dr = leAt p 8 4 → dn = leAt p 12 4 → doff = leAt p 16 8 → cr = leAt p 24 4 → cn = leAt p 28 4 → coff = leAt p 32 8 →
        cons = leAt p 40 4 → (∃ k, 4 ≤ k ∧ k ≤ 13 ∧ slots = 2 ^ k) → 4096 ≤ psize → psize ≤ 65536 → psize % 4096 = 0 → doff % 128 = 0 →
        (∃ k, 4 ≤ k ∧ k ≤ 16 ∧ cn = 2 ^ k) → coff % 32 = 0 → cons % 8 = 0 → leAt p 44 4 ≤ slots →
        sumN ((List.range 8).map fun x => if x = st then 0 else (s.dev.str x).bind.elim 0 (·.bufSlots)) + slots ≤ 16384 →
        cons + 8 ≤ coff ∨ coff + 32 * cn ≤ cons → s.dev.regionLive cr = true → coff + 32 * cn ≤ s.dev.regionLen cr → cons + 8 ≤ s.dev.regionLen cr →
        (send = true → dr = 0xFFFFFFFF ∧ dn = 0) →
        (send = false → (∃ k, 4 ≤ k ∧ k ≤ 16 ∧ dn = 2 ^ k) ∧ s.dev.regionLive dr = true ∧ doff + 128 * dn ≤ s.dev.regionLen dr
          ∧ (dr = cr → (doff + 128 * dn ≤ coff ∨ coff + 32 * cn ≤ doff) ∧ (cons + 8 ≤ doff ∨ doff + 128 * dn ≤ cons))) →
        s.dev.started st = false → s.dev.stiffActive = false →
        Begins s r (.stream st :: .region cr :: if send then [] else [.region dr]) →
        Does (.ringBind r) s 0x0B06 r [] fun d => d.parcelSize st = psize ∧ d.flag (Reg.strCfg st) 8 = bit (leAt p 1 1) 0
          ∧ d.flag (Reg.strCfg st) 9 = send ∧ d.fld (Reg.strCfg st) 10 22 = s.dev.fld (Reg.strCfg st) 10 22
          ∧ d.plc = { s.dev.plc with streams := modAt s.dev.plc.streams st fun t => { t with bind := some { bufSlots := slots, descRegion := dr, descSlots := dn, descOff := doff, cmpRegion := cr, cmpSlots := cn, cmpOff := coff, consOff := cons, bufLow := leAt p 44 4 }, bufs := [] } }
          ∧ (s.dev.takeReq 0x0B06 r).regsKept d [Reg.strCfg st, Reg.strStat st, Reg.plcStat, Reg.plcInflKib])
      ∧ (∀ (n seq : Nat) (b : Binding), n = leAt p 2 2 → p.length = 8 + 16 * n → zeroAt p 1 1 = true → zeroAt p 4 4 = true → 1 ≤ n → n ≤ 254 →
        (∀ e, e < n → let len := leAt p (12 + 16 * e) 4; let off := leAt p (16 + 16 * e) 8
          4096 ≤ len ∧ len ≤ 0xFFFF0000 ∧ len % 4096 = 0 ∧ off % 4096 = 0
          ∧ ∃ g, s.dev.region? (leAt p (8 + 16 * e) 4) = some g ∧ off + len ≤ g.len ∧ bit g.access 0 = true) →
        (s.dev.str st).bind = some b → seq = (s.dev.str st).nextSeq →
        Begins s r (.stream st :: (List.range n).map fun e => .region (leAt p (8 + 16 * e) 4)) →
        ((s.dev.str st).bufs.length + n > b.bufSlots → TurnsAway (.buffersPost r) s 0x0B07 r St.noResource)
        ∧ ((s.dev.str st).bufs.length + n ≤ b.bufSlots →
          Does (.buffersPost r) s 0x0B07 r (le 4 seq ++ le 4 (b.bufSlots - (s.dev.str st).bufs.length - n)) fun d =>
            d.plc = { s.dev.plc with streams := modAt s.dev.plc.streams st fun t => { t with nextSeq := (seq + n) % 2 ^ 32, bufs := t.bufs ++ (List.range n).map fun e => ⟨(seq + e) % 2 ^ 32, leAt p (8 + 16 * e) 4, leAt p (12 + 16 * e) 4, leAt p (16 + 16 * e) 8⟩ } }
            ∧ (s.dev.takeReq 0x0B07 r).regsKept d [Reg.strStat st, Reg.plcStat, Reg.plcInflKib]))
      ∧ (∀ (n : Nat) (pids : List Nat), n = leAt p 2 2 → p.length = 8 + 4 * n → zeroAt p 1 1 = true → zeroAt p 4 4 = true → 1 ≤ n → n ≤ 255 →
        pids = (List.range n).map (fun e => leAt p (8 + 4 * e) 4) → pids.Nodup →
        let flying := fun (pid : Nat) => (s.dev.str st).issues.any (·.pid == pid)
        let one := fun (pid : Nat) => if flying pid then St.ok else if (s.dev.str st).ended.contains pid then St.alreadyDone else St.badParam
        let status := if ∀ x ∈ pids, one x = St.ok then St.ok else if ∀ x ∈ pids, one x = St.alreadyDone then St.alreadyDone else St.partialDone
        s.dev.behind 0x0B08 r = false → Becomes (.parcelAbort r) s fun t => ∃ d : Dev,
          t = (d.answer 0x0B08 r status (pids.flatMap (fun x => le 1 (one x)) ++ zeros ((4 - n % 4) % 4))).drainUnknown r.mbx.val 8
          ∧ (d.str st).issues = (s.dev.str st).issues.filter (fun i => !pids.contains i.pid)
          ∧ (∀ i ∈ (s.dev.str st).issues, i.pid ∈ pids → ∃ c ∈ (d.str st).cmp, c.issue = some i ∧ c.cause = 7)
          ∧ (∀ c ∈ (s.dev.str st).cmp, c ∈ (d.str st).cmp) ∧ (∀ x, x ≠ st → d.str x = s.dev.str x)
          ∧ d.hood = s.dev.hood ∧ d.pipes = s.dev.pipes ∧ d.ful.batts = s.dev.ful.batts)
      ∧ (∀ kind q sb : Nat, p.length = 8 → zeroAt p 4 4 = true → kind = leAt p 1 1 → q = leAt p 2 1 → sb = leAt p 3 1 → kind ≤ 1 → q ≤ 63 →
        (sb ≤ 63 ∨ sb = 0xFF) → q ≠ sb →
        (∀ x, x < 8 → x ≠ st → s.dev.started x = true → ∀ y, (y = q ∨ sb ≠ 0xFF ∧ y = sb) → s.dev.curQp x ≠ y
          ∧ (s.dev.flag (Reg.strCfg x) 23 = true → s.dev.fld (Reg.strCfg x) 16 6 ≠ y)) →
        (s.dev.str st).bind ≠ none → s.dev.qpState q = 1 → s.dev.started st = false → s.dev.fld Reg.plantAddr 0 18 ≠ 0x3FFFF →
        (kind = 0 → ((List.range 8).filter fun x => s.dev.started x && !s.dev.isRecall x).length < 4) → s.dev.stiffActive = false →
        Begins s r (.stream st :: .qp q :: if sb = 0xFF then [] else [.qp sb]) →
        Does (.streamStart r) s 0x0B09 r (le 8 (if kind = 1 then noBatt else s.dev.undecided)) fun d =>
          d.started st = true ∧ d.isRecall st = decide (kind = 1) ∧ d.curQp st = q ∧ d.flag (Reg.strCfg st) 23 = decide (sb ≠ 0xFF)
          ∧ (sb ≠ 0xFF → d.fld (Reg.strCfg st) 16 6 = sb) ∧ d.fld (Reg.strCfg st) 0 10 = s.dev.fld (Reg.strCfg st) 0 10
          ∧ (s.dev.takeReq 0x0B09 r).regsKept d [Reg.strCfg st]
          ∧ d.plc = { s.dev.plc with streams := modAt s.dev.plc.streams st fun t => { t with first := s.dev.undecided, stop := none, batts := [] } })
      ∧ (∀ last lim : Nat, p.length = 16 → zeroAt p 2 6 = true → last = leAt p 8 8 → last < 2 ^ 48 → s.dev.started st = true →
        let decided := fun (b : Batt) => b ∈ s.dev.ful.batts ∧ b.recalled = none ∧ b.decision.isSome = true
        (leAt p 1 1 = 1 → s.dev.undecided > last + 1 → TurnsAway (.streamStop r) s 0x0B0A r St.tooLate)
        ∧ (leAt p 1 1 = 1 → (s.dev.isRecall st = false ∨ ∀ x ∈ (s.dev.str st).batts, x.batt.1 ≤ last) → s.dev.undecided ≤ last + 1 → s.dev.stiffActive = false → Accepts (.streamStop r) s 0x0B0A r [.stream st] [st, last] fun d =>
            d = { s.dev.takeReq 0x0B0A r with plc := { s.dev.plc with streams := modAt s.dev.plc.streams st fun t => { t with stop := some last } } })
        ∧ (leAt p 1 1 = 0 → last = 0 → (∀ b, decided b → b.num ≤ lim) → ((∃ b, decided b ∧ b.num = lim) ∨ (∀ b, ¬ decided b) ∧ lim = 2 ^ 48 - 1) → s.dev.stiffActive = false →
          Accepts (.streamStop r) s 0x0B0A r [.stream st] [st, lim] fun d => (d.str st).stop = some lim
            ∧ (d.str st).batts.map (·.batt) = (s.dev.str st).batts.map (·.batt)
            ∧ (∀ x ∈ (d.str st).batts, x.fail ≠ 0 ∧ x.placed = true)
            ∧ (d.str st).issues = (s.dev.str st).issues.filter (fun i => (s.dev.str st).batts.all fun x => x.batt != i.batt)
            ∧ (∀ i ∈ (s.dev.str st).issues, i ∉ (d.str st).issues → ∃ c ∈ (d.str st).cmp, c.issue = some i ∧ c.cause = 7)
            ∧ (∀ x, x ≠ st → d.str x = s.dev.str x) ∧ d.ful.batts = s.dev.ful.batts))
      ∧ (p.length = 4 → zeroAt p 1 3 = true →
        let sbOn := s.dev.flag (Reg.strCfg st) 23
        let sb := s.dev.fld (Reg.strCfg st) 16 6
        let ready := s.dev.qpState (s.dev.curQp st) = 1 ∨ sbOn = true ∧ s.dev.qpState sb = 1
        let pub := s.dev.rd64 (Reg.strPub st) % 2 ^ 48
        Does (.placementStatus r) s 0x0B0B r
          (le 1 (b2n (s.dev.started st) + 2 * b2n (s.dev.isRecall st) + 4 * b2n (decide ¬ ready)) ++ le 1 (s.dev.curQp st)
            ++ le 1 (if sbOn then sb else 0xFF) ++ zeros 1 ++ le 4 (s.dev.rdN (Reg.strPid st)) ++ le 4 (s.dev.str st).bufs.length
            ++ le 4 (s.dev.str st).issues.length ++ (if pub = 2 ^ 48 - 1 then List.replicate 8 0xFF else le 8 pub)
            ++ le 4 s.dev.slotsUsed.length ++ le 4 (s.dev.bytesInFlight / 1024)
            ++ (List.range 7).flatMap (fun c => le 4 (s.dev.rdN (Reg.plcFail c))) ++ zeros 4) fun d => d = s.dev.takeReq 0x0B0B r))
    ∧ (∀ h : Nat, Begins s r [.region h] → h = leAt p 0 4 → p.length = 4 → s.dev.plc.streams.length = 8 →
      let gone := fun (d : Dev) => d.regionLive h = false ∧ (∀ x, x < 8 → (d.str x).bufs = (s.dev.str x).bufs.filter (·.region != h)
        ∧ (d.str x).issues = (s.dev.str x).issues.filter (fun i => i.region != h || !s.dev.unsent x i)
        ∧ (∀ i ∈ (s.dev.str x).issues, i ∉ (d.str x).issues → ∃ c ∈ (d.str x).cmp, c.issue = some i ∧ c.cause = 1)
        ∧ (d.str x).batts.map (·.batt) = (s.dev.str x).batts.map (·.batt)) ∧ d.hood = s.dev.hood ∧ d.ful.batts = s.dev.ful.batts ∧ d.pipes = s.dev.pipes
      let removed := sumN ((List.range 8).map fun x => ((s.dev.str x).bufs.filter (·.region == h)).length)
      let withdrawn := sumN ((List.range 8).map fun x => ((s.dev.str x).issues.filter fun i => i.region == h && s.dev.unsent x i).length)
      let sent := (∃ x, x < 8 ∧ ∃ i ∈ (s.dev.str x).issues, i.region = h ∧ s.dev.unsent x i = false)
        ∨ ∃ q, ∃ w ∈ (s.dev.qp q).sq, w.region = h ∧ (w.psn ≠ none
          ∨ ∃ x pid, w.kind = .parcel x pid ∧ ¬ (x < 8 ∧ ∃ i ∈ (s.dev.str x).issues, i.pid = pid ∧ i.qp = q ∧ i.region = h))
      let ring := ∃ x b, x < 8 ∧ s.dev.started x = true ∧ (s.dev.str x).bind = some b ∧ (b.descRegion = h ∨ b.cmpRegion = h)
      (s.dev.regionLive h = false → TurnsAway (.regionRevoke r) s 0x0B05 r St.regionRevoked)
      ∧ (s.dev.regionLive h = true → ring → TurnsAway (.regionRevoke r) s 0x0B05 r St.badState)
      ∧ (s.dev.regionLive h = true → ¬ ring → ¬ sent → Does (.regionRevoke r) s 0x0B05 r (le 4 removed ++ le 4 withdrawn) gone)
      ∧ (s.dev.regionLive h = true → ¬ ring → sent → GoesOn (.regionRevoke r) s 0x0B05 r fun d x => gone d ∧ x.args = [h, s.dev.now]
          ∧ d.plc.fences = s.dev.plc.fences ++ [⟨h, removed, withdrawn⟩]))
    ∧ (s.alive → (∀ x ∈ s.dev.running, x.code = 0x0B05 → s.dev.now < x.args.getD 1 0 + 300000) →
      let done := fun (h : Nat) => (∀ t ∈ s.dev.plc.streams, ∀ i ∈ t.issues, i.region ≠ h) ∧ ∀ q ∈ s.dev.plc.qps, ∀ w ∈ q.sq, w.region ≠ h
      ((∀ f ∈ s.dev.plc.fences, ¬ done f.region) → Becomes .revokeFenceDone s (· = s.dev))
      ∧ (∀ (f : Fence) (rest : List Fence), s.dev.plc.fences = f :: rest → done f.region →
        let d : Dev := { s.dev with plc := { s.dev.plc with fences := rest } }
        let body := le 4 f.removed ++ le 4 f.withdrawn
        (∀ x, s.dev.running.find? (fun x => x.code == 0x0B05 && x.args.getD 0 0 == f.region) = some x →
          Becomes .revokeFenceDone s (· = d.endRunning x St.ok body))
        ∧ (∀ a, (∀ x ∈ s.dev.running, x.code = 0x0B05 → x.args.getD 0 0 ≠ f.region) → s.dev.owedArgs 0x0B05 (fun a => a.getD 0 0 == f.region) = some a →
          Becomes .revokeFenceDone s (· = d.followUp a St.ok body))))
    ∧ (s.alive → ∀ (st : Fin 8),
      ((s.dev.str st.val).stop = none → Becomes (.streamStopDone st) s (· = s.dev))
      ∧ ((s.dev.str st.val).batts ≠ [] → Becomes (.streamStopDone st) s (· = s.dev))
      ∧ (∀ (last : Nat) (a : Accepted), (s.dev.str st.val).stop = some last → s.dev.started st.val = true → (s.dev.str st.val).batts = [] →
        (∀ c ∈ (s.dev.str st.val).cmp, c.issue ≠ none) → (s.dev.isRecall st.val = true ∨ last = 2 ^ 48 - 1 ∨ last < s.dev.undecided) →
        s.dev.owedArgs 0x0B0A (fun a => a == [st.val, last]) = some a → Becomes (.streamStopDone st) s fun t => ∃ d : Dev,
          t = d.followUp a St.ok (le 8 last) ∧ d.started st.val = false ∧ (∀ b, b ≠ 31 → d.flag (Reg.strCfg st.val) b = s.dev.flag (Reg.strCfg st.val) b)
          ∧ s.dev.regsKept d [Reg.strCfg st.val]
          ∧ d.plc = { s.dev.plc with streams := modAt s.dev.plc.streams st.val fun t => { t with stop := none } }))

/-- Buffers and parcels (R366, R368, R371, R374 to R377, R360, R362, R329, R387): BUFFER_ASSIGN gives the next posted buffer, or the
batt becomes FAILED(BUFFER); PARCEL_ISSUE issues the next ready parcel with the next PID and the lowest slot, re-issues first;
PACKET_SEND sends the next packet of the queue pair in turn, under its PSN, and spends its tokens. -/
def Obligations.ParcelsAndPackets : Prop :=
  ∀ (s : State), s.alive →
    (∀ (st : Fin 8), s.dev.safe = false → let t := s.dev.str st.val
      ((t.bufs = [] ∨ ∀ y ∈ t.batts, y.buf ≠ none ∨ y.fail ≠ 0) → Becomes (.bufferAssign st) s (· = s.dev))
      ∧ (∀ (p : Placed) (b : Buf) (rest : List Buf) (x : Batt) (y : Decision) (bd : Binding), t.batts.find? (fun p => p.buf.isNone && p.fail == 0) = some p →
        t.bufs = b :: rest → s.dev.battKey p.batt = some x → x.decision = some y → t.bind = some bd →
        let n := if y.overrun then 0 else y.flags.length
        let dl := if n = 0 then 0 else y.size - 16 * n
        let att := (dl + 4095) / 4096 * 4096 + (16 * n + 4095) / 4096 * 4096
        let len := att + (4 * n + 63) / 64 * 64 + (8 * x.map.length + 63) / 64 * 64 + 64 + x.statLen
        let ps := s.dev.parcelSize st.val
        let short := b.len < len ∨ (dl + ps - 1) / ps + (16 * n + ps - 1) / ps + (len - att + ps - 1) / ps > 65535
        let low := bd.bufLow < t.bufs.length ∧ rest.length ≤ bd.bufLow
        Becomes (.bufferAssign st) s fun v => ∃ u : Dev,
          v = (if low then u.event 0x8B03 none (le 1 st.val ++ zeros 3 ++ le 4 rest.length) else u) ∧ (u.str st.val).bufs = rest
          ∧ (∀ z ∈ (u.str st.val).batts, z.batt = p.batt → z.buf = some b ∧ (short → z.fail ≠ 0 ∧ z.placed = true))
          ∧ (short → ∃ z ∈ (u.str st.val).batts, z.batt = p.batt ∧ z.fail = 3)
          ∧ (¬ short → (u.str st.val).batts = t.batts.map fun z => if z.batt = p.batt then { z with buf := some b } else z)
          ∧ (¬ short → (u.str st.val).issues = t.issues ∧ s.dev.regsKept u [Reg.strStat st.val, Reg.plcStat, Reg.plcInflKib])
          ∧ (∀ j, j ≠ st.val → u.str j = s.dev.str j) ∧ u.ful.batts = s.dev.ful.batts ∧ u.hood = s.dev.hood ∧ u.pipes = s.dev.pipes ∧ u.ev = s.dev.ev))
    ∧ (∀ (st : Fin 8) (again : Bool) (pre post : List Placed) (p : Placed) (b : Batt) (f : Buf) (k slot : Nat) (bd : Binding) (hits : Hits),
      let t := s.dev.str st.val
      let ps := s.dev.parcelSize st.val
      let last := fun (x : Batt) (j : Nat) => j + 1 = (x.data.length + ps - 1) / ps
        ∨ j + 1 = (x.data.length + ps - 1) / ps + (x.index.length / 16 * 16 + ps - 1) / ps ∨ j + 1 = (x.layout.parcels ps).length
      let ready := fun (y : Placed) (j : Nat) => ∃ x, s.dev.battKey y.batt = some x
        ∧ (x.state = .fulled ∨ x.state = .published ∨ x.slice ≠ none ∧ j < (x.data.length + ps - 1) / ps) ∧ (x.cutter = none ∨ ¬ last x j)
      let sel := fun (y : Placed) => if again then y.re else y.todo
      t.batts = pre ++ p :: post → (∀ y ∈ t.batts, y.cut = true) → p.fail = 0 → k ∈ sel p → ready p k → (∀ j ∈ sel p, ready p j → k ≤ j) →
      (∀ y ∈ pre, y.fail = 0 → (∃ j ∈ sel y, ready y j) → p.batt.1 < y.batt.1) →
      (∀ y ∈ post, y.fail = 0 → (∃ j ∈ sel y, ready y j) → p.batt.1 ≤ y.batt.1 ∧ y.batt ≠ p.batt) → (again = false → ∀ y ∈ t.batts, y.fail = 0 → ∀ j ∈ y.re, ¬ ready y j) →
      s.dev.battKey p.batt = some b → p.buf = some f → k < 65536 →
      let nd := (b.data.length + ps - 1) / ps
      let ni := (b.index.length / 16 * 16 + ps - 1) / ps
      let idxOff := (b.data.length + 4095) / 4096 * 4096
      let attOff := idxOff + (b.index.length / 16 * 16 + 4095) / 4096 * 4096
      let off := if k < nd then k * ps else if k < nd + ni then idxOff + (k - nd) * ps else attOff + (k - nd - ni) * ps
      let bound := if k < nd then b.data.length else if k < nd + ni then idxOff + b.index.length / 16 * 16 else b.layout.imgLen
      let len := min ps (bound - off)
      s.dev.started st.val = true → s.dev.devRec = false → s.dev.safe = false → s.dev.qpReady (s.dev.curQp st.val) = true →
      t.bind = some bd → bd.cmpWritten - bd.cmpRead < bd.cmpSlots → s.dev.slotsUsed.length < 16384 → s.dev.bytesInFlight + len ≤ 512 * 2 ^ 20 →
      off < bound → slot ∉ s.dev.slotsUsed → (∀ j, j < slot → j ∈ s.dev.slotsUsed) →
      let pid := s.dev.rdN (Reg.strPid st.val)
      let tries := ((p.tries.find? fun x => x.1 == k).map (·.2)).getD 0 + 1
      let i : Issue := ⟨pid, slot, p.batt, k, s.dev.curQp st.val, f.region, len, tries⟩
      (badWords [] hits ≠ [] → Becomes (.parcelIssue st hits) s fun d => ∃ u : Dev, d = u.poisonRead 67 5 (badWords [] hits)
          ∧ (u.str st.val).issues = t.issues ∧ ∃ c, (u.str st.val).cmp = t.cmp ++ [c] ∧ c.issue = some i ∧ c.cause = 5)
      ∧ (badWords [] hits = [] → Becomes (.parcelIssue st hits) s fun d => d.rdN (Reg.strPid st.val) = (pid + 1) % 2 ^ 32
        ∧ (s.dev.regionLive f.region = true → (d.str st.val).batts = (t.batts.map fun y => if y.batt = p.batt then { y with todo := y.todo.erase k, re := y.re.erase k, tries := (k, tries) :: y.tries.filter (fun z => z.1 != k), reissued := y.reissued || decide (1 < tries) } else y)
          ∧ (d.str st.val).issues = t.issues ++ [i] ∧ (d.str st.val).cmp = t.cmp
          ∧ ∃ w, (d.qp (s.dev.curQp st.val)).sq = (s.dev.qp (s.dev.curQp st.val)).sq ++ [w] ∧ w.kind = .parcel st.val pid ∧ w.region = f.region
            ∧ w.off = f.off + off ∧ w.len = len ∧ w.bytes = imageBytes b off len ∧ w.fold = some (b.num % 2 ^ 48 + k * 2 ^ 48) ∧ w.psn = none
            ∧ w.imm = none ∧ w.send = false)
        ∧ (s.dev.regionLive f.region = false → (d.str st.val).issues = t.issues ∧ d.plc.qps = s.dev.plc.qps
          ∧ ∃ c, (d.str st.val).cmp = t.cmp ++ [c] ∧ c.issue = some i ∧ c.cause = 1)
        ∧ (∀ j, j ≠ st.val → d.str j = s.dev.str j) ∧ d.ful.batts = s.dev.ful.batts ∧ d.hood = s.dev.hood ∧ d.pipes = s.dev.pipes ∧ d.pos = s.dev.pos))
    ∧ (∀ (e : Fin 2), (∀ q, q < 64 → q % 2 = e.val → s.dev.canSend q = false) → ∀ corrected bad, Becomes (.packetSend e corrected bad) s (· = s.dev))
    ∧ (∀ (e : Fin 2) (q : Nat) (pre post : List Wqe) (w : Wqe), q < 64 → q % 2 = e.val → s.dev.canSend q = true →
      let cls := fun (q : Nat) => s.dev.fld (Reg.qpCfg q) 27 2
      (∀ x, x < 64 → x % 2 = e.val → s.dev.canSend x = true → x ≠ q → cls q < cls x
        ∨ cls x = cls q ∧ s.dev.qpPort x = s.dev.qpPort q ∧ 0 < w.sent ∧ s.dev.plc.qpTurn.getD (32 * e.val + 8 * cls q + s.dev.qpPort q) 0 = q) →
      (s.dev.qp q).sq = pre ++ w :: post → (∀ x ∈ pre, x.packets ≤ x.sent) → w.sent < w.packets →
      let first := w.psn.getD (s.dev.fld (Reg.qpStat q) 0 24)
      let here := (first + w.sent) % 2 ^ 24
      let body := if w.isRead then 0 else min 4096 (w.len - 4096 * w.sent)
      Becomes (.packetSend e [] []) s (fun t =>
        (t.qp q).sq = pre ++ { w with psn := some first, sent := w.sent + 1 } :: post
        ∧ t.fld (Reg.qpStat q) 0 24 = (if w.isRead then (first + w.psns) % 2 ^ 24 else (here + 1) % 2 ^ 24)
        ∧ t.fld (Reg.qpStat q) 24 8 = s.dev.fld (Reg.qpStat q) 24 8
        ∧ (t.qp q).tokens = min (8192 * 300) ((s.dev.qp q).tokens + (s.dev.now - (s.dev.qp q).tokensAt) * s.dev.fld (Reg.qpRate q) 0 17) - 300 * body
        ∧ (t.qp q).tokensAt = s.dev.now
        ∧ (∃ g : RoceHead, t.out = (if w.isRead then .rdmaRead g q here w.region w.off w.len
              else .packet g q here w.region (w.off + 4096 * w.sent) (slice w.bytes (4096 * w.sent) 4096)
                (if w.sent + 1 = w.packets then w.imm else none) w.send (decide (w.sent + 1 = w.packets) || (w.sent + 1) % 16 == 0)) :: s.dev.out
            ∧ g.destQpn = s.dev.fld (Reg.qpCfg q) 0 24 ∧ g.srcPort = 0xC000 + q ∧ g.v6 = s.dev.flag (Reg.qpCfg q) 26 ∧ g.hops = 64 ∧ g.ecn = 2
            ∧ g.pkey = 0xFFFF ∧ g.dscp = (s.dev.qp q).dscp ∧ g.vlan = (s.dev.qp q).vlan ∧ g.destMac = (s.dev.qp q).destMac
            ∧ g.destIp = (s.dev.qp q).destIp ∧ g.srcIp = (s.dev.qp q).srcIp
            ∧ (w.isRead = true → g.opcode = 0x0C)
            ∧ (w.isRead = false → w.send = false → g.opcode = if w.packets = 1 then (if w.imm = none then 0x0A else 0x0B) else if w.sent = 0 then 0x06
                else if w.sent + 1 < w.packets then 0x07 else if w.imm = none then 0x08 else 0x09)
            ∧ (w.isRead = false → w.send = true → g.opcode = if w.packets = 1 then 4 else if w.sent = 0 then 0 else if w.sent + 1 < w.packets then 1 else 2)
            ∧ (w.isRead = true ∨ w.send = false ∧ w.sent = 0 → g.rkey = (s.dev.plc.regions.getD (w.region % 65536) {}).rkey
                ∧ g.va = (s.dev.plc.regions.getD (w.region % 65536) {}).va + w.off))
        ∧ (∀ x, x ≠ q → t.qp x = s.dev.qp x) ∧ t.plc.streams = s.dev.plc.streams ∧ t.ful = s.dev.ful ∧ t.hood = s.dev.hood
        ∧ s.dev.regsKept t [Reg.qpStat q, Reg.sealRun e.val])
      ∧ ∀ (a : Nat) (st pid : Nat) (i : Issue), w.kind = .parcel st pid → let d := s.dev.fsErrors [] [a]
        (d.qp q).sq = (s.dev.qp q).sq → (d.str st).issues.find? (fun i => i.pid == pid) = some i →
        Becomes (.packetSend e [] [a]) s fun t => (t.str st).issues = (d.str st).issues.erase i
          ∧ ∃ c, (t.str st).cmp = (d.str st).cmp ++ [c] ∧ c.issue = some i ∧ c.cause = 6)

/-- Acknowledgements, errors and congestion (R84, R361 to R363, R379, R384 to R386): an acknowledged parcel is DONE; a sequence error goes
back N; an RNR NAK waits; attempts exhausted or another NAK put the queue pair into ERROR, its parcel ends with the cause, the others
FLUSHED, and a READY standby is taken; a CNP cuts c, a period without one raises it. In ERROR all are ignored. -/
def Obligations.TransportAnswers : Prop :=
  ∀ (s : State) (qp : Fin 64), s.alive → let q := qp.val; let x := s.dev.qp q
    let kept := fun (t : Dev) => (∀ y, y ≠ q → t.qp y = s.dev.qp y) ∧ t.ful.batts = s.dev.ful.batts ∧ t.hood = s.dev.hood ∧ t.pipes = s.dev.pipes ∧ t.pos = s.dev.pos
    let back := fun (t : Dev) (k : Nat) => t.fld (Reg.qpStat q) 0 24 = k ∧ (t.qp q).sq.length = x.sq.length
      ∧ ∀ (j : Nat) (w : Wqe) (f : Nat), x.sq[j]? = some w → w.psn = some f →
        let into := (k + 2 ^ 24 - f % 2 ^ 24) % 2 ^ 24
        (t.qp q).sq[j]? = some { w with sent := if (f + 2 ^ 24 - k % 2 ^ 24) % 2 ^ 24 < 2 ^ 23 then 0 else if w.isRead = false then min w.sent into
          else if into < w.psns then 0 else w.sent }
    let error := fun (t : Dev) (cause : Nat) (hit : Nat → Issue → Bool) => t.qpState q = 2 ∧ t.fld (Reg.qpStat q) 27 3 = cause ∧ (t.qp q).sq = []
      ∧ (∀ st, st < 8 → (t.str st).issues = (s.dev.str st).issues.filter (fun i => i.qp != q && !hit st i)
        ∧ ∀ i ∈ (s.dev.str st).issues, i ∉ (t.str st).issues → ∃ c ∈ (t.str st).cmp, c.issue = some i ∧ c.cause = if hit st i then cause else 4)
      ∧ (∀ st sb, st < 8 → s.dev.started st = true → s.dev.curQp st = q → s.dev.flag (Reg.strCfg st) 23 = true → sb = s.dev.fld (Reg.strCfg st) 16 6 →
        sb ≠ q → s.dev.qpReady sb = true → t.curQp st = sb ∧ t.fld (Reg.strCfg st) 16 6 = q)
      ∧ ((∀ st i, st < 8 → i ∈ (s.dev.str st).issues → hit st i = true → i.qp = q) → kept t)
    let stray := fun (t : Dev) => s.dev.onlyRegs t [Reg.umacDisc]
      ∧ t.rdN Reg.umacDisc = if s.dev.qpState q = 0 then satAdd 32 (s.dev.rdN Reg.umacDisc) 1 else s.dev.rdN Reg.umacDisc
    (s.dev.qpState q ≠ 1 → (∀ psn, Becomes (.roceAckRx qp psn) s stray) ∧ (∀ k y psn, Becomes (.roceNakRx qp k y psn) s stray)
      ∧ Becomes (.retransmitTimeout qp) s (· = s.dev) ∧ ∀ ce data, Becomes (.readResponseRx qp ce data) s stray)
    ∧ (∀ (psn : BitVec 24) (w : Wqe) (rest : List Wqe), s.dev.qpState q = 1 → s.dev.safe = false → x.sq = w :: rest →
      let covered := fun (w : Wqe) => ∃ f, w.psn = some f ∧ w.isRead = false ∧ w.sent = w.packets
        ∧ (psn.toNat + 2 ^ 24 - (f + w.psns - 1) % 2 ^ 24) % 2 ^ 24 < 2 ^ 23
      let unaAfter := fun (l : List Wqe) (k : Nat) =>
        match (l.find? fun w => w.isRead && w.psn.isSome).bind (·.psn) with
        | some f => if ((k + 1) % 2 ^ 24 + 2 ^ 24 - f % 2 ^ 24) % 2 ^ 24 < 2 ^ 23 then f else (k + 1) % 2 ^ 24
        | none => (k + 1) % 2 ^ 24
      let answered := fun (t : Dev) (l : List Wqe) => t.qp q = { x with sq := l, tries := 0, rnrs := 0, una := (t.qp q).una }
        ∧ (t.qp q).una = (if (psn.toNat + 2 ^ 24 - x.una % 2 ^ 24) % 2 ^ 24 < 2 ^ 23 then unaAfter l psn.toNat else x.una) ∧ kept t
      (¬ covered w → Becomes (.roceAckRx qp psn) s fun t => answered t x.sq ∧ t.plc.streams = s.dev.plc.streams ∧ s.dev.regsKept t [])
      ∧ (covered w → (∀ y ∈ rest.head?, ¬ covered y) →
        (∀ (st pid : Nat) (i : Issue), w.kind = .parcel st pid → (s.dev.str st).issues.find? (fun i => i.pid == pid) = some i → w.overran = false →
          w.spoiled = false → Becomes (.roceAckRx qp psn) s fun t => answered t rest ∧ (t.str st).issues = (s.dev.str st).issues.erase i
            ∧ (∃ c, (t.str st).cmp = (s.dev.str st).cmp ++ [c] ∧ c.issue = some i ∧ c.cause = 0 ∧ c.batt = i.batt ∧ c.posted = false ∧ leAt c.bytes 0 2 = i.idx % 2 ^ 16
              ∧ (i.pid < 2 ^ 32 → leAt c.bytes 4 4 = i.pid) ∧ leAt c.bytes 22 1 = 0 ∧ leAt c.bytes 23 1 = min 15 i.try_
              ∧ leAt c.bytes 24 4 = (sealOf (w.fold.getD 0) w.bytes).toNat ∧ checkSeal (i.batt.1 % 2 ^ 48 + i.idx % 2 ^ 16 * 2 ^ 48) c.bytes = some (c.bytes.take 28))
            ∧ (∀ y ∈ (s.dev.str st).batts, y.batt = i.batt → ∃ z ∈ (t.str st).batts, z.batt = y.batt ∧ z.done = i.idx :: y.done)
            ∧ ∀ y, y ≠ st → t.str y = s.dev.str y)
        ∧ (∀ (st place : Nat) (desc : Bool), w.kind = .item st place desc → Becomes (.roceAckRx qp psn) s fun t => answered t rest
            ∧ (t.str st).cmp = (s.dev.str st).cmp.filter (fun c => !(c.place == some place && c.issue.isNone == desc)) ∧ (t.str st).issues = (s.dev.str st).issues)))
    ∧ (s.dev.qpState q = 1 → s.dev.safe = false → ∀ (y : BitVec 8) (psn : BitVec 24),
      Becomes (.roceNakRx qp 0 y psn) s (fun t => back t psn.toNat ∧ kept t ∧ t.plc.streams = s.dev.plc.streams
        ∧ t.fld (Reg.qpCnt q) 8 8 = satAdd 8 (s.dev.fld (Reg.qpCnt q) 8 8) 1 ∧ s.dev.regsKept t [Reg.qpCnt q, Reg.qpStat q])
      ∧ (x.rnrs < x.rnrRetry → Becomes (.roceNakRx qp 1 y psn) s fun t => back t psn.toNat ∧ kept t ∧ t.plc.streams = s.dev.plc.streams
        ∧ (t.qp q).rnrWait = true ∧ (t.qp q).rnrs = x.rnrs + 1 ∧ s.dev.regsKept t [Reg.qpStat q])
      ∧ (∀ k : Fin 5, (k.val = 1 ∧ x.rnrRetry ≤ x.rnrs ∨ 2 ≤ k.val) → Becomes (.roceNakRx qp k y psn) s fun t =>
        error t (if k.val = 1 then 3 else 2) fun st i => x.sq.find? (fun w => w.psn.any fun f => decide ((psn.toNat + 2 ^ 24 - f % 2 ^ 24) % 2 ^ 24 < w.psns))
          |>.any fun w => w.kind == .parcel st i.pid))
    ∧ (s.dev.qpState q = 1 → s.dev.safe = false → (∃ w ∈ x.sq, w.psn ≠ none) → x.una < 2 ^ 24 →
      (x.tries < x.retry → Becomes (.retransmitTimeout qp) s fun t => back t x.una ∧ kept t ∧ (t.qp q).tries = x.tries + 1
        ∧ t.fld (Reg.qpCnt q) 8 8 = satAdd 8 (s.dev.fld (Reg.qpCnt q) 8 8) 1 ∧ t.plc.streams = s.dev.plc.streams
        ∧ s.dev.regsKept t [Reg.qpCnt q, Reg.qpStat q])
      ∧ (x.retry ≤ x.tries → Becomes (.retransmitTimeout qp) s fun t =>
        error t 3 fun st i => x.sq.find? (fun w => w.psn.isSome) |>.any fun w => w.kind == .parcel st i.pid))
    ∧ (s.dev.safe = false → Becomes (.rnrWaitExpiry qp) s fun t => t.qp q = { x with rnrWait := false } ∧ kept t ∧ s.dev.regsKept t [])
    ∧ (s.dev.qpState q = 1 → s.dev.safe = false → ∀ (ce : Bool) (data : Bytes) (w : Wqe), x.sq.find? (fun w => w.isRead && decide (0 < w.sent)) = some w →
      Becomes (.readResponseRx qp ce data) s fun t => (t.qp q).sq = x.sq.erase w ∧ kept t ∧ s.dev.regsKept t []
        ∧ (let cnp := ce = true ∧ ∀ c, x.cnpSent = some c → c + 15000 ≤ s.dev.now
           (cnp → t.out = .roce q 1 0 :: s.dev.out ∧ (t.qp q).cnpSent = some s.dev.now) ∧ (¬ cnp → t.out = s.dev.out))
        ∧ (∀ g, w.kind = .eventCount g.id → s.dev.ev.ring = some g → t.ev.ring = some { g with consumed := g.written - (g.written + 2 ^ 32 - leAt data 0 4) % 2 ^ 32 })
        ∧ (∀ g id, w.kind = .eventCount id → id ≠ g.id → s.dev.ev.ring = some g → t.ev.ring = some g)
        ∧ (∀ st b, w.kind = .streamCounts st → (s.dev.str st).bind = some b → (t.str st).bind = some { b with descRead := b.descWritten - (b.descWritten + 2 ^ 32 - leAt data 0 4) % 2 ^ 32, cmpRead := b.cmpWritten - (b.cmpWritten + 2 ^ 32 - leAt data 4 4) % 2 ^ 32 }))
    ∧ (let c := s.dev.fld (Reg.qpRate q) 0 17
       let on := s.dev.flag Reg.ccCfg0 31 = true
       (s.dev.qpState q = 0 ∨ s.dev.safe = true → Becomes (.cnpRx qp) s stray)
       ∧ (s.dev.qpState q ≠ 0 → s.dev.safe = false → x.cnpAt = some s.dev.now → Becomes (.cnpRx qp) s (· = s.dev))
       ∧ (s.dev.qpState q ≠ 0 → s.dev.safe = false → x.cnpAt ≠ some s.dev.now → Becomes (.cnpRx qp) s fun t =>
        let due := on ∧ ∀ k, x.tCut = some k → k + max 1 (s.dev.fld Reg.ccCfg0 8 8) * 300 ≤ s.dev.now
        t.fld (Reg.qpRate q) 0 17 = (if due then max (s.dev.fld Reg.ccCfg1 0 16) (c - c * s.dev.fld Reg.ccCfg0 16 8 / 256) else c)
        ∧ (due → (t.qp q).tCut = some s.dev.now ∧ (t.qp q).n = 0 ∧ (t.qp q).cuts = x.cuts + 1) ∧ (¬ due → (t.qp q).periodCnp = true ∧ (t.qp q).n = x.n)
        ∧ t.fld (Reg.qpCnt q) 16 16 = satAdd 16 (s.dev.fld (Reg.qpCnt q) 16 16) 1 ∧ (t.qp q).sq = x.sq ∧ kept t
        ∧ s.dev.regsKept t [Reg.qpRate q, Reg.qpCnt q])
       ∧ (s.dev.safe = false → Becomes (.ccPeriodEnd qp) s fun t => (t.qp q).periodCnp = false ∧ (t.qp q).sq = x.sq ∧ kept t ∧ s.dev.regsKept t [Reg.qpRate q]
        ∧ t.fld (Reg.qpRate q) 0 17 = if s.dev.qpState q ≠ 0 ∧ x.periodCnp = false ∧ on then
            min (s.dev.fld (Reg.qpRmax q) 0 17) (c + s.dev.fld Reg.ccCfg1 16 16 * min 8 (1 + (x.n + 1) / max 1 (s.dev.fld Reg.ccCfg0 24 4))) else c))

/-- Completion records and descriptors (R35 to R41, R111, R369 to R373, R378, R380 to R384, R387): a record is written at the next place
of its ring and a FAILED one is acted on by its cause; one read with poison becomes FAILED(POISON), or is lost with both copies of its
index; an item to a revoked region is dropped (notes/assumptions/121.md); the descriptor of the first PLACED batt of a stream holds the
fields of R380 and makes the batt PUBLISHED, or RELEASED when no other stream owes it one. -/
def Obligations.RecordsAndDescriptors : Prop :=
  ∀ (s : State) (st : Fin 8), s.alive → let t := s.dev.str st.val; let cur := s.dev.curQp st.val
    (∀ (pre post : List CmpItem) (c : CmpItem) (b : Binding) (place : Nat) (hits : Hits), t.cmp = pre ++ c :: post → (∀ y ∈ pre, y.posted = true) → c ∉ post →
      c.posted = false → t.bind = some b → s.dev.qpReady cur = true → s.dev.devRec = false → s.dev.safe = false →
      let send := s.dev.flag (Reg.strCfg st.val) 9
      let live := (c.issue ≠ none → s.dev.regionLive b.cmpRegion = true) ∧ (c.issue = none → send = false → s.dev.regionLive b.descRegion = true)
      (¬ live → Becomes (.completionWrite st hits) s fun u => (u.str st.val).cmp = pre ++ post ∧ u.plc.qps = s.dev.plc.qps
        ∧ u = { s.dev with plc := u.plc } ∧ ∀ j, j ≠ st.val → u.str j = s.dev.str j)
      ∧ (live → place = c.place.getD (if c.issue = none then b.descWritten else b.cmpWritten) →
      (c.issue ≠ none → c.place = none → b.cmpWritten - b.cmpRead < b.cmpSlots) →
      let bad := if c.read then [] else badWords c.bytes hits
      let off := if c.issue ≠ none then b.cmpOff + 32 * (place % max 1 b.cmpSlots)
        else if send then 0 else b.descOff + 128 * (place % max 1 b.descSlots)
      let imm := if c.issue = none ∧ s.dev.flag (Reg.strCfg st.val) 8 = true then some (c.batt.1 % 2 ^ 32) else none
      let w : Wqe := { kind := .item st.val place c.issue.isNone, region := if c.issue = none then b.descRegion else b.cmpRegion, off := off, len := c.bytes.length, bytes := c.bytes, imm := imm, send := c.issue.isNone && send }
      let written := fun (u : Dev) => (u.qp cur).sq = (s.dev.qp cur).sq ++ [w]
        ∧ (u.str st.val).cmp = pre ++ { c with place := some place, posted := true, acted := true, read := true } :: post
        ∧ (u.str st.val).bind = some (if c.issue = none ∨ c.place ≠ none then b else { b with cmpWritten := b.cmpWritten + 1 })
        ∧ u.pipes = s.dev.pipes ∧ u.pos = s.dev.pos
      (c.issue = none → Becomes (.completionWrite st hits) s fun v => ∃ u : Dev, v = u.poisonRead 68 5 bad ∧ written u ∧ (u.str st.val).batts = t.batts)
      ∧ (c.issue = none ∨ c.cause = 0 ∨ c.acted = true → bad = [] → Becomes (.completionWrite st hits) s fun u => written u ∧ (u.str st.val).batts = t.batts
        ∧ (u.str st.val).issues = t.issues ∧ u.ful = s.dev.ful ∧ u.hood = s.dev.hood
        ∧ s.dev.regsKept u [Reg.strStat st.val, Reg.plcStat, Reg.plcInflKib])
      ∧ (∀ (i : Issue) (p : Placed) (n : Nat), c.issue = some i → c.acted = false → t.batts.find? (fun p => p.batt == i.batt) = some p → p.fail = 0 →
          (∀ y ∈ t.issues, y.batt ≠ i.batt) → n = ((p.remote.find? fun x => x.1 == i.idx).map (·.2)).getD 0 + 1 →
        let again := (c.cause = 4 ∨ c.cause = 5 ∨ (c.cause = 2 ∨ c.cause = 3) ∧ n < 3) ∧ p.cut = true ∧ i.idx < p.total ∧ i.idx ∉ p.todo ++ p.re ++ p.done
        let fail := if c.cause = 1 then 4 else if c.cause = 7 then 6 else if (c.cause = 2 ∨ c.cause = 3) ∧ 3 ≤ n then 5 else 0
        c.cause ≠ 0 → c.cause ≠ 6 → c.cause ≤ 7 → bad = [] → Becomes (.completionWrite st hits) s fun u => written u
          ∧ (again → ∃ z ∈ (u.str st.val).batts, z.batt = i.batt ∧ z.fail = 0 ∧ z.re = p.re ++ [i.idx])
          ∧ (fail ≠ 0 → ∃ z ∈ (u.str st.val).batts, z.batt = i.batt ∧ z.fail = fail ∧ z.placed = true ∧ z.todo = [] ∧ z.re = [])
          ∧ (∀ j, j ≠ st.val → u.str j = s.dev.str j) ∧ u.ful.batts = s.dev.ful.batts ∧ u.hood = s.dev.hood)
      ∧ (∀ (i : Issue) (p : Placed) (x : Batt), c.issue = some i → c.acted = false → t.batts.find? (fun p => p.batt == i.batt) = some p → p.fail = 0 →
          c.cause = 6 → s.dev.battKey i.batt = some x → s.dev.notHooded x = false → x.tiles ≠ 0 → bad = [] → Becomes (.completionWrite st hits) s fun u =>
            (u.qp cur).sq.getLast? = some w ∧ u.battKey i.batt = some { x with state := .closed, slice := none, again := true, data := [], index := [], deferred := [], capped := 0, cutter := none }
            ∧ (∀ j, j < 8 → ∀ z ∈ (u.str j).batts, z.batt = i.batt → z.fail = 0 → z.cut = false ∧ z.todo = [] ∧ z.re = [] ∧ z.done = [] ∧ z.placed = false)
            ∧ ∀ j, j < 8 → ∀ y ∈ (u.str j).issues, y.batt ≠ i.batt)
      ∧ (∀ i, c.issue = some i → bad ≠ [] → ¬ (0 ∈ bad ∧ 4 ∈ bad) → Becomes (.completionWrite st hits) s fun u => ∃ d c', u = Dev.poisonRead d 68 5 bad
          ∧ c' ∈ (d.str st.val).cmp ∧ c'.issue = some i ∧ c'.cause = 5 ∧ c'.posted = true ∧ leAt c'.bytes 22 1 = 0x85 ∧ leAt c'.bytes 24 4 = 0)
      ∧ (∀ i, c.issue = some i → 0 ∈ bad → 4 ∈ bad → Becomes (.completionWrite st hits) s fun u => ∃ d : Dev,
          u = (d.incSat (Reg.hopCnt 68) 16 16 bad.length).occur [0x4D, 0x69] 0
          ∧ (d.str st.val).cmp = pre ++ post ∧ (d.str st.val).issues = t.issues ++ [i] ∧ d.plc.qps = s.dev.plc.qps)))
    ∧ ((t.cmp.all (·.posted) = true ∨ s.dev.qpReady cur = false ∨ t.bind = none) → ∀ k, Becomes (.completionWrite st k) s (· = s.dev))
    ∧ (∀ (p : Placed) (rest : List Placed) (b : Binding) (x : Batt) (y : Decision), t.batts = p :: rest → t.bind = some b → s.dev.battKey p.batt = some x →
      x.key = p.batt → x.decision = some y →
      let room := s.dev.flag (Reg.strCfg st.val) 9 = true ∨ b.descWritten - b.descRead < b.descSlots
      let free := ∀ f, p.buf = some f → ∀ q ∈ s.dev.plc.qps, ∀ w ∈ q.sq, ∀ pid, w.kind = .parcel st.val pid → w.psn ≠ none → w.region = f.region →
        ¬ (f.off ≤ w.off ∧ w.off < f.off + f.len)
      let ready := p.placed = true ∧ s.dev.devRec = false ∧ s.dev.safe = false ∧ room ∧ (p.fail ≠ 0 ∨ free) ∧ s.dev.cmpLoad + 4 ≤ 1024
        ∧ (s.dev.qpReady cur = true ∧ (∀ c ∈ t.cmp, c.batt = p.batt → c.posted = true) ∨ t.stop ≠ none ∧ s.dev.qpReady cur = false)
      (¬ ready → Becomes (.descriptorWrite st) s (· = s.dev))
      ∧ (ready → (∀ z ∈ s.dev.cnf.retired, z.pending = false) →
        p.fail < 256 → x.num < 2 ^ 48 → y.rung < 8 → x.coil < 2 ^ 32 → p.total < 2 ^ 16 → p.pfailed < 2 ^ 16 → x.data.length < 2 ^ 31 → x.index.length < 2 ^ 26 →
        x.deferred.length < 2 ^ 26 → x.map.length < 2 ^ 20 → x.cropFirst < 2 ^ 20 → x.statLen < 2 ^ 20 → x.edge.length = 64 →
        Becomes (.descriptorWrite st) s fun u => ∃ c : CmpItem, c.issue = none ∧ c.batt = p.batt ∧ c.place = some b.descWritten ∧ c.posted = false
          ∧ (u.str st.val).batts = rest ∧ (u.str st.val).cmp = t.cmp ++ [c] ∧ (u.str st.val).bind = some { b with descWritten := b.descWritten + 1 }
          ∧ u.rd64 (Reg.strPub st.val) % 2 ^ 48 = x.num ∧ (∀ j, j ≠ st.val → u.str j = s.dev.str j) ∧ u.plc.qps = s.dev.plc.qps ∧ u.pipes = s.dev.pipes
          ∧ (∀ z ∈ s.dev.ful.recalls, p.batt.2 = some z.id → ∃ v ∈ u.ful.recalls, v.id = z.id ∧ v.count = z.count + 1
              ∧ v.failed = z.failed + if p.fail = 0 then 0 else 1)
          ∧ (∃ z, u.battKey p.batt = some z ∧ z.owed = x.owed.erase st.val ∧ z.described = true
            ∧ z.state = (let st1 := if p.fail ≠ 0 ∧ x.recalled.isSome = true then .failed else if x.state = .fulled ∧ p.fail = 0 then .published else x.state
                if x.owed.erase st.val = [] ∧ x.slice = none ∧ (st1 = .fulled ∨ st1 = .published) then .released else st1))
          ∧ (let f := fun (o n : Nat) => leAt c.bytes o n
             let ok := fun (v : Nat) => if p.fail = 0 then v else 0
             let has := fun (g : Nat → Bool) => x.map.any fun e => g (bits e 32 16)
             let nt := x.index.length / 16
             let nd := x.deferred.length / 4
             let idx := (x.data.length + 4095) / 4096 * 4096
             let att := idx + (16 * nt + 4095) / 4096 * 4096
             let mp := att + (4 * nd + 63) / 64 * 64
             let edge := mp + (8 * x.map.length + 63) / 64 * 64
             let row0 := (x.num - x.grid.first) * 2 ^ x.grid.hlog
             c.bytes.length = 128 ∧ checkSeal (x.num + 0xFFFF * 2 ^ 48) c.bytes = some (c.bytes.take 124)
             ∧ f 0 8 = x.num + st.val * 2 ^ 48 + b2n x.recalled.isSome * 2 ^ 51 ∧ f 8 4 = s.dev.fld Reg.plantAddr 0 18
             ∧ f 12 1 = (if p.fail ≠ 0 then 3 else if y.overrun = true then 2 else if has (fun z => z % 16 != 0) = true ∨ x.deferred ≠ [] then 1 else 0)
             ∧ f 13 1 = p.fail ∧ f 14 1 = y.rung + 8 * b2n y.exhausted + 16 * b2n y.fixed
             ∧ f 15 1 = b2n x.notHooded + 2 * b2n (has fun z => z % 16 != 0) + 4 * b2n (x.deferred != []) + 8 * b2n x.seamExpired
                + 16 * b2n (has fun z => bit z 9) + 32 * b2n (has fun z => bit z 8) + 64 * b2n p.reissued
             ∧ (row0 < 2 ^ 63 → f 16 8 = row0) ∧ (f 24 8 : Int) = (x.grid.origin + (row0 * x.grid.pitch : Nat)) / 4 % 2 ^ 64
             ∧ (f 32 8 : Int) = y.spos % 2 ^ 64 ∧ f 40 8 = y.time % 2 ^ 64 ∧ f 48 4 = x.coil
             ∧ (∀ z, p.buf = some z → z.seq < 2 ^ 32 → f 52 4 = z.seq) ∧ (p.buf = none → f 52 4 = 2 ^ 32 - 1)
             ∧ f 56 4 = ok (edge + 64 + x.statLen) ∧ f 60 2 = p.total ∧ f 62 2 = p.pfailed ∧ f 64 4 = ok nt ∧ f 68 4 = ok nd ∧ f 72 4 = ok x.data.length
             ∧ f 76 4 = ok idx ∧ f 80 4 = ok att ∧ f 84 4 = ok mp ∧ f 88 4 = ok (8 * x.map.length) ∧ f 92 4 = ok edge ∧ f 96 4 = ok (edge + 64)
             ∧ f 100 2 = ok (listMask (x.stats.map (·.1)) % 2 ^ 16) ∧ f 102 2 = ok (x.cropFirst / 64) ∧ f 104 4 = ok (s.dev.parcelSize st.val)
             ∧ f 108 8 = s.dev.timeNs % 2 ^ 64 ∧ f 116 8 = 0)))
    ∧ ((t.batts = [] ∨ t.bind = none) → Becomes (.descriptorWrite st) s (· = s.dev))

/-- The line group's commands (R400, R401, R403, R424, R426): BAND_CONFIG writes BAND_CFG and the trims, and switches its ports' domains;
BAND_ROLE writes the role, and NONE turns the ports off; TIMEBASE_CONFIG writes TB_CFG and another SRC makes the timebase FREE;
BAND_STATUS reports and changes nothing; what holds already answers ALREADY_DONE. -/
def Obligations.BandCommands : Prop :=
  ∀ (s : State) (r : Req), Begins s r [.bandPort 0, .bandPort 1, .timebase] → let p := r.payload; let role := s.dev.fld Reg.bandCfg 30 2
    (let f := leAt p 0 1
     let cfg := role * 2 ^ 30 + b2n (bit f 2) * 2 ^ 29 + b2n (bit f 0) * 2 ^ 28 + b2n (bit f 1) * 2 ^ 27 + leAt p 2 2
     let held := s.dev.rdN Reg.bandCfg = cfg ∧ s.dev.rdN (Reg.bandpTrim 0) = leAt p 4 4 ∧ s.dev.rdN (Reg.bandpTrim 1) = leAt p 8 4
     let on := (List.range 2).filter fun i => bit f i && !s.dev.flag Reg.bandCfg (28 - i)
     let off := (List.range 2).filter fun i => !bit f i && s.dev.flag Reg.bandCfg (28 - i)
     let set := fun (d : Dev) => d.rdN Reg.bandCfg = cfg ∧ d.rdN (Reg.bandpTrim 0) = leAt p 4 4 ∧ d.rdN (Reg.bandpTrim 1) = leAt p 8 4
       ∧ (∀ i ∈ off, d.bstate i = 0) ∧ (∀ i ∈ on, s.dev.domainOn (112 + i) = true → d.bstate i = 2)
       ∧ (∀ i, i < 2 → i ∉ on → i ∉ off → d.bstate i = s.dev.bstate i) ∧ d.pipes = s.dev.pipes ∧ d.ful = s.dev.ful ∧ d.plc = s.dev.plc
     p.length = 12 → f < 8 → zeroAt p 1 1 = true → 1 ≤ leAt p 2 2 → leAt p 2 2 ≤ 10000 →
     -32768 ≤ signed 32 (leAt p 4 4) → signed 32 (leAt p 4 4) ≤ 32767 → -32768 ≤ signed 32 (leAt p 8 4) → signed 32 (leAt p 8 4) ≤ 32767 →
     (bits f 0 2 ≠ 0 → role ≠ 0) →
     (held → TurnsAway (.bandConfig r) s 0x0C01 r St.alreadyDone)
     ∧ (¬ held → s.dev.lineStarted = true → off ≠ [] → TurnsAway (.bandConfig r) s 0x0C01 r St.badState)
     ∧ (¬ held → (s.dev.lineStarted = false ∨ off = []) → s.dev.stiffActive = false →
       ((∀ i ∈ on, s.dev.domainOn (112 + i) = true) → (∀ i ∈ off, s.dev.domainOn (112 + i) = false) → Does (.bandConfig r) s 0x0C01 r [] set)
       ∧ (((∃ i ∈ on, s.dev.domainOn (112 + i) = false) ∨ ∃ i ∈ off, s.dev.domainOn (112 + i) = true) → GoesOn (.bandConfig r) s 0x0C01 r fun d x => set d
         ∧ x.switch = d.pwr.queue.getLast? ∧ d.pwr.queue = s.dev.pwr.queue
           ++ (off.filter fun i => s.dev.domainOn (112 + i)).map (fun i => (112 + i, false)) ++ (on.filter fun i => !s.dev.domainOn (112 + i)).map fun i => (112 + i, true))))
    ∧ (∀ new : Nat, new = leAt p 0 1 → p.length = 4 → zeroAt p 1 3 = true → new ≤ 2 → new ≠ role → s.dev.lineStarted = false →
      (new = 2 → s.dev.master = none) → s.dev.stiffActive = false → Does (.bandRole r) s 0x0C02 r (le 1 role ++ zeros 3) fun d =>
        ∃ u : Dev, d = u.event 0x8C03 none (le 1 role ++ le 1 new ++ zeros 2) ∧ u.fld Reg.bandCfg 30 2 = new ∧ u.source = none ∧ u.position = 0
        ∧ u.fld Reg.bandStat 16 7 = 0 ∧ u.band.followerOffsets = [] ∧ u.band.openReports = [] ∧ u.flag Reg.posStat 28 = false ∧ u.flag Reg.posStat 27 = false
        ∧ (∀ p : Fin 2, (u.bport p.val).rollSeen = false)
        ∧ (if new = 1 ∧ s.dev.fld Reg.tbCfg 30 2 = 2 then u.tbState = 0 ∧ u.tb.slew = 0 ∧ u.tb.freq = 0 ∧ u.tb.units = s.dev.tb.units else u.tb = s.dev.tb)
        ∧ u.fld Reg.bandCfg 0 16 = s.dev.fld Reg.bandCfg 0 16 ∧ u.ev = s.dev.ev ∧ u.pipes = s.dev.pipes ∧ u.pos = s.dev.pos
        ∧ (if new = 0 then u.bstate 0 = 0 ∧ u.bstate 1 = 0 ∧ u.fld Reg.bandCfg 27 2 = 0 ∧ u.pwr.queue = s.dev.pwr.queue
              ++ ([113, 112].filter fun j => s.dev.domainOn j).map (·, false)
           else u.fld Reg.bandCfg 27 3 = s.dev.fld Reg.bandCfg 27 3 ∧ u.bstate 0 = s.dev.bstate 0 ∧ u.bstate 1 = s.dev.bstate 1 ∧ u.pwr = s.dev.pwr))
    ∧ (∀ src cfg : Nat, src = leAt p 0 1 → p.length = 8 → zeroAt p 4 4 = true → src ≤ 2 → leAt p 1 1 ≤ 2 → leAt p 2 1 ≤ 127 → 2 ≤ leAt p 3 1 →
      leAt p 3 1 ≤ 10 → (src = 2 → role ≠ 0) → cfg = src * 2 ^ 30 + leAt p 1 1 * 2 ^ 28 + leAt p 2 1 * 2 ^ 16 + leAt p 3 1 * 2 ^ 8 →
      (s.dev.rdN Reg.tbCfg = cfg → TurnsAway (.timebaseConfig r) s 0x0C03 r St.alreadyDone)
      ∧ (s.dev.rdN Reg.tbCfg ≠ cfg → s.dev.stiffActive = false → Does (.timebaseConfig r) s 0x0C03 r [] fun d => d.rdN Reg.tbCfg = cfg
        ∧ d.tbState = (if s.dev.fld Reg.tbCfg 30 2 = src then s.dev.tbState else 0) ∧ d.tb.units = s.dev.tb.units
        ∧ (if s.dev.fld Reg.tbCfg 30 2 = src then d.tb = s.dev.tb else d.tb.slew = 0 ∧ d.tb.freq = 0)
        ∧ (s.dev.takeReq 0x0C03 r).regsKept d [Reg.tbCfg, Reg.tbStat] ∧ d = { s.dev.takeReq 0x0C03 r with regs := d.regs, tb := d.tb }))
    ∧ (p = [] → Does (.bandStatus r) s 0x0C04 r
        (le 1 role ++ le 1 s.dev.position ++ le 1 (s.dev.fld Reg.bandStat 16 7) ++ le 1 (s.dev.fld Reg.bandStat 30 2)
          ++ le 1 (b2n (s.dev.flag Reg.posStat 28) + 2 * b2n s.dev.unlocked + 4 * b2n s.dev.dupPlant) ++ le 1 s.dev.tbState ++ zeros 2
          ++ le 4 (s.dev.rdN Reg.tbOffset) ++ zeros 4 ++ le 8 s.dev.groupOpenMin
          ++ (List.range 2).flatMap fun p => le 1 (s.dev.bstate p) ++ le 1 (s.dev.fld (Reg.bandpStat p) 16 6) ++ zeros 2
            ++ le 4 (s.dev.bport p).nbrPlant ++ le 4 (s.dev.rdN (Reg.bandpDelay p)) ++ le 4 (s.dev.rdN (Reg.bandpErr p)))
        fun d => d = s.dev.takeReq 0x0C04 r)

/-- Position and time over the band (R403, R404, R407 to R413, R425): POSITION and TIME carry the sender's SPOS and time; a follower's
SPOS is V + RATE x (t - t_rx + d) from its source port, the UP port whose last valid POSITION has fewer hops, chosen at first and after
2 misses; missed periods set EXTRAP, the hold sets UNLOCKED, UNLOCK_MAX stops the line; PROBEs measure the hop delay. The rounding and
pairing of PROBEs are assumption 90's, the HOPS of values and the times of choosing the source assumptions 91's and 127's. -/
def Obligations.PositionOverTheBand : Prop :=
  ∀ (s : State), s.alive →
    (∀ (p : Fin 2) (after : Fin 854) (dt : Nat), let d := s.dev.advance dt
      let rate := 75 * (d.spos - sposAt d.pos.hist (d.now - 8192) d.spos) / 2
      let hops := d.source.elim d.position fun q => min 63 (d.fld (Reg.bandpStat q) 16 6 + 1)
      let then_ : Int := if d.isFollower = false then d.spos + 64 * rate * (3 * after.val) / (65536 * 768000)
        else if d.band.valid = true ∧ d.band.holding = false then d.spos + (d.bandSposAt after.val - d.bandSposAt 0) else d.spos
      (d.bandRuns p.val = true →
        Becomes (.positionSend p ⟨after, dt⟩) s (fun t => t = (d.modBport p.val fun b => { b with long := !b.long }).emit (.band p.val 1 hops 0
          [then_, rate, b2n d.lineStarted + 2 * b2n (d.flag Reg.posStat 28) + 4 * b2n d.unlocked]))
        ∧ Becomes (.timeSend p dt) s (fun t => t = d.emit (.band p.val 2 hops 0 [(d.timeNs : Int), d.tbState])))
      ∧ (d.bandRuns p.val = false → Becomes (.positionSend p ⟨after, dt⟩) s (· = d) ∧ Becomes (.timeSend p dt) s (· = d)))
    ∧ (∀ (m : BandMsg) (spos : BitVec 64) (rate : Word) (flags : BitVec 8) (dt : Nat), let p := m.port.val; let d := s.dev.advance dt
      d.bandValid m false → m.hops.toNat < 64 →
      let other := d.fld (Reg.bandpStat (1 - p)) 16 6
      let loses := d.bstate (1 - p) = 3 ∧ (d.bport (1 - p)).lastValid = true ∧ (if p = 0 then other < m.hops.toNat else other ≤ m.hops.toNat)
      let src := if d.source = none ∨ 2 ≤ d.fld Reg.bandStat 0 11 then some (if loses then 1 - p else p) else d.source
      let delay := signed 32 (d.rdN (Reg.bandpDelay p))
      let x := spos.toInt + 64 * rate.toInt * (3 * delay) / (65536 * 768000)
      let heard := ((d.bandTaken m false).setFld (Reg.bandpStat p) 16 6 m.hops.toNat).modBport p fun b => { b with lastValid := true, flagsIn := flags.toNat }
      (d.isFollower = false ∨ d.bstate p ≠ 3 → Becomes (.positionRx m spos rate flags dt) s (· = heard.settleStop))
      ∧ (d.isFollower = true → d.bstate p = 3 → Becomes (.positionRx m spos rate flags dt) s fun t => t.fld (Reg.bandpStat p) 16 6 = m.hops.toNat
        ∧ (t.bport p).flagsIn = flags.toNat ∧ (t.bport p).lastValid = true ∧ t.pipes = d.pipes ∧ t.ful = d.ful ∧ t.plc = d.plc
        ∧ t.source = src ∧ (src ≠ some p → t.spos = d.spos ∧ t.band.v = d.band.v)
        ∧ (src = some p → t.fld Reg.bandStat 0 11 = 0 ∧ t.band.v = spos.toInt ∧ t.band.rate = rate.toInt
          ∧ t.band.tRx = d.now ∧ t.band.ownExtrap = false ∧ t.flag Reg.posStat 28 = bit flags.toNat 1
          ∧ t.band.ownUnlocked = (d.band.ownUnlocked && decide (d.band.run + 1 < 1024))
          ∧ t.flag Reg.posStat 27 = (t.band.ownUnlocked || bit flags.toNat 2)
          ∧ (d.band.ownUnlocked = false → d.band.holding = false → -2 ^ 63 ≤ x → x < 2 ^ 63 → t.spos = x)
          ∧ (d.band.ownUnlocked = true → d.band.ownExtrap = true → d.band.holding = false → d.band.run + 1 < 1024 → -2 ^ 63 ≤ x → x < 2 ^ 63 → t.spos = max x d.spos))))
    ∧ (∀ dt : Nat, let d := s.dev.advance dt; let n := min 1024 (d.fld Reg.bandStat 0 11 + 1)
      (d.isFollower = true → d.source ≠ none → Becomes (.positionMiss dt) s fun t => t.fld Reg.bandStat 0 11 = n
          ∧ t.source = (let ok := fun q => d.bstate q = 3 ∧ (d.bport q).lastValid = true
              let hops := fun q => d.fld (Reg.bandpStat q) 16 6
              if n < 2 then d.source else if ok 0 ∧ (ok 1 → hops 0 ≤ hops 1) then some 0 else if ok 1 then some 1 else d.source)
          ∧ t.band.run = 0 ∧ t.band.ownExtrap = (d.band.ownExtrap || decide (2 ≤ n)) ∧ (2 ≤ n → t.flag Reg.posStat 28 = true) ∧ t.spos = d.spos
          ∧ d.regsKept t [Reg.bandStat, Reg.posStat] ∧ t = { d with regs := t.regs, band := t.band })
      ∧ ((d.isFollower = false ∨ d.source = none) → Becomes (.positionMiss dt) s (· = d)))
    ∧ (let due := fun p => s.dev.source = some p ∧ s.dev.isFollower = true ∧ 1024 ≤ s.dev.fld Reg.bandStat 0 11 ∧ s.dev.band.ownUnlocked = false
       (∀ p, due p → Becomes .bandHoldExpiry s fun t => ∃ d : Dev, t = (d.faultOn (0x70 + p)).bandLost p (s.dev.bport p).cause 1
          ∧ d.band.ownUnlocked = true ∧ d.band.run = 0 ∧ d.band.lostPort = some p ∧ d.flag Reg.posStat 27 = true ∧ d.spos = s.dev.spos ∧ d.lineStarted = s.dev.lineStarted
          ∧ s.dev.regsKept d [Reg.posStat])
       ∧ ((∀ p, ¬ due p) → Becomes .bandHoldExpiry s (· = s.dev)))
    ∧ (s.dev.isFollower = true ∧ s.dev.unlocked = true ∧ s.dev.lineStarted = true → Becomes .unlockMaxExpiry s fun t =>
        t = s.dev.finishStop 1 (s.dev.pos.stopAfter.getD s.dev.lastReached) ∧ t.lineStarted = false)
    ∧ (¬ (s.dev.isFollower = true ∧ s.dev.unlocked = true ∧ s.dev.lineStarted = true) → Becomes .unlockMaxExpiry s (· = s.dev))
    ∧ (∀ (m : BandMsg) (time : BitVec 64) (state : BitVec 8) (dt : Nat), let p := m.port.val; let d := s.dev.advance dt
      let takes := d.isFollower = true ∧ d.fld Reg.tbCfg 30 2 = 2 ∧ d.source = some p
      d.bandValid m false →
      (takes → Becomes (.timeRx m time state dt) s fun t => t.tb.units = ((time.toNat * 30000 : Nat) + signed 32 (d.rdN (Reg.bandpDelay p)) * 30000 / 256 : Int).toNat
          ∧ t.tb.slew = 0 ∧ t.tb.freq = 0
          ∧ t.tbState = state.toNat % 4 ∧ t.pos = d.pos ∧ d.regsKept t [Reg.tbStat])
      ∧ (¬ takes → Becomes (.timeRx m time state dt) s (· = d.bandTaken m false)))
    ∧ (∀ (p : Fin 2) (t1 : Int), let b := s.dev.bport p.val; let pair := match b.heard with | some t2 => some (t2, t1) | none => b.t2t3
      (s.dev.bandRuns p.val = true → Becomes (.probeSend p t1) s fun t => t.bport p.val = { b with sentT1 := (t1 :: b.sentT1).take 8, heard := none, t2t3 := pair }
          ∧ t.out = .band p.val 12 s.dev.position 0 (t1 :: pair.elim [] fun x => [x.1, x.2]) :: s.dev.out ∧ s.dev.regsKept t [] ∧ t.bport (1 - p.val) = s.dev.bport (1 - p.val))
      ∧ (s.dev.bandRuns p.val = false → Becomes (.probeSend p t1) s (· = s.dev)))
    ∧ (∀ (m : BandMsg) (t1 t2 t4 t : Int) (older : List Int), let p := m.port.val; let b := s.dev.bport p
      s.dev.bandValid m false → b.sentT1 = t :: older → t1 - t2 ≤ t4 - t →
      let x := (t4 - t) - (t1 - t2) + 2 * signed 32 (s.dev.rdN (Reg.bandpTrim p))
      let mean : Int := (b.meas ++ [x]).foldl (· + ·) 0 / (2 * (b.meas.length + 1))
      (s.dev.bstate p = 3 → Becomes (.probeRx m t1 (some (t2, t1)) t4) s fun u => u.bport p = { b with blockLock := true, heard := some t4, meas := b.meas ++ [x] }
          ∧ s.dev.regsKept u [])
      ∧ (s.dev.bstate p = 2 → b.measured = false → 64 ≤ b.meas.length + 1 → b.rollSeen = true → -2 ^ 31 ≤ mean → mean < 2 ^ 31 →
        Becomes (.probeRx m t1 (some (t2, t1)) t4) s fun u => signed 32 (u.rdN (Reg.bandpDelay p)) = mean ∧ u.bstate p = 3 ∧ (u.bport p).measured = true ∧ (u.bport p).meas = []))
    ∧ (∀ p : Fin 2, let b := s.dev.bport p.val; let x := signed 32 (s.dev.rdN (Reg.bandpDelay p.val)); let mean : Int := b.meas.foldl (· + ·) 0 / (2 * b.meas.length)
      (s.dev.bstate p.val = 3 → b.meas ≠ [] → -2 ^ 30 ≤ mean → mean < 2 ^ 30 → Becomes (.hopDelayUpdate p) s fun t =>
        signed 32 (t.rdN (Reg.bandpDelay p.val)) = x + (mean - x) / 16 ∧ t.bport p.val = { b with meas := [] } ∧ s.dev.regsKept t [Reg.bandpDelay p.val])
      ∧ ((s.dev.bstate p.val ≠ 3 ∨ b.meas = []) → Becomes (.hopDelayUpdate p) s (· = s.dev)))

/-- Messages of the band link (R394, R395, R397 to R399, R402, R415 to R421): one taken in order is acknowledged and passed on or applied,
one taken before is acknowledged again, others are discarded and counted; ROLL gives position and size; the lead repeats the line
state; an unacknowledged message is sent again up to 16 times; stops spread once. -/
def Obligations.BandMessages : Prop :=
  ∀ (s : State), s.alive →
    (∀ (m : BandMsg) (c : LineChange) (spos : BitVec 64), let p := m.port.val; let b := s.dev.bport p
      (s.dev.bandRuns p = false → Becomes (.configRx m c spos) s (· = s.dev))
      ∧ (s.dev.bandRuns p = true → m.how.val = 1 ∨ m.how.val = 2 → Becomes (.configRx m c spos) s fun t =>
          t.fld (Reg.bandpErr p) 24 8 = satAdd 8 (s.dev.fld (Reg.bandpErr p) 24 8) 1 ∧ t.fld (Reg.bandpErr p) 0 24 = s.dev.fld (Reg.bandpErr p) 0 24
          ∧ s.dev.regsKept t [Reg.bandpErr p, Reg.hopCnt (69 + p)] ∧ t.band = s.dev.band ∧ t.out = s.dev.out)
      ∧ (s.dev.bandRuns p = true → m.how.val = 0 → badWords [] m.hits = [] → s.dev.bstate p = 3 → m.lseq.toNat ≠ b.rxSeq → Becomes (.configRx m c spos) s fun t =>
          s.dev.regsKept t [] ∧ t.bport p = { b with blockLock := true }
          ∧ t.out = if (b.rxSeq + 65536 - m.lseq.toNat) % 65536 < 32768 then .band p 13 s.dev.position 0 [(m.lseq.toNat : Int)] :: s.dev.out else s.dev.out)
      ∧ (s.dev.bandValid m true → s.dev.isFollower = false → Becomes (.configRx m c spos) s (· = s.dev.bandTaken m true))
      ∧ (s.dev.bandValid m true → s.dev.isFollower = true →
        let u := (s.dev.bandTaken m true).passedOn m 4 (m.hops.toNat + 1) true (c.body ++ [spos.toInt])
        let seen := (1 - p, (4 : Int) :: (c.body ++ [spos.toInt])) ∈ s.dev.band.seen
        (s.dev.flag Reg.bandCfg 29 = true → seen → Becomes (.configRx m c spos) s fun t => t.regs = u.regs ∧ t.out = u.out ∧ t.pos = u.pos ∧ t.ful = u.ful)
        ∧ ((s.dev.flag Reg.bandCfg 29 = false ∨ ¬ seen) → Becomes (.configRx m c spos) s fun t => match c with
          | .geometry pitch hlog => t.out = u.out ∧ t.pos = u.pos ∧ (if s.dev.lineStarted then u.regsKept t []
              else t.fld Reg.battCfg 0 24 = pitch.toNat ∧ t.fld Reg.battCfg 28 4 = hlog.toNat ∧ u.regsKept t [Reg.battCfg])
          | .deadline pos time => t.out = u.out ∧ t.rd Reg.btDlPos = pos ∧ t.rd Reg.btDlTime = time ∧ u.regsKept t [Reg.btDlPos, Reg.btDlTime]
          | .start o f _ => t.lineStarted = true ∧ t.rdI64 Reg.lineOrigin = o.toInt ∧ t.battFirst = f.toNat
          | .stop now _ => (s.dev.lineStarted = false → t.regs = u.regs) ∧ (now = true → t.lineStarted = false)
          | .state started _ _ o f dp dt _ => t.rd Reg.btDlPos = dp ∧ t.rd Reg.btDlTime = dt ∧ (s.dev.lineStarted = true → t.lineStarted = true)
              ∧ (started = false → t.lineStarted = s.dev.lineStarted) ∧ (started = true → s.dev.lineStarted = false ∧ s.dev.pos.gen = 0 ∨ s.dev.lineStarted = true ∧ s.dev.battFirst < f.toNat → t.lineStarted = true
                ∧ t.rdI64 Reg.lineOrigin = o.toInt ∧ t.battFirst = f.toNat))))
    ∧ (∀ p : Fin 2, (s.dev.bandRuns p.val = true → Becomes (.rollSend p) s fun t => ∃ b, t = { s.dev with band := b, out := t.out }
          ∧ t.bport p.val = { s.dev.bport p.val with txSeq := ((s.dev.bport p.val).txSeq + 1) % 65536, unacked := (t.bport p.val).unacked }
          ∧ ∃ size : Int, t.out = .band p.val 3 (s.dev.position + 1) (s.dev.bport p.val).txSeq
            [s.dev.fld Reg.bandCfg 30 2, s.dev.position, s.dev.rdN Reg.plantAddr, s.dev.rdN Reg.devFirst, s.dev.rdN Reg.devLast, size] :: s.dev.out)
        ∧ (s.dev.bandRuns p.val = false → Becomes (.rollSend p) s (· = s.dev))
        ∧ (s.dev.bstate p.val = 4 ∧ s.dev.safe = false → Becomes (.bandRetrain p) s fun t => t.bstate p.val = 2 ∧ s.dev.onlyRegs t [Reg.bandpStat p.val])
        ∧ (¬ (s.dev.bstate p.val = 4 ∧ s.dev.safe = false) → Becomes (.bandRetrain p) s (· = s.dev))
        ∧ (s.dev.bstate p.val = 3 → Becomes (.bandBlockLockLoss p) s fun t => ∃ d : Dev, d.bstate p.val = 4 ∧ d.fld (Reg.bandpErr p.val) 0 8 = satAdd 8 (s.dev.fld (Reg.bandpErr p.val) 0 8) 1
          ∧ (d.bport p.val).unacked = [] ∧ (d.bport p.val).blockLock = false ∧ s.dev.regsKept d [Reg.bandpStat p.val, Reg.bandpErr p.val]
          ∧ t = if s.dev.isFollower = true ∧ s.dev.source = some p.val then d else (d.faultOn (0x70 + p.val)).bandLost p.val 0 0)
        ∧ (s.dev.bstate p.val ≠ 3 → Becomes (.bandBlockLockLoss p) s fun t => t = s.dev.modBport p.val fun b => { b with blockLock := false })
        ∧ (∀ (lseq : BitVec 16) (x : BandSent), (s.dev.bport p.val).unacked.find? (fun x => x.lseq == lseq.toNat) = some x → s.dev.bandRuns p.val = true →
          (x.attempts < 16 → Becomes (.bandRetransmit p lseq) s fun t => (t.bport p.val).unacked = ((s.dev.bport p.val).unacked.map fun y =>
                if y.lseq = x.lseq then { y with attempts := y.attempts + 1 } else y)
              ∧ t.out = .band p.val x.kind x.hops x.lseq x.body :: s.dev.out
              ∧ t.fld (Reg.bandpErr p.val) 8 8 = satAdd 8 (s.dev.fld (Reg.bandpErr p.val) 8 8) 1 ∧ s.dev.regsKept t [Reg.bandpErr p.val])
          ∧ (16 ≤ x.attempts → (s.dev.isFollower = true → s.dev.source ≠ some p.val) → Becomes (.bandRetransmit p lseq) s fun t => ∃ d : Dev,
              t = (d.faultOn (0x70 + p.val)).bandLost p.val 1 0 ∧ d.bstate p.val = 4 ∧ (d.bport p.val).unacked = []))
        ∧ (∀ lseq : BitVec 16, (∀ x ∈ (s.dev.bport p.val).unacked, x.lseq ≠ lseq.toNat) → Becomes (.bandRetransmit p lseq) s (· = s.dev)))
    ∧ (∀ (m : BandMsg) (acked : BitVec 16), s.dev.bandValid m false → Becomes (.bandAckRx m acked) s fun t =>
        t = (s.dev.bandTaken m false).modBport m.port.val fun b => { b with unacked := b.unacked.filter fun x => x.lseq != acked.toNat })
    ∧ (∀ (m : BandMsg) (role : Fin 3) (pos : BitVec 6) (plant : Word) (first last : BitVec 20) (size : BitVec 7), let p := m.port.val
      s.dev.bandValid m true → let clash := s.dev.isLead = true ∧ role.val = 1 ∨ s.dev.isFollower = true ∧ p = 0 ∧ 63 < m.hops.toNat
      (¬ clash → Becomes (.rollRx m role pos plant first last size) s fun t => t.fld (Reg.bandpStat p) 0 6 = pos.toNat ∧ (t.bport p).nbrRole = role.val
        ∧ (t.bport p).nbrPlant = plant.toNat ∧ (t.bport p).nbrFirst = first.toNat ∧ (t.bport p).nbrLast = last.toNat ∧ (t.bport p).rollSeen = true
        ∧ t.position = (if s.dev.isFollower = true ∧ p = 0 then m.hops.toNat else s.dev.position)
        ∧ t.fld Reg.bandStat 16 7 = (if s.dev.isFollower = true ∧ p = 0 ∨ s.dev.isLead = true ∧ p = 1 then size.toNat else s.dev.fld Reg.bandStat 16 7)
        ∧ s.dev.regsKept t [Reg.bandpStat p, Reg.bandStat] ∧ t.bstate p = 3 ∧ t.ev = s.dev.ev)
      ∧ (clash → Becomes (.rollRx m role pos plant first last size) s fun t => t.bstate p = 3 ∧ t.position = s.dev.position ∧ (t.bport p).nbrPlant = plant.toNat ∧ (t.bport p).rollSeen = false))
    ∧ (∀ (m : BandMsg) (role : Fin 3) (pos : BitVec 6) (plant : Word) (first last : BitVec 20) (size : BitVec 7), let p := m.port.val
      m.how.val = 0 → badWords [] m.hits = [] → s.dev.bstate p = 2 → s.dev.safe = false → (s.dev.bport p).roleLost = false →
      (m.lseq.toNat = (s.dev.bport p).rxSeq ∨ (s.dev.bport p).synced = false) →
      ((s.dev.isLead = true ∧ role.val = 1 ∨ s.dev.isFollower = true ∧ p = 0 ∧ 63 < m.hops.toNat) → Becomes (.rollRx m role pos plant first last size) s fun t =>
        ∃ d : Dev, t = (d.faultOn (0x70 + p)).bandLost p 3 0 ∧ d.bstate p = 2 ∧ (d.bport p).rollSeen = false)
      ∧ (¬ (s.dev.isLead = true ∧ role.val = 1 ∨ s.dev.isFollower = true ∧ p = 0 ∧ 63 < m.hops.toNat) → Becomes (.rollRx m role pos plant first last size) s fun t =>
        (t.bport p).rollSeen = true ∧ t.bstate p = (if (s.dev.bport p).measured then 3 else 2)))
    ∧ (let u := s.dev.settleStop
      (s.dev.isLead = true → u.safe = false → u.bstate 0 = 3 → u.bstate 1 ≠ 3 → Becomes .lineStateRepeat s fun t =>
        t.out = .band 0 4 u.position (u.bport 0).txSeq [0, b2n s.dev.lineStarted, s.dev.fld Reg.battCfg 0 24, s.dev.fld Reg.battCfg 28 4,
          s.dev.rdI64 Reg.lineOrigin, s.dev.battFirst, s.dev.rdN Reg.btDlPos, s.dev.rdN Reg.btDlTime, s.dev.spos] :: u.out ∧ u.regsKept t [])
      ∧ (s.dev.isLead = true → u.safe = true ∨ u.bstate 0 ≠ 3 ∧ u.bstate 1 ≠ 3 → Becomes .lineStateRepeat s (· = u))
      ∧ (s.dev.isLead = false → Becomes .lineStateRepeat s (· = s.dev)))
    ∧ (∀ (m : BandMsg) (target : BitVec 64) (source : Fin 2) (group : BitVec 8) (cmd : Nat) (seq : Word) (es : List ExpItem), s.dev.bandValid m true →
      let u := (s.dev.bandTaken m true).passedOn m 5 (m.hops.toNat + 1) true ([(target.toNat : Int), source.val, group.toNat, cmd, seq.toNat] ++ es.flatMap ExpItem.body)
      (s.dev.isFollower = false → Becomes (.exposeRx m target source group cmd seq es) s (· = s.dev.bandTaken m true))
      ∧ (s.dev.isFollower = true → s.dev.flag Reg.bandCfg 29 = false → (∀ e ∈ es, e.dev.val ≠ s.dev.position) → Becomes (.exposeRx m target source group cmd seq es) s (· = u))
      ∧ (∀ e : ExpItem, s.dev.isFollower = true → s.dev.flag Reg.bandCfg 29 = false → es.filter (fun e => e.dev.val == s.dev.position) = [e] → source.val = 0 →
        Becomes (.exposeRx m target source group cmd seq es) s fun t =>
          t = if (u.groupOfHead e.head.val).isSome ∨ u.fifth e.head.val target.toNat = true then u.resolveEntry (leadCmd + cmd) (s.dev.position * 16 + e.head.val) false false
            else u.commitEntry e.head.val target.toNat (leadCmd + cmd) ⟨e.time.toNat, e.gain.toNat, e.width.toNat, e.expid.toNat⟩))
    ∧ (∀ (m : BandMsg) (rep : Report), s.dev.bandValid m true →
      (s.dev.isLead = false → Becomes (.reportRx m rep) s fun t => t = (s.dev.bandTaken m true).passedOn m 6 s.dev.position false rep.body)
      ∧ (s.dev.isLead = true → Becomes (.reportRx m rep) s fun t => let u := s.dev.bandTaken m true
        match rep with
        | .offset pos o => t = { u with band := { u.band with followerOffsets := (s.dev.band.followerOffsets.filter fun x => x.1 != pos.val) ++ o.toList.map fun x => (pos.val, x) } }
        | .entry c dv h a l => t = u.resolveEntry c (dv.val * 16 + h.val) a l
        | .loop .. => s.dev.lineStarted = false → t = u))
    ∧ (∀ (m : BandMsg) (pos : Fin 64) (batt : BitVec 48), s.dev.bandValid m true →
      (s.dev.isLead = false → Becomes (.battOpenRx m pos batt) s fun t => t = (s.dev.bandTaken m true).passedOn m 9 s.dev.position false [(pos.val : Int), batt.toNat])
      ∧ (s.dev.isLead = true → Becomes (.battOpenRx m pos batt) s fun t => let u := s.dev.bandTaken m true
        t = { u with band := { u.band with openReports := (s.dev.band.openReports.filter fun x => x.1 != pos.val) ++ [(pos.val, batt.toNat)] } }))
    ∧ (∀ (m : BandMsg) (batt : BitVec 48) (flagged : List Bool), s.dev.bandValid m true → Becomes (.battCloseRx m batt flagged) s fun t =>
        let u := s.dev.bandTaken m true
        let keep := s.dev.band.closes.filter fun c => decide (s.dev.undecided ≤ c.batt)
        t = { u with band := { u.band with closes := if batt.toNat < s.dev.undecided then keep else keep ++ [⟨m.port.val, batt.toNat, flagged⟩] } })
    ∧ (∀ (m : BandMsg) (batt : BitVec 48) (row : BitVec 16) (col : BitVec 20) (planes : List (List Word)), let p := m.port.val
      (s.dev.bandValid m false → Becomes (.seamRowRx m batt row col planes) s fun t => let u := s.dev.bandTaken m false
        t = if batt.toNat < s.dev.undecided then u else { u with band := { u.band with
          seamRows := u.band.seamRows ++ [⟨p, batt.toNat, row.toNat, col.toNat, planes.map fun l => l.map BitVec.toNat⟩] } })
      ∧ (s.dev.bandRuns p = true → m.how.val = 2 → Becomes (.seamRowRx m batt row col planes) s fun t => t.band = s.dev.band
          ∧ t.fld (Reg.bandpErr p) 16 8 = satAdd 8 (s.dev.fld (Reg.bandpErr p) 16 8) 1 ∧ t.fld (Reg.bandpErr p) 24 8 = satAdd 8 (s.dev.fld (Reg.bandpErr p) 24 8) 1))
    ∧ (∀ (p : Fin 2) (b : Batt) (cols : Nat × Nat) (corrected bad : List Nat), let live := s.dev.ful.batts.filter fun b => b.recalled.isNone
      live.find? (fun b => !s.dev.seamDone p.val b) = some b → s.dev.seamCols p.val b = some cols → let i := s.dev.seamSent p.val b.num
      (s.dev.bstate p.val = 3 → s.dev.safe = false → s.dev.seamReady b cols i = true → Becomes (.seamRowSend p corrected bad) s fun t => ∃ w : Dev,
        let u := s.dev.fsErrors corrected bad
        t = w.sendDueCloses p.val ∧ w.seamSent p.val b.num = i + 1 ∧ u.regsKept w [] ∧ w.pipes = u.pipes ∧ w.ful = u.ful
        ∧ (let v := u.liveView (u.fulBankFor b.num)
           let src := u.sourceOf b v []
           w.out = .band p.val 7 u.position 0 ([(b.num : Int), i, v.outPlanes, cols.1, cols.2] ++ (List.range v.outPlanes).flatMap fun j =>
             (List.range cols.2).map fun k => let q := src.position i (cols.1 + k)
               if q.filled = true ∨ bad ≠ [] then 0 else ((2 ^ 31 + b2n (q.px.getD j (0, false)).2 * 2 ^ 24 + (q.px.getD j (0, false)).1 % 2 ^ 24 : Nat) : Int)) :: u.out))
      ∧ ((s.dev.bstate p.val ≠ 3 ∨ s.dev.safe = true ∨ s.dev.seamReady b cols i = false) → Becomes (.seamRowSend p corrected bad) s (· = s.dev)))
    ∧ (∀ (m : BandMsg) (origin : Fin 64) (source : BitVec 8) (stop : Nat), s.dev.bandValid m true → let u := s.dev.bandTaken m true; let p := m.port.val
      ((origin.val, stop) ∈ s.dev.band.stops → Becomes (.groupStopRx m origin source stop) s (· = u))
      ∧ ((origin.val, stop) ∉ s.dev.band.stops → Becomes (.groupStopRx m origin source stop) s fun t => ∃ d : Dev,
          d = ({ u with band := { u.band with stops := (origin.val, stop) :: s.dev.band.stops } } : Dev).passedOn m 10 s.dev.position false [(origin.val : Int), source.toNat, stop]
          ∧ t = ((((d.setFlag (Reg.fltSticky 3) (16 + p) true).countUnit 2 FUnit.device).entered ⟨0x70 + p, 2, 2, [FUnit.device]⟩).deviceRecovery []).updatePin))
    ∧ (∀ (m : BandMsg) (origin : Fin 64), s.dev.bandValid m false → let u := s.dev.bandTaken m false; let p := m.port.val
      (s.dev.isFollower = true → Becomes (.safeStopRx m origin 1) s fun t => t.lineStarted = false
        ∧ t = (if s.dev.bandRuns (1 - p) then u.emit (.band (1 - p) 11 s.dev.position 0 [(origin.val : Int), 1]) else u).stopNow 2)
      ∧ (s.dev.isFollower = false → Becomes (.safeStopRx m origin 1) s (· = u)) ∧ Becomes (.safeStopRx m origin 0) s (· = u)
      ∧ ((s.dev.isFollower = true → s.dev.source ≠ some p) → Becomes (.safeStopRx m origin 2) s fun t => ∃ d : Dev,
          t = (d.faultOn (0x70 + p)).bandLost p 2 0 ∧ d.bstate p = 4))

/-- Plant time from PTP (R423, R424): an accepted Announce makes a FREE or HOLDOVER timebase ACQUIRING; the first Sync steps the time
once and later ones only set a correction of the rate; 16 Syncs below 50 ns lock it; an offset above 1 us or missing Announces lose it,
and it runs on at its last frequency. The handling of two-step masters and of the path delay follows R423 as the model reads it
(assumption 96), the best master IEEE 1588-2019 (128); the frequency is the model's own choice (129). -/
def Obligations.PlantTime : Prop :=
  ∀ (s : State), s.alive →
    (∀ (h : Ptp) (a : Announce),
      let mine := s.dev.fld Reg.tbCfg 30 2 = 1 ∧ s.dev.fld Reg.tbCfg 28 2 = h.transport.val ∧ s.dev.plc.mgmtPort = h.port.val
        ∧ s.dev.fld Reg.tbCfg 16 8 = h.domain.toNat
      let best := a.steps.toNat < 255 ∧ ∀ r, s.dev.tb.rank = some r → s.dev.rd64 Reg.tbMaster = h.master.toNat ∨ a.rank h.master < r
      (mine → best → ∃ t, exec (.ptpAnnounceRx h a) s = .next { s with dev := t } ∧ t.rd64 Reg.tbMaster = h.master.toNat ∧ t.tb.rank = some (a.rank h.master)
        ∧ t.tbState = (if s.dev.tbState = 0 ∨ s.dev.tbState = 3 then 1 else s.dev.tbState) ∧ t.tb.units = s.dev.tb.units
        ∧ t.tb.slew = s.dev.tb.slew ∧ t.tb.freq = s.dev.tb.freq ∧ t.tb.pathDelay = s.dev.tb.pathDelay
        ∧ s.dev.regsKept t [Reg.tbMaster, Reg.tbMaster + 4, Reg.tbStat] ∧ t = { s.dev with regs := t.regs, tb := t.tb })
      ∧ (¬ (mine ∧ best) → exec (.ptpAnnounceRx h a) s = .next s))
    ∧ (∀ (h : Ptp) (twoStep : Bool) (t1 : BitVec 64) (err : Int) (dt : Nat), let d := s.dev.advance dt
      let master := d.fld Reg.tbCfg 30 2 = 1 ∧ d.fld Reg.tbCfg 28 2 = h.transport.val ∧ d.plc.mgmtPort = h.port.val
        ∧ d.fld Reg.tbCfg 16 8 = h.domain.toNat ∧ d.rd64 Reg.tbMaster = h.master.toNat
      let t2 := (d.timeNs : Int) + max (-4) (min 4 err)
      let off := t2 - t1.toNat - d.tb.pathDelay
      let asked := Out.frame (if h.transport.val = 2 then 0x88F7 else 319) [(h.transport.val : Int), h.port.val, 1, d.timeNs] :: d.out
      (¬ master → exec (.ptpSyncRx h twoStep t1 err dt) s = .next { s with dev := d })
      ∧ (master → twoStep = true → exec (.ptpSyncRx h twoStep t1 err dt) s = .next { s with dev := { d with tb := { d.tb with twoStep := some (t2, d.now) } } })
      ∧ (master → twoStep = false → (d.tbState = 0 ∨ d.tbState = 3) → exec (.ptpSyncRx h twoStep t1 err dt) s = .next { s with dev := d })
      ∧ (master → twoStep = false → d.tbState = 1 → d.tb.stepped = false → ∃ t, exec (.ptpSyncRx h twoStep t1 err dt) s = .next { s with dev := t } ∧
          t.tb.units = ((d.tb.units : Int) - 30000 * off).toNat ∧ t.tb.stepped = true ∧ t.tbState = 1 ∧ t.rdN Reg.tbOffset = 0 ∧ t.tb.slew = 0
          ∧ t.out = asked ∧ d.regsKept t [Reg.tbOffset])
      ∧ (master → twoStep = false → (d.tbState = 1 ∧ d.tb.stepped = true ∨ d.tbState = 2) → -2 ^ 31 ≤ off → off < 2 ^ 31 →
          let n := if off.natAbs < 50 then d.tb.good + 1 else 0
          ∃ t, exec (.ptpSyncRx h twoStep t1 err dt) s = .next { s with dev := t } ∧ t.tb.units = d.tb.units ∧ t.out = asked
          ∧ t.tb.freq = d.tb.freqAt t1.toNat d.now ∧ signed 32 (t.rdN Reg.tbOffset) = off
          ∧ t.tbState = (if d.tbState = 1 then (if 16 ≤ n then 2 else 1) else if 1000 < off.natAbs then 3 else 2)
          ∧ (t.tbState ≠ 3 → t.tb.slew = -30000 * off ∧ t.tb.good = n ∧ t.tb.lastSync = some ((t1.toNat : Int), t2) ∧ t.tb.delayReq = some (d.timeNs : Int))
          ∧ (t.tbState = 3 → t.tb.slew = 0)
          ∧ (t.tbState = d.tbState → t.ev = d.ev)
          ∧ (d.tbState = 1 ∧ 16 ≤ n → t.fld Reg.tbStat 0 8 = satAdd 8 (d.fld Reg.tbStat 0 8) 1 ∧ ∃ u : Dev, t = u.event 0x8C04 none (le 4 (u.rdN Reg.tbOffset) ++ le 8 h.master.toNat))
          ∧ (d.tbState = 2 ∧ 1000 < off.natAbs → ∃ u : Dev, t = u.event 0x8C05 none (le 1 0 ++ zeros 3 ++ le 4 (u.rdN Reg.tbOffset)))
          ∧ t.pipes = d.pipes ∧ t.pos = d.pos))
    ∧ (let src := s.dev.fld Reg.tbCfg 30 2
       (src ≠ 1 → exec .announceTimeout s = .next s)
       ∧ (src = 1 → s.dev.tbState = 0 ∨ s.dev.tbState = 3 →
          exec .announceTimeout s = .next { s with dev := { s.dev with tb := { s.dev.tb with rank := none } } })
       ∧ (src = 1 → s.dev.tbState = 1 → ∃ t, exec .announceTimeout s = .next { s with dev := t }
          ∧ t.tbState = (if s.dev.tb.stepped then 3 else 0) ∧ t.tb.units = s.dev.tb.units ∧ t.tb.rank = none ∧ t.tb.freq = s.dev.tb.freq
          ∧ s.dev.regsKept t [Reg.tbStat] ∧ t.ev = s.dev.ev)
       ∧ (src = 1 → s.dev.tbState = 2 → ∃ t, exec .announceTimeout s = .next { s with dev := t } ∧ ∃ u : Dev, t = u.event 0x8C05 none (le 1 1 ++ zeros 3 ++ le 4 (s.dev.rdN Reg.tbOffset))
          ∧ u.tbState = 3 ∧ u.tb.slew = 0 ∧ u.tb.freq = s.dev.tb.freq ∧ u.tb.rank = none ∧ u.tb.units = s.dev.tb.units ∧ s.dev.regsKept u [Reg.tbStat]))
    ∧ (∀ (h : Ptp) (t1 : BitVec 64), let master := s.dev.fromMaster h = true
      (s.dev.tb.twoStep = none ∨ ¬ master → Becomes (.ptpFollowUpRx h t1) s (· = s.dev))
      ∧ (∀ t2 n, s.dev.tb.twoStep = some (t2, n) → master → Becomes (.ptpFollowUpRx h t1) s fun t => t = s.dev.takeSync t1.toNat t2 n ∧
          (s.dev.tbState = 1 ∧ s.dev.tb.stepped = true ∨ s.dev.tbState = 2 → t.tb.twoStep = none ∧ (t.tbState ≠ 3 → t.tb.slew = -30000 * (t2 - t1.toNat - s.dev.tb.pathDelay)))))
    ∧ (∀ (h : Ptp) (t4 : BitVec 64), let master := s.dev.fromMaster h = true
      (¬ master ∨ s.dev.tb.lastSync = none ∨ s.dev.tb.delayReq = none → Becomes (.ptpDelayRespRx h t4) s (· = s.dev))
      ∧ (∀ t1 t2 t3, s.dev.tb.lastSync = some (t1, t2) → s.dev.tb.delayReq = some t3 → master → Becomes (.ptpDelayRespRx h t4) s fun t =>
          t = { s.dev with tb := { s.dev.tb with pathDelay := ((t2 - t1) + ((t4.toNat : Int) - t3)) / 2, delayReq := none } }))

/-- The fault commands (R467, R470, R472, R473, R476): FAULT_CONFIG sets PIN_MIN and the class, ESC and GRP of its entries and no other
source's; QUIET_SET sets the quiet periods and limits and returns the previous values; a recovery in progress keeps its own. FAULT_STATUS
reports the collector and with CLEAR clears the sticky bits of sources that are not live; FAULT_LOG_READ returns entries in ascending SEQ
and removes none. -/
def Obligations.FaultCommands : Prop :=
  ∀ (s : State) (r : Req), Begins s r [.faultConfig] → let p := r.payload
    (let pin := leAt p 0 1
     let es := (List.range (leAt p 1 1)).map fun e => (leAt p (4 + 4 * e) 1, leAt p (5 + 4 * e) 1, leAt p (6 + 4 * e) 1)
     let word := fun (e : Nat × Nat × Nat) => b2n (bit e.2.2 1) * 32 + b2n (bit e.2.2 0) * 16 + e.2.1
     let same := (pin = 0 ∨ pin = s.dev.fld Reg.fltCfg 28 2) ∧ ∀ e ∈ es, s.dev.fld (Reg.fltClass e.1) 0 6 = word e
     p.length = 4 + 4 * leAt p 1 1 → zeroAt p 2 2 = true → (∀ e, e < leAt p 1 1 → leAt p (6 + 4 * e) 1 < 4 ∧ leAt p (7 + 4 * e) 1 = 0) → pin ≤ 3 →
     (∀ e ∈ es, FaultSource.reserved e.1 = false ∧ e.2.1 < 4 ∧ s.dev.flag (Reg.fltClass e.1) (24 + e.2.1) = true ∧ (bit e.2.2 1 = true → e.2.1 = 2)) →
     (es.map (·.1)).Nodup →
     (same → TurnsAway (.faultConfig r) s 0x0D01 r St.alreadyDone)
     ∧ (¬ same → s.dev.stiffActive = false → Does (.faultConfig r) s 0x0D01 r [] fun d =>
         (∀ e ∈ es, d.fld (Reg.fltClass e.1) 0 6 = word e ∧ d.fld (Reg.fltClass e.1) 24 4 = s.dev.fld (Reg.fltClass e.1) 24 4)
         ∧ d.fld Reg.fltCfg 28 2 = (if pin = 0 then s.dev.fld Reg.fltCfg 28 2 else pin) ∧ d.fld Reg.fltCfg 0 28 = s.dev.fld Reg.fltCfg 0 28
         ∧ (∀ x, x < 256 → x ∉ es.map (·.1) → d.rd (Reg.fltClass x) = s.dev.rd (Reg.fltClass x)) ∧ d.flt = s.dev.flt
         ∧ (s.dev.takeReq 0x0D01 r).regsKept d ([Reg.fltCfg, Reg.fltState, Reg.mbAlert] ++ es.map fun e => Reg.fltClass e.1)))
    ∧ (p.length = 4 → leAt p 0 1 < 2 → zeroAt p 1 3 = true → ∃ w : Bytes, w.length = 292
        ∧ leAt w 0 1 = 0 ∧ leAt w 1 1 = s.dev.fld Reg.fltState 30 1 ∧ leAt w 4 4 = s.dev.rdN Reg.fltDevcnt
        ∧ (∀ i, i < 8 → leAt w (16 + 4 * i) 4 = s.dev.rdN (Reg.fltSticky i) ∧ leAt w (48 + 4 * i) 4 = s.dev.rdN (Reg.fltLive i))
        ∧ leAt w 80 4 = s.dev.rdN Reg.fltUrec ∧ leAt w 88 8 = s.dev.rd64 Reg.fltQprec
        ∧ (∀ u, u < 90 → leAt w (96 + 2 * u) 2 = s.dev.fld (Reg.fltUcnt u) 0 16) ∧ (∀ q, q < 8 → leAt w (276 + 2 * q) 2 = s.dev.fld (Reg.fltPcnt q) 0 16)
        ∧ Does (.faultStatus r) s 0x0D02 r w fun d => (s.dev.takeReq 0x0D02 r).onlyRegs d ((List.range 8).map Reg.fltSticky)
          ∧ ∀ i, i < 8 → d.rd (Reg.fltSticky i) = if leAt p 0 1 = 1 then s.dev.rd (Reg.fltSticky i) &&& s.dev.rd (Reg.fltLive i) else s.dev.rd (Reg.fltSticky i))
    ∧ (∀ n off : Nat, n = leAt p 4 1 → p.length = 8 → zeroAt p 5 3 = true → 1 ≤ n → n ≤ 42 → let l := s.dev.flt.log
        let oldest := s.dev.flt.logNext - BitVec.ofNat 32 l.length
        off = (if leAt p 0 4 = 2 ^ 32 - 1 then 0 else (BitVec.ofNat 32 (leAt p 0 4) - oldest).toNat) →
        (off ≤ l.length → l.length ≤ 1024 → Does (.faultLogRead r) s 0x0D03 r
          (le 4 oldest.toNat ++ le 4 (s.dev.flt.logNext - 1).toNat ++ le 1 (min n (l.length - off)) ++ zeros 3
            ++ ((l.drop off).take n).flatMap fun e => le 4 e.seq.toNat ++ le 1 e.kind ++ le 1 e.cls ++ le 1 e.unit.kind ++ le 1 e.unit.idx
              ++ le 8 e.time ++ sle 8 e.spos ++ le 32 e.sticky.toNat ++ le 32 e.live.toNat ++ le 4 e.recov ++ zeros 4)
          fun d => d = s.dev.takeReq 0x0D03 r)
        ∧ (2 ^ 31 ≤ off → TurnsAway (.faultLogRead r) s 0x0D03 r St.tooLate)
        ∧ (l.length < off → off < 2 ^ 31 → TurnsAway (.faultLogRead r) s 0x0D03 r St.badParam))
    ∧ (let prev := le 2 (s.dev.fld Reg.fltQuiet1 0 14) ++ le 2 (s.dev.fld Reg.fltQuiet2 0 14) ++ le 1 (s.dev.fld Reg.fltCfg 24 4) ++ zeros 1
          ++ le 2 (s.dev.fld Reg.fltCfg 0 12)
       p.length = 8 → zeroAt p 5 1 = true → 1 ≤ leAt p 0 2 → leAt p 0 2 ≤ 10000 → 1 ≤ leAt p 2 2 → leAt p 2 2 ≤ 10000 → 1 ≤ leAt p 4 1 → leAt p 4 1 ≤ 15 →
       1 ≤ leAt p 6 2 → leAt p 6 2 ≤ 3600 → p ≠ prev → s.dev.stiffActive = false → Does (.quietSet r) s 0x0D04 r prev fun d =>
         d.fld Reg.fltQuiet1 0 14 = leAt p 0 2 ∧ d.fld Reg.fltQuiet2 0 14 = leAt p 2 2 ∧ d.fld Reg.fltCfg 24 4 = leAt p 4 1 ∧ d.fld Reg.fltCfg 0 12 = leAt p 6 2
         ∧ d.fld Reg.fltCfg 28 2 = s.dev.fld Reg.fltCfg 28 2 ∧ d.flt = s.dev.flt ∧ (s.dev.takeReq 0x0D04 r).onlyRegs d [Reg.fltQuiet1, Reg.fltQuiet2, Reg.fltCfg])

/-- An occurrence of one source (R31, R462 to R465, R471 to R475, R477, R478, R480, R487): its sticky bit is set; its class, escalated where
R473 says so, decides. Class 0 reports only; class 1 counts and quiesces its unit alone, or runs its quiet period anew; class 2 ends the
parcels in flight, rolls the slices back and takes over the contained recoveries; class 3 stops the line and enters the safe state, in
which an occurrence sets its sticky bit and nothing else (notes/assumptions/73.md). The collector's events come before those that the
reaction brings (R605). In the safe state pipelines, fulling and placement stand still, and so does a stage whose domain is off
(R480, R546, notes/assumptions/139.md). -/
def Obligations.FaultOccurrences : Prop :=
  ∀ (s : State), s.alive →
    (s.dev.live 7 = true → Becomes .watchdogExpiry s fun t => t = s.dev.setFlag (Reg.fltSticky 0) 7 true)
    ∧ (∀ (c : Fin 256) (i : Instr), i = .faultOccurrence [c] 0 ∨ i = .watchdogExpiry ∧ c.val = 7 → let src := c.val
      let st := s.dev.setFlag (Reg.fltSticky (src / 32)) (src % 32) true
      let u : FUnit := if 0x10 ≤ src ∧ src < 0x40 then ⟨1, src % 16⟩ else if 0x40 ≤ src ∧ src < 0x48 then ⟨2, src - 0x40⟩
        else if 0x60 ≤ src ∧ src < 0x68 then ⟨6, (src - 0x60) / (8 / s.dev.uplinkPorts)⟩ else if src = 0x70 ∨ src = 0x71 then ⟨4, src - 0x70⟩ else ⟨0, 0⟩
      let muted := (0x60 ≤ src ∧ src < 0x68 ∧ bit (s.dev.fld Reg.umacCfg 16 8) u.idx = false) ∨ src = 0x6D ∨ src = 0x6E
      let base := if src = 0 then 3 else s.dev.fld (Reg.fltClass src) 0 2
      let cu := if base = 2 then ⟨0, 0⟩ else u
      let recent := (s.dev.flt.counted.filter fun x => x.1 == cu && decide (s.dev.now ≤ x.2 + max 1 (s.dev.fld Reg.fltCfg 0 12) * 300000000)).length
      let up := src ≠ 0 ∧ s.dev.flag (Reg.fltClass src) 4 = true ∧ max 1 (s.dev.fld Reg.fltCfg 24 4) ≤ recent
      let cls := if up then (if base = 0 ∧ u.kind = 0 then 2 else min 3 (base + 1)) else base
      let quiet := fun (reg : Nat) => max 1 (s.dev.fld reg 0 14) * 300000
      (FaultSource.reserved src = true ∨ muted → Becomes i s (· = s.dev))
      ∧ (FaultSource.reserved src = false → ¬ muted → (s.dev.live src = true ∨ s.dev.safe = true) → Becomes i s (· = st))
      ∧ (FaultSource.reserved src = false → ¬ muted → s.dev.live src = false → s.dev.safe = false → Becomes i s fun t =>
        t.flag (Reg.fltSticky (src / 32)) (src % 32) = true
        ∧ t.flag Reg.fltState 30 = (t.safe || !t.isReady || t.flt.recoveries.any fun r => decide (r.cls ≥ max 1 (s.dev.fld Reg.fltCfg 28 2)))
        ∧ (cls = 0 → t.flt.recoveries = s.dev.flt.recoveries ∧ t.plc = s.dev.plc ∧ t.ful = s.dev.ful ∧ t.pipes = s.dev.pipes ∧ t.pos = s.dev.pos
            ∧ s.dev.regsKept t [Reg.fltSticky (src / 32), Reg.fltState, Reg.mbAlert, Reg.evtLostCnt, Reg.evtFilteredCnt, Reg.hopCnt 8, Reg.hopCnt 9]
            ∧ (let heard := s.dev.flt.noticed.any fun x => x.1 == src && decide (s.dev.now < x.2 + 300000000)
               t.ev = if heard then s.dev.ev else (s.dev.event 0x8D01 none (le 1 src ++ le 1 0 ++ le 1 u.kind ++ le 1 u.idx ++ le 4 (s.dev.recovCnt u))).ev))
        ∧ (cls = 1 → u.kind ≠ 0 → ∃ x y : Dev,
            x = (st.countUnit 1 u).event 0x8D01 none (le 1 src ++ le 1 1 ++ le 1 u.kind ++ le 1 u.idx ++ le 4 (satAdd 16 (s.dev.recovCnt u) 1))
            ∧ y = (if up then (x.logEntry 3 1 u).event 0x8D03 none (le 1 src ++ le 1 base ++ le 1 1 ++ le 1 u.kind ++ le 1 u.idx ++ zeros 3 ++ le 4 recent) else x)
            ∧ t = (y.containUnit u).updatePin ∧ t.recovCnt u = satAdd 16 (s.dev.recovCnt u) 1 ∧ (u, s.dev.now) ∈ t.flt.counted ∧ t.hood = s.dev.hood
            ∧ (s.dev.devRec = true → t.flt.recoveries = s.dev.flt.recoveries ∧ u ∈ t.flt.during ∧ t.pipes = s.dev.pipes ∧ t.ful = s.dev.ful ∧ t.plc = s.dev.plc)
            ∧ (s.dev.devRec = false → s.dev.inRecovery u = true → t.pipes = s.dev.pipes ∧ t.ful = s.dev.ful ∧ t.plc = s.dev.plc
              ∧ t.flt.recoveries = s.dev.flt.recoveries.map fun r => if r.unit = u then { r with since := s.dev.now, quiet := quiet Reg.fltQuiet1 } else r)
            ∧ (s.dev.devRec = false → s.dev.inRecovery u = false → t.flt.recoveries = s.dev.flt.recoveries ++ [⟨u, 1, s.dev.now, s.dev.now, quiet Reg.fltQuiet1⟩]
              ∧ (u.kind = 1 → t.flag Reg.fltUrec u.idx = true ∧ (t.pipe u.idx).rx = (if (s.dev.hoppers.getD (10 + u.idx) {}).flushing = true ∨ (s.dev.port u.idx).line ≠ none
                  then (s.dev.pipe u.idx).rx else (s.dev.pipe u.idx).rx.map Line.flushed) ∧ t.ful = s.dev.ful ∧ t.plc = s.dev.plc
                ∧ ∀ n, n ≠ u.idx → t.pipe n = s.dev.pipe n)
              ∧ (u.kind = 2 → t.flag Reg.fltUrec (16 + u.idx) = true ∧ (∀ b ∈ t.ful.batts, b.slice ≠ some u.idx) ∧ t.pipes = s.dev.pipes
                ∧ (s.dev.ful.batts.map fun b => (b.num, b.recalled)) = t.ful.batts.map fun b => (b.num, b.recalled))
              ∧ (u.kind = 4 → t.flag Reg.fltUrec (24 + u.idx) = true ∧ t.pipes = s.dev.pipes ∧ t.ful = s.dev.ful ∧ t.plc = s.dev.plc
                ∧ (s.dev.band.ownUnlocked = false → s.dev.bstate u.idx = 3 → t.bstate u.idx = 4))
              ∧ (u.kind = 6 → t.pipes = s.dev.pipes ∧ ∀ q, q < 64 → s.dev.qpState q ≠ 0 → s.dev.qpPort q = u.idx → s.dev.plc.qps.length = 64 → (t.qp q).held = true
                ∧ t.qpInRec q = true ∧ ∀ n, n < 8 → ∀ x ∈ (t.str n).issues, x.qp ≠ q)))
        ∧ (cls = 2 → t.rdN Reg.fltDevcnt = satAdd 32 (s.dev.rdN Reg.fltDevcnt) 1 ∧ t.devRec = true ∧ t.pipes = s.dev.pipes ∧ t.pos = s.dev.pos
            ∧ (∃ x y : Dev, x = (st.countUnit 2 ⟨0, 0⟩).event 0x8D01 none (le 1 src ++ le 1 2 ++ le 1 0 ++ le 1 0 ++ le 4 (satAdd 32 (s.dev.rdN Reg.fltDevcnt) 1))
              ∧ y = (if up then (x.logEntry 3 2 u).event 0x8D03 none (le 1 src ++ le 1 base ++ le 1 2 ++ le 1 u.kind ++ le 1 u.idx ++ zeros 3 ++ le 4 recent) else x)
              ∧ t = (y.deviceRecovery [src]).updatePin)
            ∧ (s.dev.devRec = false → t.flt.recoveries = [⟨⟨0, 0⟩, 2, s.dev.now, s.dev.now, quiet Reg.fltQuiet2⟩] ∧ t.flt.absorbed = s.dev.flt.recoveries.map (·.unit)
              ∧ (∀ n, n < 8 → (t.str n).issues = []) ∧ (∀ b ∈ t.ful.batts, ∀ k, k < 8 → b.slice ≠ some k) ∧ t.flag Reg.plcStat 31 = true)
            ∧ (s.dev.devRec = true → t.plc = s.dev.plc ∧ t.ful = s.dev.ful
              ∧ t.flt.recoveries = s.dev.flt.recoveries.map fun r => if r.unit = ⟨0, 0⟩ then { r with since := s.dev.now, quiet := quiet Reg.fltQuiet2 } else r)
            ∧ (src = 5 ∨ src = 7 ∨ src = 9 → t.running = []) ∧ (src = 5 ∨ src = 6 ∨ src = 7 ∨ src = 9 → t.accepted = [])
            ∧ (src < 5 ∨ 9 < src → t.running = s.dev.running ∧ t.accepted = s.dev.accepted)
            ∧ t.band.stopNum = (if s.dev.flag (Reg.fltClass src) 5 then s.dev.band.stopNum + 1 else s.dev.band.stopNum))
        ∧ (cls = 3 → t.safe = true ∧ t.devRec = false ∧ t.flt.recoveries = [] ∧ t.lineStarted = false ∧ t.flag Reg.fltState 30 = true
            ∧ (s.dev.lineStarted = false → t.plc = s.dev.plc ∧ t.ful = s.dev.ful)
            ∧ t.rdN Reg.fltUrec = 0 ∧ t.rd64 Reg.fltQprec = 0 ∧ (∀ x ∈ t.pos.strobes, x = {}) ∧ t.flt.safeSource = some src
            ∧ (∀ x ∈ t.pwr.queue, x ∈ s.dev.pwr.queue ∨ 1 ≤ src ∧ src ≤ 3 ∧ x.2 = false)
            ∧ (s.dev.lineStarted = false → ∃ x : Dev, t.ev = (x.event 0x8D04 none (le 1 src ++ zeros 3 ++ le 32 x.stickyBits.toNat)).ev))))
    ∧ (∀ (c : Fin 256) (qps : BitVec 64), c.val = 0x6D ∨ c.val = 0x6E → qps ≠ 0 → s.dev.live c.val = false → s.dev.safe = false →
        s.dev.fld (Reg.fltClass c.val) 0 2 = 1 → s.dev.flag (Reg.fltClass c.val) 4 = false → s.dev.devRec = false → s.dev.plc.qps.length = 64 →
        Becomes (.faultOccurrence [c] qps) s fun t => t.rd64 Reg.fltQpmap = (s.dev.rd64 Reg.fltQpmap ||| qps.toNat)
          ∧ ∀ q, q < 64 → qps.getLsbD q = true → t.recovCnt ⟨3, q⟩ = satAdd 16 (s.dev.recovCnt ⟨3, q⟩) 1
            ∧ (s.dev.inRecovery ⟨3, q⟩ = false → (t.qp q).held = true ∧ (⟨⟨3, q⟩, 1, s.dev.now, s.dev.now, max 1 (s.dev.fld Reg.fltQuiet1 0 14) * 300000⟩ : Recovery) ∈ t.flt.recoveries
              ∧ ∀ n, n < 8 → ∀ x ∈ (t.str n).issues, x.qp ≠ q))
    ∧ (let still := fun (i : Instr) => exec i s = .next s
      (∀ h : Fin 16, (s.dev.stageOn (16 + h.val) = false → (∀ hits k bad, still (.linePounce h hits k bad)) ∧ ∀ k bad, still (.mosaicLine ⟨h, k, bad⟩))
        ∧ (s.dev.stageOn (32 + h.val) = false → still (.cardRowResolve h)) ∧ (s.dev.stageOn (48 + h.val) = false → still (.blockRow h))
        ∧ (s.dev.stageOn (64 + h.val) = false → still (.napTileRow h)) ∧ (s.dev.stageOn (80 + h.val) = false → ∀ o x y z, still (.cardWrite h o x y z)))
      ∧ (s.dev.safe = true → (∀ j, s.dev.stageOn j = false) ∧ still .battClose ∧ (∀ b, still (.battDeadlineExpiry b)) ∧ (∀ h k bad, still (.bankCopyDone h k bad))
        ∧ still .decisionPoint ∧ (∀ b, still (.seamWaitExpiry b)) ∧ (∀ g, still (.loopDecision g)) ∧ (∀ st, still (.bufferAssign st))
        ∧ ∀ q, still (.rnrWaitExpiry q) ∧ still (.retransmitTimeout q) ∧ still (.ccPeriodEnd q)))

/-- The end of a quiet period (R465, R468, R476, R478): while a source tied to the unit is live with a class of 1 or more it runs anew,
uncounted; else the recovery ends with FAULT_RECOVERED and the unit returns. The end of a device recovery releases fulling and placement;
a unit it had taken over ends with it or, with a source still live, enters a contained recovery of its own. The fault log takes a sample
when a bit differs from the last one. -/
def Obligations.RecoveryEnds : Prop :=
  ∀ (s : State), s.alive →
    (∀ (kind : Fin 7) (idx : Fin 64), let u : FUnit := if kind.val = 0 then ⟨0, 0⟩ else ⟨kind.val, idx.val⟩
      let found := s.dev.flt.recoveries.find? fun r => r.unit == u
      let live := ∃ x, x < 0x90 ∧ FaultSource.reserved x = false ∧ s.dev.live x = true ∧ 1 ≤ s.dev.fld (Reg.fltClass x) 0 2 ∧ u ∈ s.dev.unitsOf x 0
      (found = none → Becomes (.quietPeriodEnd kind idx) s (· = s.dev))
      ∧ (∀ r, found = some r → live → Becomes (.quietPeriodEnd kind idx) s fun t => t = { s.dev with flt := t.flt } ∧ t.flt = { s.dev.flt with recoveries := t.flt.recoveries }
          ∧ t.flt.recoveries = s.dev.flt.recoveries.map fun x => if x = r then { x with since := s.dev.now } else x)
      ∧ (∀ r, found = some r → ¬ live → r.cls = 1 → kind.val ≠ 0 → Becomes (.quietPeriodEnd kind idx) s fun t =>
          t.flt.recoveries = s.dev.flt.recoveries.erase r ∧ t.flt.counted = s.dev.flt.counted ∧ t.ful = s.dev.ful ∧ t.pipes = s.dev.pipes ∧ t.hood = s.dev.hood ∧ t.pos = s.dev.pos
          ∧ (kind.val = 1 → t.flag Reg.fltUrec idx.val = false) ∧ (kind.val = 2 → t.flag Reg.fltUrec (16 + idx.val) = false)
          ∧ (kind.val = 4 → t.flag Reg.fltUrec (24 + idx.val) = false)
          ∧ (kind.val = 3 → t.qpInRec idx.val = false → (t.qp idx.val).held = false)
          ∧ ∃ x : Dev, x.flt.recoveries = s.dev.flt.recoveries.erase r ∧ t = ((x.event 0x8D02 none (le 1 u.kind ++ le 1 u.idx ++ le 1 1 ++ zeros 1 ++ le 4 (s.dev.recovCnt u)
              ++ le 4 ((s.dev.now - r.first) / 300))).resume u).updatePin)
      ∧ (∀ r, found = some r → ¬ live → r.cls = 2 → kind.val = 0 → Becomes (.quietPeriodEnd kind idx) s fun t =>
          t.devRec = false ∧ t.flag Reg.plcStat 31 = false ∧ t.flt.absorbed = [] ∧ t.flt.during = [] ∧ t.flt.counted = s.dev.flt.counted
          ∧ (s.dev.flt.absorbed = [] → s.dev.flt.during = [] → t.flt.recoveries = s.dev.flt.recoveries.erase r ∧ t.ful = s.dev.ful ∧ t.plc = s.dev.plc ∧ t.pipes = s.dev.pipes
            ∧ ∃ x : Dev, t.ev = (x.event 0x8D02 none (le 1 0 ++ le 1 0 ++ le 1 2 ++ zeros 1 ++ le 4 (s.dev.rdN Reg.fltDevcnt) ++ le 4 ((s.dev.now - r.first) / 300))).ev)
          ∧ (∀ v : FUnit, v.kind = 1 → v.idx < 16 → s.dev.flt.absorbed = [v] → s.dev.flt.during = [] →
              if s.dev.unitLive v then t.flt.recoveries = s.dev.flt.recoveries.erase r ++ [⟨v, 1, s.dev.now, s.dev.now, max 1 (s.dev.fld Reg.fltQuiet1 0 14) * 300000⟩]
                ∧ t.flag Reg.fltUrec v.idx = true
              else t.flt.recoveries = s.dev.flt.recoveries.erase r ∧ t.flag Reg.fltUrec v.idx = false)))
    ∧ (let same := s.dev.stickyBits = s.dev.flt.lastSticky ∧ s.dev.liveBits = s.dev.flt.lastLive
       (same → Becomes .faultLogSample s (· = s.dev))
       ∧ (¬ same → s.dev.domainOn 122 = true → Becomes .faultLogSample s fun t => t = { s.dev with flt := t.flt }
          ∧ t.flt.lastSticky = s.dev.stickyBits ∧ t.flt.lastLive = s.dev.liveBits ∧ t.flt.recoveries = s.dev.flt.recoveries
          ∧ (let l := s.dev.flt.log ++ [⟨s.dev.flt.logNext, 0, 0, ⟨0, 0⟩, s.dev.timeNs, s.dev.spos, s.dev.stickyBits, s.dev.liveBits, 0⟩]
             t.flt.log = l.drop (l.length - 1024)) ∧ t.flt.logNext = s.dev.flt.logNext + 1))

/-- Mailbox 0 in chunks and the register window over the management bus (R490 to R501): MBX_WRITE reassembles messages, MBX_READ returns
the next chunk and releases a message read to its end, an event that fails its check there being lost (R102, R109), MBX_REWIND starts it again; WIN_ADDR, WIN_DATA and WIN_STATUS make accesses of the
management bus path. On a LIMITED slot the byte of the code is not acknowledged; a bad or missing PEC leaves a write without effect; no
other address is acknowledged. -/
def Obligations.MailboxAndWindowOnTheBus : Prop :=
  ∀ (s : State) (a : BitVec 7), s.alive → s.dev.smbServes = true → let m := s.dev.smb
    let writes := fun (i : Option Byte → Instr) (code : Nat) (body : Bytes) (effect : Dev → Prop) => ∀ pec : Option Byte,
      let sum := pecOf ([BitVec.ofNat 8 (2 * a.toNat), BitVec.ofNat 8 code] ++ body)
      (s.dev.smbSlot a.toNat = none → Becomes (i pec) s fun t => t = { s.dev with smb := { m with acked := false } })
      ∧ (s.dev.smbSlot a.toNat = some true → Becomes (i pec) s fun t => t = { s.dev with regs := t.regs, smb := { m with acked := false } }
          ∧ t.fld Reg.mbErr 16 8 = satAdd 8 (s.dev.fld Reg.mbErr 16 8) 1 ∧ s.dev.regsKept t [Reg.mbErr])
      ∧ (s.dev.smbSlot a.toNat = some false → (∃ x, pec = some x ∧ x ≠ sum) ∨ pec = none ∧ s.dev.flag Reg.smbCfg 30 = true →
          Becomes (i pec) s fun t => t = { s.dev with regs := t.regs, smb := { m with acked := pec.isNone } }
            ∧ t.fld Reg.mbErr 24 8 = satAdd 8 (s.dev.fld Reg.mbErr 24 8) 1 ∧ s.dev.regsKept t [Reg.mbErr])
      ∧ (s.dev.smbSlot a.toNat = some false → pec = some sum ∨ pec = none ∧ s.dev.flag Reg.smbCfg 30 = false → Becomes (i pec) s effect)
    let reads := fun (i : Instr) (effect : Dev → Prop) =>
      (s.dev.smbSlot a.toNat = none → Becomes i s fun t => t = { s.dev with smb := { m with acked := false } })
      ∧ (s.dev.smbSlot a.toNat = some true → Becomes i s fun t => t = { s.dev with regs := t.regs, smb := { m with acked := false } }
          ∧ t.fld Reg.mbErr 16 8 = satAdd 8 (s.dev.fld Reg.mbErr 16 8) 1 ∧ s.dev.regsKept t [Reg.mbErr])
      ∧ (s.dev.smbSlot a.toNat = some false → Becomes i s effect)
    (∀ block : Bytes, 2 ≤ block.length → block.length ≤ 255 → let first := bit (leAt block 0 1) 7; let last := bit (leAt block 0 1) 6
      let part := block.drop 1
      let whole := if first then part else m.reasm.getD [] ++ part
      let drops := fun (t : Dev) (k : Nat) => t.fld Reg.mbErr 0 8 = satAdd 8 (s.dev.fld Reg.mbErr 0 8) k ∧ s.dev.regsKept t [Reg.mbErr]
      ∀ hits : Hits, writes (fun pec => .mbxWrite a block ⟨pec, hits⟩) 0x10 (le 1 block.length ++ block) fun t =>
        (first = false → m.dropping = true → t = { s.dev with smb := { m with acked := true } })
        ∧ (first = false → m.dropping = false → m.reasm = none → t = { s.dev with regs := t.regs, smb := { m with acked := true } } ∧ drops t 1)
        ∧ (first = true ∨ m.dropping = false ∧ m.reasm.isSome = true →
          (4096 < whole.length → t = { s.dev with regs := t.regs, smb := { m with acked := true, reasm := none, dropping := true } }
            ∧ drops t (if first ∧ m.reasm.isSome then 2 else 1))
          ∧ (whole.length ≤ 4096 → last = false → t = { s.dev with regs := t.regs, smb := { m with acked := true, reasm := some whole, dropping := false } }
            ∧ drops t (if first ∧ m.reasm.isSome then 1 else 0))
          ∧ (whole.length ≤ 4096 → last = true → ∃ d : Dev, t = d.acceptMsg whole none hits
            ∧ d = { s.dev with regs := d.regs, smb := { m with acked := true, reasm := none, dropping := false } }
            ∧ drops d (if first ∧ m.reasm.isSome then 1 else 0))))
    ∧ (∀ (n : Nat) (hits : Hits), reads (.mbxRead a n hits) fun t =>
        let bad := fun (x : Msg) => m.outbound = none ∧ m.respQ = [] ∧ badWords (x.bytes []) hits ≠ []
        (∀ x l, s.dev.ev.q0 = x :: l → bad x → ∃ d : Dev,
          let e := (({ s.dev with smb := { m with acked := true } } : Dev).hopRead 9).poisonRead 9 0 (badWords (x.bytes []) hits)
          d = ({ e with ev := { e.ev with q0 := e.ev.q0.drop 1 } } : Dev).loseEvent
          ∧ (let c := ({ d with smb := { d.smb with outbound := d.ev.q0.head?.map fun x => ⟨true, x.bytes [], 0, true⟩ } } : Dev).chunkOut n
             t = { c.2 with smb := { c.2.smb with lastRead := readBytes a.toNat 0x11 n c.1 } }))
        ∧ ((∀ x, s.dev.ev.q0.head? = some x → ¬ bad x) →
        let next := if m.outbound.isSome then m.outbound else match m.respQ with
          | x :: _ => some ⟨false, x.bytes [], 0, true⟩
          | [] => s.dev.ev.q0.head?.map fun x => ⟨true, x.bytes [], 0, true⟩
        match next with
        | none => t = { s.dev with smb := { m with acked := true, lastRead := readBytes a.toNat 0x11 n [1, 0x20] } }
        | some o =>
          let part := (o.bytes.drop o.pos).take s.dev.chunkSize
          let ends := decide (o.bytes.length ≤ o.pos + part.length)
          let blk := le 1 (part.length + 1) ++ le 1 (b2n (o.pos == 0) * 0x80 + b2n ends * 0x40 + b2n o.isEvent * 0x10) ++ part
          t.smb.lastRead = readBytes a.toNat 0x11 n blk ∧ s.dev.regsKept t [] ∧ t.boxes = s.dev.boxes
          ∧ (n < blk.length → t.smb.outbound = some o ∧ t.smb.respQ = m.respQ ∧ t.ev = s.dev.ev)
          ∧ (blk.length ≤ n → ends = false → t.smb.outbound = some { o with pos := o.pos + part.length } ∧ t.smb.respQ = m.respQ ∧ t.ev = s.dev.ev)
          ∧ (blk.length ≤ n → ends = true → t.smb.outbound = none ∧ t.smb.released = some { o with pos := 0, queued := false }
            ∧ t.smb.respQ = (if o.queued ∧ o.isEvent = false then m.respQ.drop 1 else m.respQ)
            ∧ t.ev = if o.queued ∧ o.isEvent then { s.dev.ev with q0 := s.dev.ev.q0.drop 1 } else s.dev.ev)))
    ∧ (writes (.mbxRewind a) 0x12 [] fun t => t = { s.dev with smb := { m with acked := true, outbound := match m.outbound with
        | some o => some { o with pos := 0 }
        | none => m.released } })
    ∧ (∀ v : Word, writes (.winAddrWrite a v) 0x20 (le 4 v.toNat) fun t => t = { s.dev with smb := { m with acked := true, winAddr := v &&& 0x07FFFFFF#32 } })
    ∧ (∀ n : Nat, reads (.winAddrRead a n) fun t => t = { s.dev with smb := { m with acked := true, lastRead := readBytes a.toNat 0x20 n (le 4 m.winAddr.toNat) } })
    ∧ (∀ n : Nat, reads (.winStatus a n) fun t =>
        t = { s.dev with smb := { m with acked := true, lastRead := readBytes a.toNat 0x22 n (le 1 (s.dev.fld Reg.mbWstat 0 8)) } })
    ∧ (let x := m.winAddr.toNat % 2 ^ 24
       let w := 2 ^ bits m.winAddr.toNat 24 2
       let moved := if bit m.winAddr.toNat 26 then BitVec.ofNat 32 (m.winAddr.toNat / 2 ^ 24 * 2 ^ 24 + (m.winAddr.toNat + w) % 2 ^ 24) else m.winAddr
       s.dev.pathWaits .management = false → s.dev.smbSlot a.toNat = some false →
       (∀ n : Nat, let d := { s.dev with smb := { m with acked := true, win := some ⟨false, a.toNat, n, true⟩ } }
         let block := fun (st : Nat) (v : Nat) => readBytes a.toNat 0x21 n (le 1 (w + 1) ++ le 1 st ++ le w v)
         (∀ k, s.dev.accessError .management x s.dev.winSize none = some k → Becomes (.winDataRead a n) s fun t =>
           t.smb = { m with acked := true, lastRead := block (0x80 + k) 0 } ∧ t = { s.dev with regs := t.regs, smb := t.smb, bus := t.bus })
         ∧ (∀ v, s.dev.accessError .management x s.dev.winSize none = none → (d.readAccess .management x s.dev.winSize).2 = .value v → Becomes (.winDataRead a n) s fun t =>
           t.smb = { m with acked := true, lastRead := block 0 v.toNat, winAddr := if w + 2 ≤ n then moved else m.winAddr }
           ∧ t.regs = (d.readAccess .management x s.dev.winSize).1.regs)
         ∧ (s.dev.accessError .management x s.dev.winSize none = none → (d.readAccess .management x s.dev.winSize).2 = .retry → Becomes (.winDataRead a n) s fun t =>
           t.smb = { m with acked := true, lastRead := block 1 0 }))
       ∧ (∀ (data : Bytes) (hw : Bool), data.length = w → s.dev.flag Reg.smbCfg 30 = false →
         let d := { s.dev with smb := { m with acked := true, win := some ⟨true, a.toNat, 0, true⟩ } }
         (∀ k, s.dev.accessError .management x s.dev.winSize (some (leAt data 0 w)) = some k → Becomes (.winDataWrite a data ⟨none, hw⟩) s fun t =>
           t.smb = { m with acked := false } ∧ t.rdN Reg.mbWstat = 0x80 + k ∧ t = { s.dev with regs := t.regs, smb := t.smb, bus := t.bus })
         ∧ (s.dev.accessError .management x s.dev.winSize (some (leAt data 0 w)) = none → (d.writeAccess .management x s.dev.winSize (leAt data 0 w)).2 = .done →
           (d.writeAccess .management x s.dev.winSize (leAt data 0 w)).1.smb = d.smb →
           Becomes (.winDataWrite a data ⟨none, hw⟩) s fun t => t.smb = { m with acked := true, winAddr := moved } ∧ t.rdN Reg.mbWstat = 0
             ∧ (hw = true → rwhWord (accWord x) = true → t.flag (Reg.luMap (winSlot x / 32)) (winSlot x % 32) = true)
             ∧ ∀ r, r ≠ Reg.mbWstat → (hw = true → ∀ i, i < 8 → r ≠ Reg.luMap i) → t.rd r = (d.writeAccess .management x s.dev.winSize (leAt data 0 w)).1.rd r)))

/-- Status, alerts, refusals and errors of the management bus, Host Notify, standby and MB_RST_N (R493, R502 to R513): STATUS,
FAULT_SUMMARY and ALERT_CAUSE answer on every slot, in the safe state too, and only ALERT_CAUSE clears what it returns; a refused byte is
counted and has no other effect; the device sends a Host Notify when one is due, or withdraws and owes it. -/
def Obligations.StatusAndAlertsOnTheBus : Prop :=
  ∀ (s : State) (a : BitVec 7), let m := s.dev.smb
    (s.alive → (∀ (n : Nat) (l : Bool), s.dev.smbServes = true → s.dev.smbSlot a.toNat = some l →
      (Becomes (.status a n) s fun t => ∃ state tj : Nat,
          let bytes := le 1 state ++ le 1 (b2n (s.dev.flag Reg.fltState 30) + 2 * b2n (m.respQ != []) + 4 * b2n (s.dev.ev.q0 != [])
              + 8 * b2n (decide (8 ≤ (s.dev.box 0).hopper.length)) + 16 * b2n (s.dev.fld Reg.mbWstat 0 8 != 0) + 32 * b2n (s.dev.rdN Reg.mbAlert != 0))
            ++ le 1 (min 8 (s.dev.box 0).hopper.length) ++ le 1 tj
          t = { s.dev with smb := { m with acked := true, lastRead := readBytes a.toNat 0x30 n bytes } }
        ∧ state = (if s.dev.safe then 4 else if s.dev.devRec then 3 else if s.dev.pwr.phase ≠ .ready then 0 else if s.dev.lineStarted then 2 else 1)
        ∧ (s.dev.domainUp 132 = true → let q := signed 16 (s.dev.fld Reg.cnfStat 0 16)
            (-2032 ≤ q → q < 2048 → 16 * signed 8 tj ≤ q ∧ q < 16 * signed 8 tj + 16) ∧ tj < 256)
        ∧ (s.dev.domainUp 132 = false → tj = 0x80))
      ∧ (Becomes (.faultSummary a n) s fun t =>
          let bytes := le 1 40 ++ le 4 (s.dev.fld Reg.fltState 29 3 * 2 ^ 29 + min (2 ^ 29 - 1) s.dev.quietLeft) ++ le 4 (s.dev.rdN Reg.fltUrec)
            ++ (List.range 8).flatMap fun i => le 4 (s.dev.rdN (Reg.fltSticky i))
          t = { s.dev with smb := { m with acked := true, lastRead := readBytes a.toNat 0x31 n bytes } })
      ∧ (∀ fresh : BitVec 17, Becomes (.alertCause a n fresh) s fun t =>
          t = { s.dev with regs := t.regs, smb := { m with acked := true, lastRead := readBytes a.toNat 0x32 n (le 4 (s.dev.rd Reg.mbAlert).toNat) } }
          ∧ s.dev.regsKept t [Reg.mbAlert] ∧ ∀ i, i < 32 → (t.rd Reg.mbAlert).getLsbD i
            = ((s.dev.rd Reg.mbAlert).getLsbD i && decide (8 * n ≤ i) || fresh.getLsbD i))
      ∧ (∀ why : SmbRefusal, (match why with
            | .code c => c.toNat ∉ [0x10, 0x11, 0x12, 0x20, 0x21, 0x22, 0x30, 0x31, 0x32] ∨ l = true ∧ c.toNat ∉ [0x30, 0x31, 0x32]
            | .direction c read => c.toNat ∉ (if read then [0x11, 0x20, 0x21, 0x22, 0x30, 0x31, 0x32] else [0x10, 0x12, 0x20, 0x21])
            | .count c k => c = 0x10#8 ∧ k.toNat < 2 ∨ c = 0x21#8 ∧ k.toNat ≠ 2 ^ bits m.winAddr.toNat 24 2
            | .extra c => c.toNat ∈ [0x10, 0x12, 0x20, 0x21]) → Becomes (.smbusRefused a why) s fun t =>
          t = { s.dev with regs := t.regs, smb := { m with acked := false } } ∧ t.fld Reg.mbErr 16 8 = satAdd 8 (s.dev.fld Reg.mbErr 16 8) 1
          ∧ s.dev.regsKept t [Reg.mbErr])
      ∧ (Becomes (.smbusProtocolError a false) s fun t => s.dev.onlyRegs t [Reg.mbProtoErr] ∧ t.rdN Reg.mbProtoErr = satAdd 32 (s.dev.rdN Reg.mbProtoErr) 1)
      ∧ (l = false → s.dev.pathWaits .management = false → ∀ k, s.dev.accessError .management (m.winAddr.toNat % 2 ^ 24) s.dev.winSize none = some k →
          Becomes (.smbusProtocolError a true) s fun t => t.smb.winAddr = m.winAddr ∧ t.smb.win = none ∧ t.rdN Reg.violCnt = (s.dev.rdN Reg.violCnt + 1) % 2 ^ 32))
      ∧ (s.dev.smbServes = false → Becomes (.status a 4) s fun t => t = { s.dev with smb := { m with acked := false } })
      ∧ (∀ lost : Bool, let up := s.dev.smbServes = true ∧ s.dev.flag Reg.smbCfg 28 = true
          let data := s.dev.fld Reg.mbAlert 0 16 ||| (if s.dev.flag Reg.mbAlert 16 then 0x1000 else 0)
          ∀ i : Instr, (i = .hostNotify lost ∧ m.notifyDue = true ∨ i = .notifyRepeat lost ∧ s.dev.rdN Reg.mbAlert ≠ 0 ∨ i = .busFree lost ∧ m.retryNotify = true) →
          (up → lost = true → Becomes i s fun t => t = { s.dev with regs := t.regs, smb := { m with notifyDue := false, retryNotify := true } }
            ∧ t.fld Reg.mbErr 8 8 = satAdd 8 (s.dev.fld Reg.mbErr 8 8) 1 ∧ s.dev.regsKept t [Reg.mbErr])
          ∧ (up → lost = false → s.dev.flag Reg.smbCfg 31 = true → Becomes i s fun t =>
              t = { s.dev with out := .hostNotify (2 * s.dev.fld Reg.smbMask 0 7) data :: s.dev.out, smb := { m with notifyDue := false, retryNotify := false } })
          ∧ (∀ j : Fin 4, up → lost = false → s.dev.flag Reg.smbCfg 31 = false → s.dev.flag (Reg.smbSlot j.val) 31 = true →
              (∀ k, k < j.val → s.dev.flag (Reg.smbSlot k) 31 = false) → Becomes i s fun t =>
              t = { s.dev with out := .hostNotify (2 * s.dev.fld (Reg.smbSlot j.val) 0 7) data :: s.dev.out, smb := { m with notifyDue := false, retryNotify := false } })
          ∧ (¬ up → Becomes i s (· = s.dev)))
      ∧ (m.notifyDue = false → ∀ lost, Becomes (.hostNotify lost) s (· = s.dev)) ∧ (s.dev.rdN Reg.mbAlert = 0 → ∀ lost, Becomes (.notifyRepeat lost) s (· = s.dev))
      ∧ (m.retryNotify = false → ∀ lost, Becomes (.busFree lost) s (· = s.dev))
      ∧ (Becomes .smbusWake s fun t => t = { s.dev with smb := { m with standby := false } })
      ∧ (s.dev.fld Reg.smbCfg 8 8 ≠ 0 → m.win = none → Becomes .smbusIdleSleep s fun t => t = { s.dev with smb := { m with standby := true } })
      ∧ (s.dev.fld Reg.smbCfg 8 8 = 0 → Becomes .smbusIdleSleep s (· = s.dev))
      ∧ (m.resetLow = false → Becomes .sclTimeout s fun t => t.rdN Reg.mbProtoErr = satAdd 32 (s.dev.rdN Reg.mbProtoErr) 1 ∧ s.dev.regsKept t [Reg.mbProtoErr]
          ∧ t = { s.dev with regs := t.regs, smb := { m with reasm := none, outbound := m.outbound.map fun o => { o with pos := 0 }, win := m.win.map fun x => { x with live := false } } }))
    ∧ (Becomes .mbRstN s fun t => t = { s.dev with smb := { m with reasm := none, outbound := m.outbound.map fun o => { o with pos := 0 }, win := m.win.map fun x => { x with live := false }, resetLow := true } })
    ∧ (Becomes .mbRstNRise s fun t => t = { s.dev with smb := { m with resetLow := false } })

/-- What the conformateur does with its samples (R515, R517, R519 to R521, R524 to R528): sensors and TJ_MAX, the fan level, the refresh
of a stack, supplies, eye margins with re-equalisation, ageing, link errors, the wear of a second and the hourly record; a source of
R528 is live while its condition holds. AF(T) is the fixed-point value of notes/assumptions/60.md; the forms of the samples are those of
notes/assumptions/74.md and 75.md. -/
def Obligations.HealthSamples : Prop :=
  ∀ (s : State), s.alive →
    (s.dev.domainOn 132 = false → ∀ i : Instr, (i = .wearTick ∨ (∃ l o, i = .thermalSample l o) ∨ (∃ l, i = .supplySample l) ∨ (∃ l o, i = .ageingSample l o)
        ∨ (∃ l e a, i = .eyeSample l e a) ∨ ∃ ok, i = .wearRecordWrite ok) → Becomes i s (· = s.dev))
    ∧ (s.dev.domainOn 132 = true →
      let on := fun (t : Dev) (src : Nat) (holds : Bool) => t.live src = holds ∧ (holds = true → t.flag (Reg.fltSticky (src / 32)) (src % 32) = true)
      (∀ (temps : List Int) (odd : Bool) (tj : Int), temps.length = 32 → (∀ x ∈ temps, -32768 ≤ x ∧ x ≤ 32767) → tj ∈ temps → (∀ x ∈ temps, x ≤ tj) →
        let ft : Int := s.dev.fld Reg.cnfLim 24 8; let now := s.dev.fld Reg.cnfStat 28 2
        let want := if 16 * (ft + 10) < tj then 3 else if 16 * (ft + 5) < tj then 2 else if 16 * ft < tj then 1 else 0
        let rested := tj ≤ 16 * (ft - 3) ∧ ∃ x, s.dev.cnf.fanLowSince = some x ∧ x + 60 * 300000000 ≤ s.dev.now
        Becomes (.thermalSample temps odd) s fun t => t.cnf.sensors = temps ∧ signed 16 (t.fld Reg.cnfStat 0 16) = tj
          ∧ t.cnf.fanLowSince = (if tj ≤ 16 * (ft - 3) then some (s.dev.cnf.fanLowSince.getD s.dev.now) else none)
          ∧ (s.dev.flag Reg.cnfCtrl 28 = false → t.fld Reg.cnfStat 28 2 = now)
          ∧ (s.dev.flag Reg.cnfCtrl 28 = true → (now < want → t.fld Reg.cnfStat 28 2 = want) ∧ (want ≤ now → rested → t.fld Reg.cnfStat 28 2 = 0)
              ∧ (want ≤ now → ¬ rested → t.fld Reg.cnfStat 28 2 = now))
          ∧ (∀ k, k < 2 → let ce := s.dev.stackCe k
              let at_ := fun j => temps.getD (Config.stackSensor k j).val 0
              let cool := at_ 0 < 80 * 16 ∧ at_ 1 < 80 * 16 ∧ ce < 2048
              (s.dev.flag Reg.cnfCtrl 29 = false → t.flag Reg.cnfStat (30 + k) = s.dev.flag Reg.cnfStat (30 + k))
              ∧ (s.dev.flag Reg.cnfCtrl 29 = true → s.dev.flag Reg.cnfStat (30 + k) = false →
                  (t.flag Reg.cnfStat (30 + k) = true ↔ 85 * 16 < at_ 0 ∨ 85 * 16 < at_ 1 ∨ 4096 < ce))
              ∧ (s.dev.flag Reg.cnfCtrl 29 = true → s.dev.flag Reg.cnfStat (30 + k) = true →
                  (t.flag Reg.cnfStat (30 + k) = false ↔ cool ∧ ∃ x, s.dev.cnf.coolSince.getD k none = some x ∧ x + 600 * 300000000 ≤ s.dev.now)))
          ∧ on t 0x81 (decide (16 * (ft + 15) < tj)) ∧ on t 0x8C (odd || s.dev.cnf.oddSite)
          ∧ on t 0x86 ((List.range 2).any fun k => (t.cnf.doubledSince.getD k none).any fun x => decide (x + 86400 * 300000000 ≤ s.dev.now))
          ∧ on t 0x8D (t.cnf.fan3Since.any fun x => decide (x + 60 * 300000000 ≤ s.dev.now))
          ∧ on t 0x03 (decide (tj > 16 * (if Config.gradeX then 135 else 115))))
      ∧ (∀ mv : List Nat, mv.length = 24 → (∀ x ∈ mv, x < 2 ^ 16) → Becomes (.supplySample mv) s fun t => t.cnf.supplies = mv
          ∧ (∀ i, i < 24 → let l := supplyLimits i
              t.cnf.supplyOut.getD i false = decide (10 * mv.getD i 0 < l.2.2.1 ∨ 10 * mv.getD i 0 > l.2.2.2)
              ∧ (t.cnf.supplyLowSince.getD i none = if 1000 * mv.getD i 0 ≤ 101 * l.1 ∨ 1000 * mv.getD i 0 ≥ 99 * l.2.1
                  then some ((s.dev.cnf.supplyLowSince.getD i none).getD s.dev.now) else none))
          ∧ on t 0x82 (t.cnf.supplyLowSince.any fun x => x.any fun y => decide (y + 300000000 ≤ s.dev.now))
          ∧ on t 0x02 ((List.range 24).any fun i => t.cnf.supplyOut.getD i false && s.dev.cnf.supplyOut.getD i false))
      ∧ (∀ (lane : Fin 74) (e : Nat) (after : Option Nat), e < 2 ^ 16 → let lim := s.dev.fld Reg.cnfLim 0 12
          let recent := ∃ x ∈ s.dev.cnf.reeqAt, x.1 = lane.val ∧ s.dev.now < x.2 + 60 * 300000000
          let runs := s.dev.laneUp lane.val = true ∧ s.dev.flag Reg.cnfCtrl 31 = true ∧ ¬ recent
          (lim ≤ e → Becomes (.eyeSample lane e after) s fun t => t.cnf.eyes.getD lane.val 0 = e ∧ t.cnf.unrestored = s.dev.cnf.unrestored.erase lane.val
            ∧ on t 0x83 (s.dev.cnf.unrestored.erase lane.val != []))
          ∧ (e < lim → (¬ runs ∨ after = none) → Becomes (.eyeSample lane e after) s fun t =>
            t = { s.dev with cnf := { s.dev.cnf with eyes := modAt s.dev.cnf.eyes lane.val fun _ => e } })
          ∧ (∀ a, e < lim → runs → after = some a → a < lim → Becomes (.eyeSample lane e after) s fun t => lane.val ∈ t.cnf.unrestored ∧ on t 0x83 true)
          ∧ (∀ a, e < lim → runs → after = some a → lim ≤ a → a < 2 ^ 16 → Becomes (.eyeSample lane e after) s fun t => t.cnf.eyes.getD lane.val 0 = a
            ∧ t.cnf.unrestored = s.dev.cnf.unrestored.erase lane.val ∧ (lane.val, s.dev.now) ∈ t.cnf.reeqAt
            ∧ ∃ u : Dev, t = u.event 0x8E02 none (le 1 lane.val ++ zeros 1 ++ le 2 e ++ le 2 a)))
      ∧ (∀ (losses : List Nat) (odd : Bool), losses.length = 64 → Becomes (.ageingSample losses odd) s fun t => t.cnf.losses = losses
          ∧ (∀ u, u < 16 → t.fld (Reg.cnfUwear u) 10 10 = ([0, 1, 2, 3].map fun j => min 1000 (losses.getD (4 * u + j) 0 / 40)).foldl max 0)
          ∧ on t 0x80 (losses.any fun l => decide (900 < min 1000 (l / 40))) ∧ on t 0x8C (odd || s.dev.cnf.oddSensor))
      ∧ (∀ (fec : List Nat) (symbols : Nat) (band : List Nat) (bits_ : Nat) (sync : List Nat) (blocks : Nat), fec.length = 8 → band.length = 2 → sync.length = 16 →
          Becomes (.linkErrorSample fec symbols band bits_ sync blocks) s fun t => t.cnf.fecLast = min (2 ^ 32 - 1) fec.sum
          ∧ on t 0x87 (fec.any fun x => decide (symbols < x * 10 ^ 5)) ∧ on t 0x88 (band.any fun x => decide (bits_ < x * 10 ^ 12))
          ∧ on t 0x8B (sync.any fun x => decide (blocks < x * 10 ^ 10)))
      ∧ (Becomes .wearTick s fun t => t.cnf.powered = s.dev.cnf.powered + 1 ∧ t.cnf.losses = s.dev.cnf.losses
          ∧ (∀ u, u < 16 → t.cnf.eq.getD u 0 = s.dev.cnf.eq.getD u 0 + arrhenius (max (s.dev.cnf.sensors.getD (2 * u) 0) (s.dev.cnf.sensors.getD (2 * u + 1) 0))
            ∧ t.fld (Reg.cnfUwear u) 0 10 = min 1000 (1000 * t.cnf.eq.getD u 0 / (1262304000 * 2 ^ 64))
            ∧ t.rd64 (Reg.cnfEqs u) = t.cnf.eq.getD u 0 / 2 ^ 64 % 2 ^ 64 ∧ t.wearUnit u ≤ t.devWear)
          ∧ on t 0x89 (decide (s.dev.fld Reg.cnfLim 12 12 ≤ t.devWear)) ∧ on t 0x8A (decide ((1000 - t.devWear) * 350640 / 1000 < 8766))
          ∧ (s.dev.fld Reg.cnfLim 12 12 ≤ t.devWear → s.dev.cnf.wearWarned = false → s.dev.live 0x89 = true → s.dev.live 0x8A = true → ∃ x : Dev,
              t.ev = (x.event 0x8E04 none (le 1 t.worstUnit ++ zeros 1 ++ le 2 t.devWear ++ le 4 ((1000 - t.devWear) * 350640 / 1000))).ev))
      ∧ (Becomes (.wearRecordWrite true) s fun t => let n := s.dev.cnf.recSeq + 1
          t.cnf.recSeq = n ∧ t.cnf.copies.getD (n % 2) none = some ⟨n, Config.uid, s.dev.cnf.eq, s.dev.cnf.retired.filter fun r => !r.pending⟩
          ∧ t.cnf.copies.getD ((n + 1) % 2) none = s.dev.cnf.copies.getD ((n + 1) % 2) none ∧ t.live 0x8E = false ∧ t.cnf.eq = s.dev.cnf.eq
          ∧ t.out = .flash (0x01000000 + n % 2 * 0x10000) n :: s.dev.out)
      ∧ (Becomes (.wearRecordWrite false) s fun t => on t 0x8E true ∧ t.cnf = s.dev.cnf))

/-- The commands of health, conduct and snapshots (R522, R523, R526, R531 to R536): HEALTH_READ, WEAR_READ, PAGE_RETIRE_LIST and
LIST_CONDUCT report and change nothing; ADAPT_POLICY writes CNF_CTRL and CNF_LIM; LOCK_CONDUCT locks a level; SNAPSHOT_EXPORT captures and
writes a sealed piece of its capture; SNAPSHOT_IMPORT fetches a piece and, at LAST, applies nothing of a snapshot that fails a check. -/
def Obligations.HealthAndConductCommands : Prop :=
  ∀ (s : State) (r : Req), let p := r.payload
    (Begins s r [.health] →
      (p = [] → s.dev.cnf.sensors.length = 32 → s.dev.cnf.supplies.length = 24 → ∃ w : Bytes, w.length = 128
          ∧ (∀ i, i < 32 → leAt w (2 * i) 2 = unsigned 16 (s.dev.cnf.sensors.getD i 0)) ∧ (∀ i, i < 24 → leAt w (64 + 2 * i) 2 = s.dev.cnf.supplies.getD i 0 % 2 ^ 16)
          ∧ leAt w 112 1 = s.dev.fld Reg.cnfStat 30 2 ∧ leAt w 113 1 = s.dev.fld Reg.cnfStat 28 2 ∧ leAt w 120 4 = s.dev.cnf.fecLast % 2 ^ 32
          ∧ Does (.healthRead r) s 0x0E01 r w fun d => d = s.dev.takeReq 0x0E01 r)
      ∧ (p = [] → Does (.wearRead r) s 0x0E02 r (le 2 s.dev.devWear ++ zeros 2 ++ le 4 ((1000 - s.dev.devWear) * 350640 / 1000) ++ le 8 s.dev.cnf.powered
          ++ (List.range 16).flatMap fun u =>
            let therm := min 1000 (1000 * s.dev.cnf.eq.getD u 0 / (1262304000 * 2 ^ 64))
            let age := ([0, 1, 2, 3].map fun j => min 1000 (s.dev.cnf.losses.getD (4 * u + j) 0 / 40)).foldl max 0
            le 8 (s.dev.cnf.eq.getD u 0 / 2 ^ 64) ++ le 2 age ++ le 2 therm ++ le 2 (max therm age) ++ zeros 2) fun d => d = s.dev.takeReq 0x0E02 r)
      ∧ (∀ prev : Bytes, prev = le 1 (b2n (s.dev.flag Reg.cnfCtrl 31) + 2 * b2n (s.dev.flag Reg.cnfCtrl 30) + 4 * b2n (s.dev.flag Reg.cnfCtrl 29) + 8 * b2n (s.dev.flag Reg.cnfCtrl 28))
            ++ zeros 1 ++ le 2 (s.dev.fld Reg.cnfCtrl 0 16) ++ le 1 (s.dev.fld Reg.cnfLim 24 8) ++ zeros 1 ++ le 2 (s.dev.fld Reg.cnfLim 0 12)
            ++ le 2 (s.dev.fld Reg.cnfLim 12 12) ++ zeros 2 →
          p.length = 12 → leAt p 0 1 < 16 → zeroAt p 1 1 = true → zeroAt p 5 1 = true → zeroAt p 10 2 = true → 1 ≤ leAt p 2 2 → 60 ≤ leAt p 4 1 → leAt p 4 1 ≤ 120 →
          50 ≤ leAt p 6 2 → leAt p 6 2 ≤ 500 → leAt p 8 2 ≤ 1000 → p ≠ prev → s.dev.stiffActive = false → Does (.adaptPolicy r) s 0x0E03 r prev fun d =>
            (s.dev.takeReq 0x0E03 r).onlyRegs d [Reg.cnfCtrl, Reg.cnfLim] ∧ (∀ i, i < 4 → d.flag Reg.cnfCtrl (31 - i) = bit (leAt p 0 1) i)
            ∧ d.fld Reg.cnfCtrl 0 16 = leAt p 2 2 ∧ d.fld Reg.cnfLim 24 8 = leAt p 4 1 ∧ d.fld Reg.cnfLim 0 12 = leAt p 6 2 ∧ d.fld Reg.cnfLim 12 12 = leAt p 8 2)
      ∧ (p.length = 4 → 1 ≤ leAt p 2 2 → leAt p 2 2 ≤ 500 → let es := (s.dev.cnf.retired.drop (leAt p 0 2)).take (leAt p 2 2)
          Does (.pageRetireList r) s 0x0E04 r (le 2 (s.dev.cnf.retired.countP fun x => !x.pending) ++ le 2 (s.dev.cnf.retired.countP (·.pending))
            ++ le 2 es.length ++ zeros 2 ++ es.flatMap fun x => le 2 x.page ++ le 1 x.cause ++ le 1 (b2n x.pending) ++ le 1 x.kind ++ zeros 3)
            fun d => d = s.dev.takeReq 0x0E04 r))
    ∧ (Begins s r [.conduct] → let cl := s.dev.fld Reg.conduct 0 8
      (p = [] → Does (.listConduct r) s 0x0201 r (le 1 Config.clMax ++ le 1 cl ++ zeros 2
          ++ (List.range Config.clMax).flatMap fun i => le 1 (i + 1) ++ zeros 3 ++ le 4 (Config.fwMin (i + 1)).toNat) fun d => d = s.dev.takeReq 0x0201 r)
      ∧ (∀ l : Nat, l = leAt p 0 1 → p.length = 4 → zeroAt p 1 3 = true → 1 ≤ l → l ≤ Config.clMax → s.dev.stiffActive = false →
          (cl = l → TurnsAway (.lockConduct r) s 0x0202 r St.alreadyDone) ∧ (cl ≠ 0 → cl ≠ l → TurnsAway (.lockConduct r) s 0x0202 r St.conductLocked)
          ∧ (cl = 0 → (s.dev.lineStarted = true ∨ s.dev.anyStream = true) → TurnsAway (.lockConduct r) s 0x0202 r St.badState)
          ∧ (cl = 0 → s.dev.lineStarted = false → s.dev.anyStream = false → Does (.lockConduct r) s 0x0202 r [] fun d =>
              d.fld Reg.conduct 0 8 = l ∧ d.fld Reg.conduct 8 24 = s.dev.fld Reg.conduct 8 24 ∧ (s.dev.takeReq 0x0202 r).onlyRegs d [Reg.conduct]))
      ∧ (p.length = 40 → zeroAt p 1 3 = true → zeroAt p 12 4 = true → leAt p 0 1 < 2 → (cl = 0 ∨ s.dev.lineStarted = true ∨ s.dev.anyStream = true) →
          leAt p 8 4 % 4 = 0 → leAt p 0 1 = 1 → zeroAt p 16 24 = true → TurnsAway (.snapshotExport r) s 0x0203 r St.badState)
      ∧ (p.length = 40 → zeroAt p 1 3 = true → zeroAt p 12 4 = true → leAt p 0 1 = 1 → zeroAt p 16 24 = true → leAt p 8 4 = 0 → cl ≠ 0 → s.dev.lineStarted = false →
          s.dev.anyStream = false → 8 ≤ ({ s.dev with cnf := { s.dev.cnf with capture := none } } : Dev).freePages → ∃ c : Bytes,
          leAt c 0 4 = 0x4E535A54 ∧ leAt c 4 2 = 1 ∧ leAt c 6 1 = cl ∧ leAt c 7 1 = 3 ∧ leAt c 12 4 = s.dev.fld Reg.plantAddr 0 18
          ∧ Does (.snapshotExport r) s 0x0203 r (le 4 c.length ++ le 4 ((s.dev.cnf.gen + 1) % 2 ^ 32) ++ le 4 0) fun d =>
            d.cnf.capture = some c ∧ d.cnf.gen = s.dev.cnf.gen + 1 ∧ ({ s.dev.takeReq 0x0203 r with cnf := d.cnf } : Dev).onlyRegs d [Reg.sealRun 5]))
    ∧ (∀ (c : Bytes) (off : Nat), off = leAt p 8 4 → Begins s r [.conduct, .bulkArea r.mbx.val] → p.length = 40 → zeroAt p 0 4 = true → zeroAt p 12 4 = true →
        refReserved p 16 = true → (bulkRef p 16).region = bulkArea → s.dev.refCheck (bulkRef p 16) = none → s.dev.fld Reg.conduct 0 8 ≠ 0 → s.dev.lineStarted = false →
        s.dev.anyStream = false → s.dev.cnf.capture = some c → off % 4 = 0 → 0 < off → off ≤ c.length → leAt p 4 4 = s.dev.cnf.gen % 2 ^ 32 →
        let piece := (c.drop off).take (min ((bulkRef p 16).len - 4) (c.length - off))
        Accepts (.snapshotExport r) s 0x0203 r [.conduct, .bulkArea r.mbx.val] [c.length, s.dev.cnf.gen % 2 ^ 32, piece.length] fun d =>
          (∀ i, i < piece.length → d.bulkRd r.mbx.val ((bulkRef p 16).off + i) 1 = (piece.drop i).take 1)
            ∧ ({ s.dev.takeReq 0x0203 r with bulk := d.bulk } : Dev).onlyRegs d [Reg.sealRun 5])
    ∧ (∀ (ref : BulkRef) (off : Nat), ref = bulkRef p 12 → off = leAt p 4 4 → Begins s r [.snapshot] → p.length = 36 → zeroAt p 1 3 = true → zeroAt p 8 4 = true → leAt p 0 1 < 4 →
        refReserved p 12 = true → s.dev.stiffActive = false → s.dev.lineStarted = false → s.dev.anyStream = false → s.dev.refCheck ref = none →
        ((bit (leAt p 0 1) 0 = true ∧ off ≠ 0 ∨ bit (leAt p 0 1) 0 = false ∧ (∀ b, s.dev.cnf.importing = some b → b.length ≠ off)) →
          TurnsAway (.snapshotImport r) s 0x0204 r St.badParam)
        ∧ (bit (leAt p 0 1) 0 = true → off = 0 → ({ s.dev with cnf := { s.dev.cnf with importing := none } } : Dev).freePages < 8 →
          TurnsAway (.snapshotImport r) s 0x0204 r St.noResource)
        ∧ (∀ b, bit (leAt p 0 1) 0 = false → s.dev.cnf.importing = some b → b.length = off → ref.region = bulkArea →
          Accepts (.snapshotImport r) s 0x0204 r [.snapshot] [] fun d => d = s.dev.takeReq 0x0204 r))
    ∧ (∀ (a : Accepted) (m : Fin 8) (x data : Bytes), s.alive → s.dev.accepted.find? (fun a => a.req.mbx == m && (fetchRefs a.code a.req.payload) != []
          && !(a.code == 0x1002 && s.dev.pwr.staging.isSome)) = some a → a.code = 0x0204 → (bulkRef a.req.payload 12).region = bulkArea →
        s.dev.bulkPending (.bulkRead m.val) = false → checkSeal (bulkRef a.req.payload 12).off (s.dev.bulkRd m.val (bulkRef a.req.payload 12).off (bulkRef a.req.payload 12).len) = some x →
        let ref := bulkRef a.req.payload 12
        let whole := (if bit (leAt a.req.payload 0 1) 0 then [] else s.dev.cnf.importing.getD []) ++ x
        let run := s.dev.unitRun 4 ref.off ((s.dev.bulkRd m.val ref.off ref.len).take (ref.len - 4))
        (bit (leAt a.req.payload 0 1) 1 = false → Becomes (.bulkFetchDone m data ⟨0, [], []⟩) s fun t =>
          t = ({ run with cnf := { s.dev.cnf with importing := some whole } } : Dev).followUp a St.ok [])
        ∧ (bit (leAt a.req.payload 0 1) 1 = true → s.dev.importCheck whole ≠ St.ok → Becomes (.bulkFetchDone m data ⟨0, [], []⟩) s fun t =>
          t = (({ run with cnf := { s.dev.cnf with importing := none } } : Dev).unitRun 4 (leAt whole 8 4 + leAt whole 6 1 * 2 ^ 32)
            (whole.take (whole.length - 4))).followUp a (s.dev.importCheck whole) []))

/-- The firmware commands (R559 to R561): FW_INFO reports the record, the fuses and the slots' headers (a header not yet read is free,
notes/assumptions/85.md); FW_STAGE is accepted and fetches the image for the slot that does not run; an image that arrives is programmed
with its slot's VALID cleared if it meets R559, and refused otherwise; programming makes the slot VALID or leaves it so not; FW_COMMIT
ends a trial and, with ADVANCE on mailbox 0, blows fuses; FW_ACTIVATE starts a trial and owes the reset. Every change of the record goes
into the other copy with SEQ + 1. -/
def Obligations.FirmwareCommands : Prop :=
  ∀ (s : State), let k := s.dev.pwr.record; let fuse := s.dev.pwr.fuseRollback; let run := s.dev.pwr.slot
    let copy := Out.flash (0x01020000 + (k.seq + 1).toNat % 2 * 0x1000) (k.seq + 1).toNat
    (∀ r : Req, Begins s r [.fwImages] → let p := r.payload
      (p = [] → ∃ w : Bytes, w.length = 40
        ∧ w.take 8 = le 1 run ++ le 1 k.prefer ++ le 1 (b2n k.trial + 2 * bits k.tries 0 1 + 4 * s.dev.fld Reg.bootStat 29 1) ++ le 1 fuse
            ++ le 1 (bits s.dev.pwr.revoked 0 4) ++ zeros 3
        ∧ (∀ sl, sl < 2 → leAt w (8 + 16 * sl) 1 = bits k.valid sl 1 ∧ ∀ x, s.dev.pwr.images.getD sl none = some x →
            (w.drop (9 + 16 * sl)).take 15 = le 1 x.clMax ++ zeros 2 ++ le 4 x.fwVer ++ le 4 x.rollback ++ le 4 x.length)
        ∧ Does (.fwInfo r) s 0x1001 r w fun d => d = { s.dev.takeReq 0x1001 r with free := d.free })
      ∧ (∀ adv : Nat, adv = leAt p 0 1 → p.length = 4 → adv < 2 → zeroAt p 1 3 = true →
        let fuse2 := if adv = 1 then max fuse (((s.dev.pwr.images.getD run none).map (·.rollback)).getD 0) else fuse
        (adv = 1 → r.mbx ≠ 0 → TurnsAway (.fwCommit r) s 0x1003 r St.notPermitted)
        ∧ ((adv = 1 → r.mbx = 0) → k.trial = false → fuse2 = fuse → s.dev.behind 0x1003 r = false → exec (.fwCommit r) s =
            .next { s with dev := ((s.dev.takeReq 0x1003 r).answer 0x1003 r St.alreadyDone (le 1 fuse ++ zeros 3)).drainUnknown r.mbx.val 8 })
        ∧ ((adv = 1 → r.mbx = 0) → (k.trial = true ∨ fuse2 ≠ fuse) → Does (.fwCommit r) s 0x1003 r (le 1 fuse2 ++ zeros 3) fun d =>
            d.pwr = { s.dev.pwr with fuseRollback := fuse2, record := if k.trial = true then { k with trial := false, prefer := run, seq := k.seq + 1 } else k }
            ∧ d.fld Reg.bootStat 16 6 = fuse2 % 64 ∧ (s.dev.takeReq 0x1003 r).regsKept d [Reg.bootStat]
            ∧ d = { s.dev.takeReq 0x1003 r with pwr := d.pwr, regs := d.regs, out := if k.trial = true then copy :: s.dev.out else s.dev.out }))
      ∧ (∀ sl : Nat, sl = leAt p 4 1 → p.length = 8 → zeroAt p 5 3 = true →
        ((leAt p 0 4 ≠ 0x1680 ∨ 1 < sl) → TurnsAway (.fwActivate r) s 0x1004 r St.badParam)
        ∧ (leAt p 0 4 = 0x1680 → sl ≤ 1 → (sl = run ∨ bit k.valid sl = false ∨ k.trial = true) → TurnsAway (.fwActivate r) s 0x1004 r St.badState)
        ∧ (leAt p 0 4 = 0x1680 → sl ≤ 1 → sl ≠ run → bit k.valid sl = true → k.trial = false → Does (.fwActivate r) s 0x1004 r [] fun d =>
            d.pwr.record = { k with seq := k.seq + 1, prefer := sl, trial := true, tries := 0 } ∧ d.pwr.resetDue = some 4
            ∧ d.pwr.images = s.dev.pwr.images ∧ d.pwr.fuseRollback = fuse ∧ d = { s.dev.takeReq 0x1004 r with pwr := d.pwr, out := copy :: s.dev.out })))
    ∧ (∀ (r : Req) (sl : Nat) (ref : BulkRef), let p := r.payload
        sl = leAt p 0 1 → ref = bulkRef p 4 → Begins s r (.fwImages :: refObjs r.mbx.val ref) → p.length = 28 → zeroAt p 1 3 = true → refReserved p 4 = true →
        ((1 < sl ∨ sl = run ∨ ref.len < 520 ∨ 3146244 < ref.len) → TurnsAway (.fwStage r) s 0x1002 r St.badParam)
        ∧ (sl ≤ 1 → sl ≠ run → 520 ≤ ref.len → ref.len ≤ 3146244 →
          (k.trial = true → TurnsAway (.fwStage r) s 0x1002 r St.badState)
          ∧ (k.trial = false → s.dev.freePages < 2 → TurnsAway (.fwStage r) s 0x1002 r St.noResource)
          ∧ (k.trial = false → 2 ≤ s.dev.freePages → s.dev.refCheck ref = none →
            Accepts (.fwStage r) s 0x1002 r (.fwImages :: refObjs r.mbx.val ref) [] fun d =>
              if ref.region = bulkArea then d = s.dev.takeReq 0x1002 r
              else d = (s.dev.takeReq 0x1002 r).postRead (.bulkRead r.mbx.val) ref.region ref.off ref.len)))
    ∧ (∀ (a : Accepted) (m : Fin 8) (x data : Bytes) (sl : Nat) (ref : BulkRef), s.alive → ref = bulkRef a.req.payload 4 → sl = leAt a.req.payload 0 1 →
        s.dev.accepted.find? (fun a => a.req.mbx == m && (fetchRefs a.code a.req.payload) != []
          && !(a.code == 0x1002 && s.dev.pwr.staging.isSome)) = some a → a.code = 0x1002 → ref.region = bulkArea →
        s.dev.bulkPending (.bulkRead m.val) = false → checkSeal ref.off (s.dev.bulkRd m.val ref.off ref.len) = some x →
        let ran := s.dev.unitRun 4 ref.off ((s.dev.bulkRd m.val ref.off ref.len).take (ref.len - 4))
        Becomes (.bulkFetchDone m data ⟨0, [], []⟩) s fun t =>
          if s.dev.imageOk x = true ∧ x.length = 512 + leAt x 16 4 then t.pwr.staging = some (sl, imageOf x)
            ∧ t.pwr.record = { k with valid := k.valid - bits k.valid sl 1 * 2 ^ sl, seq := k.seq + 1 } ∧ t = { ran with pwr := t.pwr, out := copy :: s.dev.out }
          else t = (ran.fault 0x08).followUp a St.notPermitted [])
    ∧ (∀ (ok : Bool) (sl : Nat) (x : Image) (a : Accepted), s.alive → s.dev.pwr.staging = some (sl, x) → s.dev.owed 0x1002 = some a →
        Becomes (.fwStageDone ok) s fun t => ∃ pw o, t = ({ s.dev with pwr := pw, out := o } : Dev).followUp a (if ok then St.ok else St.internal) []
          ∧ pw.staging = none ∧ pw.images = modAt s.dev.pwr.images sl (fun _ => if ok then some x else none)
          ∧ pw.record = (if ok then { k with valid := k.valid ||| 2 ^ sl, seq := k.seq + 1 } else k)
          ∧ o = if ok then .flash (sl * 0x800000) x.fwVer :: copy :: s.dev.out else s.dev.out)

/-- The pins of power and reset (R93, R481, R553 to R555): PWR_OK rising is a power-on reset of everything; falling stops all activity
and leaves the safe state; RST_N low is a device reset that keeps the frame store with VALID and RETIRED, the bulk areas, the wear
copies and the failures of debug, and in the safe state does nothing; a reset owed by a command resets and starts up. Until start-up
begins no other command or event does anything. -/
def Obligations.PowerAndReset : Prop :=
  ∀ (s : State),
    let flashKept := fun (d : Dev) => d.cnf.copies = s.dev.cnf.copies ∧ d.pwr.images = s.dev.pwr.images ∧ d.pwr.record = s.dev.pwr.record
      ∧ d.pwr.fuseRollback = s.dev.pwr.fuseRollback ∧ d.pwr.revoked = s.dev.pwr.revoked
    let fresh := fun (d : Dev) => d.lineStarted = false ∧ d.running = [] ∧ d.accepted = [] ∧ d.boxes = List.replicate 8 {} ∧ d.authKey = none ∧ d.ev = {}
      ∧ d.hoppers = List.replicate 71 {} ∧ d.pos = {} ∧ d.ful = {} ∧ d.plc = {} ∧ d.pipes = List.replicate 16 {} ∧ d.ports = List.replicate 16 {} ∧ d.band = {}
      ∧ d.safe = false ∧ d.flt.recoveries = [] ∧ d.cnf = { ({} : Cnf) with copies := s.dev.cnf.copies }
    let deviceReset := fun (d : Dev) => fresh d ∧ flashKept d ∧ d.bulk = s.dev.bulk
      ∧ d.hood = { ({} : Hoods) with fs := s.dev.hood.fs, valid := s.dev.hood.valid, retired := s.dev.hood.retired, soiled := s.dev.hood.soiled }
      ∧ d.deep = s.dev.deep.filter (fun p => deepScratch p.1) ∧ d.flt.log.length = 1
    (exec .pwrOkFall s = .next { s with dev := s.dev.powerOn 1, pins := { s.pins with pwrOk := false } })
    ∧ (s.dev.powerOn 1).unpowered ∧ fresh (s.dev.powerOn 1) ∧ flashKept (s.dev.powerOn 1) ∧ (s.dev.powerOn 1).rdN Reg.rstCause = 1 ∧ (s.dev.powerOn 1).hood = {}
    ∧ (s.pins.pwrOk = true → exec .pwrOkRise s = .next s)
    ∧ (s.pins.pwrOk = false → ∃ d, exec .pwrOkRise s = .next { s with dev := d, pins := { s.pins with pwrOk := true } }
        ∧ d = { s.dev.powerOn 1 with pwr := d.pwr } ∧ flashKept d ∧ d.pwr.phase = if s.pins.rstN = true then .reset else .held)
    ∧ ((s.dev.safe = true ∨ s.pins.pwrOk = false) → exec .rstNAssert s = .next { s with pins := { s.pins with rstN := false } })
    ∧ (s.dev.safe = false → s.pins.pwrOk = true → ∃ d, exec .rstNAssert s = .next { s with dev := d, pins := { s.pins with rstN := false } }
        ∧ deviceReset d ∧ d.pwr.phase = .held ∧ d.pwr.named = none ∧ d.rdN Reg.rstCause = 2 ∧ d.rdN Reg.dbgStat = s.dev.fld Reg.dbgStat 0 2
        ∧ ∀ a, a ≠ Reg.rstCause → a ≠ Reg.dbgStat → d.rd a = RegMap.resetAt a)
    ∧ (s.alive → (s.dev.pwr.resetDue = none ∨ s.dev.safe = true) → exec .deviceResetBegin s = .next s)
    ∧ (∀ cause, s.alive → s.dev.pwr.resetDue = some cause → s.dev.safe = false → Becomes .deviceResetBegin s fun d =>
        d = (s.dev.deviceReset cause).startUp ∧ deviceReset (s.dev.deviceReset cause) ∧ (s.dev.deviceReset cause).rdN Reg.rstCause = cause % 2 ^ 32
        ∧ ((s.dev.deviceReset cause).pwr.named = if cause = 2 then none else s.dev.pwr.named))
    ∧ (∀ ir ex, exec (.jtagInstruction ir ex) s =
        .next (if s.pins.pwrOk = true then { s with dev := { s.dev with pwr := { s.dev.pwr with jtagIr := ir, extest := ex } } } else s))
    ∧ (s.dead = true → ∀ i : Instr, (match i with
        | .pwrOkRise | .pwrOkFall | .rstNAssert | .bootStart | .mbRstN | .mbRstNRise | .jtagInstruction _ _ => False
        | _ => True) → exec i s = .next s)

/-- Start-up, domains, clocks and debug (R540, R545 to R547, R559, R561 to R563, R565): the boot chooses its image under R561 with only
the domains on that are never switched; a loaded image is accepted or the other slot is tried, and none left is BOOTING for good; READY
turns the domains on and raises its event, and FW_ACTIVATED after the first boot of a trial; one domain switches at a time, its RW
fields retained; a clock slip raises source 0x01; a challenge draws a fresh nonce, and a response (without a challenge ignored,
notes/assumptions/85.md) unlocks or counts. -/
def Obligations.StartUpDomainsDebug : Prop :=
  ∀ (s : State), let k := s.dev.pwr.record
    (s.pins.pwrOk = true → (s.dev.pwr.phase = .held ∨ s.dev.pwr.phase = .reset) →
      ∃ d, exec .bootStart s = .next { s with dev := d, pins := { s.pins with rstN := true } } ∧ d.pwr.phase = .booting ∧ d.pwr.fwVer = 0
        ∧ d.flag Reg.fltState 30 = true ∧ (∀ j, j < 136 → d.domainOn j = decide (126 ≤ j ∧ j < 130)) ∧ d.pwr.queue = bootDomains.map (fun j => (j, true))
        ∧ d.fld Reg.pdSeq 30 2 = 3 ∧ d.fld Reg.pdSeq 16 8 = 122 ∧ d.fld Reg.pdSeq 8 8 = 24 ∧ d.pwr.named = none
        ∧ (let boot := fun (sl : Nat) (trial rev : Bool) (rec : BootRec) => d.pwr.slot = sl ∧ d.pwr.record = rec
              ∧ d.rdN Reg.bootStat = (sl * 2 ^ 31 + b2n trial * 2 ^ 30 + b2n rev * 2 ^ 29 + s.dev.pwr.fuseRollback * 2 ^ 16) % 2 ^ 32
           match s.dev.pwr.named with
           | some sl => boot sl false false k
           | none => if k.trial = true ∧ k.tries = 0 then boot k.prefer true false { k with tries := 1, seq := k.seq + 1 }
              else if k.trial = true then boot (1 - k.prefer) false true { k with prefer := 1 - k.prefer, trial := false, seq := k.seq + 1 }
              else boot k.prefer false false k))
    ∧ ((s.pins.pwrOk = false ∨ (s.dev.pwr.phase ≠ .held ∧ s.dev.pwr.phase ≠ .reset)) → exec .bootStart s = .next { s with pins := { s.pins with rstN := true } })
    ∧ (∀ (image : Bytes) (sl : Nat), s.alive → s.dev.pwr.phase = .booting → sl = s.dev.pwr.slot → Becomes (.imageLoaded image) s fun t =>
        if s.dev.imageOk image = true then
          t = { s.dev with pwr := { s.dev.pwr with phase := .firmware, fwVer := leAt image 8 4, images := modAt s.dev.pwr.images sl fun _ => some (imageOf image) } }
        else ∃ u : Dev, u = (s.dev.setFlag Reg.bootStat (28 - sl) true).fault 0x08 ∧ t.pwr.rejected = sl :: u.pwr.rejected
          ∧ (u.pwr.rejected.contains (1 - sl) = true → t.pwr.phase = .stuck ∧ t.regs = u.regs)
          ∧ (u.pwr.rejected.contains (1 - sl) = false → t.pwr.phase = u.pwr.phase ∧ t.pwr.slot = 1 - sl ∧ t.fld Reg.bootStat 31 1 = (1 - sl) % 2 ∧ t.flag Reg.bootStat 30 = false))
    ∧ (∀ ms : BitVec 16, s.alive → s.dev.pwr.phase = .firmware → s.dev.safe = false → (∃ w, some w ∈ s.dev.cnf.copies ∧ w.uid = Config.uid) → Becomes (.ready ms) s fun t =>
        t.pwr.phase = .ready ∧ t.pwr.queue = [] ∧ t.fld Reg.bootStat 0 16 = ms.toNat
        ∧ (∀ j, j < 136 → t.domainOn j = decide (96 ≤ j ∧ j < 104 ∨ 114 ≤ j ∧ j < 135))
        ∧ (∃ w, some w ∈ s.dev.cnf.copies ∧ w.uid = Config.uid ∧ (∀ v, some v ∈ s.dev.cnf.copies → v.uid = Config.uid → v.seq ≤ w.seq) ∧ t.cnf.retired = w.retired ∧ t.cnf.recSeq = w.seq)
        ∧ ∃ x : Dev, (let e := x.event 0x8101 none (le 1 s.dev.pwr.slot ++ zeros 3)
            t.ev = (if s.dev.pwr.activated = true ∧ k.trial = true ∧ s.dev.pwr.slot = k.prefer then
              e.event 0x9001 none (le 4 s.dev.pwr.prevFw ++ le 4 s.dev.pwr.fwVer ++ le 1 s.dev.pwr.slot ++ zeros 3) else e).ev))
    ∧ (∀ (j : Nat) (on : Bool) (rest : List (Nat × Bool)), s.alive → j < 136 → (j < 126 ∨ 130 ≤ j) → s.dev.pwr.queue = (j, on) :: rest →
        Sparse.wf RegMap.resetAt s.dev.regs = true →
        ((∀ x ∈ s.dev.running, x.switch ≠ some (j, on)) → Becomes .domainSwitchDone s fun t => t.pwr.queue = rest ∧ t.domainOn j = on
          ∧ (∀ i, i < 136 → i ≠ j → t.domainOn i = s.dev.domainOn i) ∧ (rest = [] → t.rdN Reg.pdSeq = 0)
          ∧ (on = true → j ≠ 112 → j ≠ 113 → ∀ a, regDomain a = j → t.rd a = (s.dev.rd a &&& retained a) ||| (RegMap.resetAt a &&& ~~~retained a))
          ∧ (on = true → ∀ i, i < 71 → hopDomain i = j → t.hoppers.getD i {} = {} ∧ t.rdN (Reg.hopCnt i) = 0)
          ∧ (on = false → 16 ≤ j → j < 80 ∨ 96 ≤ j ∨ s.dev.safe = true → j ≠ 112 → j ≠ 113 → s.dev.regsKept t [Reg.pdOn (j / 32), Reg.pdSeq] ∧ t = { s.dev with pwr := t.pwr, regs := t.regs }))
        ∧ (∀ x, s.dev.running.filter (fun x => x.switch == some (j, on)) = [x] → Becomes .domainSwitchDone s fun t =>
            ∃ d : Dev, t = d.endRunning x (if x.code = 0x0401 ∨ x.code = 0x0B01 then St.accepted else St.ok) []))
    ∧ (∀ stat : BitVec 4, s.alive → Becomes (.refClockSlip stat) s fun t => t = (s.dev.setFld Reg.clkStat 28 4 stat.toNat).pulse [0x01] 0)
    ∧ (s.alive → Becomes .dbgChal s fun t => if s.dev.fld Reg.dbgStat 0 2 = 3 then t = s.dev
        else ∃ n : Bytes, n.length = 32 ∧ t = { s.dev with free := t.free, pwr := { s.dev.pwr with nonce := some n }, out := .debug (le 8 Config.uid ++ n) :: s.dev.out })
    ∧ (∀ scope sig, s.alive → s.dev.pwr.nonce = none → exec (.dbgResp scope sig) s = .next s)
    ∧ (∀ scope sig n, s.alive → s.dev.pwr.nonce = some n → Becomes (.dbgResp scope sig) s fun t =>
        { s.dev with pwr := { s.dev.pwr with nonce := none } }.onlyRegs t [Reg.dbgStat]
        ∧ if ecdsaOk debugKey sig (sha384 (le 8 Config.uid ++ n ++ [scope])) = true then
            t.fld Reg.dbgStat 28 3 = s.dev.fld Reg.dbgStat 28 3 ||| scope.toNat % 8 ∧ t.flag Reg.dbgStat 31 = (t.fld Reg.dbgStat 28 3 != 0)
            ∧ t.fld Reg.dbgStat 0 2 = s.dev.fld Reg.dbgStat 0 2
          else t.fld Reg.dbgStat 0 2 = min 3 (s.dev.fld Reg.dbgStat 0 2 + 1) ∧ t.fld Reg.dbgStat 28 4 = s.dev.fld Reg.dbgStat 28 4)

/-- The device commands and the checks before them (R62, R69, R74, R91 to R95, R97): a request waits for its predecessor; poison, length
and the narrowing of the device's state turn it away; IDENTIFY and GET_STATE answer in every state; the others set what their sections
say or are refused with the first status of R94 or of their tables, in the tables' order. -/
def Obligations.DeviceCommands : Prop :=
  ∀ (s : State) (r : Req), let p := r.payload; let m := r.mbx.val; let took := fun c => s.dev.takeReq c r
    (s.alive → (s.dev.runs m = true ∨ s.dev.behind 0x0101 r = true) → exec (.identify r) s = .next { s with dev := s.dev.parkReq 0x0101 r })
    ∧ (s.alive → s.dev.runs m = false → s.dev.unserved m = false →
      (poisonWords 0x0101 r ≠ [] → s.dev.behind 0x0101 r = false → exec (.identify r) s =
        .next { s with dev := (((took 0x0101).poisonRead m 0 (poisonWords 0x0101 r)).answer 0x0101 r St.poisoned []).drainUnknown m 8 })
      ∧ (poisonWords 0x0101 r = [] → p ≠ [] → TurnsAway (.identify r) s 0x0101 r St.badLength)
      ∧ ((∀ c, poisonWords c r = []) → s.dev.heldByOther m [] = false →
        (p.length = 8 → s.dev.safe = true → TurnsAway (.setPlantAddress r) s 0x0103 r St.faulted)
        ∧ (p.length = 8 → s.dev.safe = false → s.dev.pwr.phase ≠ .ready → TurnsAway (.setPlantAddress r) s 0x0103 r St.retry)
        ∧ (p.length = 4 → zeroAt p 1 1 = true → (∀ objs, s.dev.heldBySame m objs = false) → s.dev.safe = false → s.dev.pwr.phase = .ready → s.dev.devRec = true → TurnsAway (.resetUnit r) s 0x0104 r St.recovering)
        ∧ (p = [] → Does (.identify r) s 0x0101 r (le 2 0x1680 ++ le 2 Config.step ++ le 1 Config.clMax ++ le 1 (if Config.gradeX then 0x58 else 0x49) ++ zeros 2
            ++ le 8 Config.uid ++ (List.range 16).map Config.lot ++ le 4 s.dev.pwr.fwVer ++ le 1 s.dev.pwr.slot ++ le 1 s.dev.pwr.fuseRollback ++ zeros 2
            ++ le 4 (s.dev.fld Reg.plantAddr 0 18) ++ zeros 4) fun d => d = took 0x0101)
        ∧ (p = [] → Does (.getState r) s 0x0102 r
            (le 1 (if s.dev.safe then 4 else if s.dev.devRec then 3 else if s.dev.pwr.phase ≠ .ready then 0 else if s.dev.lineStarted then 2 else 1)
              ++ le 1 (b2n s.dev.lineStarted) ++ le 1 (s.dev.fld Reg.conduct 0 8) ++ le 1 (b2n s.dev.stiffActive + 2 * b2n s.dev.ev.ring.isSome)
              ++ le 2 s.dev.unitsRec ++ le 2 s.dev.accepted.length ++ sle 8 s.dev.spos ++ le 8 s.dev.timeNs ++ le 8 (s.dev.rd64 Reg.btOpenMin) ++ le 8 s.dev.pubMax
              ++ le 2 (s.dev.fld Reg.cnfStat 0 16) ++ zeros 2) fun d => d = took 0x0102)))
    ∧ (Begins s r [] →
      (∀ addr ex now : Nat, addr = leAt p 0 4 → ex = leAt p 4 4 → now = s.dev.fld Reg.plantAddr 0 18 → p.length = 8 →
        ((0x3FFFF ≤ addr ∨ ex ≠ 2 ^ 32 - 1 ∧ ex ≠ now) → TurnsAway (.setPlantAddress r) s 0x0103 r St.badParam)
        ∧ (addr < 0x3FFFF → (ex = 2 ^ 32 - 1 ∨ ex = now) → (s.dev.anyStream = true → TurnsAway (.setPlantAddress r) s 0x0103 r St.badState)
          ∧ (s.dev.anyStream = false → addr = now → s.dev.behind 0x0103 r = false → exec (.setPlantAddress r) s =
              .next { s with dev := ((took 0x0103).answer 0x0103 r St.alreadyDone (le 4 now)).drainUnknown m 8 })
          ∧ (s.dev.anyStream = false → addr ≠ now → s.dev.stiffActive = true → TurnsAway (.setPlantAddress r) s 0x0103 r St.stiffened)
          ∧ (s.dev.anyStream = false → addr ≠ now → s.dev.stiffActive = false → Does (.setPlantAddress r) s 0x0103 r (le 4 now) fun d =>
              d.fld Reg.plantAddr 0 18 = addr ∧ d.fld Reg.plantAddr 18 14 = s.dev.fld Reg.plantAddr 18 14 ∧ (took 0x0103).onlyRegs d [Reg.plantAddr])))
      ∧ (∀ img : Nat, img = leAt p 4 1 → p.length = 8 → zeroAt p 5 3 = true → let bad := leAt p 0 4 ≠ 0x1680 ∨ 2 < img ∨ img ≠ 0 ∧ bit s.dev.pwr.record.valid (img - 1) = false
        (bad → TurnsAway (.resetDevice r) s 0x0105 r St.badParam)
        ∧ (¬ bad → s.dev.fld Reg.mbxCfg 16 2 = 2 → m ≠ 0 → r.auth = false → TurnsAway (.resetDevice r) s 0x0105 r St.notPermitted)
        ∧ (¬ bad → (s.dev.fld Reg.mbxCfg 16 2 ≠ 2 ∨ m = 0 ∨ r.auth = true) → Does (.resetDevice r) s 0x0105 r [] fun d =>
            d = { took 0x0105 with pwr := { s.dev.pwr with resetDue := some 3, named := if img = 0 then none else some (img - 1) } }))
      ∧ (∀ mode key, mode = leAt p 0 1 → key = slice p 4 32 → p.length = 36 → zeroAt p 1 3 = true → let zero := key.all (· == 0)
        (m ≠ 0 → TurnsAway (.setAuthKey r) s 0x0107 r St.notPermitted)
        ∧ (m = 0 → (2 < mode ∨ mode ≠ 0 ∧ zero = true ∨ mode = 0 ∧ zero = false) → TurnsAway (.setAuthKey r) s 0x0107 r St.badParam)
        ∧ (m = 0 → mode ≤ 2 → (mode = 0 ↔ zero = true) → s.dev.stiffActive = true → mode ≠ s.dev.fld Reg.mbxCfg 16 2 → TurnsAway (.setAuthKey r) s 0x0107 r St.stiffened)
        ∧ (m = 0 → mode ≤ 2 → (mode = 0 ↔ zero = true) → (s.dev.stiffActive = false ∨ mode = s.dev.fld Reg.mbxCfg 16 2) →
            Does (.setAuthKey r) s 0x0107 r ((hmac key []).take 4) fun d => d.authKey = (if mode = 0 then none else some key) ∧ d.fld Reg.mbxCfg 16 2 = mode
              ∧ d.fld Reg.mbxCfg 0 16 = s.dev.fld Reg.mbxCfg 0 16 ∧ (took 0x0107).regsKept d [Reg.mbxCfg] ∧ d = { took 0x0107 with authKey := d.authKey, regs := d.regs }))
      ∧ (∀ off len : Nat, off = leAt p 0 4 → len = leAt p 4 2 → zeroAt p 6 2 = true →
        let ok := off % 4 = 0 ∧ len % 4 = 0 ∧ 4 ≤ len ∧ len ≤ 4068 ∧ off + len ≤ 0x800000
        (p.length = 8 + len → (¬ ok → TurnsAway (.bulkPut r) s 0x0108 r St.badParam) ∧ (ok → s.dev.bulkBusy m = true → TurnsAway (.bulkPut r) s 0x0108 r St.busy)
          ∧ (ok → s.dev.bulkBusy m = false → Does (.bulkPut r) s 0x0108 r (le 4 (off + len)) fun d => d = { took 0x0108 with bulk := d.bulk }
              ∧ (∀ i, i < len → d.bulkRd m (off + i) 1 = (p.drop (8 + i)).take 1)
              ∧ ∀ k a, k < 8 → a < 0x800000 → (k ≠ m ∨ a < off ∨ off + len ≤ a) → d.bulkRd k a 1 = s.dev.bulkRd k a 1))
        ∧ (p.length = 8 → (¬ ok → TurnsAway (.bulkGet r) s 0x0109 r St.badParam) ∧ (ok → s.dev.bulkBusy m = true → TurnsAway (.bulkGet r) s 0x0109 r St.busy)
          ∧ (ok → s.dev.bulkBusy m = false → Does (.bulkGet r) s 0x0109 r (le 4 off ++ le 2 len ++ zeros 2 ++ s.dev.bulkRd m off len) fun d => d = took 0x0109))))
    ∧ (∀ kind idx : Nat, kind = leAt p 0 1 → idx = leAt p 2 2 → p.length = 4 → zeroAt p 1 1 = true →
        let bad := kind = 0 ∨ 5 < kind ∨ [0, 16, 8, 64, 2, 8].getD kind 0 ≤ idx ∨ kind = 5 ∧ (idx = 0 ∨ idx = m)
        Begins s r (if bad then [] else [resetObj kind idx]) →
        (bad → TurnsAway (.resetUnit r) s 0x0104 r St.badParam)
        ∧ (¬ bad → kind ≠ 5 → s.dev.inRecovery ⟨kind, idx⟩ = true → TurnsAway (.resetUnit r) s 0x0104 r St.recovering)
        ∧ (¬ bad → kind ≠ 5 → s.dev.inRecovery ⟨kind, idx⟩ = false → Accepts (.resetUnit r) s 0x0104 r [resetObj kind idx] [kind, idx] fun d =>
            d = if kind = 4 then ((took 0x0104).quiesce ⟨4, idx⟩).flush (69 + idx) false else (took 0x0104).quiesce ⟨kind, idx⟩)
        ∧ (¬ bad → kind = 5 → Accepts (.resetUnit r) s 0x0104 r [.mailbox idx] [5, idx] fun d => (d.box idx).lastSeq = none ∧ (d.box idx).stored = none
            ∧ ((s.dev.hoppers.getD idx {}).flushing = false → (d.box idx).hopper = [] ∧ d.fld (Reg.hopCnt idx) 0 8 = min 255 (s.dev.fld (Reg.hopCnt idx) 0 8 + 1)
              ∧ (d.hoppers.getD idx {}).tail = false)
            ∧ (∀ k, k ≠ idx → d.box k = (took 0x0104).box k) ∧ (took 0x0104).regsKept d [Reg.hopCnt idx]
            ∧ d = { took 0x0104 with boxes := d.boxes, running := d.running, hoppers := d.hoppers, regs := d.regs }
            ∧ d.running = s.dev.running.map fun x => if x.req.mbx.val = idx then { x with void := true } else x))
    ∧ (∀ (k : Fin 8) (faulted : Bool) (a : Accepted) (kind idx : Nat), s.alive → s.dev.accepted.find? (fun a => a.code == 0x0104 && a.req.mbx == k) = some a → a.args = [kind, idx] →
        Becomes (.unitResetDone k faulted) s fun t => t = ((if kind = 5 then s.dev else s.dev.resume ⟨kind, idx⟩).followUp a (if faulted then St.faulted else St.ok) []).eventFor
          k.val 0x8105 none (le 1 kind ++ zeros 1 ++ le 2 idx))
    ∧ (∀ (region off n sz cons en ur : Nat), region = leAt p 0 4 → off = leAt p 8 8 → n = leAt p 16 4 → sz = leAt p 20 1 → cons = leAt p 24 8 → en = leAt p 32 4 → ur = leAt p 36 4 →
        Begins s r (.eventRoute :: if region = 2 ^ 32 - 1 then [] else [.region region]) → p.length = 40 → zeroAt p 4 4 = true → zeroAt p 21 3 = true → en % 2 = 0 → en < 2 ^ 17 → ur % 2 = 0 → ur < 2 ^ 17 →
        let slot := 512 * 2 ^ sz; let old := s.dev.ev.keepRoute; let reply := le 4 s.dev.ev.nextSeq.toNat ++ le 4 (s.dev.rdN Reg.evtLostCnt)
        let set := fun (d : Dev) ring => d = { took 0x0106 with ev := { old with ring := ring, bound := s.dev.ev.bound + 1, enable := BitVec.ofNat 32 (en ||| 0x2002), urgent := BitVec.ofNat 32 ur } }
        let good := sz ≤ 3 ∧ (∃ k, k < 13 ∧ n = 16 * 2 ^ k) ∧ off % slot = 0 ∧ cons % 8 = 0 ∧ (cons + 4 ≤ off ∨ off + n * slot ≤ cons)
        (region = 2 ^ 32 - 1 → (off = 0 ∧ n = 0 ∧ sz = 0 ∧ cons = 0) → Does (.setEventRoute r) s 0x0106 r reply fun d => set d none)
        ∧ (region = 2 ^ 32 - 1 → ¬ (off = 0 ∧ n = 0 ∧ sz = 0 ∧ cons = 0) → TurnsAway (.setEventRoute r) s 0x0106 r St.badParam)
        ∧ (region ≠ 2 ^ 32 - 1 → ¬ good → TurnsAway (.setEventRoute r) s 0x0106 r St.badParam)
        ∧ (region ≠ 2 ^ 32 - 1 → good → s.dev.regionLive region = false → TurnsAway (.setEventRoute r) s 0x0106 r St.regionRevoked)
        ∧ (region ≠ 2 ^ 32 - 1 → good → s.dev.regionLive region = true → (s.dev.regionLen region < off + n * slot ∨ s.dev.regionLen region < cons + 4) → TurnsAway (.setEventRoute r) s 0x0106 r St.badParam)
        ∧ (region ≠ 2 ^ 32 - 1 → good → s.dev.regionLive region = true → off + n * slot ≤ s.dev.regionLen region → cons + 4 ≤ s.dev.regionLen region →
            Does (.setEventRoute r) s 0x0106 r reply fun d => set d (some ⟨s.dev.ev.bound, region, off, n, slot, cons, 0, 0⟩)))

/-- The acceptance of in-band messages and the event path (R49 to R52, R60, R61, R63, R64, R67, R74, R83 to R85, R87, R608): the checks in
the order of R60, each with its answer, not stored, or its count; a new request enters its hopper, a duplicate or stale one is counted,
a repeat gets the stored response; the ticks raise what their interval saw; the event writer keeps to the route's room; a failed ring
write unbinds the route. What a Milliner pair that is off does not write stays. -/
def Obligations.RequestsAndEvents : Prop :=
  ∀ (s : State), s.alive →
    (∀ g : Datagram, let b := g.data; let src := some (g.src, g.srcPort.toNat); let port := s.dev.fld Reg.mbxCfg 0 16
      let gives := fun (t : Dev) => exec (.mbxDatagramRx g) s = .next { s with dev := t }
      let count := fun (a lo w : Nat) => s.dev.incSat a lo w 1
      ((s.dev.domainOn 135 = false ∨ s.dev.safe = true) → gives s.dev)
      ∧ (s.dev.domainOn 135 = true → s.dev.safe = false →
        ((port = 0 ∨ g.port.toNat ≠ port ∨ g.v6 ≠ s.dev.flag Reg.umacCfg 0) → gives (count Reg.umacDisc 0 32))
        ∧ (port ≠ 0 → g.port.toNat = port → g.v6 = s.dev.flag Reg.umacCfg 0 →
          ((g.fragment = true ∨ g.lengthOk = false ∨ (g.csumZero = true ∧ g.v6 = true) ∨ (g.csumZero = false ∧ g.csumOk = false)) → gives (count Reg.mbxMisrouteCnt 0 32))
          ∧ (g.fragment = false → g.lengthOk = true → (g.csumZero = true → g.v6 = false) → (g.csumZero = false → g.csumOk = true) →
            let m := leAt b 10 1; let fl := leAt b 2 1; let r := reqOf b (s.dev.tagValid b) g.hits; let whole := 20 + leAt b 8 2 + (if bit fl 4 then 16 else 0)
            let sealed := checkSeal (m + 2 ^ 32 * leAt b 4 4) b ≠ none
            let plain := fl / 64 = 0 ∧ bit fl 5 = false ∧ fl % 8 = 0 ∧ leAt b 3 1 = 0 ∧ leAt b 11 1 = 0
            let allowed := s.dev.tagValid b = true ∨ bit fl 4 = false ∧ s.dev.fld Reg.mbxCfg 16 2 < 2
            let u0 := s.dev.sealIn b; let count0 := fun (a lo w : Nat) => u0.incSat a lo w 1
            let seen := (s.dev.box m).lastSeq.isSome && ((s.dev.box m).hopper.any (fun q => q.2.seq == r.seq) || s.dev.running.any fun q => q.req.mbx == r.mbx && q.req.seq == r.seq)
            (b.length < 20 → gives (count Reg.mbxMisrouteCnt 0 32))
            ∧ (20 ≤ b.length → (b.length ≠ whole ∨ 4096 < b.length) → gives (s.dev.refuse b src St.badLength false))
            ∧ (20 ≤ b.length → b.length = whole → b.length ≤ 4096 →
              ((m = 0 ∨ 7 < m) → gives (count Reg.mbxMisrouteCnt 0 32))
              ∧ (1 ≤ m → m ≤ 7 → (¬ sealed → gives ((count0 (Reg.mbxErr m) 24 8).refuse b src St.badSeal (s.dev.tagValid b)))
                ∧ (sealed → ¬ plain → gives (u0.refuse b src St.badParam (s.dev.tagValid b)))
                ∧ (sealed → plain → ¬ allowed → Becomes (.mbxDatagramRx g) s fun t => ∃ u : Dev, t = u.refuse b src St.notPermitted false
                    ∧ u.fld (Reg.mbxErr m) 16 8 = min 255 (s.dev.fld (Reg.mbxErr m) 16 8 + 1) ∧ u.ev.authFails = min (2 ^ 32 - 1) (s.dev.ev.authFails + 1) ∧ bit u.ev.authMask m = true)
                ∧ (sealed → plain → allowed → (seen = true → gives (count0 (Reg.mbxErr m) 0 8))
                  ∧ (∀ y, seen = false → (s.dev.box m).lastSeq = some r.seq → (s.dev.box m).stored = some y → y.seq = r.seq → r.noresp = true → gives u0)
                  ∧ (∀ y, seen = false → (s.dev.box m).lastSeq = some r.seq → (s.dev.box m).stored = some y → y.seq = r.seq → r.noresp = false → gives ((u0.noteSrc m r.seq src).send { y with tag := y.tag || r.auth }))
                  ∧ (∀ l, seen = false → (s.dev.box m).lastSeq = some l → 2 ^ 31 ≤ (r.seq - l).toNat → gives (count0 (Reg.mbxErr m) 8 8))
                  ∧ (seen = false → ((s.dev.box m).lastSeq = none ∨ ∃ l, (s.dev.box m).lastSeq = some l ∧ 1 ≤ (r.seq - l).toNat ∧ (r.seq - l).toNat < 2 ^ 31) →
                    (8 ≤ (s.dev.box m).hopper.length → gives (u0.refuse b src St.noResource (s.dev.tagValid b)))
                    ∧ ((s.dev.box m).hopper.length < 8 → gives (((u0.modBox m fun y =>
                        { y with hopper := y.hopper ++ [(leAt b 0 2, r)], lastSeq := some r.seq }).noteSrc m r.seq src).drainUnknown m 8))))))))))
    ∧ (∀ (b : Bytes) (src : Nat × Nat) (st : Nat) (v : Bool), leAt b 10 1 < 8 →
        ((bit (leAt b 2 1) 3 = true ∨ 1000 ≤ (s.dev.box (leAt b 10 1)).unstored) → s.dev.refuse b (some src) st v = s.dev)
        ∧ (bit (leAt b 2 1) 3 = false → (s.dev.box (leAt b 10 1)).unstored < 1000 → s.dev.safe = false → ∃ u : Dev, ∃ y : Msg, ∃ tag,
            u = s.dev.modBox (leAt b 10 1) (fun x => { x with unstored := x.unstored + 1 }) ∧ s.dev.refuse b (some src) st v = (u.sealOut y tag).emit (.message y tag src.1 src.2)
            ∧ y.tag = (s.dev.fld Reg.mbxCfg 16 2 == 2 || v) ∧ tag = (if y.tag then u.tagOf y else [])
            ∧ y.code = leAt b 0 2 ∧ y.status = st ∧ y.seq.toNat = leAt b 4 4 ∧ y.mbx = leAt b 10 1 ∧ y.htag.toNat = leAt b 12 4 ∧ y.payload = [] ∧ y.resp = true ∧ y.event = false))
    ∧ (s.dev.ev.authFails = 0 → Becomes .secondTick s fun t => t.ev = { s.dev.ev with authMask := 0 } ∧ (∀ m, (t.box m).unstored = 0) ∧ t = { s.dev with ev := t.ev, boxes := t.boxes })
    ∧ (s.dev.ev.authFails ≠ 0 → Becomes .secondTick s fun t => ∃ u : Dev, u.ev = { s.dev.ev with authFails := 0, authMask := 0 } ∧ u = { s.dev with ev := u.ev, boxes := u.boxes }
        ∧ (∀ m, (u.box m).unstored = 0) ∧ t = u.event 0x8104 none (le 4 s.dev.ev.authFails ++ le 1 s.dev.ev.authMask ++ zeros 3))
    ∧ (Becomes .millisecondTick s fun t => t.ful.lateBatt = none ∧ t.ful.exhaustEv = none ∧ t.ful.overrunEv = none ∧ ∀ q, q < 64 → (t.qp q).cuts = 0)
    ∧ (s.dev.running = [] → s.dev.ful.exhaustEv = none → s.dev.ful.overrunEv = none → (∀ q, q < 64 → (s.dev.qp q).cuts = 0) →
        (s.dev.ful.lateBatt = none → exec .millisecondTick s = .next s)
        ∧ (∀ x, s.dev.ful.lateBatt = some x → Becomes .millisecondTick s fun t => ∃ u : Dev, u.ful = { s.dev.ful with lateBatt := none } ∧ u.ev = s.dev.ev
            ∧ t = u.event 0x8602 (some x) ((List.range 16).flatMap fun n => le 2 (s.dev.pipes.getD n {}).lateRows)))
    ∧ (∀ hits, (s.dev.ev.hopper = [] ∨ s.dev.pair1Off = true) → exec (.eventWrite hits) s = .next s)
    ∧ (∀ (m : Msg) (rest : List Msg) (hits : Hits), s.dev.ev.hopper = m :: rest → s.dev.pair1Off = false → let bad := badWords (m.bytes []) hits
        (bad = [] → s.dev.ev.route = none → 64 ≤ s.dev.ev.q0.length → exec (.eventWrite hits) s = .next s)
        ∧ (bad = [] → s.dev.ev.route = none → s.dev.ev.q0.length < 64 → Becomes (.eventWrite hits) s fun t =>
            t = (({ s.dev with ev := { s.dev.ev.advance none with q0 := s.dev.ev.q0 ++ [m] } } : Dev).sealOut m []).hopRead 8 ∧ t.ev.hopper = rest)
        ∧ (∀ g, bad = [] → s.dev.ev.route = some g → g.slots ≤ g.written - g.consumed → exec (.eventWrite hits) s = .next s)
        ∧ (∀ g, bad = [] → s.dev.ev.route = some g → g.written - g.consumed < g.slots → Becomes (.eventWrite hits) s fun t =>
            let cut : Msg := if m.payload.length + 20 ≤ g.slotSize then { m with tag := false } else { m with tag := false, payload := m.payload.take (g.slotSize - 20), trunc := true }
            let u := ({ s.dev with ev := s.dev.ev.advance (some { g with written := g.written + 1 }) } : Dev)
            t = ((u.sealOut cut []).postWrite (.event g.id) g.region (g.off + g.slotSize * (g.written % g.slots)) (cut.bytes [])).hopRead 8)
        ∧ (bad ≠ [] → Becomes (.eventWrite hits) s fun t => let u := (s.dev.hopRead 8).poisonRead 8 0 bad
            t.ev.hopper = u.ev.hopper.drop 1 ∧ t.ev.lostSince = u.ev.lostSince + 1))
    ∧ (s.dev.ev.lostSince = 0 → exec .eventsLost s = .next s)
    ∧ (0 < s.dev.ev.lostSince → s.dev.ev.hopper.length < 256 → (s.dev.ev.ring ≠ none ∨ s.dev.ev.q0.length < 64) → Becomes .eventsLost s fun t =>
        t = ({ s.dev with ev := { s.dev.ev with lostSince := 0 } } : Dev).event 0x8102 none (le 4 s.dev.ev.lostSince))
    ∧ (∀ g, s.dev.ev.route = some g →
        (g.written - g.consumed < g.slots → exec (.consumerCountPoll 8) s = .next s)
        ∧ (g.slots ≤ g.written - g.consumed → (∀ w ∈ (s.dev.qp (s.dev.regionQp g.region)).sq, w.kind ≠ .eventCount g.id) → Becomes (.consumerCountPoll 8) s fun t =>
            t = s.dev.postRead (.eventCount g.id) g.region g.consOff 4))
    ∧ (∀ g, s.dev.ev.ring = some g → s.dev.ev.past = [] →
        (s.dev.regionLive g.region = true → s.dev.qpState (s.dev.regionQp g.region) = 1 → exec .eventRouteDown s = .next s)
        ∧ ((s.dev.regionLive g.region = false ∨ s.dev.qpState (s.dev.regionQp g.region) ≠ 1) → s.dev.ev.hopper.length ≤ 63 - s.dev.ev.q0.length → s.dev.ev.q0.length ≤ 63 → Becomes .eventRouteDown s fun t =>
            ∃ u : Dev, u.ev = { s.dev.ev with ring := none, q0 := s.dev.ev.q0 ++ s.dev.ev.hopper, hopper := [] } ∧ u.plc = (s.dev.dropRing g).plc
              ∧ t = u.event 0x8103 none (le 1 (if s.dev.regionLive g.region then St.remoteError else St.regionRevoked) ++ zeros 3)))

/-- The queue (no rule of the spec: the block takes its commands first in, first out): step runs the command at the front of the queue on
the device with the queue's rest; on an empty queue one CK_CTL cycle passes, which is the model's choice (notes/assumptions/3.md), and
without power or in reset nothing does; every command answers a next state and leaves the queue's rest alone. -/
def Obligations.StepRunsTheFront : Prop :=
  ∀ (s : State),
    (∀ c : Instr, step { s with pending := c :: s.pending } = exec c s)
    ∧ (∀ (c : Instr) (rest : List Instr), s.pending = c :: rest → step s = exec c { s with pending := rest })
    ∧ (s.pending = [] → s.dead = true → step s = .next s)
    ∧ (s.pending = [] → s.alive → ∃ t : Dev, step s = .next { s with dev := t } ∧ t.now = s.dev.now + 1
        ∧ (t.tb.units : Int) = max 0 (s.dev.tb.units + 100000 + min 10 (max (-10) (floorDiv (s.dev.tb.part + s.dev.tb.freq) 65536 + s.dev.tb.slew)))
        ∧ t.running = s.dev.running ∧ t.accepted = s.dev.accepted ∧ t.boxes = s.dev.boxes ∧ t.pwr = s.dev.pwr)
    ∧ ∀ c : Instr, ∃ t, exec c s = .next t ∧ t.pending = s.pending

/-- What reset leaves (R554, and the reset values of the register sections): no command waits; every register word reads as its section's
reset value; nothing is listed of deep space, bulk areas and frame store, and no page is VALID; replay state, key, accepted and running
commands, events and the log are empty; the record is that of a flash without a valid copy (R560, R561). -/
def Obligations.ResetState : Prop :=
  let d := State.reset.dev
  State.reset.pending = [] ∧ State.reset.dead = true ∧ d.unpowered ∧ (∀ a, d.rd a = RegMap.resetAt a) ∧ (∀ p, d.hood.isValid p = false) ∧ d.safe = false
  ∧ (∀ m, (d.box m).lastSeq = none ∧ (d.box m).stored = none ∧ (d.box m).hopper = []) ∧ d.spos = 0 ∧ d.lineStarted = false
  ∧ d.ev.nextSeq = 0 ∧ d.ev.enable = 0x1FFFE#32 ∧ d.ev.urgent = 0x2002#32 ∧ d.rdN Reg.plantAddr = 0x3FFFF ∧ d.rdN Reg.mbxCfg = 0xBA0E ∧ d.rdN Reg.clkStat = 0xF0000000
  ∧ d.rdN (Reg.pdOn 3) = 0xFFFC00FF ∧ d.rdN (Reg.pdOn 4) = 0x7F ∧ d.rdN Reg.dbgStat = 0 ∧ d.fld Reg.rstCause 0 4 = 1 ∧ d.pwr.record.prefer = 0 ∧ d.pwr.record.trial = false ∧ d.pwr.record.valid = 3

/-- Without power there is no state (R553, R575): whatever arrives, a step keeps that while PWR_OK is low the device is as after a
power-on reset, with nothing running, waiting, stored or recorded, and every register but RST_CAUSE at its reset value; and the queue
loses its front and nothing else. -/
def Obligations.NoPowerNoState : Prop :=
  ∀ (s t : State), (s.pins.pwrOk = false → s.dev.unpowered) → step s = .next t →
    (t.pins.pwrOk = false → t.dev.unpowered) ∧ t.pending = s.pending.drop 1
end

