-- ==== Sys2Proof/Laws/State.lean ====
section
/-! SUPPORT. What each named update of the device leaves alone: one lemma per field and update, true by definition. -/

namespace Sys2Proof.Machine

open Sys2Proof

@[simp] theorem Dev.wr_deep (d : Dev) (a : Nat) (v : Word) : (d.wr a v).deep = d.deep := rfl
@[simp] theorem Dev.wr_lost (d : Dev) (a : Nat) (v : Word) : (d.wr a v).lost = d.lost := rfl
@[simp] theorem Dev.wr_cause (d : Dev) (a : Nat) (v : Word) : (d.wr a v).cause = d.cause := rfl
@[simp] theorem Dev.wr_bulk (d : Dev) (a : Nat) (v : Word) : (d.wr a v).bulk = d.bulk := rfl
@[simp] theorem Dev.wr_now (d : Dev) (a : Nat) (v : Word) : (d.wr a v).now = d.now := rfl
@[simp] theorem Dev.wr_free (d : Dev) (a : Nat) (v : Word) : (d.wr a v).free = d.free := rfl
@[simp] theorem Dev.wr_boxes (d : Dev) (a : Nat) (v : Word) : (d.wr a v).boxes = d.boxes := rfl
@[simp] theorem Dev.wr_authKey (d : Dev) (a : Nat) (v : Word) : (d.wr a v).authKey = d.authKey := rfl
@[simp] theorem Dev.wr_accepted (d : Dev) (a : Nat) (v : Word) : (d.wr a v).accepted = d.accepted := rfl
@[simp] theorem Dev.wr_running (d : Dev) (a : Nat) (v : Word) : (d.wr a v).running = d.running := rfl
@[simp] theorem Dev.wr_ev (d : Dev) (a : Nat) (v : Word) : (d.wr a v).ev = d.ev := rfl
@[simp] theorem Dev.wr_hoppers (d : Dev) (a : Nat) (v : Word) : (d.wr a v).hoppers = d.hoppers := rfl
@[simp] theorem Dev.wr_scan (d : Dev) (a : Nat) (v : Word) : (d.wr a v).scan = d.scan := rfl
@[simp] theorem Dev.wr_pos (d : Dev) (a : Nat) (v : Word) : (d.wr a v).pos = d.pos := rfl
@[simp] theorem Dev.wr_bus (d : Dev) (a : Nat) (v : Word) : (d.wr a v).bus = d.bus := rfl
@[simp] theorem Dev.wr_flt (d : Dev) (a : Nat) (v : Word) : (d.wr a v).flt = d.flt := rfl
@[simp] theorem Dev.wr_smb (d : Dev) (a : Nat) (v : Word) : (d.wr a v).smb = d.smb := rfl
@[simp] theorem Dev.wr_pwr (d : Dev) (a : Nat) (v : Word) : (d.wr a v).pwr = d.pwr := rfl
@[simp] theorem Dev.wr_band (d : Dev) (a : Nat) (v : Word) : (d.wr a v).band = d.band := rfl
@[simp] theorem Dev.wr_tb (d : Dev) (a : Nat) (v : Word) : (d.wr a v).tb = d.tb := rfl
@[simp] theorem Dev.wr_cnf (d : Dev) (a : Nat) (v : Word) : (d.wr a v).cnf = d.cnf := rfl
@[simp] theorem Dev.wr_ports (d : Dev) (a : Nat) (v : Word) : (d.wr a v).ports = d.ports := rfl
@[simp] theorem Dev.wr_pipes (d : Dev) (a : Nat) (v : Word) : (d.wr a v).pipes = d.pipes := rfl
@[simp] theorem Dev.wr_ful (d : Dev) (a : Nat) (v : Word) : (d.wr a v).ful = d.ful := rfl
@[simp] theorem Dev.wr_hood (d : Dev) (a : Nat) (v : Word) : (d.wr a v).hood = d.hood := rfl
@[simp] theorem Dev.wr_plc (d : Dev) (a : Nat) (v : Word) : (d.wr a v).plc = d.plc := rfl
@[simp] theorem Dev.wr_out (d : Dev) (a : Nat) (v : Word) : (d.wr a v).out = d.out := rfl
@[simp] theorem Dev.wrN_deep (d : Dev) (a v : Nat) : (d.wrN a v).deep = d.deep := rfl
@[simp] theorem Dev.wrN_lost (d : Dev) (a v : Nat) : (d.wrN a v).lost = d.lost := rfl
@[simp] theorem Dev.wrN_cause (d : Dev) (a v : Nat) : (d.wrN a v).cause = d.cause := rfl
@[simp] theorem Dev.wrN_bulk (d : Dev) (a v : Nat) : (d.wrN a v).bulk = d.bulk := rfl
@[simp] theorem Dev.wrN_now (d : Dev) (a v : Nat) : (d.wrN a v).now = d.now := rfl
@[simp] theorem Dev.wrN_free (d : Dev) (a v : Nat) : (d.wrN a v).free = d.free := rfl
@[simp] theorem Dev.wrN_boxes (d : Dev) (a v : Nat) : (d.wrN a v).boxes = d.boxes := rfl
@[simp] theorem Dev.wrN_authKey (d : Dev) (a v : Nat) : (d.wrN a v).authKey = d.authKey := rfl
@[simp] theorem Dev.wrN_accepted (d : Dev) (a v : Nat) : (d.wrN a v).accepted = d.accepted := rfl
@[simp] theorem Dev.wrN_running (d : Dev) (a v : Nat) : (d.wrN a v).running = d.running := rfl
@[simp] theorem Dev.wrN_ev (d : Dev) (a v : Nat) : (d.wrN a v).ev = d.ev := rfl
@[simp] theorem Dev.wrN_hoppers (d : Dev) (a v : Nat) : (d.wrN a v).hoppers = d.hoppers := rfl
@[simp] theorem Dev.wrN_scan (d : Dev) (a v : Nat) : (d.wrN a v).scan = d.scan := rfl
@[simp] theorem Dev.wrN_pos (d : Dev) (a v : Nat) : (d.wrN a v).pos = d.pos := rfl
@[simp] theorem Dev.wrN_bus (d : Dev) (a v : Nat) : (d.wrN a v).bus = d.bus := rfl
@[simp] theorem Dev.wrN_flt (d : Dev) (a v : Nat) : (d.wrN a v).flt = d.flt := rfl
@[simp] theorem Dev.wrN_smb (d : Dev) (a v : Nat) : (d.wrN a v).smb = d.smb := rfl
@[simp] theorem Dev.wrN_pwr (d : Dev) (a v : Nat) : (d.wrN a v).pwr = d.pwr := rfl
@[simp] theorem Dev.wrN_band (d : Dev) (a v : Nat) : (d.wrN a v).band = d.band := rfl
@[simp] theorem Dev.wrN_tb (d : Dev) (a v : Nat) : (d.wrN a v).tb = d.tb := rfl
@[simp] theorem Dev.wrN_cnf (d : Dev) (a v : Nat) : (d.wrN a v).cnf = d.cnf := rfl
@[simp] theorem Dev.wrN_ports (d : Dev) (a v : Nat) : (d.wrN a v).ports = d.ports := rfl
@[simp] theorem Dev.wrN_pipes (d : Dev) (a v : Nat) : (d.wrN a v).pipes = d.pipes := rfl
@[simp] theorem Dev.wrN_ful (d : Dev) (a v : Nat) : (d.wrN a v).ful = d.ful := rfl
@[simp] theorem Dev.wrN_hood (d : Dev) (a v : Nat) : (d.wrN a v).hood = d.hood := rfl
@[simp] theorem Dev.wrN_plc (d : Dev) (a v : Nat) : (d.wrN a v).plc = d.plc := rfl
@[simp] theorem Dev.wrN_out (d : Dev) (a v : Nat) : (d.wrN a v).out = d.out := rfl
@[simp] theorem Dev.wr64_deep (d : Dev) (a v : Nat) : (d.wr64 a v).deep = d.deep := rfl
@[simp] theorem Dev.wr64_lost (d : Dev) (a v : Nat) : (d.wr64 a v).lost = d.lost := rfl
@[simp] theorem Dev.wr64_cause (d : Dev) (a v : Nat) : (d.wr64 a v).cause = d.cause := rfl
@[simp] theorem Dev.wr64_bulk (d : Dev) (a v : Nat) : (d.wr64 a v).bulk = d.bulk := rfl
@[simp] theorem Dev.wr64_now (d : Dev) (a v : Nat) : (d.wr64 a v).now = d.now := rfl
@[simp] theorem Dev.wr64_free (d : Dev) (a v : Nat) : (d.wr64 a v).free = d.free := rfl
@[simp] theorem Dev.wr64_boxes (d : Dev) (a v : Nat) : (d.wr64 a v).boxes = d.boxes := rfl
@[simp] theorem Dev.wr64_authKey (d : Dev) (a v : Nat) : (d.wr64 a v).authKey = d.authKey := rfl
@[simp] theorem Dev.wr64_accepted (d : Dev) (a v : Nat) : (d.wr64 a v).accepted = d.accepted := rfl
@[simp] theorem Dev.wr64_running (d : Dev) (a v : Nat) : (d.wr64 a v).running = d.running := rfl
@[simp] theorem Dev.wr64_ev (d : Dev) (a v : Nat) : (d.wr64 a v).ev = d.ev := rfl
@[simp] theorem Dev.wr64_hoppers (d : Dev) (a v : Nat) : (d.wr64 a v).hoppers = d.hoppers := rfl
@[simp] theorem Dev.wr64_scan (d : Dev) (a v : Nat) : (d.wr64 a v).scan = d.scan := rfl
@[simp] theorem Dev.wr64_pos (d : Dev) (a v : Nat) : (d.wr64 a v).pos = d.pos := rfl
@[simp] theorem Dev.wr64_bus (d : Dev) (a v : Nat) : (d.wr64 a v).bus = d.bus := rfl
@[simp] theorem Dev.wr64_flt (d : Dev) (a v : Nat) : (d.wr64 a v).flt = d.flt := rfl
@[simp] theorem Dev.wr64_smb (d : Dev) (a v : Nat) : (d.wr64 a v).smb = d.smb := rfl
@[simp] theorem Dev.wr64_pwr (d : Dev) (a v : Nat) : (d.wr64 a v).pwr = d.pwr := rfl
@[simp] theorem Dev.wr64_band (d : Dev) (a v : Nat) : (d.wr64 a v).band = d.band := rfl
@[simp] theorem Dev.wr64_tb (d : Dev) (a v : Nat) : (d.wr64 a v).tb = d.tb := rfl
@[simp] theorem Dev.wr64_cnf (d : Dev) (a v : Nat) : (d.wr64 a v).cnf = d.cnf := rfl
@[simp] theorem Dev.wr64_ports (d : Dev) (a v : Nat) : (d.wr64 a v).ports = d.ports := rfl
@[simp] theorem Dev.wr64_pipes (d : Dev) (a v : Nat) : (d.wr64 a v).pipes = d.pipes := rfl
@[simp] theorem Dev.wr64_ful (d : Dev) (a v : Nat) : (d.wr64 a v).ful = d.ful := rfl
@[simp] theorem Dev.wr64_hood (d : Dev) (a v : Nat) : (d.wr64 a v).hood = d.hood := rfl
@[simp] theorem Dev.wr64_plc (d : Dev) (a v : Nat) : (d.wr64 a v).plc = d.plc := rfl
@[simp] theorem Dev.wr64_out (d : Dev) (a v : Nat) : (d.wr64 a v).out = d.out := rfl
@[simp] theorem Dev.wrI64_deep (d : Dev) (a : Nat) (v : Int) : (d.wrI64 a v).deep = d.deep := rfl
@[simp] theorem Dev.wrI64_lost (d : Dev) (a : Nat) (v : Int) : (d.wrI64 a v).lost = d.lost := rfl
@[simp] theorem Dev.wrI64_cause (d : Dev) (a : Nat) (v : Int) : (d.wrI64 a v).cause = d.cause := rfl
@[simp] theorem Dev.wrI64_bulk (d : Dev) (a : Nat) (v : Int) : (d.wrI64 a v).bulk = d.bulk := rfl
@[simp] theorem Dev.wrI64_now (d : Dev) (a : Nat) (v : Int) : (d.wrI64 a v).now = d.now := rfl
@[simp] theorem Dev.wrI64_free (d : Dev) (a : Nat) (v : Int) : (d.wrI64 a v).free = d.free := rfl
@[simp] theorem Dev.wrI64_boxes (d : Dev) (a : Nat) (v : Int) : (d.wrI64 a v).boxes = d.boxes := rfl
@[simp] theorem Dev.wrI64_authKey (d : Dev) (a : Nat) (v : Int) : (d.wrI64 a v).authKey = d.authKey := rfl
@[simp] theorem Dev.wrI64_accepted (d : Dev) (a : Nat) (v : Int) : (d.wrI64 a v).accepted = d.accepted := rfl
@[simp] theorem Dev.wrI64_running (d : Dev) (a : Nat) (v : Int) : (d.wrI64 a v).running = d.running := rfl
@[simp] theorem Dev.wrI64_ev (d : Dev) (a : Nat) (v : Int) : (d.wrI64 a v).ev = d.ev := rfl
@[simp] theorem Dev.wrI64_hoppers (d : Dev) (a : Nat) (v : Int) : (d.wrI64 a v).hoppers = d.hoppers := rfl
@[simp] theorem Dev.wrI64_scan (d : Dev) (a : Nat) (v : Int) : (d.wrI64 a v).scan = d.scan := rfl
@[simp] theorem Dev.wrI64_pos (d : Dev) (a : Nat) (v : Int) : (d.wrI64 a v).pos = d.pos := rfl
@[simp] theorem Dev.wrI64_bus (d : Dev) (a : Nat) (v : Int) : (d.wrI64 a v).bus = d.bus := rfl
@[simp] theorem Dev.wrI64_flt (d : Dev) (a : Nat) (v : Int) : (d.wrI64 a v).flt = d.flt := rfl
@[simp] theorem Dev.wrI64_smb (d : Dev) (a : Nat) (v : Int) : (d.wrI64 a v).smb = d.smb := rfl
@[simp] theorem Dev.wrI64_pwr (d : Dev) (a : Nat) (v : Int) : (d.wrI64 a v).pwr = d.pwr := rfl
@[simp] theorem Dev.wrI64_band (d : Dev) (a : Nat) (v : Int) : (d.wrI64 a v).band = d.band := rfl
@[simp] theorem Dev.wrI64_tb (d : Dev) (a : Nat) (v : Int) : (d.wrI64 a v).tb = d.tb := rfl
@[simp] theorem Dev.wrI64_cnf (d : Dev) (a : Nat) (v : Int) : (d.wrI64 a v).cnf = d.cnf := rfl
@[simp] theorem Dev.wrI64_ports (d : Dev) (a : Nat) (v : Int) : (d.wrI64 a v).ports = d.ports := rfl
@[simp] theorem Dev.wrI64_pipes (d : Dev) (a : Nat) (v : Int) : (d.wrI64 a v).pipes = d.pipes := rfl
@[simp] theorem Dev.wrI64_ful (d : Dev) (a : Nat) (v : Int) : (d.wrI64 a v).ful = d.ful := rfl
@[simp] theorem Dev.wrI64_hood (d : Dev) (a : Nat) (v : Int) : (d.wrI64 a v).hood = d.hood := rfl
@[simp] theorem Dev.wrI64_plc (d : Dev) (a : Nat) (v : Int) : (d.wrI64 a v).plc = d.plc := rfl
@[simp] theorem Dev.wrI64_out (d : Dev) (a : Nat) (v : Int) : (d.wrI64 a v).out = d.out := rfl
@[simp] theorem Dev.setFld_deep (d : Dev) (a lo w v : Nat) : (d.setFld a lo w v).deep = d.deep := rfl
@[simp] theorem Dev.setFld_lost (d : Dev) (a lo w v : Nat) : (d.setFld a lo w v).lost = d.lost := rfl
@[simp] theorem Dev.setFld_cause (d : Dev) (a lo w v : Nat) : (d.setFld a lo w v).cause = d.cause := rfl
@[simp] theorem Dev.setFld_bulk (d : Dev) (a lo w v : Nat) : (d.setFld a lo w v).bulk = d.bulk := rfl
@[simp] theorem Dev.setFld_now (d : Dev) (a lo w v : Nat) : (d.setFld a lo w v).now = d.now := rfl
@[simp] theorem Dev.setFld_free (d : Dev) (a lo w v : Nat) : (d.setFld a lo w v).free = d.free := rfl
@[simp] theorem Dev.setFld_boxes (d : Dev) (a lo w v : Nat) : (d.setFld a lo w v).boxes = d.boxes := rfl
@[simp] theorem Dev.setFld_authKey (d : Dev) (a lo w v : Nat) : (d.setFld a lo w v).authKey = d.authKey := rfl
@[simp] theorem Dev.setFld_accepted (d : Dev) (a lo w v : Nat) : (d.setFld a lo w v).accepted = d.accepted := rfl
@[simp] theorem Dev.setFld_running (d : Dev) (a lo w v : Nat) : (d.setFld a lo w v).running = d.running := rfl
@[simp] theorem Dev.setFld_ev (d : Dev) (a lo w v : Nat) : (d.setFld a lo w v).ev = d.ev := rfl
@[simp] theorem Dev.setFld_hoppers (d : Dev) (a lo w v : Nat) : (d.setFld a lo w v).hoppers = d.hoppers := rfl
@[simp] theorem Dev.setFld_scan (d : Dev) (a lo w v : Nat) : (d.setFld a lo w v).scan = d.scan := rfl
@[simp] theorem Dev.setFld_pos (d : Dev) (a lo w v : Nat) : (d.setFld a lo w v).pos = d.pos := rfl
@[simp] theorem Dev.setFld_bus (d : Dev) (a lo w v : Nat) : (d.setFld a lo w v).bus = d.bus := rfl
@[simp] theorem Dev.setFld_flt (d : Dev) (a lo w v : Nat) : (d.setFld a lo w v).flt = d.flt := rfl
@[simp] theorem Dev.setFld_smb (d : Dev) (a lo w v : Nat) : (d.setFld a lo w v).smb = d.smb := rfl
@[simp] theorem Dev.setFld_pwr (d : Dev) (a lo w v : Nat) : (d.setFld a lo w v).pwr = d.pwr := rfl
@[simp] theorem Dev.setFld_band (d : Dev) (a lo w v : Nat) : (d.setFld a lo w v).band = d.band := rfl
@[simp] theorem Dev.setFld_tb (d : Dev) (a lo w v : Nat) : (d.setFld a lo w v).tb = d.tb := rfl
@[simp] theorem Dev.setFld_cnf (d : Dev) (a lo w v : Nat) : (d.setFld a lo w v).cnf = d.cnf := rfl
@[simp] theorem Dev.setFld_ports (d : Dev) (a lo w v : Nat) : (d.setFld a lo w v).ports = d.ports := rfl
@[simp] theorem Dev.setFld_pipes (d : Dev) (a lo w v : Nat) : (d.setFld a lo w v).pipes = d.pipes := rfl
@[simp] theorem Dev.setFld_ful (d : Dev) (a lo w v : Nat) : (d.setFld a lo w v).ful = d.ful := rfl
@[simp] theorem Dev.setFld_hood (d : Dev) (a lo w v : Nat) : (d.setFld a lo w v).hood = d.hood := rfl
@[simp] theorem Dev.setFld_plc (d : Dev) (a lo w v : Nat) : (d.setFld a lo w v).plc = d.plc := rfl
@[simp] theorem Dev.setFld_out (d : Dev) (a lo w v : Nat) : (d.setFld a lo w v).out = d.out := rfl
@[simp] theorem Dev.setFlag_deep (d : Dev) (a i : Nat) (b : Bool) : (d.setFlag a i b).deep = d.deep := rfl
@[simp] theorem Dev.setFlag_lost (d : Dev) (a i : Nat) (b : Bool) : (d.setFlag a i b).lost = d.lost := rfl
@[simp] theorem Dev.setFlag_cause (d : Dev) (a i : Nat) (b : Bool) : (d.setFlag a i b).cause = d.cause := rfl
@[simp] theorem Dev.setFlag_bulk (d : Dev) (a i : Nat) (b : Bool) : (d.setFlag a i b).bulk = d.bulk := rfl
@[simp] theorem Dev.setFlag_now (d : Dev) (a i : Nat) (b : Bool) : (d.setFlag a i b).now = d.now := rfl
@[simp] theorem Dev.setFlag_free (d : Dev) (a i : Nat) (b : Bool) : (d.setFlag a i b).free = d.free := rfl
@[simp] theorem Dev.setFlag_boxes (d : Dev) (a i : Nat) (b : Bool) : (d.setFlag a i b).boxes = d.boxes := rfl
@[simp] theorem Dev.setFlag_authKey (d : Dev) (a i : Nat) (b : Bool) : (d.setFlag a i b).authKey = d.authKey := rfl
@[simp] theorem Dev.setFlag_accepted (d : Dev) (a i : Nat) (b : Bool) : (d.setFlag a i b).accepted = d.accepted := rfl
@[simp] theorem Dev.setFlag_running (d : Dev) (a i : Nat) (b : Bool) : (d.setFlag a i b).running = d.running := rfl
@[simp] theorem Dev.setFlag_ev (d : Dev) (a i : Nat) (b : Bool) : (d.setFlag a i b).ev = d.ev := rfl
@[simp] theorem Dev.setFlag_hoppers (d : Dev) (a i : Nat) (b : Bool) : (d.setFlag a i b).hoppers = d.hoppers := rfl
@[simp] theorem Dev.setFlag_scan (d : Dev) (a i : Nat) (b : Bool) : (d.setFlag a i b).scan = d.scan := rfl
@[simp] theorem Dev.setFlag_pos (d : Dev) (a i : Nat) (b : Bool) : (d.setFlag a i b).pos = d.pos := rfl
@[simp] theorem Dev.setFlag_bus (d : Dev) (a i : Nat) (b : Bool) : (d.setFlag a i b).bus = d.bus := rfl
@[simp] theorem Dev.setFlag_flt (d : Dev) (a i : Nat) (b : Bool) : (d.setFlag a i b).flt = d.flt := rfl
@[simp] theorem Dev.setFlag_smb (d : Dev) (a i : Nat) (b : Bool) : (d.setFlag a i b).smb = d.smb := rfl
@[simp] theorem Dev.setFlag_pwr (d : Dev) (a i : Nat) (b : Bool) : (d.setFlag a i b).pwr = d.pwr := rfl
@[simp] theorem Dev.setFlag_band (d : Dev) (a i : Nat) (b : Bool) : (d.setFlag a i b).band = d.band := rfl
@[simp] theorem Dev.setFlag_tb (d : Dev) (a i : Nat) (b : Bool) : (d.setFlag a i b).tb = d.tb := rfl
@[simp] theorem Dev.setFlag_cnf (d : Dev) (a i : Nat) (b : Bool) : (d.setFlag a i b).cnf = d.cnf := rfl
@[simp] theorem Dev.setFlag_ports (d : Dev) (a i : Nat) (b : Bool) : (d.setFlag a i b).ports = d.ports := rfl
@[simp] theorem Dev.setFlag_pipes (d : Dev) (a i : Nat) (b : Bool) : (d.setFlag a i b).pipes = d.pipes := rfl
@[simp] theorem Dev.setFlag_ful (d : Dev) (a i : Nat) (b : Bool) : (d.setFlag a i b).ful = d.ful := rfl
@[simp] theorem Dev.setFlag_hood (d : Dev) (a i : Nat) (b : Bool) : (d.setFlag a i b).hood = d.hood := rfl
@[simp] theorem Dev.setFlag_plc (d : Dev) (a i : Nat) (b : Bool) : (d.setFlag a i b).plc = d.plc := rfl
@[simp] theorem Dev.setFlag_out (d : Dev) (a i : Nat) (b : Bool) : (d.setFlag a i b).out = d.out := rfl
@[simp] theorem Dev.incSat_deep (d : Dev) (a lo w k : Nat) : (d.incSat a lo w k).deep = d.deep := rfl
@[simp] theorem Dev.incSat_lost (d : Dev) (a lo w k : Nat) : (d.incSat a lo w k).lost = d.lost := rfl
@[simp] theorem Dev.incSat_cause (d : Dev) (a lo w k : Nat) : (d.incSat a lo w k).cause = d.cause := rfl
@[simp] theorem Dev.incSat_bulk (d : Dev) (a lo w k : Nat) : (d.incSat a lo w k).bulk = d.bulk := rfl
@[simp] theorem Dev.incSat_now (d : Dev) (a lo w k : Nat) : (d.incSat a lo w k).now = d.now := rfl
@[simp] theorem Dev.incSat_free (d : Dev) (a lo w k : Nat) : (d.incSat a lo w k).free = d.free := rfl
@[simp] theorem Dev.incSat_boxes (d : Dev) (a lo w k : Nat) : (d.incSat a lo w k).boxes = d.boxes := rfl
@[simp] theorem Dev.incSat_authKey (d : Dev) (a lo w k : Nat) : (d.incSat a lo w k).authKey = d.authKey := rfl
@[simp] theorem Dev.incSat_accepted (d : Dev) (a lo w k : Nat) : (d.incSat a lo w k).accepted = d.accepted := rfl
@[simp] theorem Dev.incSat_running (d : Dev) (a lo w k : Nat) : (d.incSat a lo w k).running = d.running := rfl
@[simp] theorem Dev.incSat_ev (d : Dev) (a lo w k : Nat) : (d.incSat a lo w k).ev = d.ev := rfl
@[simp] theorem Dev.incSat_hoppers (d : Dev) (a lo w k : Nat) : (d.incSat a lo w k).hoppers = d.hoppers := rfl
@[simp] theorem Dev.incSat_scan (d : Dev) (a lo w k : Nat) : (d.incSat a lo w k).scan = d.scan := rfl
@[simp] theorem Dev.incSat_pos (d : Dev) (a lo w k : Nat) : (d.incSat a lo w k).pos = d.pos := rfl
@[simp] theorem Dev.incSat_bus (d : Dev) (a lo w k : Nat) : (d.incSat a lo w k).bus = d.bus := rfl
@[simp] theorem Dev.incSat_flt (d : Dev) (a lo w k : Nat) : (d.incSat a lo w k).flt = d.flt := rfl
@[simp] theorem Dev.incSat_smb (d : Dev) (a lo w k : Nat) : (d.incSat a lo w k).smb = d.smb := rfl
@[simp] theorem Dev.incSat_pwr (d : Dev) (a lo w k : Nat) : (d.incSat a lo w k).pwr = d.pwr := rfl
@[simp] theorem Dev.incSat_band (d : Dev) (a lo w k : Nat) : (d.incSat a lo w k).band = d.band := rfl
@[simp] theorem Dev.incSat_tb (d : Dev) (a lo w k : Nat) : (d.incSat a lo w k).tb = d.tb := rfl
@[simp] theorem Dev.incSat_cnf (d : Dev) (a lo w k : Nat) : (d.incSat a lo w k).cnf = d.cnf := rfl
@[simp] theorem Dev.incSat_ports (d : Dev) (a lo w k : Nat) : (d.incSat a lo w k).ports = d.ports := rfl
@[simp] theorem Dev.incSat_pipes (d : Dev) (a lo w k : Nat) : (d.incSat a lo w k).pipes = d.pipes := rfl
@[simp] theorem Dev.incSat_ful (d : Dev) (a lo w k : Nat) : (d.incSat a lo w k).ful = d.ful := rfl
@[simp] theorem Dev.incSat_hood (d : Dev) (a lo w k : Nat) : (d.incSat a lo w k).hood = d.hood := rfl
@[simp] theorem Dev.incSat_plc (d : Dev) (a lo w k : Nat) : (d.incSat a lo w k).plc = d.plc := rfl
@[simp] theorem Dev.incSat_out (d : Dev) (a lo w k : Nat) : (d.incSat a lo w k).out = d.out := rfl
@[simp] theorem Dev.incWrap_deep (d : Dev) (a lo w k : Nat) : (d.incWrap a lo w k).deep = d.deep := rfl
@[simp] theorem Dev.incWrap_lost (d : Dev) (a lo w k : Nat) : (d.incWrap a lo w k).lost = d.lost := rfl
@[simp] theorem Dev.incWrap_cause (d : Dev) (a lo w k : Nat) : (d.incWrap a lo w k).cause = d.cause := rfl
@[simp] theorem Dev.incWrap_bulk (d : Dev) (a lo w k : Nat) : (d.incWrap a lo w k).bulk = d.bulk := rfl
@[simp] theorem Dev.incWrap_now (d : Dev) (a lo w k : Nat) : (d.incWrap a lo w k).now = d.now := rfl
@[simp] theorem Dev.incWrap_free (d : Dev) (a lo w k : Nat) : (d.incWrap a lo w k).free = d.free := rfl
@[simp] theorem Dev.incWrap_boxes (d : Dev) (a lo w k : Nat) : (d.incWrap a lo w k).boxes = d.boxes := rfl
@[simp] theorem Dev.incWrap_authKey (d : Dev) (a lo w k : Nat) : (d.incWrap a lo w k).authKey = d.authKey := rfl
@[simp] theorem Dev.incWrap_accepted (d : Dev) (a lo w k : Nat) : (d.incWrap a lo w k).accepted = d.accepted := rfl
@[simp] theorem Dev.incWrap_running (d : Dev) (a lo w k : Nat) : (d.incWrap a lo w k).running = d.running := rfl
@[simp] theorem Dev.incWrap_ev (d : Dev) (a lo w k : Nat) : (d.incWrap a lo w k).ev = d.ev := rfl
@[simp] theorem Dev.incWrap_hoppers (d : Dev) (a lo w k : Nat) : (d.incWrap a lo w k).hoppers = d.hoppers := rfl
@[simp] theorem Dev.incWrap_scan (d : Dev) (a lo w k : Nat) : (d.incWrap a lo w k).scan = d.scan := rfl
@[simp] theorem Dev.incWrap_pos (d : Dev) (a lo w k : Nat) : (d.incWrap a lo w k).pos = d.pos := rfl
@[simp] theorem Dev.incWrap_bus (d : Dev) (a lo w k : Nat) : (d.incWrap a lo w k).bus = d.bus := rfl
@[simp] theorem Dev.incWrap_flt (d : Dev) (a lo w k : Nat) : (d.incWrap a lo w k).flt = d.flt := rfl
@[simp] theorem Dev.incWrap_smb (d : Dev) (a lo w k : Nat) : (d.incWrap a lo w k).smb = d.smb := rfl
@[simp] theorem Dev.incWrap_pwr (d : Dev) (a lo w k : Nat) : (d.incWrap a lo w k).pwr = d.pwr := rfl
@[simp] theorem Dev.incWrap_band (d : Dev) (a lo w k : Nat) : (d.incWrap a lo w k).band = d.band := rfl
@[simp] theorem Dev.incWrap_tb (d : Dev) (a lo w k : Nat) : (d.incWrap a lo w k).tb = d.tb := rfl
@[simp] theorem Dev.incWrap_cnf (d : Dev) (a lo w k : Nat) : (d.incWrap a lo w k).cnf = d.cnf := rfl
@[simp] theorem Dev.incWrap_ports (d : Dev) (a lo w k : Nat) : (d.incWrap a lo w k).ports = d.ports := rfl
@[simp] theorem Dev.incWrap_pipes (d : Dev) (a lo w k : Nat) : (d.incWrap a lo w k).pipes = d.pipes := rfl
@[simp] theorem Dev.incWrap_ful (d : Dev) (a lo w k : Nat) : (d.incWrap a lo w k).ful = d.ful := rfl
@[simp] theorem Dev.incWrap_hood (d : Dev) (a lo w k : Nat) : (d.incWrap a lo w k).hood = d.hood := rfl
@[simp] theorem Dev.incWrap_plc (d : Dev) (a lo w k : Nat) : (d.incWrap a lo w k).plc = d.plc := rfl
@[simp] theorem Dev.incWrap_out (d : Dev) (a lo w k : Nat) : (d.incWrap a lo w k).out = d.out := rfl
@[simp] theorem Dev.emit_regs (d : Dev) (o : Out) : (d.emit o).regs = d.regs := rfl
@[simp] theorem Dev.emit_deep (d : Dev) (o : Out) : (d.emit o).deep = d.deep := rfl
@[simp] theorem Dev.emit_lost (d : Dev) (o : Out) : (d.emit o).lost = d.lost := rfl
@[simp] theorem Dev.emit_cause (d : Dev) (o : Out) : (d.emit o).cause = d.cause := rfl
@[simp] theorem Dev.emit_bulk (d : Dev) (o : Out) : (d.emit o).bulk = d.bulk := rfl
@[simp] theorem Dev.emit_now (d : Dev) (o : Out) : (d.emit o).now = d.now := rfl
@[simp] theorem Dev.emit_free (d : Dev) (o : Out) : (d.emit o).free = d.free := rfl
@[simp] theorem Dev.emit_boxes (d : Dev) (o : Out) : (d.emit o).boxes = d.boxes := rfl
@[simp] theorem Dev.emit_authKey (d : Dev) (o : Out) : (d.emit o).authKey = d.authKey := rfl
@[simp] theorem Dev.emit_accepted (d : Dev) (o : Out) : (d.emit o).accepted = d.accepted := rfl
@[simp] theorem Dev.emit_running (d : Dev) (o : Out) : (d.emit o).running = d.running := rfl
@[simp] theorem Dev.emit_ev (d : Dev) (o : Out) : (d.emit o).ev = d.ev := rfl
@[simp] theorem Dev.emit_hoppers (d : Dev) (o : Out) : (d.emit o).hoppers = d.hoppers := rfl
@[simp] theorem Dev.emit_scan (d : Dev) (o : Out) : (d.emit o).scan = d.scan := rfl
@[simp] theorem Dev.emit_pos (d : Dev) (o : Out) : (d.emit o).pos = d.pos := rfl
@[simp] theorem Dev.emit_bus (d : Dev) (o : Out) : (d.emit o).bus = d.bus := rfl
@[simp] theorem Dev.emit_flt (d : Dev) (o : Out) : (d.emit o).flt = d.flt := rfl
@[simp] theorem Dev.emit_smb (d : Dev) (o : Out) : (d.emit o).smb = d.smb := rfl
@[simp] theorem Dev.emit_pwr (d : Dev) (o : Out) : (d.emit o).pwr = d.pwr := rfl
@[simp] theorem Dev.emit_band (d : Dev) (o : Out) : (d.emit o).band = d.band := rfl
@[simp] theorem Dev.emit_tb (d : Dev) (o : Out) : (d.emit o).tb = d.tb := rfl
@[simp] theorem Dev.emit_cnf (d : Dev) (o : Out) : (d.emit o).cnf = d.cnf := rfl
@[simp] theorem Dev.emit_ports (d : Dev) (o : Out) : (d.emit o).ports = d.ports := rfl
@[simp] theorem Dev.emit_pipes (d : Dev) (o : Out) : (d.emit o).pipes = d.pipes := rfl
@[simp] theorem Dev.emit_ful (d : Dev) (o : Out) : (d.emit o).ful = d.ful := rfl
@[simp] theorem Dev.emit_hood (d : Dev) (o : Out) : (d.emit o).hood = d.hood := rfl
@[simp] theorem Dev.emit_plc (d : Dev) (o : Out) : (d.emit o).plc = d.plc := rfl
@[simp] theorem Dev.modBox_regs (d : Dev) (m : Nat) (f : Mailbox → Mailbox) : (d.modBox m f).regs = d.regs := rfl
@[simp] theorem Dev.modBox_deep (d : Dev) (m : Nat) (f : Mailbox → Mailbox) : (d.modBox m f).deep = d.deep := rfl
@[simp] theorem Dev.modBox_lost (d : Dev) (m : Nat) (f : Mailbox → Mailbox) : (d.modBox m f).lost = d.lost := rfl
@[simp] theorem Dev.modBox_cause (d : Dev) (m : Nat) (f : Mailbox → Mailbox) : (d.modBox m f).cause = d.cause := rfl
@[simp] theorem Dev.modBox_bulk (d : Dev) (m : Nat) (f : Mailbox → Mailbox) : (d.modBox m f).bulk = d.bulk := rfl
@[simp] theorem Dev.modBox_now (d : Dev) (m : Nat) (f : Mailbox → Mailbox) : (d.modBox m f).now = d.now := rfl
@[simp] theorem Dev.modBox_free (d : Dev) (m : Nat) (f : Mailbox → Mailbox) : (d.modBox m f).free = d.free := rfl
@[simp] theorem Dev.modBox_authKey (d : Dev) (m : Nat) (f : Mailbox → Mailbox) : (d.modBox m f).authKey = d.authKey := rfl
@[simp] theorem Dev.modBox_accepted (d : Dev) (m : Nat) (f : Mailbox → Mailbox) : (d.modBox m f).accepted = d.accepted := rfl
@[simp] theorem Dev.modBox_running (d : Dev) (m : Nat) (f : Mailbox → Mailbox) : (d.modBox m f).running = d.running := rfl
@[simp] theorem Dev.modBox_ev (d : Dev) (m : Nat) (f : Mailbox → Mailbox) : (d.modBox m f).ev = d.ev := rfl
@[simp] theorem Dev.modBox_hoppers (d : Dev) (m : Nat) (f : Mailbox → Mailbox) : (d.modBox m f).hoppers = d.hoppers := rfl
@[simp] theorem Dev.modBox_scan (d : Dev) (m : Nat) (f : Mailbox → Mailbox) : (d.modBox m f).scan = d.scan := rfl
@[simp] theorem Dev.modBox_pos (d : Dev) (m : Nat) (f : Mailbox → Mailbox) : (d.modBox m f).pos = d.pos := rfl
@[simp] theorem Dev.modBox_bus (d : Dev) (m : Nat) (f : Mailbox → Mailbox) : (d.modBox m f).bus = d.bus := rfl
@[simp] theorem Dev.modBox_flt (d : Dev) (m : Nat) (f : Mailbox → Mailbox) : (d.modBox m f).flt = d.flt := rfl
@[simp] theorem Dev.modBox_smb (d : Dev) (m : Nat) (f : Mailbox → Mailbox) : (d.modBox m f).smb = d.smb := rfl
@[simp] theorem Dev.modBox_pwr (d : Dev) (m : Nat) (f : Mailbox → Mailbox) : (d.modBox m f).pwr = d.pwr := rfl
@[simp] theorem Dev.modBox_band (d : Dev) (m : Nat) (f : Mailbox → Mailbox) : (d.modBox m f).band = d.band := rfl
@[simp] theorem Dev.modBox_tb (d : Dev) (m : Nat) (f : Mailbox → Mailbox) : (d.modBox m f).tb = d.tb := rfl
@[simp] theorem Dev.modBox_cnf (d : Dev) (m : Nat) (f : Mailbox → Mailbox) : (d.modBox m f).cnf = d.cnf := rfl
@[simp] theorem Dev.modBox_ports (d : Dev) (m : Nat) (f : Mailbox → Mailbox) : (d.modBox m f).ports = d.ports := rfl
@[simp] theorem Dev.modBox_pipes (d : Dev) (m : Nat) (f : Mailbox → Mailbox) : (d.modBox m f).pipes = d.pipes := rfl
@[simp] theorem Dev.modBox_ful (d : Dev) (m : Nat) (f : Mailbox → Mailbox) : (d.modBox m f).ful = d.ful := rfl
@[simp] theorem Dev.modBox_hood (d : Dev) (m : Nat) (f : Mailbox → Mailbox) : (d.modBox m f).hood = d.hood := rfl
@[simp] theorem Dev.modBox_plc (d : Dev) (m : Nat) (f : Mailbox → Mailbox) : (d.modBox m f).plc = d.plc := rfl
@[simp] theorem Dev.modBox_out (d : Dev) (m : Nat) (f : Mailbox → Mailbox) : (d.modBox m f).out = d.out := rfl
@[simp] theorem Dev.modHop_regs (d : Dev) (i : Nat) (f : Hopper → Hopper) : (d.modHop i f).regs = d.regs := rfl
@[simp] theorem Dev.modHop_deep (d : Dev) (i : Nat) (f : Hopper → Hopper) : (d.modHop i f).deep = d.deep := rfl
@[simp] theorem Dev.modHop_lost (d : Dev) (i : Nat) (f : Hopper → Hopper) : (d.modHop i f).lost = d.lost := rfl
@[simp] theorem Dev.modHop_cause (d : Dev) (i : Nat) (f : Hopper → Hopper) : (d.modHop i f).cause = d.cause := rfl
@[simp] theorem Dev.modHop_bulk (d : Dev) (i : Nat) (f : Hopper → Hopper) : (d.modHop i f).bulk = d.bulk := rfl
@[simp] theorem Dev.modHop_now (d : Dev) (i : Nat) (f : Hopper → Hopper) : (d.modHop i f).now = d.now := rfl
@[simp] theorem Dev.modHop_free (d : Dev) (i : Nat) (f : Hopper → Hopper) : (d.modHop i f).free = d.free := rfl
@[simp] theorem Dev.modHop_boxes (d : Dev) (i : Nat) (f : Hopper → Hopper) : (d.modHop i f).boxes = d.boxes := rfl
@[simp] theorem Dev.modHop_authKey (d : Dev) (i : Nat) (f : Hopper → Hopper) : (d.modHop i f).authKey = d.authKey := rfl
@[simp] theorem Dev.modHop_accepted (d : Dev) (i : Nat) (f : Hopper → Hopper) : (d.modHop i f).accepted = d.accepted := rfl
@[simp] theorem Dev.modHop_running (d : Dev) (i : Nat) (f : Hopper → Hopper) : (d.modHop i f).running = d.running := rfl
@[simp] theorem Dev.modHop_ev (d : Dev) (i : Nat) (f : Hopper → Hopper) : (d.modHop i f).ev = d.ev := rfl
@[simp] theorem Dev.modHop_scan (d : Dev) (i : Nat) (f : Hopper → Hopper) : (d.modHop i f).scan = d.scan := rfl
@[simp] theorem Dev.modHop_pos (d : Dev) (i : Nat) (f : Hopper → Hopper) : (d.modHop i f).pos = d.pos := rfl
@[simp] theorem Dev.modHop_bus (d : Dev) (i : Nat) (f : Hopper → Hopper) : (d.modHop i f).bus = d.bus := rfl
@[simp] theorem Dev.modHop_flt (d : Dev) (i : Nat) (f : Hopper → Hopper) : (d.modHop i f).flt = d.flt := rfl
@[simp] theorem Dev.modHop_smb (d : Dev) (i : Nat) (f : Hopper → Hopper) : (d.modHop i f).smb = d.smb := rfl
@[simp] theorem Dev.modHop_pwr (d : Dev) (i : Nat) (f : Hopper → Hopper) : (d.modHop i f).pwr = d.pwr := rfl
@[simp] theorem Dev.modHop_band (d : Dev) (i : Nat) (f : Hopper → Hopper) : (d.modHop i f).band = d.band := rfl
@[simp] theorem Dev.modHop_tb (d : Dev) (i : Nat) (f : Hopper → Hopper) : (d.modHop i f).tb = d.tb := rfl
@[simp] theorem Dev.modHop_cnf (d : Dev) (i : Nat) (f : Hopper → Hopper) : (d.modHop i f).cnf = d.cnf := rfl
@[simp] theorem Dev.modHop_ports (d : Dev) (i : Nat) (f : Hopper → Hopper) : (d.modHop i f).ports = d.ports := rfl
@[simp] theorem Dev.modHop_pipes (d : Dev) (i : Nat) (f : Hopper → Hopper) : (d.modHop i f).pipes = d.pipes := rfl
@[simp] theorem Dev.modHop_ful (d : Dev) (i : Nat) (f : Hopper → Hopper) : (d.modHop i f).ful = d.ful := rfl
@[simp] theorem Dev.modHop_hood (d : Dev) (i : Nat) (f : Hopper → Hopper) : (d.modHop i f).hood = d.hood := rfl
@[simp] theorem Dev.modHop_plc (d : Dev) (i : Nat) (f : Hopper → Hopper) : (d.modHop i f).plc = d.plc := rfl
@[simp] theorem Dev.modHop_out (d : Dev) (i : Nat) (f : Hopper → Hopper) : (d.modHop i f).out = d.out := rfl
@[simp] theorem Dev.hopRead_regs (d : Dev) (i : Nat) : (d.hopRead i).regs = d.regs := rfl
@[simp] theorem Dev.hopRead_deep (d : Dev) (i : Nat) : (d.hopRead i).deep = d.deep := rfl
@[simp] theorem Dev.hopRead_lost (d : Dev) (i : Nat) : (d.hopRead i).lost = d.lost := rfl
@[simp] theorem Dev.hopRead_cause (d : Dev) (i : Nat) : (d.hopRead i).cause = d.cause := rfl
@[simp] theorem Dev.hopRead_bulk (d : Dev) (i : Nat) : (d.hopRead i).bulk = d.bulk := rfl
@[simp] theorem Dev.hopRead_now (d : Dev) (i : Nat) : (d.hopRead i).now = d.now := rfl
@[simp] theorem Dev.hopRead_free (d : Dev) (i : Nat) : (d.hopRead i).free = d.free := rfl
@[simp] theorem Dev.hopRead_boxes (d : Dev) (i : Nat) : (d.hopRead i).boxes = d.boxes := rfl
@[simp] theorem Dev.hopRead_authKey (d : Dev) (i : Nat) : (d.hopRead i).authKey = d.authKey := rfl
@[simp] theorem Dev.hopRead_accepted (d : Dev) (i : Nat) : (d.hopRead i).accepted = d.accepted := rfl
@[simp] theorem Dev.hopRead_running (d : Dev) (i : Nat) : (d.hopRead i).running = d.running := rfl
@[simp] theorem Dev.hopRead_ev (d : Dev) (i : Nat) : (d.hopRead i).ev = d.ev := rfl
@[simp] theorem Dev.hopRead_scan (d : Dev) (i : Nat) : (d.hopRead i).scan = d.scan := rfl
@[simp] theorem Dev.hopRead_pos (d : Dev) (i : Nat) : (d.hopRead i).pos = d.pos := rfl
@[simp] theorem Dev.hopRead_bus (d : Dev) (i : Nat) : (d.hopRead i).bus = d.bus := rfl
@[simp] theorem Dev.hopRead_flt (d : Dev) (i : Nat) : (d.hopRead i).flt = d.flt := rfl
@[simp] theorem Dev.hopRead_smb (d : Dev) (i : Nat) : (d.hopRead i).smb = d.smb := rfl
@[simp] theorem Dev.hopRead_pwr (d : Dev) (i : Nat) : (d.hopRead i).pwr = d.pwr := rfl
@[simp] theorem Dev.hopRead_band (d : Dev) (i : Nat) : (d.hopRead i).band = d.band := rfl
@[simp] theorem Dev.hopRead_tb (d : Dev) (i : Nat) : (d.hopRead i).tb = d.tb := rfl
@[simp] theorem Dev.hopRead_cnf (d : Dev) (i : Nat) : (d.hopRead i).cnf = d.cnf := rfl
@[simp] theorem Dev.hopRead_ports (d : Dev) (i : Nat) : (d.hopRead i).ports = d.ports := rfl
@[simp] theorem Dev.hopRead_pipes (d : Dev) (i : Nat) : (d.hopRead i).pipes = d.pipes := rfl
@[simp] theorem Dev.hopRead_ful (d : Dev) (i : Nat) : (d.hopRead i).ful = d.ful := rfl
@[simp] theorem Dev.hopRead_hood (d : Dev) (i : Nat) : (d.hopRead i).hood = d.hood := rfl
@[simp] theorem Dev.hopRead_plc (d : Dev) (i : Nat) : (d.hopRead i).plc = d.plc := rfl
@[simp] theorem Dev.hopRead_out (d : Dev) (i : Nat) : (d.hopRead i).out = d.out := rfl
@[simp] theorem Dev.modPlc_regs (d : Dev) (f : Place → Place) : (d.modPlc f).regs = d.regs := rfl
@[simp] theorem Dev.modPlc_deep (d : Dev) (f : Place → Place) : (d.modPlc f).deep = d.deep := rfl
@[simp] theorem Dev.modPlc_lost (d : Dev) (f : Place → Place) : (d.modPlc f).lost = d.lost := rfl
@[simp] theorem Dev.modPlc_cause (d : Dev) (f : Place → Place) : (d.modPlc f).cause = d.cause := rfl
@[simp] theorem Dev.modPlc_bulk (d : Dev) (f : Place → Place) : (d.modPlc f).bulk = d.bulk := rfl
@[simp] theorem Dev.modPlc_now (d : Dev) (f : Place → Place) : (d.modPlc f).now = d.now := rfl
@[simp] theorem Dev.modPlc_free (d : Dev) (f : Place → Place) : (d.modPlc f).free = d.free := rfl
@[simp] theorem Dev.modPlc_boxes (d : Dev) (f : Place → Place) : (d.modPlc f).boxes = d.boxes := rfl
@[simp] theorem Dev.modPlc_authKey (d : Dev) (f : Place → Place) : (d.modPlc f).authKey = d.authKey := rfl
@[simp] theorem Dev.modPlc_accepted (d : Dev) (f : Place → Place) : (d.modPlc f).accepted = d.accepted := rfl
@[simp] theorem Dev.modPlc_running (d : Dev) (f : Place → Place) : (d.modPlc f).running = d.running := rfl
@[simp] theorem Dev.modPlc_ev (d : Dev) (f : Place → Place) : (d.modPlc f).ev = d.ev := rfl
@[simp] theorem Dev.modPlc_hoppers (d : Dev) (f : Place → Place) : (d.modPlc f).hoppers = d.hoppers := rfl
@[simp] theorem Dev.modPlc_scan (d : Dev) (f : Place → Place) : (d.modPlc f).scan = d.scan := rfl
@[simp] theorem Dev.modPlc_pos (d : Dev) (f : Place → Place) : (d.modPlc f).pos = d.pos := rfl
@[simp] theorem Dev.modPlc_bus (d : Dev) (f : Place → Place) : (d.modPlc f).bus = d.bus := rfl
@[simp] theorem Dev.modPlc_flt (d : Dev) (f : Place → Place) : (d.modPlc f).flt = d.flt := rfl
@[simp] theorem Dev.modPlc_smb (d : Dev) (f : Place → Place) : (d.modPlc f).smb = d.smb := rfl
@[simp] theorem Dev.modPlc_pwr (d : Dev) (f : Place → Place) : (d.modPlc f).pwr = d.pwr := rfl
@[simp] theorem Dev.modPlc_band (d : Dev) (f : Place → Place) : (d.modPlc f).band = d.band := rfl
@[simp] theorem Dev.modPlc_tb (d : Dev) (f : Place → Place) : (d.modPlc f).tb = d.tb := rfl
@[simp] theorem Dev.modPlc_cnf (d : Dev) (f : Place → Place) : (d.modPlc f).cnf = d.cnf := rfl
@[simp] theorem Dev.modPlc_ports (d : Dev) (f : Place → Place) : (d.modPlc f).ports = d.ports := rfl
@[simp] theorem Dev.modPlc_pipes (d : Dev) (f : Place → Place) : (d.modPlc f).pipes = d.pipes := rfl
@[simp] theorem Dev.modPlc_ful (d : Dev) (f : Place → Place) : (d.modPlc f).ful = d.ful := rfl
@[simp] theorem Dev.modPlc_hood (d : Dev) (f : Place → Place) : (d.modPlc f).hood = d.hood := rfl
@[simp] theorem Dev.modPlc_out (d : Dev) (f : Place → Place) : (d.modPlc f).out = d.out := rfl
@[simp] theorem Dev.modQp_regs (d : Dev) (q : Nat) (f : QPair → QPair) : (d.modQp q f).regs = d.regs := rfl
@[simp] theorem Dev.modQp_deep (d : Dev) (q : Nat) (f : QPair → QPair) : (d.modQp q f).deep = d.deep := rfl
@[simp] theorem Dev.modQp_lost (d : Dev) (q : Nat) (f : QPair → QPair) : (d.modQp q f).lost = d.lost := rfl
@[simp] theorem Dev.modQp_cause (d : Dev) (q : Nat) (f : QPair → QPair) : (d.modQp q f).cause = d.cause := rfl
@[simp] theorem Dev.modQp_bulk (d : Dev) (q : Nat) (f : QPair → QPair) : (d.modQp q f).bulk = d.bulk := rfl
@[simp] theorem Dev.modQp_now (d : Dev) (q : Nat) (f : QPair → QPair) : (d.modQp q f).now = d.now := rfl
@[simp] theorem Dev.modQp_free (d : Dev) (q : Nat) (f : QPair → QPair) : (d.modQp q f).free = d.free := rfl
@[simp] theorem Dev.modQp_boxes (d : Dev) (q : Nat) (f : QPair → QPair) : (d.modQp q f).boxes = d.boxes := rfl
@[simp] theorem Dev.modQp_authKey (d : Dev) (q : Nat) (f : QPair → QPair) : (d.modQp q f).authKey = d.authKey := rfl
@[simp] theorem Dev.modQp_accepted (d : Dev) (q : Nat) (f : QPair → QPair) : (d.modQp q f).accepted = d.accepted := rfl
@[simp] theorem Dev.modQp_running (d : Dev) (q : Nat) (f : QPair → QPair) : (d.modQp q f).running = d.running := rfl
@[simp] theorem Dev.modQp_ev (d : Dev) (q : Nat) (f : QPair → QPair) : (d.modQp q f).ev = d.ev := rfl
@[simp] theorem Dev.modQp_hoppers (d : Dev) (q : Nat) (f : QPair → QPair) : (d.modQp q f).hoppers = d.hoppers := rfl
@[simp] theorem Dev.modQp_scan (d : Dev) (q : Nat) (f : QPair → QPair) : (d.modQp q f).scan = d.scan := rfl
@[simp] theorem Dev.modQp_pos (d : Dev) (q : Nat) (f : QPair → QPair) : (d.modQp q f).pos = d.pos := rfl
@[simp] theorem Dev.modQp_bus (d : Dev) (q : Nat) (f : QPair → QPair) : (d.modQp q f).bus = d.bus := rfl
@[simp] theorem Dev.modQp_flt (d : Dev) (q : Nat) (f : QPair → QPair) : (d.modQp q f).flt = d.flt := rfl
@[simp] theorem Dev.modQp_smb (d : Dev) (q : Nat) (f : QPair → QPair) : (d.modQp q f).smb = d.smb := rfl
@[simp] theorem Dev.modQp_pwr (d : Dev) (q : Nat) (f : QPair → QPair) : (d.modQp q f).pwr = d.pwr := rfl
@[simp] theorem Dev.modQp_band (d : Dev) (q : Nat) (f : QPair → QPair) : (d.modQp q f).band = d.band := rfl
@[simp] theorem Dev.modQp_tb (d : Dev) (q : Nat) (f : QPair → QPair) : (d.modQp q f).tb = d.tb := rfl
@[simp] theorem Dev.modQp_cnf (d : Dev) (q : Nat) (f : QPair → QPair) : (d.modQp q f).cnf = d.cnf := rfl
@[simp] theorem Dev.modQp_ports (d : Dev) (q : Nat) (f : QPair → QPair) : (d.modQp q f).ports = d.ports := rfl
@[simp] theorem Dev.modQp_pipes (d : Dev) (q : Nat) (f : QPair → QPair) : (d.modQp q f).pipes = d.pipes := rfl
@[simp] theorem Dev.modQp_ful (d : Dev) (q : Nat) (f : QPair → QPair) : (d.modQp q f).ful = d.ful := rfl
@[simp] theorem Dev.modQp_hood (d : Dev) (q : Nat) (f : QPair → QPair) : (d.modQp q f).hood = d.hood := rfl
@[simp] theorem Dev.modQp_out (d : Dev) (q : Nat) (f : QPair → QPair) : (d.modQp q f).out = d.out := rfl
@[simp] theorem Dev.modStr_regs (d : Dev) (q : Nat) (f : Stream → Stream) : (d.modStr q f).regs = d.regs := rfl
@[simp] theorem Dev.modStr_deep (d : Dev) (q : Nat) (f : Stream → Stream) : (d.modStr q f).deep = d.deep := rfl
@[simp] theorem Dev.modStr_lost (d : Dev) (q : Nat) (f : Stream → Stream) : (d.modStr q f).lost = d.lost := rfl
@[simp] theorem Dev.modStr_cause (d : Dev) (q : Nat) (f : Stream → Stream) : (d.modStr q f).cause = d.cause := rfl
@[simp] theorem Dev.modStr_bulk (d : Dev) (q : Nat) (f : Stream → Stream) : (d.modStr q f).bulk = d.bulk := rfl
@[simp] theorem Dev.modStr_now (d : Dev) (q : Nat) (f : Stream → Stream) : (d.modStr q f).now = d.now := rfl
@[simp] theorem Dev.modStr_free (d : Dev) (q : Nat) (f : Stream → Stream) : (d.modStr q f).free = d.free := rfl
@[simp] theorem Dev.modStr_boxes (d : Dev) (q : Nat) (f : Stream → Stream) : (d.modStr q f).boxes = d.boxes := rfl
@[simp] theorem Dev.modStr_authKey (d : Dev) (q : Nat) (f : Stream → Stream) : (d.modStr q f).authKey = d.authKey := rfl
@[simp] theorem Dev.modStr_accepted (d : Dev) (q : Nat) (f : Stream → Stream) : (d.modStr q f).accepted = d.accepted := rfl
@[simp] theorem Dev.modStr_running (d : Dev) (q : Nat) (f : Stream → Stream) : (d.modStr q f).running = d.running := rfl
@[simp] theorem Dev.modStr_ev (d : Dev) (q : Nat) (f : Stream → Stream) : (d.modStr q f).ev = d.ev := rfl
@[simp] theorem Dev.modStr_hoppers (d : Dev) (q : Nat) (f : Stream → Stream) : (d.modStr q f).hoppers = d.hoppers := rfl
@[simp] theorem Dev.modStr_scan (d : Dev) (q : Nat) (f : Stream → Stream) : (d.modStr q f).scan = d.scan := rfl
@[simp] theorem Dev.modStr_pos (d : Dev) (q : Nat) (f : Stream → Stream) : (d.modStr q f).pos = d.pos := rfl
@[simp] theorem Dev.modStr_bus (d : Dev) (q : Nat) (f : Stream → Stream) : (d.modStr q f).bus = d.bus := rfl
@[simp] theorem Dev.modStr_flt (d : Dev) (q : Nat) (f : Stream → Stream) : (d.modStr q f).flt = d.flt := rfl
@[simp] theorem Dev.modStr_smb (d : Dev) (q : Nat) (f : Stream → Stream) : (d.modStr q f).smb = d.smb := rfl
@[simp] theorem Dev.modStr_pwr (d : Dev) (q : Nat) (f : Stream → Stream) : (d.modStr q f).pwr = d.pwr := rfl
@[simp] theorem Dev.modStr_band (d : Dev) (q : Nat) (f : Stream → Stream) : (d.modStr q f).band = d.band := rfl
@[simp] theorem Dev.modStr_tb (d : Dev) (q : Nat) (f : Stream → Stream) : (d.modStr q f).tb = d.tb := rfl
@[simp] theorem Dev.modStr_cnf (d : Dev) (q : Nat) (f : Stream → Stream) : (d.modStr q f).cnf = d.cnf := rfl
@[simp] theorem Dev.modStr_ports (d : Dev) (q : Nat) (f : Stream → Stream) : (d.modStr q f).ports = d.ports := rfl
@[simp] theorem Dev.modStr_pipes (d : Dev) (q : Nat) (f : Stream → Stream) : (d.modStr q f).pipes = d.pipes := rfl
@[simp] theorem Dev.modStr_ful (d : Dev) (q : Nat) (f : Stream → Stream) : (d.modStr q f).ful = d.ful := rfl
@[simp] theorem Dev.modStr_hood (d : Dev) (q : Nat) (f : Stream → Stream) : (d.modStr q f).hood = d.hood := rfl
@[simp] theorem Dev.modStr_out (d : Dev) (q : Nat) (f : Stream → Stream) : (d.modStr q f).out = d.out := rfl
@[simp] theorem Dev.deepWr_regs (d : Dev) (a : Nat) (v : Word) : (d.deepWr a v).regs = d.regs := rfl
@[simp] theorem Dev.deepWr_cause (d : Dev) (a : Nat) (v : Word) : (d.deepWr a v).cause = d.cause := rfl
@[simp] theorem Dev.deepWr_bulk (d : Dev) (a : Nat) (v : Word) : (d.deepWr a v).bulk = d.bulk := rfl
@[simp] theorem Dev.deepWr_now (d : Dev) (a : Nat) (v : Word) : (d.deepWr a v).now = d.now := rfl
@[simp] theorem Dev.deepWr_free (d : Dev) (a : Nat) (v : Word) : (d.deepWr a v).free = d.free := rfl
@[simp] theorem Dev.deepWr_boxes (d : Dev) (a : Nat) (v : Word) : (d.deepWr a v).boxes = d.boxes := rfl
@[simp] theorem Dev.deepWr_authKey (d : Dev) (a : Nat) (v : Word) : (d.deepWr a v).authKey = d.authKey := rfl
@[simp] theorem Dev.deepWr_accepted (d : Dev) (a : Nat) (v : Word) : (d.deepWr a v).accepted = d.accepted := rfl
@[simp] theorem Dev.deepWr_running (d : Dev) (a : Nat) (v : Word) : (d.deepWr a v).running = d.running := rfl
@[simp] theorem Dev.deepWr_ev (d : Dev) (a : Nat) (v : Word) : (d.deepWr a v).ev = d.ev := rfl
@[simp] theorem Dev.deepWr_hoppers (d : Dev) (a : Nat) (v : Word) : (d.deepWr a v).hoppers = d.hoppers := rfl
@[simp] theorem Dev.deepWr_scan (d : Dev) (a : Nat) (v : Word) : (d.deepWr a v).scan = d.scan := rfl
@[simp] theorem Dev.deepWr_pos (d : Dev) (a : Nat) (v : Word) : (d.deepWr a v).pos = d.pos := rfl
@[simp] theorem Dev.deepWr_bus (d : Dev) (a : Nat) (v : Word) : (d.deepWr a v).bus = d.bus := rfl
@[simp] theorem Dev.deepWr_flt (d : Dev) (a : Nat) (v : Word) : (d.deepWr a v).flt = d.flt := rfl
@[simp] theorem Dev.deepWr_smb (d : Dev) (a : Nat) (v : Word) : (d.deepWr a v).smb = d.smb := rfl
@[simp] theorem Dev.deepWr_pwr (d : Dev) (a : Nat) (v : Word) : (d.deepWr a v).pwr = d.pwr := rfl
@[simp] theorem Dev.deepWr_band (d : Dev) (a : Nat) (v : Word) : (d.deepWr a v).band = d.band := rfl
@[simp] theorem Dev.deepWr_tb (d : Dev) (a : Nat) (v : Word) : (d.deepWr a v).tb = d.tb := rfl
@[simp] theorem Dev.deepWr_cnf (d : Dev) (a : Nat) (v : Word) : (d.deepWr a v).cnf = d.cnf := rfl
@[simp] theorem Dev.deepWr_ports (d : Dev) (a : Nat) (v : Word) : (d.deepWr a v).ports = d.ports := rfl
@[simp] theorem Dev.deepWr_pipes (d : Dev) (a : Nat) (v : Word) : (d.deepWr a v).pipes = d.pipes := rfl
@[simp] theorem Dev.deepWr_ful (d : Dev) (a : Nat) (v : Word) : (d.deepWr a v).ful = d.ful := rfl
@[simp] theorem Dev.deepWr_hood (d : Dev) (a : Nat) (v : Word) : (d.deepWr a v).hood = d.hood := rfl
@[simp] theorem Dev.deepWr_plc (d : Dev) (a : Nat) (v : Word) : (d.deepWr a v).plc = d.plc := rfl
@[simp] theorem Dev.deepWr_out (d : Dev) (a : Nat) (v : Word) : (d.deepWr a v).out = d.out := rfl
@[simp] theorem Dev.bulkWr_regs (d : Dev) (m o : Nat) (b : Bytes) : (d.bulkWr m o b).regs = d.regs := rfl
@[simp] theorem Dev.bulkWr_deep (d : Dev) (m o : Nat) (b : Bytes) : (d.bulkWr m o b).deep = d.deep := rfl
@[simp] theorem Dev.bulkWr_lost (d : Dev) (m o : Nat) (b : Bytes) : (d.bulkWr m o b).lost = d.lost := rfl
@[simp] theorem Dev.bulkWr_cause (d : Dev) (m o : Nat) (b : Bytes) : (d.bulkWr m o b).cause = d.cause := rfl
@[simp] theorem Dev.bulkWr_now (d : Dev) (m o : Nat) (b : Bytes) : (d.bulkWr m o b).now = d.now := rfl
@[simp] theorem Dev.bulkWr_free (d : Dev) (m o : Nat) (b : Bytes) : (d.bulkWr m o b).free = d.free := rfl
@[simp] theorem Dev.bulkWr_boxes (d : Dev) (m o : Nat) (b : Bytes) : (d.bulkWr m o b).boxes = d.boxes := rfl
@[simp] theorem Dev.bulkWr_authKey (d : Dev) (m o : Nat) (b : Bytes) : (d.bulkWr m o b).authKey = d.authKey := rfl
@[simp] theorem Dev.bulkWr_accepted (d : Dev) (m o : Nat) (b : Bytes) : (d.bulkWr m o b).accepted = d.accepted := rfl
@[simp] theorem Dev.bulkWr_running (d : Dev) (m o : Nat) (b : Bytes) : (d.bulkWr m o b).running = d.running := rfl
@[simp] theorem Dev.bulkWr_ev (d : Dev) (m o : Nat) (b : Bytes) : (d.bulkWr m o b).ev = d.ev := rfl
@[simp] theorem Dev.bulkWr_hoppers (d : Dev) (m o : Nat) (b : Bytes) : (d.bulkWr m o b).hoppers = d.hoppers := rfl
@[simp] theorem Dev.bulkWr_scan (d : Dev) (m o : Nat) (b : Bytes) : (d.bulkWr m o b).scan = d.scan := rfl
@[simp] theorem Dev.bulkWr_pos (d : Dev) (m o : Nat) (b : Bytes) : (d.bulkWr m o b).pos = d.pos := rfl
@[simp] theorem Dev.bulkWr_bus (d : Dev) (m o : Nat) (b : Bytes) : (d.bulkWr m o b).bus = d.bus := rfl
@[simp] theorem Dev.bulkWr_flt (d : Dev) (m o : Nat) (b : Bytes) : (d.bulkWr m o b).flt = d.flt := rfl
@[simp] theorem Dev.bulkWr_smb (d : Dev) (m o : Nat) (b : Bytes) : (d.bulkWr m o b).smb = d.smb := rfl
@[simp] theorem Dev.bulkWr_pwr (d : Dev) (m o : Nat) (b : Bytes) : (d.bulkWr m o b).pwr = d.pwr := rfl
@[simp] theorem Dev.bulkWr_band (d : Dev) (m o : Nat) (b : Bytes) : (d.bulkWr m o b).band = d.band := rfl
@[simp] theorem Dev.bulkWr_tb (d : Dev) (m o : Nat) (b : Bytes) : (d.bulkWr m o b).tb = d.tb := rfl
@[simp] theorem Dev.bulkWr_cnf (d : Dev) (m o : Nat) (b : Bytes) : (d.bulkWr m o b).cnf = d.cnf := rfl
@[simp] theorem Dev.bulkWr_ports (d : Dev) (m o : Nat) (b : Bytes) : (d.bulkWr m o b).ports = d.ports := rfl
@[simp] theorem Dev.bulkWr_pipes (d : Dev) (m o : Nat) (b : Bytes) : (d.bulkWr m o b).pipes = d.pipes := rfl
@[simp] theorem Dev.bulkWr_ful (d : Dev) (m o : Nat) (b : Bytes) : (d.bulkWr m o b).ful = d.ful := rfl
@[simp] theorem Dev.bulkWr_hood (d : Dev) (m o : Nat) (b : Bytes) : (d.bulkWr m o b).hood = d.hood := rfl
@[simp] theorem Dev.bulkWr_plc (d : Dev) (m o : Nat) (b : Bytes) : (d.bulkWr m o b).plc = d.plc := rfl
@[simp] theorem Dev.bulkWr_out (d : Dev) (m o : Nat) (b : Bytes) : (d.bulkWr m o b).out = d.out := rfl
@[simp] theorem Dev.takeReq_regs (d : Dev) (c : Nat) (r : Req) : (d.takeReq c r).regs = d.regs := rfl
@[simp] theorem Dev.takeReq_deep (d : Dev) (c : Nat) (r : Req) : (d.takeReq c r).deep = d.deep := rfl
@[simp] theorem Dev.takeReq_lost (d : Dev) (c : Nat) (r : Req) : (d.takeReq c r).lost = d.lost := rfl
@[simp] theorem Dev.takeReq_bulk (d : Dev) (c : Nat) (r : Req) : (d.takeReq c r).bulk = d.bulk := rfl
@[simp] theorem Dev.takeReq_now (d : Dev) (c : Nat) (r : Req) : (d.takeReq c r).now = d.now := rfl
@[simp] theorem Dev.takeReq_free (d : Dev) (c : Nat) (r : Req) : (d.takeReq c r).free = d.free := rfl
@[simp] theorem Dev.takeReq_authKey (d : Dev) (c : Nat) (r : Req) : (d.takeReq c r).authKey = d.authKey := rfl
@[simp] theorem Dev.takeReq_accepted (d : Dev) (c : Nat) (r : Req) : (d.takeReq c r).accepted = d.accepted := rfl
@[simp] theorem Dev.takeReq_running (d : Dev) (c : Nat) (r : Req) : (d.takeReq c r).running = d.running := rfl
@[simp] theorem Dev.takeReq_ev (d : Dev) (c : Nat) (r : Req) : (d.takeReq c r).ev = d.ev := rfl
@[simp] theorem Dev.takeReq_scan (d : Dev) (c : Nat) (r : Req) : (d.takeReq c r).scan = d.scan := rfl
@[simp] theorem Dev.takeReq_pos (d : Dev) (c : Nat) (r : Req) : (d.takeReq c r).pos = d.pos := rfl
@[simp] theorem Dev.takeReq_bus (d : Dev) (c : Nat) (r : Req) : (d.takeReq c r).bus = d.bus := rfl
@[simp] theorem Dev.takeReq_flt (d : Dev) (c : Nat) (r : Req) : (d.takeReq c r).flt = d.flt := rfl
@[simp] theorem Dev.takeReq_smb (d : Dev) (c : Nat) (r : Req) : (d.takeReq c r).smb = d.smb := rfl
@[simp] theorem Dev.takeReq_pwr (d : Dev) (c : Nat) (r : Req) : (d.takeReq c r).pwr = d.pwr := rfl
@[simp] theorem Dev.takeReq_band (d : Dev) (c : Nat) (r : Req) : (d.takeReq c r).band = d.band := rfl
@[simp] theorem Dev.takeReq_tb (d : Dev) (c : Nat) (r : Req) : (d.takeReq c r).tb = d.tb := rfl
@[simp] theorem Dev.takeReq_cnf (d : Dev) (c : Nat) (r : Req) : (d.takeReq c r).cnf = d.cnf := rfl
@[simp] theorem Dev.takeReq_ports (d : Dev) (c : Nat) (r : Req) : (d.takeReq c r).ports = d.ports := rfl
@[simp] theorem Dev.takeReq_pipes (d : Dev) (c : Nat) (r : Req) : (d.takeReq c r).pipes = d.pipes := rfl
@[simp] theorem Dev.takeReq_ful (d : Dev) (c : Nat) (r : Req) : (d.takeReq c r).ful = d.ful := rfl
@[simp] theorem Dev.takeReq_hood (d : Dev) (c : Nat) (r : Req) : (d.takeReq c r).hood = d.hood := rfl
@[simp] theorem Dev.takeReq_plc (d : Dev) (c : Nat) (r : Req) : (d.takeReq c r).plc = d.plc := rfl
@[simp] theorem Dev.takeReq_out (d : Dev) (c : Nat) (r : Req) : (d.takeReq c r).out = d.out := rfl

end Sys2Proof.Machine
end

