-- ==== Sys2Proof/Laws/Sparse.lean ====
section
/-! SUPPORT. The laws of sparse memories: read after write, other keys untouched, the canonical form kept; and of the
registers, deep space, the bulk areas and the frame store that are held in them. -/

namespace Sys2Proof.Machine

open Sys2Proof

variable {β : Type} [DecidableEq β] (dflt : Nat → β)

omit [DecidableEq β] in
theorem Sparse.get_put (l : List (Nat × β)) (k j : Nat) (v : β) :
    Sparse.get dflt (Sparse.put l k v) j = if k = j then v else Sparse.get dflt l j := by
  induction l with
  | nil => simp [Sparse.put, Sparse.get]
  | cons p t ih =>
    obtain ⟨a, w⟩ := p
    simp only [Sparse.put]
    split
    · simp [Sparse.get]
    · split
      · subst_vars; simp only [Sparse.get]; split <;> simp_all
      · simp only [Sparse.get, ih]; split <;> simp_all

omit [DecidableEq β] in
theorem Sparse.get_filter_ne (l : List (Nat × β)) (k j : Nat) :
    Sparse.get dflt (l.filter fun p => p.1 != k) j = if k = j then dflt j else Sparse.get dflt l j := by
  induction l with
  | nil => simp [Sparse.get]
  | cons p t ih =>
    obtain ⟨a, w⟩ := p
    by_cases h : a = k
    · subst h; simp only [bne_self_eq_false, Bool.false_eq_true, not_false_eq_true, List.filter_cons_of_neg, ih, Sparse.get]
      split <;> simp_all
    · simp only [bne_iff_ne, ne_eq, h, not_false_eq_true, List.filter_cons_of_pos, Sparse.get, ih]
      by_cases hj : a = j
      · subst hj; simp [Ne.symm h]
      · simp [hj]

/-- Read after write, at the key written and at every other. -/
theorem Sparse.get_set (l : List (Nat × β)) (k j : Nat) (v : β) :
    Sparse.get dflt (Sparse.set dflt l k v) j = if k = j then v else Sparse.get dflt l j := by
  unfold Sparse.set
  split
  · rw [Sparse.get_filter_ne]; split <;> simp_all
  · exact Sparse.get_put dflt l k j v

/-- The canonical form above b is the canonical form above every smaller bound. -/
theorem Sparse.wfFrom_mono (l : List (Nat × β)) (a b : Nat) (h : a ≤ b) (hl : Sparse.wfFrom dflt b l = true) :
    Sparse.wfFrom dflt a l = true := by
  cases l with
  | nil => rfl
  | cons p t =>
    obtain ⟨c, w⟩ := p
    simp only [Sparse.wfFrom, Bool.and_eq_true, decide_eq_true_eq] at hl ⊢
    exact ⟨⟨le_trans h hl.1.1, hl.1.2⟩, hl.2⟩

theorem Sparse.wfFrom_put (l : List (Nat × β)) (b k : Nat) (v : β) (hv : v ≠ dflt k) (hb : b ≤ k)
    (hl : Sparse.wfFrom dflt b l = true) : Sparse.wfFrom dflt b (Sparse.put l k v) = true := by
  induction l generalizing b with
  | nil => simp [Sparse.put, Sparse.wfFrom, hv, hb]
  | cons p t ih =>
    obtain ⟨a, w⟩ := p
    simp only [Sparse.wfFrom, Bool.and_eq_true, decide_eq_true_eq] at hl
    obtain ⟨⟨h1, h2⟩, h3⟩ := hl
    simp only [Sparse.put]
    split
    · rename_i h
      simp only [Sparse.wfFrom, Bool.and_eq_true, decide_eq_true_eq]
      exact ⟨⟨hb, hv⟩, ⟨by omega, h2⟩, h3⟩
    · split
      · subst_vars
        simp only [Sparse.wfFrom, Bool.and_eq_true, decide_eq_true_eq]
        exact ⟨⟨hb, hv⟩, h3⟩
      · simp only [Sparse.wfFrom, Bool.and_eq_true, decide_eq_true_eq]
        exact ⟨⟨h1, h2⟩, ih (a + 1) (by omega) h3⟩

/-- Keeping a part of the cells keeps the canonical form. -/
theorem Sparse.wfFrom_filter (l : List (Nat × β)) (b : Nat) (p : Nat × β → Bool) (hl : Sparse.wfFrom dflt b l = true) :
    Sparse.wfFrom dflt b (l.filter p) = true := by
  induction l generalizing b with
  | nil => rfl
  | cons q t ih =>
    obtain ⟨a, w⟩ := q
    simp only [Sparse.wfFrom, Bool.and_eq_true, decide_eq_true_eq] at hl
    by_cases h : p (a, w) = true
    · rw [List.filter_cons_of_pos h]
      simp only [Sparse.wfFrom, Bool.and_eq_true, decide_eq_true_eq]
      exact ⟨hl.1, ih (a + 1) hl.2⟩
    · rw [List.filter_cons_of_neg h]
      exact ih b (Sparse.wfFrom_mono dflt t b (a + 1) (by omega) hl.2)

/-- Every write keeps the canonical form. -/
theorem Sparse.wf_set (l : List (Nat × β)) (k : Nat) (v : β) (hl : Sparse.wf dflt l = true) :
    Sparse.wf dflt (Sparse.set dflt l k v) = true := by
  unfold Sparse.set Sparse.wf
  split
  · exact Sparse.wfFrom_filter dflt l 0 _ hl
  · exact Sparse.wfFrom_put dflt l 0 k v (by assumption) (Nat.zero_le k) hl

/-- So does a write of many values. -/
theorem Sparse.wf_setMany (l : List (Nat × β)) (k : Nat) (vs : List β) (hl : Sparse.wf dflt l = true) :
    Sparse.wf dflt (Sparse.setMany dflt l k vs) = true := by
  induction vs generalizing l k with
  | nil => exact hl
  | cons v t ih => exact ih _ _ (Sparse.wf_set dflt l k v hl)

/-- What a key reads as after a write of many values: unchanged below and above them. -/
theorem Sparse.get_setMany_out (l : List (Nat × β)) (k j : Nat) (vs : List β) (h : j < k ∨ k + vs.length ≤ j) :
    Sparse.get dflt (Sparse.setMany dflt l k vs) j = Sparse.get dflt l j := by
  induction vs generalizing l k with
  | nil => rfl
  | cons v t ih =>
    simp only [List.length_cons] at h
    simp only [Sparse.setMany]
    rw [ih _ _ (by omega), Sparse.get_set, if_neg (by omega)]

/-- And the value written at each of them. -/
theorem Sparse.get_setMany_in (l : List (Nat × β)) (k i : Nat) (vs : List β) (h : i < vs.length) :
    Sparse.get dflt (Sparse.setMany dflt l k vs) (k + i) = vs[i] := by
  induction vs generalizing l k i with
  | nil => simp at h
  | cons v t ih =>
    simp only [Sparse.setMany]
    cases i with
    | zero => rw [Nat.add_zero, Sparse.get_setMany_out _ _ _ _ _ (by omega), Sparse.get_set]; simp
    | succ i =>
      have := ih (Sparse.set dflt l k v) (k + 1) i (by simpa using h)
      rw [show k + (i + 1) = k + 1 + i by omega, this]; rfl

/-! ## Registers -/

@[simp] theorem Dev.rd_wr_same (d : Dev) (a : Nat) (v : Word) : (d.wr a v).rd a = v := by
  simp [Dev.rd, Dev.wr, Sparse.get_set]

theorem Dev.rd_wr_ne (d : Dev) (a b : Nat) (v : Word) (h : b ≠ a) : (d.wr a v).rd b = d.rd b := by
  simp [Dev.rd, Dev.wr, Sparse.get_set, Ne.symm h]

theorem Dev.rd_wrN_ne (d : Dev) (a b v : Nat) (h : b ≠ a) : (d.wrN a v).rd b = d.rd b := Dev.rd_wr_ne d a b _ h

theorem Dev.rd_setFld_ne (d : Dev) (a b lo w v : Nat) (h : b ≠ a) : (d.setFld a lo w v).rd b = d.rd b :=
  Dev.rd_wr_ne d a b _ h

theorem Dev.rd_setFlag_ne (d : Dev) (a b i : Nat) (x : Bool) (h : b ≠ a) : (d.setFlag a i x).rd b = d.rd b :=
  Dev.rd_wr_ne d a b _ h

theorem Dev.rd_incSat_ne (d : Dev) (a b lo w k : Nat) (h : b ≠ a) : (d.incSat a lo w k).rd b = d.rd b :=
  Dev.rd_wr_ne d a b _ h

theorem Dev.rd_incWrap_ne (d : Dev) (a b lo w k : Nat) (h : b ≠ a) : (d.incWrap a lo w k).rd b = d.rd b :=
  Dev.rd_wr_ne d a b _ h

theorem Dev.rdN_lt (d : Dev) (a : Nat) : d.rdN a < 2 ^ 32 := (d.rd a).isLt

@[simp] theorem Dev.rdN_wrN_same (d : Dev) (a v : Nat) : (d.wrN a v).rdN a = v % 2 ^ 32 := by
  simp [Dev.rdN, Dev.wrN]

/-- A field of a register after the field was stored: the value, cut to its width; and every bit outside it stays. -/
theorem Dev.fld_setFld_same (d : Dev) (a lo w v : Nat) (h : lo + w ≤ 32) : (d.setFld a lo w v).fld a lo w = v % 2 ^ w := by
  have hx := d.rdN_lt a
  have hw : (2 : Nat) ^ 32 = 2 ^ lo * 2 ^ w * 2 ^ (32 - lo - w) := by rw [← pow_add, ← pow_add]; congr 1; omega
  unfold Dev.setFld Dev.fld bits
  rw [Dev.rdN_wrN_same]
  generalize d.rdN a = x at *
  have hp : 0 < 2 ^ lo := by positivity
  have hq : 0 < 2 ^ w := by positivity
  have hv : v % 2 ^ w < 2 ^ w := Nat.mod_lt _ hq
  set L := 2 ^ lo with hL
  set W := 2 ^ w with hW
  set K := 2 ^ (32 - lo - w) with hK
  -- x = (K' * W + f) * L + r
  have e1 : x = L * (x / L) + x % L := (Nat.div_add_mod x L).symm
  have e2 : x / L = W * (x / L / W) + x / L % W := (Nat.div_add_mod (x / L) W).symm
  have hr : x % L < L := Nat.mod_lt _ hp
  have hc : x / L / W < K := by
    rw [Nat.div_div_eq_div_mul]; apply Nat.div_lt_of_lt_mul; rw [hw] at hx; exact hx
  have hxeq : x = L * (W * (x / L / W) + x / L % W) + x % L := by rw [← e2]; exact e1
  have e3 : x - x / L % W * L + v % W * L = L * (W * (x / L / W) + v % W) + x % L := by
    have : x - x / L % W * L = L * (W * (x / L / W)) + x % L := by
      have h4 : L * (W * (x / L / W) + x / L % W) + x % L = (L * (W * (x / L / W)) + x % L) + x / L % W * L := by ring
      omega
    rw [this]; ring
  rw [e3]
  have hlt : L * (W * (x / L / W) + v % W) + x % L < 2 ^ 32 := by
    rw [hw]
    have : W * (x / L / W) + v % W + 1 ≤ W * K := by
      calc W * (x / L / W) + v % W + 1 ≤ W * (x / L / W) + W := by omega
        _ = W * (x / L / W + 1) := by ring
        _ ≤ W * K := Nat.mul_le_mul_left _ hc
    calc L * (W * (x / L / W) + v % W) + x % L < L * (W * (x / L / W) + v % W) + L := by omega
      _ = L * (W * (x / L / W) + v % W + 1) := by ring
      _ ≤ L * (W * K) := Nat.mul_le_mul_left _ this
      _ = L * W * K := by ring
  rw [Nat.mod_eq_of_lt hlt]
  rw [Nat.mul_add_div hp, Nat.div_eq_of_lt hr, Nat.add_zero, Nat.mul_add_mod, Nat.mod_mod]

/-- A flag after it was stored. -/
theorem Dev.flag_setFlag_same (d : Dev) (a i : Nat) (b : Bool) (h : i < 32) : (d.setFlag a i b).flag a i = b := by
  have := d.fld_setFld_same a i 1 (b2n b) (by omega)
  unfold Dev.flag Dev.setFlag bit
  unfold Dev.fld bits at this
  rw [Nat.pow_one] at this
  rw [this]; cases b <;> rfl

/-! ## Deep space, bulk areas, the frame store -/

theorem Dev.deepRd_deepWr (d : Dev) (a b : Nat) (v : Word) :
    (d.deepWr a v).deepRd b = if a = b then v else d.deepRd b := by
  simp [Dev.deepRd, Dev.deepWr, Sparse.get_set]

theorem Dev.wf_wr (d : Dev) (a : Nat) (v : Word) (h : Sparse.wf RegMap.resetAt d.regs = true) :
    Sparse.wf RegMap.resetAt (d.wr a v).regs = true := Sparse.wf_set _ _ _ _ h

theorem Dev.wf_deepWr (d : Dev) (a : Nat) (v : Word) (h : Sparse.wf deepDefault d.deep = true) :
    Sparse.wf deepDefault (d.deepWr a v).deep = true := Sparse.wf_set _ _ _ _ h

theorem Dev.wf_bulkWr (d : Dev) (m o : Nat) (b : Bytes) (h : Sparse.wf fsZero d.bulk = true) :
    Sparse.wf fsZero (d.bulkWr m o b).bulk = true := Sparse.wf_setMany _ _ _ _ h

theorem Dev.wf_fsWr (d : Dev) (a : Nat) (b : Bytes) (h : Sparse.wf fsZero d.hood.fs = true) :
    Sparse.wf fsZero (d.fsWr a b).hood.fs = true := Sparse.wf_setMany _ _ _ _ h

/-- The memories of the state after reset are in canonical form. -/
theorem reset_wf :
    Sparse.wf RegMap.resetAt State.reset.dev.regs = true ∧ Sparse.wf deepDefault State.reset.dev.deep = true
    ∧ Sparse.wf fsZero State.reset.dev.bulk = true ∧ Sparse.wf fsZero State.reset.dev.hood.fs = true :=
  ⟨rfl, rfl, rfl, rfl⟩

/-! ## Lists changed at one element -/

@[simp] theorem getD_modAt_same {α : Type} [Inhabited α] (l : List α) (i : Nat) (f : α → α) :
    (modAt l i f).getD i default = f (l.getD i default) := by
  induction l, i, f using modAt.induct <;> simp_all [modAt]

theorem getD_modAt_ne {α : Type} [Inhabited α] (l : List α) {i j : Nat} (f : α → α) (h : j ≠ i) :
    (modAt l i f).getD j default = l.getD j default := by
  induction l, i, f using modAt.induct generalizing j with
  | case1 f => cases j <;> simp_all [modAt]
  | case2 n f ih => cases j with
    | zero => simp [modAt]
    | succ j => simpa [modAt] using ih (by omega : j ≠ n)
  | case3 a t f => cases j <;> simp_all [modAt]
  | case4 a t n f ih => cases j with
    | zero => simp [modAt]
    | succ j => simpa [modAt] using ih (by omega : j ≠ n)

end Sys2Proof.Machine
end

