-- ==== Sys2Proof/Laws/Commands.lean ====
section
/-! SUPPORT. What the shared operations of the command path can do: taking a request, the checks before a command's own,
and the end of a command (R62, R69 to R74). -/

namespace Sys2Proof.Machine

open Sys2Proof

/-- A device that acts runs the meaning. -/
theorem State.upd_alive {s : State} (h : s.alive) (f : Dev → Dev) : s.upd f = .next { s with dev := f s.dev } := by
  unfold State.upd; rw [show s.dead = false from h]; rfl

/-- Without power, or in reset, nothing changes. -/
theorem State.upd_dead {s : State} (h : s.dead = true) (f : Dev → Dev) : s.upd f = .next s := by
  unfold State.upd; rw [h]; rfl

@[simp] theorem Dev.takeReq_rd (d : Dev) (c : Nat) (r : Req) (a : Nat) : (d.takeReq c r).rd a = d.rd a := rfl
@[simp] theorem Dev.takeReq_fld (d : Dev) (c : Nat) (r : Req) (a lo w : Nat) : (d.takeReq c r).fld a lo w = d.fld a lo w := rfl
@[simp] theorem Dev.takeReq_flag (d : Dev) (c : Nat) (r : Req) (a i : Nat) : (d.takeReq c r).flag a i = d.flag a i := rfl
@[simp] theorem Dev.takeReq_stiff (d : Dev) (c : Nat) (r : Req) : (d.takeReq c r).stiffActive = d.stiffActive := rfl

/-- A request that can begin does not wait. -/
theorem Begins.mustWait {s : State} {r : Req} {objs : List Obj} (h : Begins s r objs) (sp : Spec)
    (ho : sp.objs r.payload = objs) (hq : s.dev.behind sp.code r = false) : s.dev.mustWait sp r = false := by
  unfold Dev.mustWait Dev.unserved
  rw [h.idle, ho, h.ownFree, h.serves.2.2.1, hq]; rfl

/-- And passes the checks of R62 before its own, given its length and its reserved fields. -/
theorem Begins.firstFailure {s : State} {r : Req} {objs : List Obj} (h : Begins s r objs) (sp : Spec)
    (ho : sp.objs r.payload = objs) (hl : sp.len r.payload = true) (hr : sp.reserved r.payload = true) :
    (s.dev.takeReq sp.code r).firstFailure sp r = none := by
  obtain ⟨⟨-, hp, hs, hd⟩, -, -, hf, hc⟩ := h
  have h1 : (s.dev.takeReq sp.code r).safe = false := hs
  have h2 : (s.dev.takeReq sp.code r).isReady = true := by simp [Dev.isReady, hp]
  have h3 : (s.dev.takeReq sp.code r).devRec = false := hd
  have h4 : (s.dev.takeReq sp.code r).heldByOther r.mbx.val (sp.objs r.payload) = false := by rw [ho]; exact hf
  simp [Dev.firstFailure, Dev.narrow, hc, hl, hr, h1, h2, h3, h4]

/-- A command that can begin runs its body on the device from which the request has been taken, and concludes. -/
theorem command_runs {s : State} {r : Req} {objs : List Obj} (h : Begins s r objs) (sp : Spec) (body : Dev → Result ⊕ Begun)
    (ho : sp.objs r.payload = objs) (hl : sp.len r.payload = true) (hr : sp.reserved r.payload = true)
    (hq : s.dev.behind sp.code r = false) :
    (s.upd fun d => d.commandOr sp r body) =
      .next { s with dev := (s.dev.takeReq sp.code r).after sp r (body (s.dev.takeReq sp.code r)) } := by
  rw [State.upd_alive h.serves.1]
  simp only [Dev.commandOr, h.mustWait sp ho hq, h.firstFailure sp ho hl hr]
  rfl

/-- A command whose body gives OK is done. -/
theorem command_does {i : Instr} {s : State} {r : Req} {objs : List Obj} {code : Nat} (h : Begins s r objs) (sp : Spec) (body : Dev → Result)
    {d : Dev} {payload : Bytes} {held : List Obj} {args : List Nat} {keep : Bool} {effect : Dev → Prop}
    (hi : exec i s = s.upd fun d => d.command sp r body) (hc : sp.code = code)
    (ho : sp.objs r.payload = objs) (hl : sp.len r.payload = true) (hr : sp.reserved r.payload = true)
    (hb : body (s.dev.takeReq code r) = ⟨St.ok, payload, d, held, args, keep⟩) (he : effect d) :
    Does i s code r payload effect := by
  subst hc
  intro hq
  refine ⟨d, ?_, he⟩
  rw [hi]
  unfold Dev.command
  rw [command_runs h sp _ ho hl hr hq, hb]
  simp [Dev.after, Dev.conclude, St.ok, St.accepted]

/-- A command whose body gives ACCEPTED is accepted. -/
theorem command_accepts {i : Instr} {s : State} {r : Req} {objs : List Obj} {code : Nat} (h : Begins s r objs) (sp : Spec) (body : Dev → Result)
    {d : Dev} {held : List Obj} {args : List Nat} {keep : Bool} {effect : Dev → Prop}
    (hi : exec i s = s.upd fun d => d.command sp r body) (hc : sp.code = code)
    (ho : sp.objs r.payload = objs) (hl : sp.len r.payload = true) (hr : sp.reserved r.payload = true)
    (hb : body (s.dev.takeReq code r) = ⟨St.accepted, [], d, held, args, keep⟩) (he : effect d) :
    Accepts i s code r held args effect := by
  subst hc
  intro hq
  refine ⟨d, he, ?_⟩
  dsimp only
  rw [hi]
  unfold Dev.command
  rw [command_runs h sp _ ho hl hr hq, hb]
  simp [Dev.after, Dev.conclude]

/-- A command whose body refuses is turned away. -/
theorem command_turned {i : Instr} {s : State} {r : Req} {objs : List Obj} {code : Nat} (h : Begins s r objs) (sp : Spec) (body : Dev → Result)
    {status : Nat} (hi : exec i s = s.upd fun d => d.command sp r body) (hc : sp.code = code)
    (ho : sp.objs r.payload = objs) (hl : sp.len r.payload = true) (hr : sp.reserved r.payload = true)
    (hb : body (s.dev.takeReq code r) = Result.err (s.dev.takeReq code r) status)
    (h1 : status ≠ St.ok) (h2 : status ≠ St.accepted) : TurnsAway i s code r status := by
  subst hc
  intro hq
  rw [hi]
  unfold Dev.command
  rw [command_runs h sp _ ho hl hr hq, hb]
  simp [Dev.after, Dev.conclude, Result.err, h1, h2]

/-- Keeping the last accepted configuration command changes only the conformateur's list of them. -/
theorem Dev.record_eq (d : Dev) (c : Nat) (p : Bytes) :
    d.record c p = { d with cnf := { d.cnf with cmds := (d.record c p).cnf.cmds } } := by
  unfold Dev.record
  split
  · rfl
  · split
    · rfl
    · dsimp only; split <;> rfl

@[simp] theorem Dev.record_rd (d : Dev) (c : Nat) (p : Bytes) (a : Nat) : (d.record c p).rd a = d.rd a := by
  rw [Dev.record_eq]; rfl

end Sys2Proof.Machine
end

