-- ==== Sys2Proof/Laws/Access.lean ====
section
/-! SUPPORT. What one register access can do (R427 to R445). -/

namespace Sys2Proof.Machine

open Sys2Proof

/-- Without a transaction of WIN_DATA an answer is only recorded. -/
theorem Dev.reply_eq {d : Dev} (h : d.smb.win = none) (p : Path) (x : Answer) : d.reply p x = d.answered p x := by
  unfold Dev.reply Dev.answered
  simp only [Dev.winEnd, h]
  split <;> rfl

/-- A write that is not refused is made and answered. -/
theorem Dev.access_write {d : Dev} {p : Path} {addr : Nat} {size : Size} {v : Nat} (hw : d.pathWaits p = false)
    (h : d.accessError p addr size (some v) = none) :
    d.access p addr size (some v) = (d.writeAccess p addr size v).1.reply p (d.writeAccess p addr size v).2 := by
  unfold Dev.access; simp [hw, h]

/-- A read that is not refused is made and answered. -/
theorem Dev.access_read {d : Dev} {p : Path} {addr : Nat} {size : Size} (hw : d.pathWaits p = false)
    (h : d.accessError p addr size none = none) :
    d.access p addr size none = (d.readAccess p addr size).1.reply p (d.readAccess p addr size).2 := by
  unfold Dev.access; simp [hw, h]

/-- An access that is refused leaves an entry in the violation log, and its answer is the error (R447). -/
theorem Dev.access_error {d : Dev} {p : Path} {addr : Nat} {size : Size} {w : Option Nat} {k : Nat} (hw : d.pathWaits p = false)
    (h : d.accessError p addr size w = some k) :
    d.access p addr size w = (d.violation p (addr % 2 ^ 24) false k w.isSome (sizeCode size)).reply p (.error k) := by
  unfold Dev.access; simp [hw, h]

/-- The word's other bits stay, and nothing else happens. -/
theorem Dev.writeWord_storesOnly {a : Nat} (h : storesOnly a = true) (d : Dev) (p : Path) (view : Nat) (v en : Word) :
    d.writeWord p a view v en = d.wr a (viewed view (d.rd a) v (en &&& RegMap.rwMask a)) := by
  have h0 : ∀ (d : Dev) old pulse fed, d.afterWrite p a old pulse fed = d := by
    intro d old pulse fed
    simp only [storesOnly, Bool.and_eq_true, bne_iff_ne, Bool.not_eq_true', decide_eq_false_iff_not, ne_eq] at h
    obtain ⟨⟨⟨⟨⟨⟨⟨⟨⟨-, -⟩, h1⟩, h2⟩, h3⟩, h4⟩, h5⟩, h6⟩, h7⟩, h8⟩ := h
    simp only [Dev.afterWrite, h1, h2, h3, h4, h5, h6, h7, h8, if_false]
  simp only [Dev.writeWord, h0, viewed, BitVec.and_assoc]

theorem winDirect_alias (k a : Nat) (h : k < 4) : winDirect (aliasAddr k a) = winDirect a := by
  have h1 : aliasAddr k a / 0x10000 = a / 0x10000 := by unfold aliasAddr; omega
  have h2 : aliasAddr k a % 0x4000 = a % 0x4000 := by unfold aliasAddr; omega
  simp only [winDirect, winSlot, h1, h2]

theorem winView_alias (k a : Nat) (h : k < 4) : winView (aliasAddr k a) = k := by unfold winView aliasAddr; omega

end Sys2Proof.Machine
end

