-- ==== Sys2Proof/WellFormed.lean ====
section
/-! DEFINITION. What of a command is well formed as syntax: payloads within the message limit (R55), UDP data within a
datagram, pixel payloads within a packet's word count, markers of eight bytes, SMBus blocks within 255 bytes. -/

namespace Sys2Proof

/-- The largest payload of a message in bytes (R55). -/
def maxPayload : Nat := 4076

/-- A request's payload fits a message (R55). -/
def Req.wf (r : Req) : Bool := decide (r.payload.length ≤ maxPayload)

/-- A CSI-2 word count is 16 bits (R170). -/
def Pixels.wf (p : Pixels) : Bool := decide (p.payload.length ≤ 65535)

/-- A UDP length is 16 bits. -/
def Datagram.wf (g : Datagram) : Bool := decide (g.data.length + 8 ≤ 65535)

/-- A LANE_MARKER block has eight bytes (R161). -/
def markerWf (b : Bytes) : Bool := b.length == 8

/-- A head message packet's word count is 16 bits (R168). -/
def headDataWf (b : Bytes) : Bool := decide (b.length ≤ 65535)

/-- An SMBus byte count is one byte (R493). -/
def smbBlockWf (b : Bytes) : Bool := decide (b.length ≤ 255)

/-- What of a command is well formed as syntax. The meanings run any command; this says which ones a sender can spell. -/
def Instr.wf : Instr → Bool
  | .identify r => r.wf
  | .getState r => r.wf
  | .setPlantAddress r => r.wf
  | .resetUnit r => r.wf
  | .unitResetDone _ _ => true
  | .resetDevice r => r.wf
  | .setEventRoute r => r.wf
  | .setAuthKey r => r.wf
  | .bulkPut r => r.wf
  | .bulkGet r => r.wf
  | .listConduct r => r.wf
  | .lockConduct r => r.wf
  | .snapshotExport r => r.wf
  | .snapshotImport r => r.wf
  | .encoderConfig r => r.wf
  | .triggerPlan r => r.wf
  | .positionRead r => r.wf
  | .battGeometry r => r.wf
  | .lineStart r => r.wf
  | .lineStop r => r.wf
  | .coilMarkConfig r => r.wf
  | .encoderTick _ _ _ _ => true
  | .encoderOpen _ => true
  | .markEdge _ => true
  | .triggerFire _ _ => true
  | .triggerRearm _ => true
  | .strobeActive _ => true
  | .strobeEnd _ => true
  | .headAttach r => r.wf
  | .headDetach r => r.wf
  | .headLinkStatus r => r.wf
  | .headMessage r => r.wf
  | .hmsgSent _ => true
  | .laneBlockLock _ _ => true
  | .laneMarker _ _ marker _ => markerWf marker
  | .markerLock _ => true
  | .portDown _ _ => true
  | .portRetrain _ => true
  | .trainRestart _ => true
  | .linkctlTrain _ => true
  | .errorBlock _ _ _ => true
  | .strayDataBlock _ => true
  | .frameStart _ _ => true
  | .frameEnd _ _ => true
  | .lineStartPacket _ _ => true
  | .lineEnd _ _ => true
  | .pixelPacket _ _ p => p.wf
  | .headMessagePacket _ _ x => headDataWf x.data
  | .discardedPacket _ _ _ => true
  | .lineTimeout _ => true
  | .linePounce _ _ _ _ => true
  | .bankCopyDone _ _ _ => true
  | .mosaicLine _ => true
  | .cardRowResolve _ => true
  | .blockRow _ => true
  | .napTileRow _ => true
  | .cardWrite _ _ _ _ _ => true
  | .battClose => true
  | .battDeadlineExpiry _ => true
  | .loopDecision _ => true
  | .decisionPoint => true
  | .seamWaitExpiry _ => true
  | .fullingStart _ _ => true
  | .fullingDone _ _ => true
  | .recallBattStart _ _ _ => true
  | .pageSeal _ _ _ => true
  | .bufferAssign _ => true
  | .parcelIssue _ _ => true
  | .packetSend _ _ _ => true
  | .roceAckRx _ _ => true
  | .roceNakRx _ _ _ _ => true
  | .retransmitTimeout _ => true
  | .rnrWaitExpiry _ => true
  | .readResponseRx _ _ _ => true
  | .cnpRx _ => true
  | .ccPeriodEnd _ => true
  | .completionWrite _ _ => true
  | .descriptorWrite _ => true
  | .revokeFenceDone => true
  | .pfcFrameRx _ _ _ => true
  | .uplinkFrameRx _ _ _ _ => true
  | .uplinkLaneLoss _ => true
  | .uplinkLinkUp _ => true
  | .uplinkConfig r => r.wf
  | .qpCreate r => r.wf
  | .qpDestroy r => r.wf
  | .regionAdd r => r.wf
  | .regionRevoke r => r.wf
  | .ringBind r => r.wf
  | .buffersPost r => r.wf
  | .parcelAbort r => r.wf
  | .streamStart r => r.wf
  | .streamStop r => r.wf
  | .streamStopDone _ => true
  | .placementStatus r => r.wf
  | .bandConfig r => r.wf
  | .bandRole r => r.wf
  | .timebaseConfig r => r.wf
  | .bandStatus r => r.wf
  | .positionSend _ _ => true
  | .positionRx _ _ _ _ _ => true
  | .positionMiss _ => true
  | .bandHoldExpiry => true
  | .unlockMaxExpiry => true
  | .timeSend _ _ => true
  | .timeRx _ _ _ _ => true
  | .probeSend _ _ => true
  | .probeRx _ _ _ _ => true
  | .hopDelayUpdate _ => true
  | .rollSend _ => true
  | .rollRx _ _ _ _ _ _ _ => true
  | .bandBlockLockLoss _ => true
  | .bandRetrain _ => true
  | .configRx _ _ _ => true
  | .lineStateRepeat => true
  | .exposeRx _ _ _ _ _ _ _ => true
  | .reportRx _ _ => true
  | .seamRowSend _ _ _ => true
  | .seamRowRx _ _ _ _ _ => true
  | .battCloseRx _ _ _ => true
  | .battOpenRx _ _ _ => true
  | .groupStopRx _ _ _ _ => true
  | .safeStopRx _ _ _ => true
  | .bandAckRx _ _ => true
  | .bandRetransmit _ _ => true
  | .ptpAnnounceRx _ _ => true
  | .ptpSyncRx _ _ _ _ _ => true
  | .announceTimeout => true
  | .seamSet r => r.wf
  | .ladderSet r => r.wf
  | .outputFormat r => r.wf
  | .budgetSet r => r.wf
  | .ladderStatus r => r.wf
  | .pounceLoad r => r.wf
  | .defectLoad r => r.wf
  | .mosaicSet r => r.wf
  | .channelMatrixSet r => r.wf
  | .bulkFetchDone _ _ _ => true
  | .bulkWriteAcked _ _ => true
  | .cardOffsets r => r.wf
  | .lineDelays r => r.wf
  | .cardStatus r => r.wf
  | .battDeadline r => r.wf
  | .blockMapLoad r => r.wf
  | .stripGridSet r => r.wf
  | .brimConfig r => r.wf
  | .brimRead r => r.wf
  | .napConfig r => r.wf
  | .statsConfig r => r.wf
  | .exposureSet r => r.wf
  | .exposureAuto r => r.wf
  | .statsRead r => r.wf
  | .hoodConfig r => r.wf
  | .pageInitDone => true
  | .markSet r => r.wf
  | .recallBatts r => r.wf
  | .recallDone _ => true
  | .markRelease r => r.wf
  | .hoodStatus r => r.wf
  | .faultConfig r => r.wf
  | .faultStatus r => r.wf
  | .faultLogRead r => r.wf
  | .quietSet r => r.wf
  | .faultOccurrence _ _ => true
  | .quietPeriodEnd _ _ => true
  | .faultLogSample => true
  | .watchdogExpiry => true
  | .healthRead r => r.wf
  | .wearRead r => r.wf
  | .adaptPolicy r => r.wf
  | .pageRetireList r => r.wf
  | .thermalSample _ _ => true
  | .supplySample _ => true
  | .eyeSample _ _ _ => true
  | .ageingSample _ _ => true
  | .linkErrorSample _ _ _ _ _ _ => true
  | .wearTick => true
  | .wearRecordWrite _ => true
  | .regRead r => r.wf
  | .regWrite x => x.req.wf
  | .stiffen r => r.wf
  | .unstiffen r => r.wf
  | .bankCommit r => r.wf
  | .stiffenScanDue => true
  | .scanDone _ _ => true
  | .scanGo _ _ => true
  | .sealStart _ _ _ => true
  | .sealData _ _ _ _ => true
  | .sealRunLoad _ _ _ _ => true
  | .fwInfo r => r.wf
  | .fwStage r => r.wf
  | .fwStageDone _ => true
  | .fwCommit r => r.wf
  | .fwActivate r => r.wf
  | .mbxDatagramRx g => g.wf
  | .secondTick => true
  | .millisecondTick => true
  | .eventWrite _ => true
  | .eventsLost => true
  | .consumerCountPoll _ => true
  | .eventRouteDown => true
  | .hopperFlushBoundary _ => true
  | .tailNotice _ => true
  | .registerWrite _ _ _ => true
  | .rcRegisterRead _ => true
  | .fltStickyRead _ _ => true
  | .setAliasWrite _ _ => true
  | .clearAliasWrite _ _ => true
  | .toggleAliasWrite _ _ => true
  | .shadowHighRead _ => true
  | .shadowHighWrite _ _ => true
  | .shadowLowWrite _ _ => true
  | .accessTimeout _ _ _ => true
  | .inbandWrWrite _ _ => true
  | .nextBankPipe _ _ => true
  | .nextBankFul _ => true
  | .fltInjectGo _ _ => true
  | .idxDataWrite _ _ => true
  | .idxDataPostedWrite _ _ => true
  | .idxWriteComplete _ _ => true
  | .idxWriteTimeout _ => true
  | .idxDataRead _ => true
  | .idxFetchDone _ _ => true
  | .idxHoldExpiry _ => true
  | .idxPerrCntRead _ => true
  | .mbxWrite _ block _ => smbBlockWf block
  | .mbxRead _ _ _ => true
  | .mbxRewind _ _ => true
  | .winAddrWrite _ _ _ => true
  | .winAddrRead _ _ => true
  | .winDataRead _ _ => true
  | .winDataWrite _ data _ => smbBlockWf data
  | .winStatus _ _ => true
  | .status _ _ => true
  | .faultSummary _ _ => true
  | .alertCause _ _ _ => true
  | .smbusRefused _ _ => true
  | .hostNotify _ => true
  | .notifyRepeat _ => true
  | .smbusProtocolError _ _ => true
  | .sclTimeout => true
  | .mbRstN => true
  | .smbusWake => true
  | .smbusIdleSleep => true
  | .pwrOkRise => true
  | .pwrOkFall => true
  | .rstNAssert => true
  | .bootStart => true
  | .imageLoaded _ => true
  | .ready _ => true
  | .domainSwitchDone => true
  | .refClockSlip _ => true
  | .dbgChal => true
  | .dbgResp _ _ => true
  | .jtagInstruction _ _ => true
  | .deviceResetBegin => true
  | .shadowLowRead _ => true
  | .registerReadError _ => true
  | .uplinkLaneLock _ => true
  | .ptpFollowUpRx _ _ => true
  | .ptpDelayRespRx _ _ => true
  | .mbRstNRise => true
  | .busFree _ => true

end Sys2Proof
end

