-- ==== Sys2Proof/Tests/Slice0.lean ====
section
/-! SUPPORT. Small tests of single steps, of well-formedness, and for every statement with hypotheses concrete states and operands
that meet them. -/

set_option Elab.async false

namespace Sys2Proof.Tests

open Sys2Proof Sys2Proof.Machine

/-- The device after start-up. -/
def ready : State := { State.reset with
  dev := { State.reset.dev with pwr := { State.reset.dev.pwr with phase := .ready }, smb := { State.reset.dev.smb with standby := false } } }

/-- A state with another device. -/
def on (f : Dev → Dev) : State := { ready with dev := f ready.dev }

/-- A request of mailbox m. -/
def rq (m : Fin 8) (p : Bytes) : Req := ⟨m, 0x2A, 0x55, false, false, [], p⟩

/-- The device after a step. -/
def after (i : Instr) (s : State) : Dev :=
  match exec i s with
  | .next t => t.dev
  | _ => {}

/-- A device in which nothing is in progress begins every request. -/
theorem begins_of {s : State} {r : Req} {objs : List Obj} (h1 : s.dead = false) (h2 : s.dev.pwr.phase = .ready)
    (h3 : s.dev.safe = false) (h4 : s.dev.devRec = false) (h5 : s.dev.running = []) (h6 : s.dev.accepted = [])
    (h7 : r.hits = []) : Begins s r objs where
  serves := ⟨h1, h2, h3, h4⟩
  idle := by simp [Dev.runs, h5]
  ownFree := by simp [Dev.heldBySame, Dev.holds, h5, h6]
  otherFree := by simp [Dev.heldByOther, Dev.holds, h5, h6]
  clean c := by simp [poisonWords, badWords, h7]

theorem begins_ready (m : Fin 8) (p : Bytes) (objs : List Obj) : Begins ready (rq m p) objs :=
  begins_of rfl rfl (by decide +kernel) (by decide +kernel) rfl rfl rfl

/-- With an empty hopper every request is the next of its mailbox. -/
theorem next_ready (m : Fin 8) (p : Bytes) (code : Nat) : ready.dev.behind code (rq m p) = false := by
  revert m; intro m; match m with
  | 0 | 1 | 2 | 3 | 4 | 5 | 6 | 7 => rfl

/-- No write shadow, no wait. -/
theorem free_ready (p : Path) : ready.dev.pathFree p := by cases p <;> exact ⟨rfl, rfl⟩

/-! ## Register accesses: hypotheses met (spec/14_register_access.md) -/

theorem witness_RegisterWordWrites : ready.alive ∧ ready.dev.pathFree .inBand ∧ storesOnly (accWord 0x50000) = true
    ∧ RegMap.isWide (accWord 0x50000) = false ∧ shadowOf ready.dev.bus.writeShadows (accWord 0x50000 / 0x10000) .inBand = none
    ∧ (∀ k, k < 4 → ready.dev.accessError .inBand (aliasAddr k 0x50000) .b32 (some 7) = none) := by
  and_intros <;> first | decide +kernel | rfl | exact free_ready _

theorem witness_ReadsClearWhatTheyReturn : ready.alive ∧ ready.dev.pathFree .milliner ∧ ready.dev.holdsWord (accWord 0x50044)
    ∧ RegMap.isWide (accWord 0x50044) = false ∧ RegMap.rcMask (accWord 0x50044) ≠ 0
    ∧ ready.dev.accessError .milliner 0x50044 .b32 none = none ∧ ready.dev.domainUp 128 = true ∧ ready.dev.domainUp 134 = true := by
  unfold Dev.holdsWord
  and_intros <;> first | decide +kernel | rfl | exact free_ready _

/-- SPOS, with a read shadow and a write shadow tagged for it, and for another quantity. -/
def shadowed (tag : Nat) : State := on fun d => { d with bus := { d.bus with
  readShadows := [⟨6, .inBand, tag, 5⟩], writeShadows := [⟨6, .inBand, tag, 5⟩] } }

theorem witness_ReadShadows : (shadowed 0x60008).alive ∧ (shadowed 0x60008).dev.pathFree .inBand ∧ RegMap.isWide 0x60008 = true
    ∧ (shadowed 0x60008).dev.holdsWord 0x60008 ∧ (shadowed 0x60008).dev.holdsWord 0x6000C
    ∧ (shadowed 0x60008).dev.accessError .inBand 0x60008 .b64 none = none
    ∧ (shadowed 0x60008).dev.accessError .inBand 0x6000C .b32 none = none
    ∧ shadowOf (shadowed 0x60008).dev.bus.readShadows 6 .inBand = some ⟨6, .inBand, 0x60008, 5⟩
    ∧ (∀ v, shadowOf ready.dev.bus.readShadows 6 .inBand ≠ some ⟨6, .inBand, 0x60008, v⟩) := by
  unfold Dev.holdsWord
  and_intros <;> first | (intro v h; cases h) | decide +kernel | rfl

theorem witness_WriteShadows : (shadowed 0x60408).alive ∧ (shadowed 0x60408).dev.pathFree .inBand ∧ RegMap.isWide 0x60408 = true
    ∧ storesOnly 0x60408 = true ∧ storesOnly 0x6040C = true
    ∧ (∀ v, (shadowed 0x60408).dev.accessError .inBand 0x60408 .b32 (some v) = none)
    ∧ (∀ v, (shadowed 0x60408).dev.accessError .inBand 0x60408 .b64 (some v) = none)
    ∧ (∀ v, (shadowed 0x60408).dev.accessError .inBand 0x6040C .b32 (some v) = none)
    ∧ shadowOf (shadowed 0x60408).dev.bus.writeShadows 6 .inBand = some ⟨6, .inBand, 0x60408, 5⟩
    ∧ shadowOf ready.dev.bus.writeShadows 6 .inBand = none
    ∧ shadowOf (shadowed 0x60428).dev.bus.writeShadows 6 .inBand = some ⟨6, .inBand, 0x60428, 5⟩
    ∧ (0x60408 : Nat) ≠ Reg.shdDropCnt := by
  and_intros <;> first | decide +kernel | exact fun _ => rfl | rfl

/-- An access to an empty slot, an unaligned one, one that its path may not make, one to a domain that is off. -/
theorem witness_RefusedAccesses : ready.dev.accessError .inBand 0xFF0000 .b32 none = some 1
    ∧ ready.dev.accessError .inBand 0x50001 .b32 (some 7) = some 2 ∧ ready.dev.accessError .inBand 0x100 .b32 (some 1) = some 5
    ∧ ready.dev.accessError .inBand 0x100000 .b32 none = some 3 := by decide +kernel

theorem witness_AccessTimeouts : covers 0x50000 .b32 0x40004 = false ∧ ready.dev.accessError .inBand 0x50000 .b32 none = none
    ∧ ready.dev.accessError .inBand 0x50000 .b32 (some 7) = none ∧ ready.dev.smb.win = none := by decide +kernel

theorem witness_AccessSwapAndInject : ready.dev.domainUp 126 = true ∧ ready.dev.domainUp 128 = true
    ∧ ∀ k, shadowOf ready.dev.bus.writeShadows k .management = none := by
  and_intros <;> first | decide +kernel | rfl | exact fun _ => rfl

/-- The in-band bridge at an address. -/
def bridged (f : Bridge → Bridge) : State := on fun d => d.modBridge .inBand fun b => f { b with addr := 0x70000010 }

theorem witness_BridgeWrites : (bridged id).alive ∧ (bridged id).dev.domainUp 134 = true
    ∧ (∀ k, shadowOf (bridged id).dev.bus.writeShadows k .inBand = none)
    ∧ (bridged id).dev.deepKind .inBand 0x70000010 true = none ∧ (bridged id).dev.deepKind .inBand 0x18000000 true = some 5
    ∧ ((bridged fun b => { b with post := true }).dev.bridge .inBand).post = true
    ∧ ((bridged fun b => { b with writing := some (0x70000010, 7, true) }).dev.bridge .inBand).writing = some (0x70000010, 7, true)
    ∧ deepTuning 0x70000010 = false := by
  and_intros <;> first | decide +kernel | rfl | exact fun _ => rfl

theorem witness_BridgeReads : (bridged id).dev.pathFree .inBand ∧ ((bridged id).dev.bridge .inBand).held = none
    ∧ ((bridged fun b => { b with held := some (.value 0x70000010 9) }).dev.bridge .inBand).held = some (.value 0x70000010 9)
    ∧ ((bridged fun b => { b with held := some (.error 0x70000010 7) }).dev.bridge .inBand).held = some (.error 0x70000010 7)
    ∧ ((bridged fun b => { b with held := some (.value 0x70000014 9) }).dev.bridge .inBand).held = some (.value 0x70000014 9)
    ∧ ((bridged fun b => { b with fetching := some 0x70000010 }).dev.bridge .inBand).fetching = some 0x70000010
    ∧ (bridged id).dev.deepKind .inBand 0x70000010 false = none := by
  and_intros <;> first | decide +kernel | rfl

theorem witness_SealUnits : ready.alive ∧ ready.dev.pathFree .management ∧ ready.dev.domainUp 133 = true
    ∧ shadowOf ready.dev.bus.writeShadows 9 .management = none := ⟨rfl, free_ready _, by decide +kernel, rfl⟩

/-- A scan runs. -/
def scanning (q : ScanReq) (rebase : Bool) : State := on fun d => { d with scan := { d.scan with running := some q, rebaseThis := rebase } }

theorem witness_ScansStartOrWait : ready.dev.domainUp 133 = true ∧ ready.dev.domainOn 133 = true ∧ ready.dev.scan.running = none
    ∧ ready.dev.scan.waiting = [] ∧ (scanning ScanReq.stiff false).dev.scan.running = some ScanReq.stiff
    ∧ (scanning ScanReq.stiff false).dev.pathFree .inBand ∧ (scanning ScanReq.stiff false).dev.domainUp 133 = true := by
  and_intros <;> first | decide +kernel | rfl

/-- Stiffening is active, and the reference is the seal of no scan. -/
def stiff : State := on fun d => { (d.setFlag Reg.stfCtrl 31 true).wr Reg.stfRef (scanSeal []) with
  scan := { d.scan with running := some ScanReq.stiff } }

theorem witness_ScanResults : (scanning ScanReq.stiff false).alive ∧ (scanning ScanReq.stiff false).dev.stiffActive = false
    ∧ (scanning ScanReq.stiff true).dev.scan.rebaseThis = true ∧ stiff.dev.stiffActive = true
    ∧ scanSeal stiff.dev.scan.runs = stiff.dev.rd Reg.stfRef
    ∧ (scanning ⟨1, 4, 8, false⟩ false).dev.scan.running = some ⟨1, 4, 8, false⟩ := by
  and_intros <;> first | decide +kernel | rfl

/-- A batt that slice 1 has fulled, whose last parcels are not closed. -/
def cutting : State := on fun d => { d with ful := { d.ful with batts :=
  [{ num := 5, grid := ⟨0, 0, 0x800, 6, 0⟩, heads := [2], cutter := some 1, state := .fulled, cropFirst := 0, cropLast := 63 }] } }

theorem witness_HopperFlushAndTail : (((on fun d => d.modHop 30 fun _ => ⟨true, false⟩).dev.hoppers.getD 30 {}).flushing = true)
    ∧ (((on fun d => d.modHop 3 fun _ => ⟨true, false⟩).dev.hoppers.getD 3 {}).flushing = true)
    ∧ cutting.dev.fld (Reg.hopCfg 60) 0 16 ≠ 0 ∧ cutting.dev.domainOn (hopDomain 60) = true ∧ cutting.dev.hopItems 60 ≠ 0 := by
  decide +kernel

/-- REG_READ and REG_WRITE of SMB_CFG. -/
def oneWord : Bytes := le 4 0x50000 ++ [0, 2] ++ le 2 1

def deepWord : Bytes := le 4 0x70000010 ++ [1, 2] ++ le 2 1

theorem witness_RegisterCommands :
    Begins ready (rq 0 oneWord) [.inBandPath] ∧ regOk oneWord = true ∧ regCount oneWord = 1 ∧ winDirect 0x50000 = 0x50000
    ∧ (ready.dev.takeReq 0x0F01 (rq 0 oneWord)).holdsWord 0x50000 ∧ regSpace deepWord = 1 ∧ regOk deepWord = true ∧ ready.dev.accessError .inBand 0x50000 .b32 none = none
    ∧ storesOnly 0x50000 = true ∧ ready.dev.stiffActive = false
    ∧ ready.dev.accessError .inBand 0x50000 .b32 (some 0x12345678) = none
    ∧ Begins ready (rq 0 (zeros 8)) [.stiffening] ∧ ready.dev.owed 0x0F03 = none
    ∧ Begins stiff (rq 0 []) [.stiffening]
    ∧ Begins ready (rq 0 (le 4 0x10001 ++ zeros 4 ++ le 8 noBatt)) [.pipe 0, .fulConfig]
    ∧ ready.dev.commitOk 0 = true ∧ ready.dev.bankBusy 0 = false ∧ ready.dev.fulBusy = false := by
  and_intros <;> first | decide +kernel | exact begins_ready .. | exact begins_of rfl rfl (by decide +kernel) (by decide +kernel) rfl rfl rfl | rfl

/-! ## Position, line and triggers: hypotheses met (spec/04_strip_position.md) -/

def pEncoder : Bytes := [0, 1, 3, 2] ++ zeros 8 ++ le 2 4 ++ le 2 100
def pPlan : Bytes := [2, 1] ++ le 2 0 ++ le 4 0x1400 ++ le 8 0 ++ [3, 1] ++ le 2 7
def pGeometry : Bytes := le 4 0x100 ++ [8, 0, 0, 0]
def pMark : Bytes := [1, 5, 2, 3] ++ le 4 10 ++ le 4 100 ++ zeros 4
def pCheck : Bytes := [1, 2, 3, 0] ++ le 4 65536 ++ le 4 10 ++ zeros 4

theorem witness_PositionSettings : Begins ready (rq 0 pEncoder) [.position] ∧ pEncoder.length = 16
    ∧ (∀ x, x < 4 → x ≠ 0 → ready.dev.encRole x ≠ 1) ∧ ready.dev.isFollower = false ∧ ready.dev.lineStarted = false
    ∧ ready.dev.stiffActive = false ∧ pCheck.length = 16 ∧ leAt pCheck 1 1 = 2 ∧ leAt pCheck 4 4 = 65536
    ∧ pPlan.length = 20 ∧ leAt pPlan 4 4 = 0x1400 ∧ leAt pPlan 16 1 = 3 ∧ ready.dev.mode 2 = 0
    ∧ pGeometry.length = 8 ∧ zeroAt pGeometry 5 3 = true ∧ leAt pGeometry 0 4 = 0x100 ∧ leAt pGeometry 4 1 = 8
    ∧ pMark.length = 16 ∧ zeroAt pMark 12 4 = true ∧ leAt pMark 1 1 = 5 ∧ leAt pMark 8 4 = 100 := by
  and_intros <;> first | decide +kernel | exact begins_ready .. | exact begins_of rfl rfl (by decide +kernel) (by decide +kernel) rfl rfl rfl | rfl

/-- Encoder 0 is the master, and head 2 has a plan on 20 ticks. -/
def planned : State := on fun d => (d.wrN Reg.posCtrl 0x88640004).wrN (Reg.headTrig 2) 0x40001400

/-- A line from origin 0 and batt 0 runs, with batt 0 open and head 2 attached. -/
def lined : State := { ready with dev :=
  let d := (((planned.dev.setFlag Reg.posStat 31 true).setPortState 2 3).wr64 Reg.spos 64)
  ({ d with ful := { d.ful with nextOpen := 1 }, pos := { d.pos with contributing := [2] } } : Dev).modGen 2 fun g =>
    { g with stopped := false } }

def pStart : Bytes := [1] ++ zeros 15 ++ le 8 0xFFFFFFFFFFFF
def pStop : Bytes := zeros 8 ++ le 8 3
def pStopNow : Bytes := [1] ++ zeros 15

theorem witness_LineStart : Begins planned (rq 0 pStart) [.position] ∧ pStart.length = 24 ∧ zeroAt pStart 1 7 = true
    ∧ planned.dev.spos + 64 * (planned.dev.guard : Int) = 64 ∧ (64 : Int) % 64 = 0 ∧ leAt pStart 8 8 = 0
    ∧ leAt pStart 16 8 = 2 ^ 48 - 1 ∧ planned.dev.rd64 Reg.battLastUsed % 2 ^ 48 = 2 ^ 48 - 1
    ∧ planned.dev.lineStarted = false ∧ planned.dev.isFollower = false ∧ planned.dev.master.isSome = true := by
  and_intros <;> first | decide +kernel | exact begins_ready .. | exact begins_of rfl rfl (by decide +kernel) (by decide +kernel) rfl rfl rfl | rfl

theorem witness_LineStop : Begins lined (rq 0 pStop) [.position] ∧ pStop.length = 16 ∧ zeroAt pStop 1 7 = true
    ∧ leAt pStop 8 8 = 3 ∧ lined.dev.battFirst ≤ 3 ∧ lined.dev.lineStarted = true ∧ lined.dev.isFollower = false
    ∧ lined.dev.tooLate 4 = false ∧ Begins lined (rq 0 pStopNow) [.position] ∧ leAt pStopNow 0 1 = 1 := by
  and_intros <;> first | decide +kernel | exact begins_ready .. | exact begins_of rfl rfl (by decide +kernel) (by decide +kernel) rfl rfl rfl | rfl

theorem witness_TriggerFire : lined.alive ∧ (lined.dev.gen 2).iNext = 0 ∧ lined.dev.mode 2 ≠ 0
    ∧ (lined.dev.gen 2).stopped = false ∧ lined.dev.trigPos 2 0 ≤ 4 * lined.dev.spos ∧ lined.dev.pos.stopAfter = none
    ∧ lined.dev.battOfLine 2 0 < lined.dev.ful.nextOpen ∧ lined.dev.portState 2 = 3 := by
  and_intros <;> first | decide +kernel | rfl

/-- The line moved back by 10 ticks after line 1 was reached. -/
def reversed : State := { lined with dev := ((lined.dev.wrI64 Reg.spos (-640)).modGen 2 fun g => { g with iNext := 1 }) }

theorem witness_TriggerRearm : reversed.alive ∧ reversed.dev.flag Reg.posCtrl 30 = false ∧ (reversed.dev.gen 2).iNext ≠ 0
    ∧ 0 < reversed.dev.linePitch256 2
    ∧ 4 * reversed.dev.spos ≤ reversed.dev.trigPos 2 ((reversed.dev.gen 2).iNext - 1) - 256 * (reversed.dev.revHyst : Int) := by
  and_intros <;> first | decide +kernel | rfl

/-- A strobe output is bound to head 2, its pulse is due, or runs. -/
def strobing (active : Bool) : State := { lined with dev :=
  let d := lined.dev.wrN (Reg.strbCfg 0) 0x82000000
  { d with pos := { d.pos with strobes := modAt d.pos.strobes 0 fun _ => ⟨active, [5]⟩ } } }

theorem witness_EncodersMarksStrobes : ready.alive ∧ (ready.dev.advance 0).clock.enc 0 = {} ∧ ready.dev.fld (Reg.encCfg 0) 16 8 = 3 ∧ (3 : Nat) < 4 ∧ phaseOf true false = 1
    ∧ (phaseOf true true + 4 - phaseOf false false) % 4 = 2 ∧ planned.dev.master = some 0
    ∧ ((on fun d => d.wrN (Reg.mkCfg 1) 0xA0000000).dev.fld (Reg.mkCfg 1) 29 3 = 5)
    ∧ ((strobing true).dev.pos.strobes.getD 0 {}).due = [5] ∧ ((strobing true).dev.pos.strobes.getD 0 {}).active = true
    ∧ (strobing true).dev.lineStarted = true ∧ (strobing true).dev.flag (Reg.strbCfg 0) 31 = true
    ∧ (strobing true).dev.safe = false := by
  and_intros <;> first | decide +kernel | rfl

/-! ## Head links: hypotheses met (spec/05_head_link.md) -/

def pAttach : Bytes := [2, 2, 4, 3, 0x2C, 0, 0xE4, 1] ++ le 2 128 ++ le 2 1 ++ le 2 1000 ++ zeros 2
def pMessage : Bytes := [2, 0] ++ le 2 20 ++ List.replicate 20 1

/-- Port 2 is attached in a state of R183, RAW12, 128 pixels, virtual channel 3, with its domains on. -/
def portIn (st : Nat) : State := on fun d =>
  let d1 := (pipeDomains 2).foldl (fun d j => d.setFlag (Reg.pdOn (j / 32)) (j % 32) true) d
  ((d1.wrN (Reg.hlCfg 2) 0xA8032C00).wrN (Reg.hlGeom 2) 0x10080).wrN (Reg.hlStat 2) (st * 2 ^ 29)

theorem witness_HeadAttach : Begins ready (rq 0 pAttach) [.pipe 2] ∧ pAttach.length = 16 ∧ bits (leAt pAttach 5 1) 5 3 = 0
    ∧ zeroAt pAttach 14 2 = true ∧ attachOk pAttach = true ∧ ready.dev.portState 2 = 0 ∧ ready.dev.stiffActive = false
    ∧ ready.dev.flag Reg.fltUrec 2 = false ∧ 2 ∈ pipeDomains 2 ∧ ready.dev.domainOn 2 = false := by
  and_intros <;> first | decide +kernel | exact begins_ready .. | exact begins_of rfl rfl (by decide +kernel) (by decide +kernel) rfl rfl rfl | rfl

theorem witness_HeadDetach : Begins (portIn 3) (rq 0 [2, 0, 0, 0]) [.pipe 2] ∧ (portIn 3).dev.portState 2 = 3
    ∧ (portIn 3).dev.lineStarted = false ∧ (portIn 3).dev.stiffActive = false ∧ (portIn 3).dev.domainOn 2 = true
    ∧ (portIn 3).dev.running = [] ∧ zeroAt [2, 0, 0, 0] 1 3 = true := by
  and_intros <;> first | decide +kernel | exact begins_ready .. | exact begins_of rfl rfl (by decide +kernel) (by decide +kernel) rfl rfl rfl | rfl

theorem witness_HeadMessage : Begins (portIn 3) (rq 0 pMessage) [.pipe 2] ∧ pMessage.length = 4 + leAt pMessage 2 2
    ∧ zeroAt pMessage 1 1 = true ∧ leAt pMessage 2 2 = 20 ∧ (portIn 3).dev.portState 2 = 3 := by
  and_intros <;> first | decide +kernel | exact begins_ready .. | exact begins_of rfl rfl (by decide +kernel) (by decide +kernel) rfl rfl rfl | rfl

def messaging : State := { portIn 3 with dev := { (portIn 3).dev with running := [⟨0x0404, rq 0 pMessage, [.pipe 2], [2], none, false⟩] } }

theorem witness_HmsgSent : messaging.alive
    ∧ messaging.dev.running.find? (fun x => x.code == 0x0404 && x.args == [2]) = some ⟨0x0404, rq 0 pMessage, [.pipe 2], [2], none, false⟩ := by
  and_intros <;> first | decide +kernel | rfl

/-- A good lane marker of four lanes. -/
def goodMarker : Bytes := [0xB4, 0x80, 0, 0, 0x77, 0, 0, BitVec.ofNat 8 (pecOf [0xB4, 0x80, 0, 0, 0x77, 0, 0]).toNat]

theorem witness_HeadLinkStates : (portIn 2).alive ∧ (portIn 2).dev.portState 2 = 2 ∧ (portIn 2).dev.laneCount 2 = 4
    ∧ (List.range ((portIn 2).dev.laneCount 2)).find? (fun k => (portIn 2).dev.laneMap 2 k == 0) = some 0
    ∧ goodMarker.length = 8 ∧ pecOf (goodMarker.take 7) = goodMarker.getD 7 0 ∧ pecOf (List.take 7 [1, 0, 0, 0, 0, 0, 0, 0]) ≠ 0
    ∧ (portIn 3).dev.portState 2 = 3 ∧ (portIn 4).dev.portState 2 = 4 ∧ (portIn 2).dev.safe = false := by
  and_intros <;> first | decide +kernel | rfl

/-- Port 2 trains, every lane is locked and has two good markers. -/
def trained : State := { portIn 2 with dev := ((portIn 2).dev.wrN (Reg.hlStat 2) 0x4F000000).modPort 2 fun p => { p with runs := [2, 2, 2, 2] } }

theorem witness_MarkerLock : trained.alive ∧ trained.dev.portState 2 = 2 ∧ trained.dev.markersGood 2 = true
    ∧ trained.dev.owedArgs 0x0401 (· == [2]) = none ∧ trained.dev.groupOn 4 = true ∧ trained.dev.eventRoom = true
    ∧ bit trained.dev.ev.urgent.toNat 4 = false ∧ trained.dev.live 0x12 = false := by
  and_intros <;> first | decide +kernel | rfl

/-- A header word of a data type on virtual channel 3 with a data field, under its ECC. -/
def headerOf (ty fd : Nat) : Word :=
  let w := BitVec.ofNat 32 (ty + 3 * 64 + fd * 256)
  w + BitVec.ofNat 32 ((eccOf w).toNat * 2 ^ 24)

/-- The ECC of the CSI-2 example header 0x37, 0xF0, 0x01: 0x3F (MIPI CSI-2's own worked example). -/
theorem test_ecc : eccOf (BitVec.ofNat 32 0x01F037) = 0x3F#6 := by decide +kernel

theorem witness_Headers : eccCheck (headerOf 2 7) = some (headerOf 2 7, false) ∧ hdrVc (headerOf 2 7) = 3 ∧ hdrType (headerOf 2 7) = 2
    ∧ hdrField (headerOf 2 7) = 7 ∧ eccCheck (headerOf 2 7 ^^^ 0x10#32) = some (headerOf 2 7, true) ∧ eccCheck (headerOf 2 7 ^^^ 0x30#32) = none
    ∧ pixelType 0x2C = true ∧ eccCheck (headerOf 0x2C 96) = some (headerOf 0x2C 96, false) ∧ hdrType (headerOf 0x2C 96) = 0x2C
    ∧ markerPeriods 16383 = some 1 ∧ (portIn 2).dev.logicalLane 2 0 = some 0 := by
  and_intros <;> first | decide +kernel | rfl

def trigRec (tag : Nat) : TrigRec := ⟨0, tag, tag, 0, 5, 9, false, false, false, 2, 0, false⟩
def openedLine (px : Nat) : OpenLine := ⟨trigRec 7, 0, 1, [List.replicate px 1], 0, false⟩
def waiting : State := { portIn 3 with dev := (portIn 3).dev.modPort 2 fun p => { p with table := [trigRec 6, trigRec 7, trigRec 8] } }
def continuing : State := { portIn 3 with dev := (portIn 3).dev.modPort 2 fun p => { p with inUse := some { trigRec 7 with got := 1 } } }
def opened (px : Nat) : State := { portIn 3 with dev := (portIn 3).dev.modPort 2 fun p => { p with line := some (openedLine px) } }

theorem witness_HeadPackets : waiting.alive ∧ waiting.dev.portState 2 = 3 ∧ waiting.dev.safe = false
    ∧ waiting.dev.fld (Reg.hlCfg 2) 16 4 = 3 ∧ (waiting.dev.port 2).line = none ∧ (waiting.dev.port 2).inUse = none
    ∧ (waiting.dev.port 2).table = [trigRec 6] ++ trigRec 7 :: [trigRec 8] ∧ (∀ y ∈ [trigRec 6], y.tag ≠ 7)
    ∧ (∀ y ∈ (waiting.dev.port 2).table, y.tag ≠ 5) ∧ waiting.dev.fld (Reg.hlCfg 2) 8 6 = 0x2C ∧ waiting.dev.flag (Reg.hlCfg 2) 25 = false
    ∧ continuing.dev.portState 2 = 3 ∧ (continuing.dev.port 2).inUse = some { trigRec 7 with got := 1 } ∧ (continuing.dev.port 2).echo = none := by
  and_intros <;> first | decide +kernel | rfl

theorem witness_PixelPacket : (opened 64).dev.portState 2 = 3 ∧ ((opened 64).dev.port 2).line = some (openedLine 64)
    ∧ (opened 64).dev.width 2 = 128 ∧ (unpack 0x2C (96 / unitBytes 0x2C) (List.replicate 96 1)).length = 64
    ∧ (unpack 0x2C (48 / unitBytes 0x2C) (List.replicate 48 1)).length = 32
    ∧ (unpack 0x2C (192 / unitBytes 0x2C) (List.replicate 192 1)).length = 128 := by
  and_intros <;> first | decide +kernel | rfl

/-! ## Pouncing and mosaic: hypotheses met, and the worked examples (spec/06_pouncing_and_mosaic.md) -/

/-- Port 2 has been attached with 128 pixels. -/
def tabled : State := { portIn 3 with dev := (portIn 3).dev.modPipe 2 fun q => { q with width := some 128 } }

/-- The common 16 bytes of a pixel command for pipeline 2. -/
def pxBytes (commit : Nat) : Bytes := [2, BitVec.ofNat 8 commit] ++ zeros 6 ++ List.replicate 8 0xFF
def refBytes (len : Nat) : Bytes := le 4 0xFFFFFFFF ++ zeros 4 ++ le 8 0 ++ le 4 len ++ zeros 4
def pPounce : Bytes := pxBytes 0 ++ [1, 8, 0, 0] ++ zeros 44 ++ refBytes 516
def pDefect : Bytes := pxBytes 0 ++ le 2 1 ++ zeros 6 ++ refBytes 12
def pNoDefect : Bytes := pxBytes 0 ++ zeros 32
def pBypass : Bytes := pxBytes 0 ++ [1, 0, 1, 1, 1, 0] ++ zeros 98
def pArea : Bytes := pxBytes 0 ++ [1, 1, 1, 1, 1, 0] ++ zeros 74 ++ refBytes 8196
def pMatrix (commit : Nat) : Bytes := pxBytes commit ++ zeros 56

theorem witness_PixelBankCommands : Begins tabled (rq 0 pPounce) (.pipe 2 :: refObjs 0 (bulkRef pPounce 64)) ∧ Begins tabled (rq 0 (pMatrix 1)) [.pipe 2] ∧ pxHead pPounce = 2 ∧ tabled.dev.flag Reg.fltUrec 2 = false
    ∧ tabled.dev.stiffActive = false ∧ tabled.dev.bankBusy 2 = false ∧ tabled.dev.targetLate (pxTarget (pMatrix 1)) = false
    ∧ pPounce.length = 88 ∧ pxReserved 3 pPounce = true ∧ refReserved pPounce 64 = true ∧ tabled.dev.width 2 = 128
    ∧ leAt pPounce 80 4 = 1 * 128 * 4 + 4 ∧ tabled.dev.refCheck (bulkRef pPounce 64) = none ∧ (tabled.dev.pipe 2).width ≠ none
    ∧ pounceFused pPounce = false ∧ tabled.dev.flag (Reg.ppMode 2) 0 = false
    ∧ pDefect.length = 48 ∧ refReserved pDefect 24 = true ∧ tabled.dev.refCheck (bulkRef pDefect 24) = none ∧ leAt pDefect 40 4 = 12
    ∧ pNoDefect.length = 48 ∧ zeroAt pNoDefect 16 32 = true
    ∧ pBypass.length = 120 ∧ tabled.dev.mosaicBad pBypass = none ∧ zeroAt pBypass 96 24 = true
    ∧ pArea.length = 120 ∧ tabled.dev.mosaicBad pArea = none ∧ tabled.dev.refCheck (bulkRef pArea 96) = none
    ∧ (pMatrix 1).length = 72 ∧ pxCommit (pMatrix 1) = true ∧ tabled.dev.commitOk 2 = true := by
  and_intros <;> first | decide +kernel | exact begins_ready .. | exact begins_of rfl rfl (by decide +kernel) (by decide +kernel) rfl rfl rfl | rfl

/-- A POUNCE_LOAD of mailbox 0 has been accepted; its table arrives with its seal. -/
def pPounceSmall : Bytes := pxBytes 0 ++ [1, 8, 0, 0] ++ zeros 44 ++ (zeros 16 ++ le 4 12 ++ zeros 4)
def pounceAccepted : Accepted := ⟨0x0501, rq 0 pPounceSmall, [.pipe 2, .bulkArea 0], []⟩
def table1 : Bytes := List.replicate 8 1
def loading : State := { tabled with dev := { tabled.dev with accepted := [pounceAccepted], plc := { tabled.dev.plc with regions := [{ live := true, len := 64 }] } } }
def exporting : State := { tabled with dev := { tabled.dev with accepted := [⟨0x0203, rq 0 (zeros 16 ++ refBytes 4096), [], [4096]⟩] } }

theorem witness_BulkFetchDone : loading.alive
    ∧ loading.dev.accepted.find? (fun a => a.req.mbx == 0 && (fetchRefs a.code a.req.payload) != []
        && !(a.code == 0x1002 && loading.dev.pwr.staging.isSome)) = some pounceAccepted
    ∧ (fetchRefs 0x0501 pPounceSmall).any (fun b => b.region != bulkArea && !loading.dev.regionLive b.region) = false
    ∧ loading.dev.bulkPending (.bulkRead 0) = false ∧ loading.dev.fetchedAll 0 (fetchRefs 0x0501 pPounceSmall) (withSeal 0 table1) = some [table1] := by
  and_intros <;> first | decide +kernel | rfl

theorem witness_BulkWriteAcked : exporting.alive
    ∧ exporting.dev.accepted.find? (fun a => a.req.mbx == 0 && a.code == 0x0203) = some ⟨0x0203, rq 0 (zeros 16 ++ refBytes 4096), [], [4096]⟩
    ∧ (bulkRef (zeros 16 ++ refBytes 4096) 16).region = bulkArea ∧ exporting.dev.bulkPending (.bulkWrite 0) = false := by
  and_intros <;> first | decide +kernel | rfl

def copying : State := { tabled with dev := tabled.dev.wrN (Reg.ppStat 2) 0x20000000 }

theorem witness_BankCopyDone : copying.alive ∧ copying.dev.safe = false ∧ copying.dev.flag (Reg.ppStat 2) 29 = true ∧ copying.dev.flag (Reg.ppMode 2) 0 = false
    ∧ Sparse.wf deepDefault copying.dev.deep = true ∧ copying.dev.copyReads 2 (tableBase 2) = true := by
  and_intros <;> first | decide +kernel | rfl

/-- A line of two pixels, arrived or lost. -/
def lineOf (cause : Nat) : Line := (trigRec 7).line 0 cause 0 (bif cause == 0 then [[1000, 5]] else [])
def arrived (cause : Nat) (swap : Bool) : State :=
  let d := tabled.dev.modPipe 2 fun q => { q with rx := [lineOf cause] }
  { tabled with dev := if swap then (d.wrN (Reg.ppStat 2) 0x40000000).wr64 (Reg.ppSwapBatt 2) 0 else d }

theorem witness_LinePouncing : (arrived 0 false).alive ∧ (arrived 0 false).dev.stageOn 18 = true ∧ (arrived 7 true).dev.stageOn 18 = true ∧ ((arrived 0 false).dev.pipe 2).rx = [lineOf 0]
    ∧ (arrived 0 false).dev.flag (Reg.ppStat 2) 30 = false ∧ (arrived 7 true).dev.flag (Reg.ppStat 2) 30 = true
    ∧ (arrived 7 true).dev.rd64 (Reg.ppSwapBatt 2) ≤ (lineOf 7).batt ∧ (lineOf 7).cause ≠ 0 ∧ tabled.dev.lost = []
    ∧ ((arrived 0 false).dev.calRead ((arrived 0 false).dev.liveView 0) 2 (lineOf 0)).contains (tableBase 2) = true ∧ ramEntry (tableBase 2) = some (tableBase 2) := by
  and_intros <;> first | decide +kernel | rfl

/-- A pounced line waits for the mosaic in a mode, with a number of defects. -/
def pounced (mode defs : Nat) : State :=
  let d := tabled.dev.modPipe 2 fun q => { q with mosQ := [{ lineOf 0 with sats := [[false, false]] }] }
  { tabled with dev := d.wrN (Reg.mosCfg 2 0) (mode * 2 ^ 30 + 2 ^ 19 + defs) }

theorem witness_MosaicLines : (pounced 0 0).alive ∧ (∀ m, m < 4 → ∀ k, k < 2 → (pounced m k).dev.stageOn 18 = true) ∧ ((pounced 0 0).dev.pipe 2).mosQ = [{ lineOf 0 with sats := [[false, false]] }]
    ∧ ((pounced 3 0).dev.viewAt 2 0).mosMode 2 = 3 ∧ ((pounced 2 0).dev.viewAt 2 0).mosMode 2 = 2
    ∧ ((pounced 1 0).dev.viewAt 2 0).mosMode 2 = 1 ∧ ((pounced 1 0).dev.window ((pounced 1 0).dev.viewAt 2 0) 2 (lineOf 0)).isSome = true
    ∧ ((pounced 1 0).dev.viewAt 2 0).defCount 2 = 0 ∧ ((pounced 0 1).dev.viewAt 2 0).defCount 2 = 1 ∧ (pounced 0 1).dev.lineMode 2 0 ≠ 2
    ∧ (pounced 0 1).dev.lineView 2 (lineOf 0) = (pounced 0 1).dev.viewAt 2 0 ∧ ((pounced 0 1).dev.viewAt 2 0).mosaicRead 2 (lineOf 0) = [tableBase 2 + 0x60000] := by
  and_intros <;> first | decide +kernel | rfl

/-- The red site of the RGB-IR example. -/
theorem test_pounce : pounceSample 12 0 8 262144 5 0x4400 1000 = (4072112, false) := by decide +kernel

/-- The replaced defect of the quad-linear example. -/
theorem test_defect_mean : meanOf [810000, 790001] = 800001 := by decide +kernel

/-- The matrix of the RGB-IR example. -/
def rgbir : State := { tabled with dev := (((tabled.dev.wrN (Reg.matW1 2 0 0) 0xF19A0000).wrN (Reg.matW1 2 0 1) 0xFA660000).wrN
  (Reg.matW1 2 0 2) 0xF6661000) }
theorem test_matrix : (List.range 4).map (fun j => (rgbir.dev.liveView 0).matrixOut 2 j
    [(4072112, false), (3000000, false), (2000000, false), (800000, false), (0, false)])
    = [(3352190, false), (2719922, false), (1519922, false), (800000, false)] := by decide +kernel

/-! ## Carding: hypotheses met, and the worked example (spec/07_carding.md) -/

def pOffsets : Bytes := pxBytes 0 ++ le 4 768 ++ [1, 0, 0, 0] ++ le 4 0x100 ++ zeros 4
def pDelays : Bytes := pxBytes 0 ++ zeros 16
def pDeadline : Bytes := le 4 1000 ++ le 4 50000

theorem witness_CardingCommands : Begins tabled (rq 0 pOffsets) [.pipe 2] ∧ pxHead pOffsets = 2 ∧ pxCommit pOffsets = false
    ∧ pOffsets.length = 32 ∧ pxReserved 1 pOffsets = true ∧ zeroAt pOffsets 27 5 = true ∧ leAt pOffsets 24 3 = 0x100
    ∧ tabled.dev.stiffActive = false ∧ tabled.dev.bankBusy 2 = false ∧ tabled.dev.flag Reg.fltUrec 2 = false
    ∧ pDelays.length = 32 ∧ zeroAt pDelays 26 6 = true ∧ (tabled.dev.liveView 1).py 2 = 1 ∧ leAt pDelays 16 2 = 0
    ∧ Begins ready (rq 0 [2, 0, 0, 0]) [] ∧ Begins ready (rq 0 pDeadline) [.position] ∧ leAt pDeadline 4 4 = 50000
    ∧ ready.dev.isFollower = false := by
  and_intros <;> first | decide +kernel | exact begins_ready .. | exact begins_of rfl rfl (by decide +kernel) (by decide +kernel) rfl rfl rfl | rfl

/-- Lines 0 to 3 have arrived, of two exposure identifiers, one of them lost or not. -/
def cardLine (i id cause : Nat) : Line := { (trigRec i).line 0 cause 0 (bif cause == 0 then [[1000000 + i]] else []) with
  expid := id, sats := [[false]] }
def cardOf (lines : List Line) (next : Nat) : Card :=
  { grid := ⟨0, 0, 40 * 256, 10, 0⟩, mode := 1, pitch := 30 * 256, offset := 0, lines := lines, rowNext := next,
    hwm := some 3 }
def carding (trim : Nat) (four : Bool) (c : Card) : State :=
  let d := tabled.dev.modPipe 2 fun q => { q with cards := [c] }
  { tabled with dev := (d.wrN (Reg.cdTrim 2 0) trim).wrN (Reg.cdCfg 2 0) (bif four then 2 ^ 31 else 0) }
def fourLines : List Line := [cardLine 0 9 0, cardLine 1 9 0, cardLine 2 9 0, cardLine 3 9 0]
def mixedLines : List Line := [cardLine 0 9 0, cardLine 1 9 0, cardLine 2 8 0, cardLine 3 9 7]

/-- Row 1 lies at phase 341 between lines 1 and 2, row 0 on line 0, row 2 at phase 682 between lines 2 and 3. -/
theorem witness_CardedRows : (carding 0 false (cardOf fourLines 0)).alive ∧ (carding 0 false (cardOf fourLines 0)).dev.stageOn 34 = true
    ∧ ((carding 0 false (cardOf fourLines 1)).dev.pipe 2).cards = [cardOf fourLines 1] ∧ (cardOf fourLines 1).inLine 1 = true
    ∧ (carding 0 false (cardOf fourLines 1)).dev.awaits 2 = 1
    ∧ ((carding 0 false (cardOf fourLines 1)).dev.viewOf 2 0).mosMode 2 ≠ 2
    ∧ ((1 * 10240 : Int) - ((carding 0 false (cardOf fourLines 1)).dev.viewOf 2 0).trim 2) / 7680 = 1
    ∧ ((341 : Nat) : Int) = ((1 * 10240 : Int) - 7680) * 1024 / 7680
    ∧ (cardOf fourLines 0).raw 0 0 = .line (cardLine 0 9 0) ∧ (cardOf fourLines 1).raw 2 0 = .line (cardLine 2 9 0)
    ∧ (cardOf mixedLines 1).raw 2 0 = .line (cardLine 2 8 0) ∧ (cardLine 1 9 0).expid ≠ (cardLine 2 8 0).expid
    ∧ (cardOf mixedLines 2).raw 3 0 = .lost 7 ∧ (cardOf fourLines 3).raw 4 0 = .waiting
    ∧ ((carding 0 true (cardOf fourLines 1)).dev.viewOf 2 0).fourtap 2 = true ∧ fourTap 341 = [-76, 797, 341, -38]
    ∧ (cardOf fourLines 1).raw 3 0 = .line (cardLine 3 9 0) := by
  and_intros <;> first | decide +kernel | rfl

/-- The weights and the row of head 2 in the example. -/
theorem test_fourtap : fourTap 238 = [-70, 905, 210, -21]
    ∧ blend [(-70, cardLine 0 9 0), (905, { cardLine 0 9 0 with planes := [[1010000]] }), (210, { cardLine 0 9 0 with planes := [[1040000]] }),
        (-21, { cardLine 0 9 0 with planes := [[1100000]] })] = [[(1014990, false)]] := by decide +kernel

/-- The missing-row map of the example. -/
theorem test_missing_map : mapRuns 2 ([(0, 12), (1, 0), (1018, 0), (1019, 0x800)] ++ [(1020, 11), (1021, 11), (1022, 11), (1023, 11)])
    = [0x0002000C00010000, 0x00020800000103FB, 0x0002000B000403FC] := by decide +kernel

/-- One batt without rows to come is open. -/
def oneBatt : Batt := { num := 5, grid := ⟨0, 0, 256, 6, 0⟩, heads := [] }
def tracking : State := on fun d => { d with ful := { d.ful with batts := [oneBatt], nextOpen := 6 } }

theorem witness_BattTracker : tracking.alive ∧ tracking.dev.safe = false
    ∧ tracking.dev.ful.batts.filter (fun b => b.state == .opened && b.recalled.isNone) = [oneBatt]
    ∧ (∀ x ∈ tracking.dev.ful.batts, x.num = oneBatt.num → x = oneBatt) ∧ tracking.dev.finishedBatt oneBatt = true
    ∧ tracking.dev.ful.batts.find? (fun b => b.num == 5 && b.recalled.isNone && b.state == .opened && !b.expired) = some oneBatt
    ∧ tracking.dev.lastPoint oneBatt ≤ 4 * tracking.dev.rdI64 Reg.sposHwm
    ∧ tracking.dev.lastPoint { oneBatt with grid := ⟨0, 400, 256, 6, 0⟩ } > 4 * tracking.dev.rdI64 Reg.sposHwm := by
  and_intros <;> first | decide +kernel | rfl

theorem witness_BattClose_waits : ∃ b rest, (on fun d => { d with ful := { d.ful with batts := [{ oneBatt with heads := [2] }] } }).dev.ful.batts = b :: rest :=
  ⟨_, _, rfl⟩


/-! ## Blocking and brim: hypotheses met, and the worked examples (spec/08_blocking_and_brim.md) -/

def pIdentity : Bytes := pxBytes 0 ++ le 4 0 ++ zeros 52
def pMap : Bytes := pxBytes 0 ++ le 4 0 ++ le 2 100 ++ [1, 0] ++ refBytes 804 ++ zeros 24
def pBrim (commit : Nat) (crop : Bytes) : Bytes :=
  pxBytes commit ++ [1, 0, 1, 4] ++ le 4 1000 ++ le 4 (100 * 65536 + 16) ++ zeros 4 ++ le 2 4 ++ le 2 8 ++ crop
def cropBytes : Bytes := [0, 5] ++ le 2 64 ++ zeros 4 ++ le 4 0 ++ le 4 63 ++ zeros 4

/-- A grid of 4,096 columns of which the device has the first 1,024. -/
def gridded : State := { tabled with
  dev := (((tabled.dev.wrN Reg.gridW 4096).wrN Reg.gridPitch 100).wrN Reg.devFirst 0).wrN Reg.devLast 1023 }

theorem witness_BlockMapLoad : Begins gridded (rq 0 pIdentity) [.pipe 2] ∧ Begins gridded (rq 0 pMap) [.pipe 2] ∧ gridded.dev.flag Reg.fltUrec 2 = false
    ∧ gridded.dev.stiffActive = false ∧ gridded.dev.bankBusy 2 = false
    ∧ pIdentity.length = 72 ∧ pxReserved 1 pIdentity = true ∧ zeroAt pIdentity 20 52 = true ∧ (gridded.dev.pipe 2).width ≠ none
    ∧ gridded.dev.fld Reg.devFirst 0 20 ≤ leAt pIdentity 16 4 + 256
    ∧ leAt pIdentity 16 4 + gridded.dev.width 2 ≤ gridded.dev.fld Reg.devLast 0 20 + 1 + 256
    ∧ leAt pIdentity 16 4 + gridded.dev.width 2 ≤ gridded.dev.fld Reg.gridW 0 21
    ∧ pMap.length = 72 ∧ pxCommit pMap = false ∧ pxReserved 1 pMap = true ∧ leAt pMap 22 1 = 1 ∧ zeroAt pMap 48 24 = true
    ∧ Begins gridded (rq 0 pMap) (.pipe 2 :: refObjs 0 (bulkRef pMap 24)) ∧ refReserved pMap 24 = true ∧ gridded.dev.blockMapBad pMap = none ∧ gridded.dev.refCheck (bulkRef pMap 24) = none := by
  and_intros <;> first | decide +kernel | exact begins_ready .. | exact begins_of rfl rfl (by decide +kernel) (by decide +kernel) rfl rfl rfl | rfl

def gridRunning : State := { gridded with dev := gridded.dev.setFlag Reg.posStat 31 true }

theorem witness_BrimConfig : (pBrim 0 (zeros 20)).length = 56 ∧ pxReserved 5 (pBrim 0 (zeros 20)) = true
    ∧ bits (leAt (pBrim 0 (zeros 20)) 16 1) 3 5 = 0 ∧ zeroAt (pBrim 0 (zeros 20)) 42 2 = true ∧ zeroAt (pBrim 0 (zeros 20)) 52 4 = true
    ∧ gridded.dev.brimBad (pBrim 0 (zeros 20)) = none ∧ leAt (pBrim 0 (zeros 20)) 1 1 = 0
    ∧ Begins gridRunning (rq 0 (pBrim 5 cropBytes)) [.pipe 2] ∧ leAt (pBrim 5 cropBytes) 1 1 = 5
    ∧ gridRunning.dev.lineStarted = true ∧ gridRunning.dev.brimBad (pBrim 5 cropBytes) = none
    ∧ (pBrim 5 cropBytes).length = 56 ∧ pxReserved 5 (pBrim 5 cropBytes) = true ∧ zeroAt (pBrim 5 cropBytes) 42 2 = true
    ∧ gridRunning.dev.targetLate (pxTarget (pBrim 5 cropBytes)) = false ∧ gridRunning.dev.commitOk 2 = true := by
  and_intros <;> first | decide +kernel | exact begins_ready .. | exact begins_of rfl rfl (by decide +kernel) (by decide +kernel) rfl rfl rfl | rfl

def pGrid : Bytes := le 4 4096 ++ le 4 1000 ++ le 4 0 ++ le 4 2047

theorem witness_StripGridSet : Begins ready (rq 0 pGrid) [.fulConfig] ∧ pGrid.length = 16 ∧ leAt pGrid 12 4 = 2047
    ∧ ready.dev.lineStarted = false ∧ (∀ n, n < 16 → ready.dev.portState n = 0) ∧ ready.dev.rdN Reg.gridPitch ≠ 1000
    ∧ Begins ready (rq 0 [16, 0, 0, 0]) [] := by
  and_intros <;> first | decide +kernel | exact begins_ready .. | exact begins_of rfl rfl (by decide +kernel) (by decide +kernel) rfl rfl rfl | rfl

/-- Head 2 with two columns, a block map of two entries in bank 0 and a brim search on the left. -/
def blocking (cfg : Nat) (skews : Int × Int) (f : Brim) (c : Card) : State :=
  let d := tabled.dev.modPipe 2 fun q => { q with cards := [c], brims := [f, {}] }
  let e := fun (src : Nat) (k : Int) => le 4 src ++ le 4 (unsigned 11 k)
  { tabled with dev := ((((d.wrN (Reg.bkCfg 2 0) cfg).wrN (Reg.brCfg 2 0) (2 ^ 31 + 3)).wrN (Reg.brThresh 2 0) 100).wrN (Reg.brLband 2 0)
    (1 * 65536 + 1)).deepWrBytes (tableBase 2 + 0x80000) (e 2048 skews.1 ++ e 4096 skews.2) }
def row0 (r id status : Nat) (xs : List Nat) : Row := ⟨r, status, 0, id, [xs], [xs.map fun _ => false], []⟩
def blockCard (rows : List Row) : Card := { (cardOf [] 0) with carded := rows }
def threeRows : Card := blockCard [row0 0 9 0 [1000, 3000, 5000, 7000], row0 1 9 0 [2000, 4000, 6000, 8000], row0 2 9 0 [0, 0, 0, 0]]
def mixedRows : Card := blockCard [row0 0 9 0 [1000, 3000, 5000, 7000], row0 1 8 0 [2000, 4000, 6000, 8000]]
def mapCfg : Nat := 2 ^ 31 + 1 * 2 ^ 24 + 1

/-- The next row has all its carded rows; its columns fall under cases 1, 2 and 4; a row is awaited. -/
theorem witness_BlockedRows : (blocking mapCfg (0, 4) {} threeRows).alive ∧ (blocking mapCfg (0, 4) {} threeRows).dev.stageOn 50 = true
    ∧ ((blocking mapCfg (0, 4) {} threeRows).dev.pipe 2).cards = [threeRows] ∧ threeRows.inLine 0 = true
    ∧ ((blocking mapCfg (0, 4) {} threeRows).dev.viewOf 2 0).mapped 2 = true
    ∧ ((blocking mapCfg (0, 4) {} threeRows).dev.viewOf 2 0).ncol 2 = 2
    ∧ (((blocking mapCfg (0, 4) {} threeRows).dev.viewOf 2 0).mapEntry 2 1).2.1 = 4
    ∧ ((blocking mapCfg (0, 4) {} threeRows).dev.viewOf 2 0).skewHi 2 = 1 ∧ ((blocking mapCfg (0, 4) {} threeRows).dev.viewOf 2 0).skewLo 2 = 0
    ∧ (∀ x ∈ threeRows.carded, x.status % 16 = 0 → x.planes.length = 1)
    ∧ ((blocking mapCfg (0, 4) {} threeRows).dev.viewOf 2 0).searches 2 0 = true
    ∧ ((blocking mapCfg (0, 4) {} threeRows).dev.pipe 2).brims.length = 2
    ∧ threeRows.source false 1 = some (row0 1 9 0 [2000, 4000, 6000, 8000])
    ∧ threeRows.source false 3 = none ∧ (row0 1 8 0 []).expid ≠ (row0 0 9 0 []).expid := by
  and_intros <;> first | decide +kernel | rfl

/-- The example: skews of -14.0, 0 and +14.0 rows give SKEW_LO -14, SKEW_HI 14 and the anchor at the entry with SKEW 0. -/
theorem test_map_geometry : mapGeometry [(76595, -224, 0), (16773120, 0, 0), (33469399, 224, 0)] = (-14, 14, 1) := by decide +kernel

/-- A first edge sets the filter to 256 times its column; a later one moves it by a share of the distance (R262). -/
theorem test_brim_found : Brim.update {} 4 4 8 (some 1064) = (⟨true, 272384, 0⟩, true, false, some true) := by decide +kernel
theorem test_brim_moves : (Brim.update ⟨true, 271104, 0⟩ 4 4 8 (some 1060)).1.s = 271120 := by decide +kernel

/-! ## Nap scoring and exposure: hypotheses met, and the worked examples (spec/09_nap_and_exposure.md) -/

def pNap : Bytes := pxBytes 0 ++ [1, 0, 0, 0] ++ zeros 52
  ++ (List.replicate 4 (le 2 0 ++ le 2 0xFFF ++ le 2 0x700 ++ le 2 0xFFFF ++ le 2 0xFFFF ++ le 2 4 ++ zeros 4)).flatten ++ List.replicate 136 0x1B
def pStats : Bytes := pxBytes 0 ++ [1, 1, 1, 0] ++ le 4 0 ++ le 4 1000
def pRead : Bytes := [2, 0] ++ zeros 6 ++ List.replicate 8 0xFF
def stat1 : Stat := ⟨5, 1, 1, 1, 3, 0, 0, [[1, 2] ++ List.replicate 254 0]⟩
def counted : State := { tabled with dev := tabled.dev.modPipe 2 fun q => { q with kept := [stat1] } }
def pExpose : Bytes := List.replicate 8 0xFF ++ [1] ++ zeros 7 ++ [0, 2, 5, 0] ++ le 4 800 ++ le 2 1 ++ le 2 100 ++ zeros 4
def pAuto (on : Nat) : Bytes := [0, 1, 0, 1] ++ le 2 4 ++ le 2 512 ++ le 4 4000000 ++ le 4 6554 ++ le 2 0x200 ++ le 2 16 ++ le 4 100 ++ le 4 1400
  ++ le 4 65536 ++ [1, 1, 0, 0] ++ le 2 on ++ le 2 0x100 ++ zeros 28
def pAutoOff : Bytes := zeros 68

/-- Head 2 is attached and its trigger mode is LINE; group 0 is on. -/
def armed (started : Bool) : State := { tabled with
  dev := (tabled.dev.wrN (Reg.headTrig 2) (1 * 2 ^ 30)).setFlag Reg.posStat 31 started }
def loop0 : Loop := { on := true, params := pAuto 0, x := 800, lastId := 1, lead := 6 }
def looping : State :=
  let d := (armed true).dev
  { armed true with dev := { d with ful := { d.ful with loops := [loop0], batts := [{ num := 5, grid := ⟨0, 0, 256, 6, 0⟩, heads := [2], state := .closed }] } } }

theorem witness_NapAndStats : Begins tabled (rq 0 pNap) [.pipe 2] ∧ pxHead pNap = 2 ∧ pxCommit pNap = false ∧ pxReserved 1 pNap = true
    ∧ pNap.length = 272 ∧ zeroAt pNap 17 3 = true ∧ zeroAt pNap 70 2 = true ∧ (∀ m, m < 4 → zeroAt pNap (84 + 16 * m) 4 = true
        ∧ leAt pNap (72 + 16 * m) 2 < 2 ^ 12 ∧ leAt pNap (74 + 16 * m) 2 < 2 ^ 12 ∧ leAt pNap (76 + 16 * m) 2 < 2 ^ 12
        ∧ leAt pNap (82 + 16 * m) 2 < 2 ^ 12 ∧ bit (leAt pNap (82 + 16 * m) 2) 5 = false)
    ∧ pStats.length = 28 ∧ bits (leAt pStats 18 1) 1 7 = 0 ∧ leAt pStats 17 1 ≤ 8 ∧ leAt pStats 24 4 < 2 ^ 20
    ∧ Begins counted (rq 0 pRead) [] ∧ pRead.length = 16 ∧ leAt pRead 8 8 = noBatt ∧ (counted.dev.pipe 2).kept.head? = some stat1
    ∧ counted.dev.flag Reg.fltUrec 2 = false ∧ 0 < stat1.bins.length := by
  and_intros <;> first | decide +kernel | exact begins_ready .. | exact begins_of rfl rfl (by decide +kernel) (by decide +kernel) rfl rfl rfl | rfl

theorem witness_ExposureSet : Begins (armed false) (rq 0 pExpose) [.exposure] ∧ pExpose.length = 32 ∧ leAt pExpose 8 1 = 1 ∧ zeroAt pExpose 9 7 = true
    ∧ (armed false).dev.isFollower = false ∧ (armed false).dev.isLead = false ∧ expEntries pExpose = [⟨0, 2, ⟨800, 1, 100, 5⟩⟩]
    ∧ (armed false).dev.position = 0 ∧ (armed false).dev.groupSize = 1 ∧ (armed false).dev.portState 2 ≠ 0 ∧ (armed false).dev.mode 2 ≠ 0
    ∧ ((armed false).dev.gen 2).pending = [] ∧ ((armed false).dev.gen 2).setting.expid = 0 ∧ (armed false).dev.groupOfHead 2 = none
    ∧ (armed false).dev.lineStarted = false ∧ leAt pExpose 0 8 = noBatt := by
  and_intros <;> first | decide +kernel | exact begins_ready .. | exact begins_of rfl rfl (by decide +kernel) (by decide +kernel) rfl rfl rfl | rfl

theorem witness_ExposureAuto : Begins (armed true) (rq 0 (pAuto 0)) [.exposure] ∧ (pAuto 0).length = 68 ∧ leAt (pAuto 0) 1 1 = 1
    ∧ (armed true).dev.autoBad (pAuto 0) = false ∧ maskList 16 (leAt (pAuto 0) 4 2) = [2] ∧ (armed true).dev.lineStarted = true
    ∧ Begins looping (rq 0 pAutoOff) [.exposure] ∧ pAutoOff.length = 68 ∧ zeroAt pAutoOff 2 66 = true ∧ (looping.dev.ful.loops.getD 0 {}).on = true := by
  and_intros <;> first | decide +kernel | exact begins_ready .. | exact begins_of rfl rfl (by decide +kernel) (by decide +kernel) rfl rfl rfl | rfl

/-- 64 rows of two columns. -/
def napCard : Card := { (cardOf [] 0) with grid := ⟨0, 0, 256, 6, 0⟩, blocked := (List.range 64).map fun r => row0 r 0 0 [1000 + r, 2000] }
def scoring : State := { tabled with dev := (tabled.dev.modPipe 2 fun q => { q with cards := [napCard] }).wrN Reg.devLast 1023 }

theorem witness_TileRow : scoring.alive ∧ scoring.dev.stageOn 66 = true ∧ (scoring.dev.pipe 2).cards = [napCard] ∧ napCard.tileRows = 1 ∧ napCard.first 0 = 0
    ∧ napCard.inLine 0 = true ∧ (∀ x ∈ napCard.blocked, ∀ pl ∈ x.planes, ∀ y ∈ pl, y < 2 ^ 24) ∧ napCard.tiles = []
    ∧ (∀ j, j < 66 → j < napCard.height → ∃ x ∈ napCard.blocked, x.r = j)
    ∧ ∀ x ∈ { napCard with blocked := napCard.blocked.drop 1 }.blocked, x.r ≠ 0 := by
  and_intros <;> first | decide +kernel | rfl

/-- Batt 5 has no statistics, and then confirmed statistics of the last identifier. -/
def stat5 : Stat := ⟨5, 1, 1, 1, 60, 0, 0, [(List.range 256).map fun j => if j == 182 then 60 else 0]⟩
def loopingOn : State := { looping with dev := looping.dev.modPipe 2 fun q => { q with kept := [stat5] } }

theorem witness_LoopDecision : looping.alive ∧ looping.dev.safe = false ∧ loopingOn.dev.safe = false ∧ looping.dev.ful.loops.getD 0 {} = loop0 ∧ loop0.on = true ∧ looping.dev.pair1Off = false ∧ loopingOn.dev.pair1Off = false
    ∧ minOf ((looping.dev.ful.batts.filter fun x => x.recalled.isNone && x.state != .opened && decide (loop0.seen ≤ x.num)).map (·.num)) = some 5
    ∧ (looping.dev.pipe 2).kept = [] ∧ maskList 16 (leAt loop0.params 4 2) = [2]
    ∧ (loopingOn.dev.pipe 2).kept.find? (fun x => x.batt == 5) = some stat5 ∧ stat5.excl = 0 ∧ stat5.expid = loop0.lastId
    ∧ sumN (stat5.bins.getD 0 []) = 60 ∧ 60 * leAt loop0.params 6 2 ≤ 60 * 1024 ∧ loopingOn.dev.lineStarted = true
    ∧ loopingOn.dev.isLead = false ∧ loopingOn.dev.isFollower = false ∧ loopingOn.dev.fifth 2 11 = false := by
  and_intros <;> first | decide +kernel | rfl

/-- The conversions of the example's tile record. -/
theorem test_scores : pf12 1234504 1 = (0xD2D, false) ∧ pf12 20000 1 = (0x738, false) ∧ pf16 14000 1 = (0x2B58, false) := by decide +kernel

/-- The example's decision: factor 98,304, then 12 us. -/
theorem test_loop : repValue 1 1 182 = 737280 ∧ loop0.factorQ 1 1 (stat5.bins.getD 0 []) = some 98304 ∧ loop0.next 98304 = (0, 1200, 1200) := by
  decide +kernel

/-! ## Fulling: hypotheses met, and the worked examples (spec/10_fulling.md) -/

def fxBytes (commit : Nat) : Bytes := [BitVec.ofNat 8 commit] ++ zeros 7 ++ List.replicate 8 0xFF
def pSeam : Bytes := fxBytes 0 ++ [3, 1, 4, 5] ++ le 4 12160 ++ le 2 2 ++ zeros 2 ++ le 2 1024 ++ le 2 1016
def pNoSeam : Bytes := fxBytes 0 ++ [3] ++ zeros 11
def pLadder : Bytes := fxBytes 0 ++ [2, 1, 0, 0] ++ le 4 2 ++ le 4 (2 ^ 30 + 128 * 2 ^ 16 + 1) ++ zeros 24
def pLadderCommit : Bytes := fxBytes 1 ++ [1, 0, 0, 0] ++ le 4 2 ++ zeros 28
def pOutput : Bytes := fxBytes 0 ++ [2, 0, 0, 0] ++ List.replicate 4 16 ++ List.replicate 12 8 ++ zeros 16
def pBudget : Bytes := [1, 0, 0, 0] ++ le 4 1000 ++ le 2 30 ++ zeros 2
/-- The device has columns 0 to 32,767. -/
def fulling : State := on fun d => d.wrN Reg.devLast 32767

theorem witness_FullingCommands : Begins fulling (rq 0 pSeam) [.fulConfig] ∧ fulling.dev.stiffActive = false ∧ fulling.dev.fulBusy = false
    ∧ fxReserved pSeam = true ∧ fxCommit pSeam = false ∧ pSeam.length = 28 + 2 * leAt pSeam 24 2 ∧ fulling.dev.seamBad pSeam = false
    ∧ pNoSeam.length = 28 ∧ leAt pNoSeam 17 1 = 0 ∧ fulling.dev.seamBad pNoSeam = false
    ∧ pLadder.length = 52 ∧ leAt pLadder 16 1 = 2 ∧ rungBad 0 2 1 (leAt pLadder 20 4) = false ∧ rungBad 1 2 1 (leAt pLadder 24 4) = false
    ∧ zeroAt pLadder 28 24 = true ∧ fulling.dev.flag Reg.budgetCfg 31 = false ∧ (fulling.dev.liveView 1).outPlanes = 1
    ∧ pOutput.length = 52 ∧ leAt pOutput 16 1 = 2 ∧ (fulling.dev.liveView 1).rungs = 1 ∧ (fulling.dev.liveView 1).rungWord 0 = 0
    ∧ fxCommit pLadderCommit = true ∧ fulling.dev.fulLate (fxTarget pLadderCommit) = false ∧ pLadderCommit.length = 52
    ∧ zeroAt pLadderCommit 24 28 = true ∧ pBudget.length = 12 ∧ leAt pBudget 1 1 < fulling.dev.nrungs ∧ pBudget ≠ fulling.dev.budgetBytes := by
  and_intros <;> first | decide +kernel | exact begins_ready .. | exact begins_of rfl rfl (by decide +kernel) (by decide +kernel) rfl rfl rfl | rfl

/-- A closed batt of one tile column that waits for nothing, or for the neighbour on BAND_UP. -/
def closed5 : Batt := { num := 5, grid := ⟨0, 0, 0x800, 6, 0⟩, heads := [2], state := .closed, cropFirst := 0, cropLast := 63 }
def deciding (seam : Bool) : State := { fulling with dev :=
  let d := fulling.dev.wrN (Reg.seamCfg 0 0) (bif seam then 2 ^ 31 + 0x0220 else 0)
  { d with ful := { d.ful with batts := [closed5], nextOpen := 6, marks := [⟨0, 0, 0, 0⟩], inFlightSince := none } } }

theorem witness_Decision : (deciding false).dev.safe = false ∧ (deciding true).dev.safe = false ∧ (deciding false).dev.nextDecision = some closed5 ∧ (deciding false).dev.battKey closed5.key = some closed5
    ∧ (deciding false).dev.flag Reg.fulBank 30 = false ∧ (deciding false).dev.ful.cPrev ≤ 8 ∧ (deciding false).dev.cnf.retired = []
    ∧ ((deciding false).dev.fulSnapshot 0).rungs = 1 ∧ (deciding false).dev.rdN Reg.posRate = 0
    ∧ (deciding true).dev.ful.batts.find? (fun b => b.num == 5 && b.recalled.isNone) = some closed5
    ∧ (deciding true).dev.closesIn ((deciding true).dev.liveView ((deciding true).dev.fulBankFor 5)) 5 = false
    ∧ (deciding false).dev.closesIn ((deciding false).dev.liveView ((deciding false).dev.fulBankFor 5)) 5 = true := by
  and_intros <;> first | decide +kernel | rfl

def dec5 : Decision := ⟨0, [0], false, false, false, false, 8192, 8192, 0, 0, ⟨0, [], [], []⟩, []⟩
def decided5 (again : Bool) : Batt := { closed5 with decision := some dec5, again := again }
def fullable (b : Batt) : State := { fulling with dev :=
  { fulling.dev with ful := { fulling.dev.ful with batts := [b] }, hood := { fulling.dev.hood with lost := [(2, 5)] } } }
def inSlice : Batt := { closed5 with decision := some dec5, slice := some 3, owed := [1] }

theorem witness_Fulling : (fullable (decided5 false)).alive
    ∧ (fullable (decided5 false)).dev.ful.batts.find? (fun b => b.recalled.isNone && b.state == .closed && b.decision.isSome && b.slice.isNone)
        = some (decided5 false)
    ∧ (fullable (decided5 false)).dev.battKey (decided5 false).key = some (decided5 false) ∧ (fullable (decided5 false)).dev.idleSlice = some 0
    ∧ (fullable (decided5 false)).dev.devRec = false ∧ (fullable (decided5 false)).dev.safe = false
    ∧ dec5.flags.length = (outTiles (2 ^ closed5.grid.hlog) 0 63).length
    ∧ ((decided5 true).again && (fullable (decided5 true)).dev.notHooded (decided5 true)) = true
    ∧ (fullable inSlice).dev.ful.batts.find? (fun b => b.slice == some 3) = some inSlice
    ∧ (fullable inSlice).dev.flag Reg.fltUrec 19 = false ∧ (fullable inSlice).dev.recallVoid inSlice = false ∧ inSlice.owed ≠ []
    ∧ (fullable (decided5 false)).dev.localHeads (decided5 false) = [2] ∧ badWords [] [] = [] := by
  and_intros <;> first | decide +kernel | rfl

/-- The example's seam column: the blend and its PF12 code. -/
theorem test_seam_column : blendPx 768 [(1000000, false)] [(1040000, false)] = [(1010000, false)] ∧ toCode 1 1 1010000 = (0xBED, false) := by
  decide +kernel

/-- The example's block of a PF12 plane: its residuals, its parameter and its first bytes. -/
def codes1 : List Nat := [768, 770, 769, 769, 771, 772, 770, 770, 771, 773, 772, 771, 771, 772, 770, 769]
theorem test_rice : residuals 64 12 codes1 = [1536, 4, 1, 0, 4, 2, 3, 0, 2, 4, 1, 1, 0, 2, 3, 1]
    ∧ riceParam 12 (residuals 64 12 codes1) = 1 ∧ (riceBlocks 12 1 (residuals 64 12 codes1)).length = 73
    ∧ (bitBytes (riceBlocks 12 1 (residuals 64 12 codes1))).take 5 = [0xF1, 0xFF, 0x0F, 0x60, 0x23] := by decide +kernel

/-- The example's five batts: what the ladder chooses. -/
def sizes4 : List Nat := [63037440, 47636480, 24535040, 12984320]
theorem test_ladder : chooseRung sizes4 36864000 1 1 = (2, 2, false) ∧ chooseRung sizes4 47786666 2 2 = (1, 2, false)
    ∧ chooseRung sizes4 51200000 2 1 = (1, 1, false) ∧ chooseRung sizes4 10240000 1 1 = (4, 3, false) := by decide +kernel

/-! ## Hoods: hypotheses met (spec/11_hoods.md) -/

def pHoodAreas : Bytes := zeros 2 ++ le 2 3 ++ le 2 1 ++ zeros 2 ++ le 2 100 ++ le 2 200 ++ (List.replicate 14 (le 2 0)).flatten
  ++ le 2 256 ++ le 2 64 ++ le 2 16 ++ zeros 2
def pHoodPolicy : Bytes := [1, 0] ++ le 2 4 ++ zeros 44
def pMarkSet (m : Nat) : Bytes := [BitVec.ofNat 8 m, 1] ++ zeros 6 ++ le 8 5 ++ le 8 9
def pUnmark (m : Nat) : Bytes := [BitVec.ofNat 8 m, 0, 0, 0]
def pRecall : Bytes := [3, 0] ++ le 2 1 ++ [0] ++ zeros 3 ++ le 8 5 ++ le 8 5

theorem witness_HoodConfig : Begins ready (rq 0 pHoodAreas) [.hood 16] ∧ pHoodAreas.length = 48 ∧ zeroAt pHoodAreas 1 1 = true
    ∧ ready.dev.stiffActive = false ∧ leAt pHoodAreas 0 1 = 0 ∧ zeroAt pHoodAreas 6 2 = true ∧ zeroAt pHoodAreas 46 2 = true
    ∧ (∀ n, n < 16 → leAt pHoodAreas (8 + 2 * n) 2 ≤ 24544) ∧ 256 ≤ leAt pHoodAreas 40 2 ∧ leAt pHoodAreas 42 2 ≤ 4096 ∧ 1 ≤ leAt pHoodAreas 44 2
    ∧ leAt pHoodAreas 44 2 ≤ 256 ∧ ready.dev.lineStarted = false ∧ ready.dev.stagingInUse = false
    ∧ sumN ((List.range 16).map fun n => leAt pHoodAreas (8 + 2 * n) 2) + leAt pHoodAreas 42 2 + leAt pHoodAreas 40 2 + leAt pHoodAreas 44 2
        ≤ 24544 - ready.dev.goneUsable.eraseDups.length
    ∧ pHoodAreas ≠ ready.dev.partition ∧ pHoodPolicy.length = 48 ∧ leAt pHoodPolicy 0 1 = 1 ∧ zeroAt pHoodPolicy 4 42 = true
    ∧ bit (leAt pHoodPolicy 2 2) 2 ≠ ready.dev.flag (Reg.hoodCfg 2) 31 ∧ leAt pHoodAreas 40 2 ≤ 24544 := by
  and_intros <;> first | decide +kernel | exact begins_ready .. | exact begins_of rfl rfl (by decide +kernel) (by decide +kernel) rfl rfl rfl | rfl

/-- Mark 3 is live over batts 5 to 9; the line is placed by LIVE stream 0 and RECALL stream 1; batt 5 has its descriptor. -/
def fulled5 : Batt := { closed5 with state := .fulled, described := true }
def marking (batts : List Batt) (runs : List RecallRun) : State := { fulling with dev :=
  let d := ((fulling.dev.wrN (Reg.markStat 3) (2 ^ 30 + 2 ^ 29)).wr64 (Reg.markFirst 3) 5).wr64 (Reg.markLast 3) 9
  let d := d.wrN (Reg.strCfg 1) (2 ^ 31 + 2 ^ 30)
  { d with ful := { d.ful with batts := batts, recalls := runs } } }

theorem witness_Marks : Begins fulling (rq 0 (pMarkSet 3)) [.hood 16, .hood 3] ∧ (pMarkSet 3).length = 24 ∧ leAt (pMarkSet 3) 0 1 = 3 ∧ leAt (pMarkSet 3) 1 1 = 1
    ∧ zeroAt (pMarkSet 3) 2 6 = true ∧ leAt (pMarkSet 3) 8 8 = 5 ∧ leAt (pMarkSet 3) 16 8 = 9 ∧ fulling.dev.markState 3 = 0 ∧ fulling.dev.lostBatt 5 = false
    ∧ Begins (marking [] []) (rq 0 (pUnmark 3)) [.hood 16, .hood 3] ∧ (pUnmark 3).length = 4 ∧ zeroAt (pUnmark 3) 1 3 = true
    ∧ (marking [] []).dev.markState 3 = 1 ∧ (∀ n, n < 16 → (marking [] []).dev.flag Reg.hoodHeld n = false)
    ∧ Begins (marking [fulled5] []) (rq 0 pRecall) [.hood 16, .hood 3] ∧ pRecall.length = 24 ∧ leAt pRecall 0 1 = 3 ∧ leAt pRecall 1 1 = 0
    ∧ leAt pRecall 2 2 = 1 ∧ leAt pRecall 4 1 = 0 ∧ zeroAt pRecall 5 3 = true ∧ 0 < (marking [fulled5] []).dev.nrungs
    ∧ (marking [fulled5] []).dev.started 1 = true ∧ (marking [fulled5] []).dev.isRecall 1 = true ∧ (marking [fulled5] []).dev.markFirst 3 = 5
    ∧ (marking [fulled5] []).dev.markLast 3 = 9 ∧ (marking [fulled5] []).dev.liveBatt 5 = some fulled5 := by
  and_intros <;> first | decide +kernel | exact begins_ready .. | exact begins_of rfl rfl (by decide +kernel) (by decide +kernel) rfl rfl rfl | rfl

/-- Row 0 of batt 0 has its slot on page 0; other rows stand there, of a batt still to be fulled or of one that is RELEASED. -/
def rowCard : Card := { (cardOf [] 0) with grid := ⟨0, 0, 256, 6, 0⟩, blocked := [row0 0 9 0 [1000, 2000]], tiles := [⟨0, 0, [List.replicate 32 1]⟩] }
def hooding (slots : List SlotRec) (batts : List Batt) : State := { tabled with dev :=
  let d := tabled.dev.modPipe 2 fun q => { q with cards := [rowCard] }
  let d := (d.wrN (Reg.hoodNslot 2) 1000).wrN (Reg.hoodRowb 2) 4096
  { d with ful := { d.ful with batts := batts }, hood := { d.hood with slots := slots, laps := [⟨2, 0, 0, some 7, none⟩] } } }
def there : SlotRec := ⟨2, 4000, 4096, 1, 3, [7]⟩

theorem witness_CardWrite : (hooding [] []).alive ∧ (hooding [] []).dev.stageOn 82 = true ∧ ((hooding [] []).dev.pipe 2).cards = [rowCard] ∧ rowCard.late = []
    ∧ rowCard.toWrite 0 = some (row0 0 9 0 [1000, 2000], [List.replicate 32 1]) ∧ rowCard.battOf 0 = 0
    ∧ (hooding [] []).dev.rdN (Reg.hoodNslot 2) = 1000 ∧ (hooding [] []).dev.rdN (Reg.hoodRowb 2) = 4096 ∧ slotVPages 0 4096 = [0] ∧ (hooding [] []).dev.pipeRecov 2 = false
    ∧ ((hooding [] []).dev.viewOf 2 0).nplanes 2 = 1 ∧ ((hooding [] []).dev.viewOf 2 0).ncol 2 = 128
    ∧ 7 ∉ (hooding [] []).dev.hood.pagesOf 2 0 ∧ (hooding [] []).dev.ful.batts = []
    ∧ (hooding [there] [{ closed5 with num := 3 }]).dev.unfulled 3 = true ∧ there.off < 4096 ∧ 0 < there.off + there.len ∧ there.batt ≠ 0
    ∧ (hooding [] [{ closed5 with num := 0, grid := rowCard.grid }]).dev.ful.batts.any (fun y => y.num == 0 && y.state != .opened) = true := by
  and_intros <;> first | decide +kernel | rfl

/-- Recall batt 5 of RECALL 1, decided, on stream 1. -/
def recall5 : Batt := { closed5 with recalled := some (1, 0, false), decision := some dec5, owed := [1] }
def run5 : RecallRun := ⟨1, 3, 1, 0, false, [5], 0, 0, 0⟩
def recalling (lost : List (Nat × Nat)) (placed : List Placed) (acc : List Accepted) : State :=
  let d := (marking [recall5] [run5]).dev
  { fulling with dev := { d with
    hood := { d.hood with lost := lost },
    plc := { d.plc with streams := modAt d.plc.streams 1 fun q => { q with batts := placed } },
    accepted := acc } }
def place5 : Placed := { batt := (5, some 1) }

theorem witness_RecallBattStart : (recalling [] [place5] []).alive ∧ (recalling [] [place5] []).dev.ful.recalls[0]? = some run5
    ∧ (recalling [] [place5] []).dev.ful.batts.find? (fun b => b.recalled.any (·.1 == 1) && b.state == .closed && b.slice.isNone
        && ((recalling [] [place5] []).dev.str 1).batts.any fun p => p.batt == b.key && p.fail == 0) = some recall5
    ∧ (recalling [] [place5] []).dev.battKey recall5.key = some recall5 ∧ (recalling [] [place5] []).dev.idleSlice = some 0
    ∧ (recalling [] [place5] []).dev.devRec = false ∧ (recalling [] [place5] []).dev.safe = false
    ∧ dec5.need ≤ (recalling [] [place5] []).dev.stagingFree ∧ (recalling [] [place5] []).dev.markState 3 = 1
    ∧ (recalling [] [place5] []).dev.notHooded recall5 = false ∧ (recalling [(2, 5)] [place5] []).dev.notHooded recall5 = true := by
  and_intros <;> first | decide +kernel | rfl

def owedRecall : Accepted := ⟨0x0A03, rq 0 pRecall, [.hood 3], [1]⟩

theorem witness_RecallDone : (recalling [] [] [owedRecall]).dev.owedArgs 0x0A03 (fun a => a == [1]) = some owedRecall
    ∧ (∀ p ∈ ((recalling [] [] [owedRecall]).dev.str 1).batts, p.batt.2 ≠ some 1)
    ∧ ((recalling [] [place5] []).dev.str 1).batts.any (fun p => p.batt.2 == some 1) = true := by
  and_intros <;> first | decide +kernel | rfl

/-- Page 7 holds row 0 of lap 0 only, has been passed, and its batt, 6, is FULLED. -/
def sealing : State := { fulling with dev :=
  let d := ((marking [{ fulled5 with num := 6 }] []).dev.wr64 (Reg.hoodWptr 2) 5000).wrN (Reg.hoodNslot 2) 1000
  let d := d.wrN (Reg.hoodRowb 2) 4096
  { d with hood := { d.hood with slots := [⟨2, 0, 4096, 0, 6, [7]⟩], laps := [⟨2, 0, 0, some 7, none⟩] } } }

theorem witness_PageSeal : sealing.alive ∧ sealing.dev.settled 7 = true ∧ sealing.dev.sealable 7 = true ∧ 7 ∉ sealing.dev.hood.sealed
    ∧ sealing.dev.scan.running = none ∧ sealing.dev.scan.waiting = [] ∧ sealing.dev.hood.soiled = [] ∧ sealing.dev.settled 8 = false := by
  and_intros <;> first | decide +kernel | rfl

/-! ## Placement: hypotheses met (spec/12_placement.md) -/

def pUplink (en : Nat) : Bytes := [0, 1, BitVec.ofNat 8 en, 4] ++ le 2 0 ++ le 6 0x123456 ++ zeros 4 ++ [10, 0, 0, 1] ++ zeros 12 ++ zeros 8
def pQp : Bytes := [4, 0, 1, 0] ++ le 4 0x77 ++ le 4 0x1000 ++ [14, 7, 6, 0] ++ le 6 1 ++ le 2 0 ++ [10, 0, 0, 2] ++ zeros 12 ++ [10, 0, 0, 1] ++ zeros 12
  ++ le 4 10000 ++ zeros 4
def pQpGone : Bytes := [4, 0, 0, 0]
def pRegion : Bytes := [4, 1, 0, 0] ++ le 4 0xABCD ++ le 8 0x100000 ++ le 8 0x100000
def pRevoke : Bytes := le 4 0
def pRings : Bytes := [0, 0] ++ le 2 16 ++ le 4 65536 ++ le 4 0 ++ le 4 16 ++ le 8 0 ++ le 4 0 ++ le 4 16 ++ le 8 4096 ++ le 4 8192 ++ le 4 2
def pPost : Bytes := [0, 0] ++ le 2 1 ++ zeros 4 ++ le 4 0 ++ le 4 65536 ++ le 8 0x10000
def pStrStart : Bytes := [0, 0, 4, 5] ++ zeros 4
def pStrStop (when_ last : Nat) : Bytes := [0, BitVec.ofNat 8 when_] ++ zeros 6 ++ le 8 last
def pAbort : Bytes := [0, 0] ++ le 2 1 ++ zeros 4 ++ le 4 7

/-- Uplink port 0 is enabled; queue pairs 4 and 5 are READY; region 0 is live. -/
def linked : State := { fulling with dev :=
  let d := ((fulling.dev.wrN Reg.umacCfg (2 ^ 16)).wrN (Reg.qpStat 4) (2 ^ 30 + 5)).wrN (Reg.qpStat 5) (2 ^ 30)
  let d := ((d.wrN (Reg.qpRate 4) 10000).wrN (Reg.qpRmax 4) 98125).wrN Reg.plantAddr 0x123
  { d with plc := { d.plc with regions := modAt d.plc.regions 0 fun _ => ⟨0, true, 4, 1, 0xABCD, 0x100000, 0x100000⟩ } } }
def rings0 : Binding := { bufSlots := 16, descRegion := 0, descSlots := 16, descOff := 0, cmpRegion := 0, cmpSlots := 16, cmpOff := 4096, consOff := 8192, bufLow := 2 }
def buf0 : Buf := ⟨0, 0, 65536, 0x10000⟩
/-- Stream 0 has its rings, and is started on queue pair 4 with standby 5 or not. -/
def streamed (started : Bool) (f : Stream → Stream) : State := { linked with dev :=
  let d := linked.dev.wrN (Reg.strCfg 0) (bif started then 2 ^ 31 + 4 * 2 ^ 24 + 2 ^ 23 + 5 * 2 ^ 16 + 0xF0 else 0xF0)
  { d with plc := { d.plc with streams := modAt d.plc.streams 0 fun t => f { t with bind := some rings0 } } } }

theorem witness_Uplink : Begins ready (rq 0 (pUplink 3)) [.uplink] ∧ (pUplink 3).length = 40 ∧ leAt (pUplink 3) 1 1 = 1 ∧ leAt (pUplink 3) 2 1 < 2 ^ 2 ^ 1
    ∧ leAt (pUplink 3) 3 1 < 8 ∧ zeroAt (pUplink 3) 13 3 = true ∧ zeroAt (pUplink 3) 20 12 = true ∧ zeroAt (pUplink 3) 32 8 = true
    ∧ (∀ q, q < 64 → ready.dev.qpState q = 0) ∧ ready.dev.anyStream = false ∧ ready.dev.stiffActive = false
    ∧ ready.dev.domainOn 104 = false ∧ (pUplink 0).length = 40
    ∧ (∀ j ∈ (List.range 8).map (104 + ·) ++ [135], ready.dev.domainOn j = false) := by
  and_intros <;> first | decide +kernel | exact begins_ready .. | exact begins_of rfl rfl (by decide +kernel) (by decide +kernel) rfl rfl rfl | rfl

/-- The queue pair is FREE. -/
def unpaired : State := { linked with dev := linked.dev.wrN (Reg.qpStat 4) 0 }
/-- No region is live. -/
def bare : State := { linked with dev := { linked.dev with plc := { linked.dev.plc with regions := List.replicate 1024 {} } } }
def crowded : State := { linked with dev := { linked.dev with plc := { linked.dev.plc with regions := List.replicate 1024 ⟨0, true, 5, 1, 0, 0, 4096⟩ } } }

theorem witness_QueuePair : Begins unpaired (rq 0 pQp) [.qp 4] ∧ pQp.length = 64 ∧ leAt pQp 0 1 = 4 ∧ leAt pQp 4 4 < 2 ^ 24 ∧ zeroAt pQp 11 1 = true
    ∧ leAt pQp 12 1 = 14 ∧ bits (leAt pQp 22 2) 12 1 = 0 ∧ zeroAt pQp 60 4 = true ∧ bit (unpaired.dev.fld Reg.umacCfg 16 8) (leAt pQp 1 1) = true
    ∧ leAt pQp 56 4 = 10000 ∧ unpaired.dev.qpState 4 = 0 ∧ unpaired.dev.stiffActive = false
    ∧ Begins bare (rq 0 pQpGone) [.qp 4] ∧ bare.dev.qpState 4 = 1 ∧ (∀ st, st < 8 → bare.dev.started st = false)
    ∧ (∀ g ∈ bare.dev.plc.regions, g.live = false)
    ∧ Begins bare (rq 0 pRegion) [.qp 4] ∧ pRegion.length = 24 ∧ leAt pRegion 8 8 % 4096 = 0 ∧ leAt pRegion 16 8 % 4096 = 0 ∧ 4096 ≤ leAt pRegion 16 8
    ∧ (bare.dev.plc.regions.getD 0 {}).live = false ∧ (linked.dev.plc.regions.getD 0 {}).live = true ∧ (linked.dev.plc.regions.getD 1 {}).live = false
    ∧ crowded.dev.plc.regions = List.replicate 1024 ⟨0, true, 5, 1, 0, 0, 4096⟩ ∧ crowded.dev.qpState 4 = 1 := by
  and_intros <;> first | decide +kernel | exact begins_ready .. | exact begins_of rfl rfl (by decide +kernel) (by decide +kernel) rfl rfl rfl | rfl

def owedLink : Accepted := ⟨0x0B01, rq 0 (pUplink 1), [.uplink], []⟩
def linking : State := { linked with dev := { linked.dev with accepted := [owedLink] } }

theorem witness_Links : linking.dev.owed 0x0B01 = some owedLink ∧ linking.dev.fld Reg.umacCfg 16 8 = 1 ∧ linking.dev.uplinkPorts = 1
    ∧ linking.dev.flag Reg.umacCfg 2 = false ∧ linking.dev.safe = false ∧ (List.replicate 16 (0 : Byte)).length = 16 := by
  and_intros <;> first | decide +kernel | rfl

theorem witness_StreamCommands : Begins linked (rq 0 pRings) [.stream 0, .region 0, .region 0] ∧ Begins linked (rq 0 pRings) [.stream 0] ∧ pRings.length = 48 ∧ leAt pRings 2 2 = 2 ^ 4 ∧ leAt pRings 4 4 = 65536
    ∧ leAt pRings 12 4 = 2 ^ 4 ∧ leAt pRings 28 4 = 2 ^ 4 ∧ leAt pRings 32 8 = 4096 ∧ leAt pRings 40 4 = 8192 ∧ linked.dev.regionLive 0 = true
    ∧ linked.dev.regionLen 0 = 0x100000 ∧ linked.dev.started 0 = false
    ∧ Begins (streamed false id) (rq 0 pPost) [.stream 0, .region 0] ∧ pPost.length = 24 ∧ leAt pPost 2 2 = 1 ∧ leAt pPost 12 4 = 65536 ∧ leAt pPost 16 8 = 0x10000
    ∧ linked.dev.region? 0 = some ⟨0, true, 4, 1, 0xABCD, 0x100000, 0x100000⟩
    ∧ Begins (streamed false id) (rq 0 pStrStart) [.stream 0, .qp 4, .qp 5] ∧ (streamed true id).dev.stiffActive = false ∧ pStrStart.length = 8 ∧ (streamed false id).dev.qpState 4 = 1
    ∧ (streamed false id).dev.fld Reg.plantAddr 0 18 = 0x123 ∧ ((streamed false id).dev.str 0).bind = some rings0
    ∧ Begins (streamed true id) (rq 0 (pStrStop 1 8)) [.stream 0] ∧ (pStrStop 1 8).length = 16 ∧ leAt (pStrStop 1 8) 8 8 = 8 ∧ (streamed true id).dev.started 0 = true
    ∧ (streamed true id).dev.undecided = 0 ∧ (streamed true id).dev.isRecall 0 = false ∧ (streamed true id).dev.ful.batts = []
    ∧ Begins linked (rq 0 pRevoke) [.region 0] ∧ pRevoke.length = 4 ∧ linked.dev.plc.streams.length = 8
    ∧ (streamed false id).dev.behind 0x0B08 (rq 0 pAbort) = false := by
  and_intros <;> first | decide +kernel | exact begins_ready .. | exact begins_of rfl rfl (by decide +kernel) (by decide +kernel) rfl rfl rfl | rfl

/-- Batt 5 is FULLED: one tile of 16 bytes. -/
def dec16 : Decision := { dec5 with size := 32 }
def image5 : Batt := { closed5 with state := .fulled, data := List.replicate 16 7, index := zeros 16, edge := zeros 64, owed := [0], decision := some dec16 }
def on0 : Placed := { batt := (5, none) }
def cut0 : Placed := { batt := (5, none), buf := some buf0, cut := true, total := 3, todo := [0, 1, 2] }
def issue0 : Issue := ⟨7, 0, (5, none), 0, 4, 0, 16, 1⟩
def wqe0 : Wqe := { kind := .parcel 0 7, region := 0, off := 0x10000, len := 16, bytes := List.replicate 16 7, fold := some 5 }
def placing (f : Stream → Stream) (sq : List Wqe) (acc : List Accepted) : State := { linked with dev :=
  let d := (streamed true f).dev.modQp 4 fun q => { q with sq := sq, retry := 7, tokens := 8192 * 300 }
  { d with accepted := acc, ful := { d.ful with batts := [image5] } } }
def flying (sent : Bool) : State :=
  placing (fun t => { t with batts := [{ cut0 with todo := [1, 2] }], issues := [issue0] }) [{ wqe0 with psn := bif sent then some 5 else none, sent := b2n sent }] []

theorem witness_Parcels : (placing (fun t => { t with batts := [on0], bufs := [buf0] }) [] []).alive ∧ (placing (fun t => { t with batts := [on0], bufs := [buf0] }) [] []).dev.safe = false
    ∧ ((placing (fun t => { t with batts := [on0], bufs := [buf0] }) [] []).dev.str 0).batts.find? (fun p => p.buf.isNone && p.fail == 0) = some on0
    ∧ (placing (fun t => { t with batts := [on0] }) [] []).dev.battKey (5, none) = some image5 ∧ image5.decision = some dec16
    ∧ ((placing (fun t => { t with batts := [cut0] }) [] []).dev.str 0).batts = [cut0] ∧ cut0.todo = 0 :: [1, 2] ∧ cut0.re = []
    ∧ (placing (fun t => { t with batts := [cut0] }) [] []).dev.qpReady 4 = true ∧ (placing (fun t => { t with batts := [cut0] }) [] []).dev.curQp 0 = 4
    ∧ (placing (fun t => { t with batts := [cut0] }) [] []).dev.slotsUsed = [] ∧ (placing (fun t => { t with batts := [cut0] }) [] []).dev.bytesInFlight = 0
    ∧ (placing (fun t => { t with batts := [cut0] }) [] []).dev.regionLive buf0.region = true
    ∧ (placing (fun t => { t with batts := [{ cut0 with re := [0], todo := [1, 2] }] }) [] []).dev.started 0 = true
    ∧ (flying false).dev.canSend 4 = true ∧ (∀ x, x < 64 → x % 2 = 0 → x ≠ 4 → (flying false).dev.canSend x = false)
    ∧ ((flying false).dev.qp 4).sq = [{ wqe0 with psn := none, sent := 0 }] ∧ wqe0.packets = 1 ∧ (∀ x, x < 64 → linked.dev.canSend x = false)
    ∧ ((flying false).dev.str 0).issues.find? (fun i => i.pid == 7) = some issue0 := by
  and_intros <;> first | decide +kernel | rfl

theorem witness_Answers : (flying true).dev.qpState 4 = 1 ∧ (flying true).dev.safe = false ∧ ((flying true).dev.qp 4).sq = [{ wqe0 with psn := some 5, sent := 1 }]
    ∧ (5 + 2 ^ 24 - (5 + wqe0.psns - 1) % 2 ^ 24) % 2 ^ 24 < 2 ^ 23 ∧ ((flying true).dev.qp 4).rnrs = 0 ∧ ((flying true).dev.qp 4).tries = 0
    ∧ ((flying true).dev.qp 4).una < 2 ^ 24 ∧ unpaired.dev.qpState 4 ≠ 1 ∧ ((flying true).dev.qp 4).cnpAt = none ∧ ((flying true).dev.qp 4).tCut = none
    ∧ (flying true).dev.flag Reg.ccCfg0 31 = true ∧ (flying true).dev.fld (Reg.qpRate 4) 0 17 = 10000 ∧ (flying true).dev.fld (Reg.strCfg 0) 16 6 = 5
    ∧ (flying true).dev.flag (Reg.strCfg 0) 23 = true ∧ (flying true).dev.qpReady 5 = true
    ∧ ((placing id [{ kind := .streamCounts 0, region := 0, off := 8192, len := 8, bytes := [], psn := some 5, sent := 1 }] []).dev.qp 4).sq.any
        (fun w => w.isRead && decide (0 < w.sent)) = true := by
  and_intros <;> first | decide +kernel | rfl

def item0 (cause : Nat) : CmpItem := { issue := some issue0, batt := (5, none), cause := cause, bytes := (flying true).dev.recordBytes 0 issue0 cause 0 }
def completing (cause : Nat) : State := placing (fun t => { t with batts := [{ cut0 with todo := [1, 2] }], cmp := [item0 cause] }) [] []
def publishing : State := placing (fun t => { t with batts := [{ cut0 with todo := [], done := [0, 1, 2], placed := true }] }) [] []

theorem witness_Records : ((completing 0).dev.str 0).cmp = [item0 0] ∧ (completing 0).dev.qpReady ((completing 0).dev.curQp 0) = true
    ∧ ((completing 0).dev.str 0).bind = some rings0 ∧ (completing 0).dev.devRec = false ∧ (completing 0).dev.safe = false
    ∧ ((completing 4).dev.str 0).batts.find? (fun p => p.batt == issue0.batt) = some { cut0 with todo := [1, 2] } ∧ ((completing 4).dev.str 0).issues = []
    ∧ issue0.idx ∉ [1, 2] ∧ (completing 6).dev.battKey issue0.batt = some image5 ∧ (completing 6).dev.notHooded image5 = false ∧ image5.tiles ≠ 0
    ∧ (publishing.dev.str 0).batts = [{ cut0 with todo := [], done := [0, 1, 2], placed := true }] ∧ image5.key = (5, none)
    ∧ publishing.dev.cnf.retired = [] ∧ publishing.dev.flag (Reg.strCfg 0) 9 = false ∧ image5.owed.erase 0 = [] ∧ image5.slice = none
    ∧ (completing 0).dev.regionLive rings0.cmpRegion = true ∧ publishing.dev.cmpLoad = 0 ∧ (publishing.dev.qp 4).sq = []
    ∧ badWords (item0 0).bytes [] = [] ∧ badWords (item0 0).bytes [(1, 0)] = [1] ∧ badWords (item0 0).bytes [(0, 3), (4, 32)] = [0, 4] := by
  and_intros <;> first | decide +kernel | rfl

def fence0 : Fence := ⟨0, 1, 0⟩
def fenced : State := { linked with dev := { linked.dev with
  plc := { linked.dev.plc with fences := [fence0] }, accepted := [⟨0x0B05, rq 0 pRevoke, [.region 0], [0, 0]⟩] } }
def owedStop : Accepted := ⟨0x0B0A, rq 0 (pStrStop 1 8), [.stream 0], [0, 8]⟩
def stopping0 : State := { streamed true (fun t => { t with stop := some 8 }) with
  dev := let d := (streamed true fun t => { t with stop := some 8 }).dev
    { d with ful := { d.ful with nextOpen := 9 }, accepted := [owedStop] } }

theorem witness_StreamEnds : fenced.dev.plc.fences = [fence0] ∧ fenced.dev.running = [] ∧ (∀ t ∈ fenced.dev.plc.streams, t.issues = [])
    ∧ (∀ q ∈ fenced.dev.plc.qps, q.sq = [])
    ∧ fenced.dev.owedArgs 0x0B05 (fun a => a.getD 0 0 == 0) = some ⟨0x0B05, rq 0 pRevoke, [.region 0], [0, 0]⟩
    ∧ (stopping0.dev.str 0).stop = some 8 ∧ stopping0.dev.started 0 = true ∧ (stopping0.dev.str 0).batts = [] ∧ (stopping0.dev.str 0).cmp = []
    ∧ 8 < stopping0.dev.undecided ∧ stopping0.dev.owedArgs 0x0B0A (fun a => a == [0, 8]) = some owedStop := by
  and_intros <;> first | decide +kernel | rfl

/-- The example's fold word and image offsets. -/
theorem test_image : le 8 (parcelFold 7200 43) = [0x20, 0x1C, 0, 0, 0, 0, 0x2B, 0] ∧ (⟨10485760, 7680, 0, 8, 0⟩ : Layout).idxOff = 10485760
    ∧ (⟨10485760, 7680, 0, 8, 0⟩ : Layout).attOff = 10608640 ∧ (⟨10485760, 7680, 0, 8, 0⟩ : Layout).edgeOff = 10608704
    ∧ (⟨10485760, 7680, 0, 8, 0⟩ : Layout).imgLen = 10608768 ∧ ((⟨10485760, 7680, 0, 8, 0⟩ : Layout).parcels 65536).length = 163 := by
  and_intros <;> first | decide +kernel | rfl

/-! ## The band and the timebase: hypotheses met, and the worked example (spec/13_band_and_timebase.md) -/

def pBand (f max : Nat) : Bytes := [BitVec.ofNat 8 f, 0] ++ le 2 max ++ le 4 0 ++ le 4 0
def pRole (n : Nat) : Bytes := [BitVec.ofNat 8 n, 0, 0, 0]
def pTime (src : Nat) : Bytes := [BitVec.ofNat 8 src, 0, 5, 3, 0, 0, 0, 0]

/-- A group of a role (1 LEAD, 2 FOLLOWER): BAND_UP is UP and enabled, and is a follower's source. -/
def banded (role : Nat) (f : Dev → Dev) : State := 
  let d := (fulling.dev.wrN Reg.bandCfg (role * 2 ^ 30 + 2 ^ 28 + 1000)).wrN (Reg.bandpStat 0) (3 * 2 ^ 29)
  { fulling with dev := f (bif role == 2 then d.wrN Reg.bandStat (1 * 2 ^ 30 + 2 * 2 ^ 24) else d) }
def objs13 : List Obj := [.bandPort 0, .bandPort 1, .timebase]

theorem witness_BandCommands : Begins (banded 2 id) (rq 0 (pBand 1 500)) objs13 ∧ (pBand 1 500).length = 12 ∧ leAt (pBand 1 500) 0 1 = 1 ∧ zeroAt (pBand 1 500) 1 1 = true
    ∧ leAt (pBand 1 500) 2 2 = 500 ∧ signed 32 (leAt (pBand 1 500) 4 4) = 0 ∧ (banded 2 id).dev.fld Reg.bandCfg 30 2 = 2
    ∧ (banded 2 id).dev.rdN Reg.bandCfg = 2 * 2 ^ 30 + 2 ^ 28 + 1000 ∧ (banded 2 id).dev.flag Reg.bandCfg 28 = true
    ∧ (banded 2 id).dev.rdN (Reg.bandpTrim 0) = 0 ∧ (banded 2 id).dev.domainOn 113 = false
    ∧ (banded 2 id).dev.lineStarted = false ∧ (banded 2 id).dev.stiffActive = false ∧ (banded 2 fun d => d.setFlag Reg.posStat 31 true).dev.lineStarted = true
    ∧ (pRole 1).length = 4 ∧ leAt (pRole 1) 0 1 = 1 ∧ zeroAt (pRole 1) 1 3 = true ∧ (banded 2 id).dev.master = none
    ∧ (pTime 1).length = 8 ∧ zeroAt (pTime 1) 4 4 = true ∧ leAt (pTime 1) 3 1 = 3 ∧ leAt (pTime 1) 2 1 = 5 ∧ (banded 2 id).dev.rdN Reg.tbCfg = 0x300 := by
  and_intros <;> first | decide +kernel | exact begins_ready .. | exact begins_of rfl rfl (by decide +kernel) (by decide +kernel) rfl rfl rfl | rfl

/-- A message in order on BAND_UP, or one that did not come out valid. -/
def msg0 (how : Fin 3) (lseq : Nat) : BandMsg := ⟨0, 1, BitVec.ofNat 16 lseq, how, []⟩
def expired : State := banded 2 fun d => d.setFld Reg.bandStat 0 11 1024
def unlocked2 : State := banded 2 fun d => { (d.setFlag Reg.posStat 27 true).setFlag Reg.posStat 31 true with band := { d.band with ownUnlocked := true, ownExtrap := true } }
def probing (up : Bool) : State := banded 2 fun d0 =>
  let d := (bif up then d0 else d0.wrN (Reg.bandpStat 0) (2 * 2 ^ 29))
  { d with band := { d.band with ports := modAt d.band.ports 0 fun b => { b with sentT1 := [100], rollSeen := true, meas := bif up then [4] else List.replicate 63 4 } } }

theorem witness_Position : ((banded 2 id).dev.advance 0).bandValid (msg0 0 0) false ∧ ((banded 2 id).dev.advance 0).isFollower = true
    ∧ ((banded 2 id).dev.advance 0).bstate 0 = 3 ∧ ((banded 2 id).dev.advance 0).source = some 0 ∧ ((banded 2 id).dev.advance 0).band.holding = false
    ∧ ((unlocked2).dev.advance 0).band.run + 1 < 1024 ∧ ((unlocked2).dev.advance 0).band.ownExtrap = true
    ∧ (banded 2 id).dev.bandRuns 0 = true ∧ (banded 2 id).dev.bandRuns 1 = false
    ∧ expired.dev.source = some 0 ∧ expired.dev.isFollower = true ∧ expired.dev.fld Reg.bandStat 0 11 = 1024 ∧ expired.dev.band.ownUnlocked = false
    ∧ unlocked2.dev.unlocked = true ∧ unlocked2.dev.lineStarted = true ∧ ready.dev.isFollower = false
    ∧ (probing true).dev.bandValid (msg0 0 0) false ∧ ((probing true).dev.bport 0).sentT1 = [100] ∧ (110 : Int) - 104 ≤ 120 - 100
    ∧ (probing false).dev.bstate 0 = 2 ∧ ((probing false).dev.bport 0).meas.length + 1 = 64 ∧ ((probing false).dev.bport 0).measured = false
    ∧ (probing true).dev.bstate 0 = 3 ∧ ((probing true).dev.bport 0).meas = [4] := by
  unfold Dev.bandValid
  and_intros <;> first | decide +kernel | rfl

def sent1 (n : Nat) : BandSent := ⟨4, 4, 0, [1], n⟩
def resending (n : Nat) : State := banded 1 fun d => { d with band := { d.band with ports := modAt d.band.ports 0 fun b => { b with unacked := [sent1 n] } } }
def training2 (ok : Bool) : State := banded (bif ok then 2 else 1) fun d => d.wrN (Reg.bandpStat 0) (2 * 2 ^ 29)

theorem witness_Messages : (banded 2 id).dev.bandValid (msg0 0 0) true ∧ (banded 2 id).dev.isFollower = true ∧ (banded 1 id).dev.bandValid (msg0 0 0) true
    ∧ (banded 1 id).dev.isLead = true ∧ (banded 2 id).dev.flag Reg.bandCfg 29 = false ∧ (msg0 0 3).lseq.toNat ≠ ((banded 2 id).dev.bport 0).rxSeq
    ∧ (banded 2 id).dev.pos.gen = 0 ∧ (banded 2 id).dev.band.stops = [] ∧ (banded 1 id).dev.settleStop.bstate 0 = 3 ∧ (banded 1 id).dev.settleStop.bstate 1 ≠ 3 ∧ (banded 1 id).dev.settleStop.safe = false
    ∧ (resending 1).dev.bandRuns 0 = true ∧ ((resending 1).dev.bport 0).unacked.find? (fun x => x.lseq == (4 : BitVec 16).toNat) = some (sent1 1)
    ∧ ((resending 16).dev.bport 0).unacked.find? (fun x => x.lseq == (4 : BitVec 16).toNat) = some (sent1 16) ∧ (resending 16).dev.isFollower = false
    ∧ (training2 true).dev.bstate 0 = 2 ∧ (training2 true).dev.isFollower = true ∧ (training2 false).dev.isLead = true ∧ (training2 false).dev.safe = false
    ∧ ((training2 false).dev.bport 0).synced = false ∧ ((training2 false).dev.bport 0).roleLost = false := by
  unfold Dev.bandValid
  and_intros <;> first | decide +kernel | rfl

/-- Batt 5 covers columns of the neighbour on BAND_UP, and its rows of no card are ready. -/
def seaming : State := banded 1 fun d => { d with
  ful := { d.ful with batts := [{ closed5 with heads := [2] }] },
  pipes := modAt d.pipes 2 fun q => { q with width := some 128 },
  band := { d.band with ports := modAt d.band.ports 0 fun b => { b with nbrFirst := 0, nbrLast := 200 } } }

theorem witness_Seam : (seaming.dev.ful.batts.filter fun b => b.recalled.isNone).find? (fun b => !seaming.dev.seamDone 0 b) = some { closed5 with heads := [2] }
    ∧ (seaming.dev.seamCols 0 { closed5 with heads := [2] }).isSome = true ∧ seaming.dev.bstate 0 = 3 ∧ seaming.dev.safe = false
    ∧ seaming.dev.seamReady { closed5 with heads := [2] } ((seaming.dev.seamCols 0 { closed5 with heads := [2] }).getD (0, 0)) 0 = true
    ∧ seaming.dev.seamSent 0 5 + 1 < 2 ^ closed5.grid.hlog := by
  and_intros <;> first | decide +kernel | rfl

def ptp0 : Ptp := { port := 0, domain := 5, transport := 0, master := 77 }
def announce0 : Announce := ⟨128, 6, 0x21, 100, 128, 77, 1⟩
def slaved (st : Nat) (f : Timebase → Timebase) : State := on fun d =>
  { ((d.wrN Reg.tbCfg (2 ^ 30 + 5 * 2 ^ 16 + 0x300)).wrN Reg.tbStat (st * 2 ^ 30)).wr64 Reg.tbMaster 77 with tb := f d.tb }

theorem witness_PlantTime : (slaved 0 id).dev.fld Reg.tbCfg 30 2 = 1 ∧ (slaved 0 id).dev.fld Reg.tbCfg 16 8 = ptp0.domain.toNat
    ∧ (slaved 0 id).dev.plc.mgmtPort = ptp0.port.val ∧ announce0.steps.toNat < 255 ∧ (slaved 0 id).dev.tb.rank = none
    ∧ ((slaved 1 id).dev.advance 0).tbState = 1 ∧ ((slaved 1 id).dev.advance 0).rd64 Reg.tbMaster = ptp0.master.toNat
    ∧ ((slaved 1 fun t => { t with stepped := true }).dev.advance 0).tb.stepped = true ∧ ((slaved 2 id).dev.advance 0).tbState = 2
    ∧ (slaved 1 id).dev.fromMaster ptp0 = true ∧ (slaved 1 fun t => { t with twoStep := some (9, 8) }).dev.tb.twoStep = some (9, 8)
    ∧ (slaved 1 fun t => { t with lastSync := some (1, 2), delayReq := some 3 }).dev.tb.delayReq = some 3 := by
  and_intros <;> first | decide +kernel | rfl

/-- The example's hop delay and what D1 holds when the message arrives: 8/64 tick after 115 ns. -/
theorem test_hop : ((350 * 256 - 120 * 256) / 2 : Int) = 115 * 256 ∧ floorDiv (64 * 78643 * (3 * (115 * 256))) (65536 * 768000) = 8
    ∧ floorDiv (64 * 78643 * (3 * (225 * 256 + 128))) (65536 * 768000) = 17 := by decide +kernel

/-! ## Faults: hypotheses met, and the worked example (spec/15_faults_and_recovery.md) -/

def pFault : Bytes := [1, 1, 0, 0, 0x43, 2, 3, 0]
def pQuiet : Bytes := le 2 50 ++ le 2 200 ++ [3, 0] ++ le 2 60
def pLog : Bytes := le 4 0xFFFFFFFF ++ [42, 0, 0, 0]

theorem witness_FaultCommands : Begins ready (rq 0 pFault) [.faultConfig] ∧ pFault.length = 4 + 4 * leAt pFault 1 1 ∧ leAt pFault 0 1 ≤ 3
    ∧ FaultSource.reserved 0x43 = false ∧ ready.dev.flag (Reg.fltClass 0x43) 26 = true ∧ ready.dev.fld Reg.fltCfg 28 2 ≠ 1 ∧ ready.dev.stiffActive = false
    ∧ leAt [1, 0, 0, 0] 0 1 < 2 ∧ pLog.length = 8 ∧ leAt pLog 4 1 = 42 ∧ ready.dev.flt.log.length ≤ 1024
    ∧ 2 ^ 31 ≤ (BitVec.ofNat 32 0x90000000 - (ready.dev.flt.logNext - BitVec.ofNat 32 0)).toNat
    ∧ (BitVec.ofNat 32 5 - (ready.dev.flt.logNext - BitVec.ofNat 32 0)).toNat = 5
    ∧ pQuiet.length = 8 ∧ leAt pQuiet 0 2 = 50 ∧ leAt pQuiet 2 2 = 200 ∧ leAt pQuiet 4 1 = 3 ∧ leAt pQuiet 6 2 = 60 ∧ zeroAt pQuiet 5 1 = true := by
  and_intros <;> first | decide +kernel | exact begins_ready .. | exact begins_of rfl rfl (by decide +kernel) (by decide +kernel) rfl rfl rfl | rfl

/-- Slice 3 has had n recoveries; the settings are the defaults. -/
def sliced (n : Nat) (c : Nat) : State := on fun d =>
  let e := d.wrN (Reg.fltClass 0x43) (0x0E000010 + c)
  { e with flt := { e.flt with counted := List.replicate n (⟨2, 3⟩, 0) } }
def recovering (u : FUnit) (c : Nat) (live : Bool) : State := on fun d =>
  let e := (d.setFlag (Reg.fltLive 2) 3 live).setFlag Reg.fltState 29 (c == 2)
  { e with flt := { e.flt with recoveries := [⟨u, c, 0, 0, 30000000⟩] } }

theorem witness_Occurrences : (sliced 0 1).alive ∧ ready.dev.stageOn 18 = false ∧ (on fun d => d.setFlag Reg.fltState 31 true).dev.safe = true ∧ FaultSource.reserved 0x43 = false ∧ FaultSource.reserved 0x44 = false ∧ FaultSource.reserved 0x0B = true
    ∧ (sliced 0 1).dev.live 0x43 = false ∧ (sliced 0 1).dev.safe = false ∧ (sliced 0 1).dev.fld (Reg.fltClass 0x43) 0 2 = 1
    ∧ (sliced 4 1).dev.recentRecov ⟨2, 3⟩ = 4 ∧ max 1 ((sliced 4 1).dev.fld Reg.fltCfg 24 4) = 4 ∧ (sliced 4 1).dev.flag (Reg.fltClass 0x43) 4 = true
    ∧ (sliced 0 2).dev.fld (Reg.fltClass 0x43) 0 2 = 2 ∧ (sliced 0 3).dev.fld (Reg.fltClass 0x43) 0 2 = 3 ∧ ready.dev.fld (Reg.fltClass 0x72) 0 2 = 0
    ∧ ready.dev.fld (Reg.fltClass 7) 0 2 = 2 ∧ ready.dev.flag (Reg.fltClass 0x10) 4 = false ∧ ready.dev.fld (Reg.fltClass 0x10) 0 2 = 1
    ∧ (recovering ⟨2, 3⟩ 1 false).dev.inRecovery ⟨2, 3⟩ = true ∧ (recovering ⟨0, 0⟩ 2 false).dev.devRec = true
    ∧ ready.dev.fld (Reg.fltClass 0x6D) 0 2 = 1 ∧ (on fun d => d.setFlag (Reg.fltClass 0x6D) 4 false).dev.flag (Reg.fltClass 0x6D) 4 = false
    ∧ bit (ready.dev.fld Reg.umacCfg 16 8) 0 = false ∧ bit ((on fun d => d.setFlag Reg.umacCfg 16 true).dev.fld Reg.umacCfg 16 8) 0 = true := by
  and_intros <;> first | decide +kernel | rfl

theorem witness_RecoveryEnds : (recovering ⟨2, 3⟩ 1 false).alive
    ∧ (recovering ⟨2, 3⟩ 1 false).dev.flt.recoveries.find? (fun r => r.unit == ⟨2, 3⟩) = some ⟨⟨2, 3⟩, 1, 0, 0, 30000000⟩
    ∧ (recovering ⟨2, 3⟩ 1 false).dev.unitLive ⟨2, 3⟩ = false ∧ (recovering ⟨2, 3⟩ 1 true).dev.unitLive ⟨2, 3⟩ = true
    ∧ (recovering ⟨0, 0⟩ 2 false).dev.flt.recoveries.find? (fun r => r.unit == ⟨0, 0⟩) = some ⟨⟨0, 0⟩, 2, 0, 0, 30000000⟩
    ∧ (recovering ⟨0, 0⟩ 2 false).dev.unitLive ⟨0, 0⟩ = false ∧ (recovering ⟨0, 0⟩ 2 true).dev.liveBits ≠ (recovering ⟨0, 0⟩ 2 true).dev.flt.lastLive
    ∧ ready.dev.domainOn 122 = true ∧ ready.dev.stickyBits = ready.dev.flt.lastSticky ∧ ready.dev.liveBits = ready.dev.flt.lastLive := by
  and_intros <;> first | decide +kernel | rfl

/-- The example at 0 ms and at 250 ms: a contained recovery of slice 3; with four in the window, the device's. -/
theorem test_slice_contained : (after (.faultOccurrence [0x43] 0) (sliced 0 1)).recovCnt ⟨2, 3⟩ = 1
    ∧ (after (.faultOccurrence [0x43] 0) (sliced 0 1)).flag Reg.fltUrec 19 = true ∧ (after (.faultOccurrence [0x43] 0) (sliced 0 1)).devRec = false := by decide +kernel
theorem test_slice_escalates : (after (.faultOccurrence [0x43] 0) (sliced 4 1)).devRec = true
    ∧ (after (.faultOccurrence [0x43] 0) (sliced 4 1)).rdN Reg.fltDevcnt = 1 ∧ (after (.faultOccurrence [0x43] 0) (sliced 4 1)).recovCnt ⟨2, 3⟩ = 0 := by decide +kernel
/-- The spec's own example of a reset value of FLT_CLASSs. -/
theorem test_fltClass_reset : State.reset.dev.rdN (Reg.fltClass 0x20) = 0x0E000011 := by decide +kernel

/-! ## The management bus: hypotheses met (spec/16_management_bus.md) -/

/-- Slot 0 answers at 0x5A, or is LIMITED there. -/
def bused (limited : Bool) (f : Smb → Smb) : State := on fun d =>
  { d with regs := [(Reg.smbSlot 0, BitVec.ofNat 32 (2 ^ 31 + b2n limited * 2 ^ 30 + 0x5A))], smb := f d.smb }
def event0 : Msg := ⟨0x8101, 0, 1, 0xFF, 0, false, true, false, false, false, zeros 48⟩
def holdsOut (f : Smb → Smb) (q0 : List Msg) : State := { bused false f with dev :=
  let d := (bused false f).dev
  { d with ev := { d.ev with q0 := q0 } } }

theorem witness_MailboxOnTheBus : (bused false id).alive ∧ (bused false id).dev.smbServes = true ∧ (bused false id).dev.smbSlot 0x5A = some false
    ∧ (bused true id).dev.smbSlot 0x5A = some true ∧ (bused false id).dev.smbSlot 0x5B = none
    ∧ (bused false id).dev.flag Reg.smbCfg 30 = false ∧ (on fun d => d.setFlag Reg.smbCfg 30 true).dev.flag Reg.smbCfg 30 = true
    ∧ (bused false id).dev.smb.reasm = none ∧ (bused false fun m => { m with dropping := true }).dev.smb.dropping = true
    ∧ bit (leAt ([0xC0, 1] : Bytes) 0 1) 7 = true ∧ bit (leAt ([0xC0, 1] : Bytes) 0 1) 6 = true ∧ bit (leAt ([0x80, 1] : Bytes) 0 1) 6 = false
    ∧ badWords (event0.bytes []) [(0, 3)] ≠ [] ∧ (holdsOut id [event0]).dev.smb.outbound = none ∧ (holdsOut id [event0]).dev.smb.respQ = []
    ∧ (holdsOut id [event0]).dev.ev.q0.head? = some event0 ∧ (event0.bytes []).length = 68 ∧ (bused false id).dev.chunkSize = 32
    ∧ (bused false id).dev.pathWaits .management = false ∧ (bused false id).dev.accessError .management 0xFF0000 .b32 none = some 1
    ∧ (bused false id).dev.accessError .management (Reg.smbSlot 0) .b32 none = none ∧ (bused false id).dev.accessError .management (Reg.smbSlot 0) .b32 (some 0) = none
    ∧ ((bused false id).dev.readAccess .management (Reg.smbSlot 0) .b32).2 = .value 0x8000005A
    ∧ ((bused false id).dev.writeAccess .management Reg.smbCfg .b32 0).2 = .done
    ∧ ((bused false id).dev.writeAccess .management Reg.smbCfg .b32 0).1.smb = (bused false id).dev.smb
    ∧ 4096 < (List.replicate 4097 (0 : Byte)).length := by
  and_intros <;> first | (rw [List.length_replicate]; decide) | decide +kernel | rfl

theorem witness_StatusOnTheBus : (bused true id).alive ∧ (bused true id).dev.smbServes = true ∧ (bused true id).dev.domainUp 132 = true
    ∧ (on fun d => d.setFlag (Reg.pdOn 4) 4 false).dev.domainUp 132 = false ∧ (bused false fun m => { m with standby := true }).dev.smbServes = false
    ∧ (bused false fun m => { m with notifyDue := true }).dev.smb.notifyDue = true ∧ (bused false fun m => { m with retryNotify := true }).dev.smb.retryNotify = true
    ∧ (on fun d => d.setFlag Reg.mbAlert 3 true).dev.rdN Reg.mbAlert ≠ 0 ∧ (on fun d => d.setFlag Reg.smbCfg 28 true).dev.flag Reg.smbCfg 28 = true
    ∧ (on fun d => d.setFlag Reg.smbCfg 31 true).dev.flag Reg.smbCfg 31 = true ∧ (bused false id).dev.flag (Reg.smbSlot 0) 31 = true
    ∧ (on fun d => d.setFld Reg.smbCfg 8 8 5).dev.fld Reg.smbCfg 8 8 ≠ 0 ∧ (bused false id).dev.smb.win = none ∧ (bused false id).dev.smb.resetLow = false := by
  and_intros <;> first | decide +kernel | rfl

/-- The check value of the CRC-8 of SMBus. -/
theorem test_pec : pecOf [0x31, 0x32, 0x33, 0x34, 0x35, 0x36, 0x37, 0x38, 0x39] = 0xF4 := by decide +kernel
/-- STATUS on a LIMITED slot answers five bytes; MBX_READ there is refused. -/
theorem test_limited : (after (.status 0x5A 5) (bused true id)).smb.lastRead.length = 5 ∧ (after (.mbxRead 0x5A 5 []) (bused true id)).smb.acked = false := by decide +kernel

/-! ## The conformateur, conduct levels and snapshots: hypotheses met, and the worked example (spec/17_conformateur_and_longevity.md) -/

def temps (x : Int) : List Int := List.replicate 31 320 ++ [x]
def cnfd (f : Cnf → Cnf) : State := on fun d =>
  let e := { d with regs := [(Reg.cnfCtrl, 0xF0000040), (Reg.cnfLim, 0x5F320096)] }
  { e with cnf := f e.cnf }
def eyed : State := on fun d => { d with regs := [(Reg.cnfCtrl, 0xF0000040), (Reg.cnfLim, 0x5F320096), (Reg.hlStat 0, 0x60000000)] }

theorem witness_HealthSamples : (cnfd id).alive ∧ (cnfd id).dev.domainOn 132 = true ∧ (on fun d => d.setFlag (Reg.pdOn 4) 4 false).dev.domainOn 132 = false
    ∧ (temps 1600).length = 32 ∧ (∀ x ∈ temps 1600, -32768 ≤ x ∧ x ≤ 1600) ∧ 1600 ∈ temps 1600 ∧ (cnfd id).dev.fld Reg.cnfLim 24 8 = 95
    ∧ (cnfd id).dev.flag Reg.cnfCtrl 28 = true ∧ (cnfd id).dev.flag Reg.cnfCtrl 29 = true ∧ (cnfd id).dev.fld Reg.cnfLim 0 12 = 150
    ∧ eyed.dev.laneUp 0 = true ∧ eyed.dev.cnf.reeqAt = [] ∧ (cnfd id).dev.laneUp 0 = false ∧ (List.replicate 64 12000).length = 64
    ∧ (cnfd fun c => { c with wearWarned := true }).dev.cnf.wearWarned = true ∧ (List.replicate 24 900).length = 24 := by
  and_intros <;> first | decide +kernel | rfl

def pPolicy : Bytes := [15, 0] ++ le 2 80 ++ [100, 0] ++ le 2 200 ++ le 2 900 ++ zeros 2
def pLock (l : Nat) : Bytes := [BitVec.ofNat 8 l, 0, 0, 0]
def pExport (fl gen off : Nat) (ref : Bytes) : Bytes := [BitVec.ofNat 8 fl, 0, 0, 0] ++ le 4 gen ++ le 4 off ++ zeros 4 ++ ref
def pImport (fl off : Nat) : Bytes := [BitVec.ofNat 8 fl, 0, 0, 0] ++ le 4 off ++ zeros 4 ++ le 4 0xFFFFFFFF ++ zeros 4 ++ le 8 0 ++ le 4 68 ++ zeros 4
def bulkBytes (len : Nat) : Bytes := le 4 0xFFFFFFFF ++ zeros 4 ++ le 8 0 ++ le 4 len ++ zeros 4
/-- Level 1 is locked; a capture and the first piece of an import are kept. -/
def lockedAt (l : Nat) : State := on fun d => { d with
  regs := [(Reg.conduct, BitVec.ofNat 32 (0x30000 + l))], cnf := { d.cnf with capture := some (List.replicate 32 1), gen := 7, importing := some (List.replicate 64 1) } }
/-- The same with no capture, no import and no areas of the frame store. -/
def locked0 : State := on fun d => { d with regs := [(Reg.conduct, 0x30001)], hood := { d.hood with areas := [] } }
/-- An accepted SNAPSHOT_IMPORT whose piece, 64 zeros and their seal, stands in the bulk area. -/
def importing (fl : Nat) : State := on fun d => { d with
  accepted := [⟨0x0204, rq 1 (pImport fl 64), [.snapshot], []⟩]
  bulk := (List.range 68).map fun i => (bulkSize + i, (withSeal 0 (zeros 64)).getD i 0) }

theorem witness_HealthAndConduct : Begins (cnfd id) (rq 0 pPolicy) [.health] ∧ (cnfd id).dev.cnf.sensors.length = 32 ∧ (cnfd id).dev.cnf.supplies.length = 24
    ∧ pPolicy.length = 12 ∧ leAt pPolicy 0 1 < 16 ∧ leAt pPolicy 4 1 = 100 ∧ leAt pPolicy 6 2 = 200 ∧ leAt pPolicy 8 2 = 900 ∧ pPolicy ≠ (cnfd id).dev.policyBytes
    ∧ (cnfd id).dev.stiffActive = false ∧ leAt (le 2 0 ++ le 2 1) 2 2 = 1
    ∧ Begins (lockedAt 1) (rq 1 (pLock 1)) [.conduct] ∧ (lockedAt 1).dev.fld Reg.conduct 0 8 = 1 ∧ (lockedAt 0).dev.fld Reg.conduct 0 8 = 0
    ∧ (lockedAt 1).dev.lineStarted = false ∧ (lockedAt 1).dev.anyStream = false ∧ (pExport 1 0 0 (zeros 24)).length = 40
    ∧ Begins locked0 (rq 1 (pExport 1 0 0 (zeros 24))) [.conduct] ∧ locked0.dev.fld Reg.conduct 0 8 ≠ 0 ∧ locked0.dev.lineStarted = false ∧ locked0.dev.anyStream = false
    ∧ 8 ≤ ({ locked0.dev with cnf := { locked0.dev.cnf with capture := none } } : Dev).freePages
    ∧ (pExport 0 7 8 (bulkBytes 16)).length = 40 ∧ refReserved (pExport 0 7 8 (bulkBytes 16)) 16 = true ∧ (lockedAt 1).dev.refCheck (bulkRef (pExport 0 7 8 (bulkBytes 16)) 16) = none
    ∧ (bulkRef (pExport 0 7 8 (bulkBytes 16)) 16).region = bulkArea ∧ (lockedAt 1).dev.cnf.capture = some (List.replicate 32 1)
    ∧ (pImport 0 64).length = 36 ∧ refReserved (pImport 0 64) 12 = true ∧ (lockedAt 1).dev.refCheck (bulkRef (pImport 0 64) 12) = none
    ∧ (lockedAt 1).dev.cnf.importing = some (List.replicate 64 1)
    ∧ bit (leAt (pImport 1 0) 0 1) 0 = true ∧ ({ ready.dev with cnf := { ready.dev.cnf with importing := none } } : Dev).freePages < 8 := by
  and_intros <;> first | decide +kernel | exact begins_ready .. | exact begins_of rfl rfl (by decide +kernel) (by decide +kernel) rfl rfl rfl | rfl

theorem witness_ImportPiece : (importing 2).alive ∧ (importing 2).dev.accepted.find? (fun a => a.req.mbx == 1 && (fetchRefs a.code a.req.payload) != []
      && !(a.code == 0x1002 && (importing 2).dev.pwr.staging.isSome)) = some ⟨0x0204, rq 1 (pImport 2 64), [.snapshot], []⟩
    ∧ (importing 2).dev.bulkPending (.bulkRead 1) = false ∧ checkSeal (bulkRef (pImport 2 64) 12).off
        ((importing 2).dev.bulkRd 1 (bulkRef (pImport 2 64) 12).off (bulkRef (pImport 2 64) 12).len) = some (zeros 64)
    ∧ bit (leAt (pImport 2 64) 0 1) 1 = true ∧ bit (leAt (pImport 0 64) 0 1) 1 = false ∧ (importing 2).dev.importCheck (zeros 64) ≠ St.ok := by
  and_intros <;> first | decide +kernel | rfl

/-- The example: wear of unit 5, and the remaining life; AF(85) and AF(95). -/
def worn5 : State := on fun d => { d with cnf := { d.cnf with eq := List.replicate 5 0 ++ [607799376 * 2 ^ 64] ++ List.replicate 10 0, losses := List.replicate 20 0 ++ [12000] ++ List.replicate 43 0 } }
theorem test_wear : worn5.dev.thermUnit 5 = 481 ∧ worn5.dev.ageUnit 5 = 300 ∧ worn5.dev.devWear = 481 ∧ worn5.dev.remainH = 181982 := by decide +kernel
theorem test_arrhenius : arrhenius (85 * 16) * 1000 / 2 ^ 64 = 1000 ∧ (arrhenius (95 * 16) * 10000 + 5 * 2 ^ 64) / (10 * 2 ^ 64) = 1852 := by decide +kernel

/-! ## Firmware, power, reset and start-up: hypotheses met (spec/18_power_clocks_boot.md) -/

def pStage (len : Nat) : Bytes := [1, 0, 0, 0] ++ le 4 0xFFFFFFFF ++ zeros 4 ++ le 8 0 ++ le 4 len ++ zeros 4
def powered (f : Power → Power) : State := on fun d => { d with pwr := f d.pwr }
def img7 : Image := ⟨7, 3, 4, 5⟩
def onTrial : State := powered fun p => { p with record := { p.record with trial := true }, images := [some img7, none] }
def roomy : State := on fun d => { d with hood := { d.hood with areas := [] } }
def staged : State := on fun d => { d with
  accepted := [⟨0x1002, rq 1 (pStage 68), [.fwImages], []⟩]
  bulk := (List.range 68).map fun i => (bulkSize + i, (withSeal 0 (zeros 64)).getD i 0) }
def programming : State := on fun d => { d with accepted := [⟨0x1002, rq 1 (pStage 68), [.fwImages], []⟩], pwr := { d.pwr with staging := some (1, img7) } }

theorem witness_FirmwareCommands : Begins onTrial (rq 0 [1, 0, 0, 0]) [.fwImages] ∧ onTrial.dev.pwr.images.getD 0 none = some img7 ∧ onTrial.dev.pwr.record.trial = true
    ∧ Begins ready (rq 2 (le 4 0x1680 ++ [1, 0, 0, 0])) [.fwImages] ∧ ready.dev.pwr.record.trial = false ∧ ready.dev.pwr.slot = 0 ∧ bit ready.dev.pwr.record.valid 1 = true
    ∧ leAt (le 4 0x1680 ++ [1, 0, 0, 0]) 0 4 = 0x1680 ∧ leAt (le 4 0x1680 ++ [1, 0, 0, 0]) 4 1 = 1 ∧ (2 : Fin 8) ≠ 0
    ∧ Begins roomy (rq 1 (pStage 520)) (.fwImages :: refObjs 1 (bulkRef (pStage 520) 4)) ∧ (pStage 520).length = 28 ∧ refReserved (pStage 520) 4 = true
    ∧ leAt (pStage 520) 0 1 = 1 ∧ (bulkRef (pStage 520) 4).len = 520 ∧ (bulkRef (pStage 519) 4).len = 519 ∧ (bulkRef (pStage 3146244) 4).len = 3146244 ∧ 2 ≤ roomy.dev.freePages
    ∧ roomy.dev.refCheck (bulkRef (pStage 520) 4) = none ∧ ready.dev.freePages < 2
    ∧ staged.alive ∧ staged.dev.accepted.find? (fun a => a.req.mbx == 1 && (fetchRefs a.code a.req.payload) != []
        && !(a.code == 0x1002 && staged.dev.pwr.staging.isSome)) = some ⟨0x1002, rq 1 (pStage 68), [.fwImages], []⟩
    ∧ (bulkRef (pStage 68) 4).region = bulkArea ∧ staged.dev.bulkPending (.bulkRead 1) = false
    ∧ checkSeal (bulkRef (pStage 68) 4).off (staged.dev.bulkRd 1 (bulkRef (pStage 68) 4).off (bulkRef (pStage 68) 4).len) = some (zeros 64)
    ∧ programming.dev.pwr.staging = some (1, img7) ∧ programming.dev.owed 0x1002 = some ⟨0x1002, rq 1 (pStage 68), [.fwImages], []⟩ := by
  and_intros <;> first | decide +kernel | exact begins_ready .. | exact begins_of rfl rfl (by decide +kernel) (by decide +kernel) rfl rfl rfl | rfl

def unpoweredState : State := { ready with pins := { ready.pins with pwrOk := false } }
def safeState : State := on fun d => d.setFlag Reg.fltState 31 true
def due : State := powered fun p => { p with resetDue := some 3 }

theorem witness_PowerAndReset : unpoweredState.pins.pwrOk = false ∧ unpoweredState.dead = true ∧ State.reset.dead = true ∧ ready.pins.pwrOk = true
    ∧ safeState.dev.safe = true ∧ ready.dev.safe = false ∧ due.alive ∧ due.dev.pwr.resetDue = some 3 ∧ due.dev.safe = false ∧ ready.dev.pwr.resetDue = none := by
  and_intros <;> first | decide +kernel | rfl

/-- Port 2's first domain is being switched on, PD_PP2 waits; the attach waits for the latter. -/
def switching (sw : Nat × Bool) : State := on fun d => { d with
  pwr := { d.pwr with queue := [(2, true), (18, true)] }, running := [⟨0x0401, rq 1 [2], [.pipe 2], [2], some sw, false⟩] }
def booted : State := on fun d => { d with pwr := { d.pwr with phase := .firmware }, cnf := { d.cnf with copies := [none, some ⟨4, Config.uid, [], []⟩] } }

theorem witness_StartUpDomainsDebug : State.reset.pins.pwrOk = true ∧ State.reset.dev.pwr.phase = .reset ∧ ready.dev.pwr.phase ≠ .held ∧ ready.dev.pwr.phase ≠ .reset
    ∧ (powered fun p => { p with phase := .booting }).alive ∧ booted.alive ∧ booted.dev.pwr.phase = .firmware ∧ booted.dev.safe = false
    ∧ (∃ w, some w ∈ booted.dev.cnf.copies ∧ w.uid = Config.uid) ∧ (switching (18, true)).alive ∧ (switching (18, true)).dev.pwr.queue = [(2, true), (18, true)]
    ∧ Sparse.wf RegMap.resetAt (switching (18, true)).dev.regs = true ∧ (∀ x ∈ (switching (18, true)).dev.running, x.switch ≠ some (2, true))
    ∧ (switching (2, true)).dev.running.filter (fun x => x.switch == some (2, true)) = [⟨0x0401, rq 1 [2], [.pipe 2], [2], some (2, true), false⟩]
    ∧ (powered fun p => { p with nonce := some (zeros 32) }).dev.pwr.nonce = some (zeros 32) ∧ ready.dev.pwr.nonce = none := by
  and_intros <;> first | exact ⟨⟨4, Config.uid, [], []⟩, by simp [booted, on], rfl⟩ | decide +kernel | rfl

/-- The example of an attach: PD_SEQ reads domain 5, none waiting, then after 20 us PD_PP5. -/
def attach5 : State := on fun d => (d.requestDomains true [5, 21])
theorem test_PD_SEQ : attach5.dev.fld Reg.pdSeq 16 8 = 5 ∧ attach5.dev.fld Reg.pdSeq 30 2 = 3 ∧ attach5.dev.fld Reg.pdSeq 8 8 = 1
    ∧ (after .domainSwitchDone attach5).fld Reg.pdSeq 16 8 = 21 ∧ (after .domainSwitchDone attach5).domainOn 5 = true := by decide +kernel
/-- A trial that was not committed is left at the next boot (R561). -/
theorem test_trial_left : (after .bootStart { State.reset with dev := { State.reset.dev with pwr := { State.reset.dev.pwr with record := ⟨6, 1, true, 1, 3⟩ } } }).pwr.record
    = ⟨7, 0, false, 1, 3⟩ := by decide +kernel

/-! ## The command interface: hypotheses met, and the example of R68 (spec/02_command_interface.md) -/

def boxed (f : Mailbox → Mailbox) : State := on fun d => d.modBox 3 f
def pRing (n sz cons : Nat) : Bytes := le 4 0 ++ zeros 4 ++ le 8 4096 ++ le 4 n ++ le 1 sz ++ zeros 3 ++ le 8 cons ++ le 4 0x1FFFE ++ le 4 0x2002
def regioned : State := on fun d => { d with plc := { d.plc with regions := [{ live := true, len := 0x100000 }] } }
def safe0 : State := on fun d => d.setFlag Reg.fltState 31 true
def devRec0 : State := on fun d => d.setFlag Reg.fltState 29 true
def keyed : Bytes := [1, 0, 0, 0] ++ List.replicate 32 7
def busyBulk : State := on fun d => { d with accepted := [⟨0x0204, rq 1 (zeros 12 ++ le 4 0xFFFFFFFF ++ zeros 20), [.snapshot], []⟩] }

theorem witness_DeviceCommands :
    (on fun d => { d with running := [⟨0x0404, rq 1 [], [], [], none, false⟩] }).dev.runs 1 = true ∧ ready.dev.runs 1 = false ∧ ready.dev.unserved 1 = false ∧ ready.dev.heldByOther 1 [] = false
    ∧ poisonWords 0x0101 { rq 1 [] with hits := [(0, 3)] } = [0] ∧ (bit 4 2 : Bool) = true
    ∧ safe0.alive ∧ safe0.dev.runs 0 = false ∧ safe0.dev.unserved 0 = false ∧ safe0.dev.safe = true ∧ (powered fun p => { p with phase := .firmware }).alive
    ∧ (powered fun p => { p with phase := .firmware }).dev.pwr.phase ≠ .ready ∧ (powered fun p => { p with phase := .firmware }).dev.safe = false
    ∧ devRec0.dev.devRec = true ∧ devRec0.dev.safe = false ∧ (∀ objs, devRec0.dev.heldBySame 1 objs = false)
    ∧ Begins ready (rq 1 (le 4 0x3FFFE ++ le 4 0x3FFFF)) [] ∧ leAt (le 4 0x3FFFE ++ le 4 0x3FFFF) 4 4 = ready.dev.fld Reg.plantAddr 0 18 ∧ ready.dev.anyStream = false
    ∧ ready.dev.stiffActive = false ∧ leAt (le 4 0x1680 ++ [2, 0, 0, 0]) 0 4 = 0x1680 ∧ bit ready.dev.pwr.record.valid 1 = true ∧ ready.dev.fld Reg.mbxCfg 16 2 ≠ 2
    ∧ (on fun d => d.setFld Reg.mbxCfg 16 2 2).dev.fld Reg.mbxCfg 16 2 = 2 ∧ keyed.length = 36 ∧ slice keyed 4 32 = List.replicate 32 7 ∧ (zeros 36).length = 36
    ∧ (le 4 0x7FF000 ++ le 2 4 ++ zeros 2 ++ [1, 2, 3, 4]).length = 8 + leAt (le 4 0x7FF000 ++ le 2 4 ++ zeros 2 ++ [1, 2, 3, 4]) 4 2
    ∧ ready.dev.bulkBusy 1 = false ∧ busyBulk.dev.bulkBusy 1 = true ∧ Begins ready (rq 1 [1, 0, 15, 0]) [resetObj 1 15] ∧ ready.dev.inRecovery ⟨1, 15⟩ = false
    ∧ Begins ready (rq 1 [5, 0, 2, 0]) [.mailbox 2] ∧ (ready.dev.hoppers.getD 2 {}).flushing = false ∧ ready.dev.behind 0x0103 (rq 1 []) = false ∧ (pRing 16 0 0x3000).length = 40 ∧ leAt (pRing 16 0 0x3000) 24 8 = 0x3000 ∧ (0x3000 : Nat) = 4096 + 16 * 512
    ∧ regioned.dev.regionLive 0 = true ∧ regioned.dev.regionLen 0 = 0x100000 ∧ ready.dev.regionLive 0 = false ∧ leAt (pRing 16 0 0x3000) 32 4 < 2 ^ 17 := by
  and_intros <;> first | decide +kernel | exact begins_ready .. | exact begins_of rfl rfl (by decide +kernel) (by decide +kernel) rfl rfl rfl | rfl | exact fun _ => rfl

/-- The example's IDENTIFY on mailbox 3, and the datagram that carries a message. -/
def idHead : Bytes := [1, 1, 0, 0, 0x2A, 0, 0, 0, 0, 0, 3, 0, 0x78, 0x56, 0x34, 0x12]
def idMsg : Bytes := withSeal (3 + 2 ^ 32 * 0x2A) idHead
def dgram (b : Bytes) : Datagram := ⟨false, false, true, true, false, 0xBA0E, 9, 5000, b, []⟩
def mailed (f : Dev → Dev) : State := on fun d => f (d.setFlag (Reg.pdOn 4) 7 true)
def idReq : Req := reqOf idMsg false []
def storedId (seq : Word) : Msg := ⟨0x0101, 0, seq, 3, 0, true, false, false, false, false, []⟩

theorem witness_RequestsAndEvents : (mailed id).alive ∧ (mailed id).dev.domainOn 135 = true ∧ ready.dev.domainOn 135 = false ∧ (mailed id).dev.safe = false
    ∧ (mailed id).dev.fld Reg.mbxCfg 0 16 = 0xBA0E ∧ (dgram idMsg).port.toNat = 0xBA0E ∧ (dgram idMsg).v6 = (mailed id).dev.flag Reg.umacCfg 0
    ∧ idMsg.length = 20 + leAt idMsg 8 2 ∧ leAt idMsg 10 1 = 3 ∧ checkSeal (leAt idMsg 10 1 + 2 ^ 32 * leAt idMsg 4 4) idMsg ≠ none
    ∧ checkSeal (3 + 2 ^ 32 * 0x2A) (idHead ++ zeros 4) = none ∧ leAt idMsg 2 1 = 0 ∧ leAt idMsg 11 1 = 0 ∧ (mailed id).dev.tagValid idMsg = false ∧ (mailed id).dev.fld Reg.mbxCfg 16 2 < 2
    ∧ (mailed fun d => d.setFld Reg.mbxCfg 16 2 2).dev.fld Reg.mbxCfg 16 2 = 2 ∧ idReq.seq = 0x2A ∧ idReq.noresp = false
    ∧ ((mailed fun d => d.modBox 3 fun b => { b with hopper := [(0x0101, idReq)] }).dev.box 3).hopper.any (fun q => q.2.seq == idReq.seq) = true
    ∧ ((mailed fun d => d.modBox 3 fun b => { b with lastSeq := some 0x2A, stored := some (storedId 0x2A) }).dev.box 3).stored = some (storedId 0x2A)
    ∧ 2 ^ 31 ≤ (idReq.seq - (0x2B : Word)).toNat ∧ 1 ≤ (idReq.seq - (0x29 : Word)).toNat ∧ (idReq.seq - (0x29 : Word)).toNat < 2 ^ 31
    ∧ ((mailed id).dev.box 3).lastSeq = none ∧ ((mailed id).dev.box 3).hopper.length < 8
    ∧ 8 ≤ ((mailed fun d => d.modBox 3 fun b => { b with hopper := List.replicate 8 (0x0101, rq 3 []) }).dev.box 3).hopper.length ∧ ((mailed id).dev.box 3).unstored < 1000 := by
  and_intros <;> first | decide +kernel | rfl

def evs (f : Events → Events) : State := on fun d => { d with ev := f d.ev }
def ringed (w : Nat) : State := evs fun e => { e with ring := some ⟨0, 0, 0, 16, 512, 0x4000, w, 0⟩, hopper := [storedId 1] }

theorem witness_EventPath : (evs fun e => { e with authFails := 2, authMask := 8 }).dev.ev.authFails ≠ 0 ∧ ready.dev.ev.authFails = 0
    ∧ ready.dev.running = [] ∧ ready.dev.ful.exhaustEv = none ∧ ready.dev.ful.overrunEv = none ∧ (∀ q, q < 64 → (ready.dev.qp q).cuts = 0)
    ∧ (on fun d => { d with ful := { d.ful with lateBatt := some 5 } }).dev.ful.lateBatt = some 5 ∧ (evs fun e => { e with hopper := [storedId 1] }).dev.ev.hopper = storedId 1 :: []
    ∧ (evs fun e => { e with q0 := List.replicate 64 (storedId 1) }).dev.ev.q0.length = 64 ∧ (ringed 15).dev.ev.ring = some ⟨0, 0, 0, 16, 512, 0x4000, 15, 0⟩ ∧ (ringed 15).dev.ev.route = (ringed 15).dev.ev.ring ∧ (ringed 15).dev.ev.past = [] ∧ ready.dev.pair1Off = false
    ∧ badWords ((storedId 1).bytes []) [(2, 7)] = [2] ∧ badWords ((storedId 1).bytes []) [] = [] ∧ 16 ≤ 16 - 0
    ∧ 0 < (evs fun e => { e with lostSince := 3 }).dev.ev.lostSince ∧ (∀ w ∈ ((ringed 16).dev.qp ((ringed 16).dev.regionQp 0)).sq, w.kind ≠ .eventCount 0)
    ∧ (ringed 16).dev.regionLive 0 = false ∧ (ringed 16).dev.ev.hopper.length ≤ 63 - (ringed 16).dev.ev.q0.length
    ∧ (on fun d => { d with plc := { d.plc with regions := [{ live := true, len := 64 }] }, regs := [(Reg.qpStat 0, 0x40000000)] }).dev.qpState 0 = 1 := by
  and_intros <;> first | decide +kernel | rfl

/-- The example: a new request enters, the response of IDENTIFY goes to its source with HTAG 0x12345678, a repeat executes nothing. -/
theorem test_identify_enters : ((after (.mbxDatagramRx (dgram idMsg)) (mailed id)).box 3).lastSeq = some 0x2A
    ∧ ((after (.mbxDatagramRx (dgram idMsg)) (mailed id)).box 3).hopper = [(0x0101, ⟨3, 0x2A, 0x12345678, false, false, [], []⟩)] := by decide +kernel
/-- CRC-32C of the nine digits (its check value). -/
theorem test_crc32c : crcRun 0xFFFFFFFF [0x31, 0x32, 0x33, 0x34, 0x35, 0x36, 0x37, 0x38, 0x39] ^^^ 0xFFFFFFFF = 0xE3069283 := by decide +kernel
/-- HMAC-SHA-256 and SHA-256 of the empty message under FIPS 180-4: the first bytes of SHA-256(""). -/
theorem test_sha256 : (sha256 []).take 4 = [0xE3, 0xB0, 0xC4, 0x42] := by decide +kernel

/-! ## The queue and the device without power: hypotheses met -/

theorem witness_StepRunsTheFront : State.reset.pending = [] ∧ State.reset.dead = true ∧ ready.pending = [] ∧ ready.alive
    ∧ { ready with pending := [.secondTick, .dbgChal] }.pending = .secondTick :: [.dbgChal] := by and_intros <;> rfl

theorem unpowered_reset : State.reset.dev.unpowered := by
  and_intros <;> first | exact fun a _ => rfl | decide +kernel | rfl

def darkState : State := { State.reset with pins := { pwrOk := false, rstN := true }, pending := [.bootStart, .secondTick] }

theorem witness_NoPowerNoState : darkState.pins.pwrOk = false ∧ darkState.dev.unpowered
    ∧ step darkState = .next { darkState with pending := [.secondTick] } := ⟨rfl, unpowered_reset, rfl⟩

/-! ## Well-formedness refuses an ill-formed term of each check -/

theorem test_wf_payload : Instr.wf (.identify (rq 1 (zeros 4076))) = true ∧ Instr.wf (.identify (rq 1 (zeros 4077))) = false := by decide +kernel
theorem test_wf_marker : Instr.wf (.laneMarker 0 0 (zeros 8) ⟨0, 0⟩) = true ∧ Instr.wf (.laneMarker 0 0 (zeros 7) ⟨0, 0⟩) = false := by decide +kernel
theorem test_wf_smbus : Instr.wf (.mbxWrite 0x42 (List.replicate 255 0) ⟨none, []⟩) = true ∧ Instr.wf (.mbxWrite 0x42 (List.replicate 256 0) ⟨none, []⟩) = false := by decide +kernel
theorem test_wf_datagram : Datagram.wf (dgram (zeros 100)) = true := by decide +kernel
theorem long_refused (n : Nat) (h : 65536 ≤ n) : headDataWf (List.replicate n 0) = false ∧ Pixels.wf ⟨List.replicate n 0, 0, false⟩ = false
    ∧ Datagram.wf (dgram (List.replicate n 0)) = false := by
  have e : ∀ x : Byte, (List.replicate n x).length = n := fun x => List.length_replicate
  refine ⟨decide_eq_false ?_, decide_eq_false ?_, decide_eq_false ?_⟩ <;> simp only [dgram, e] <;> omega

end Sys2Proof.Tests
end

section
/-! SUPPORT. Little-endian fields: what is read back from a concatenation of them, and the seal behind it (R5, R112, R113). -/

namespace Sys2Proof.Machine

open Sys2Proof

/-! ## Bytes: fields read back, and the seal (R5, R112, R113) -/

@[simp] theorem length_le (n v : Nat) : (le n v).length = n := by
  induction n generalizing v with
  | zero => rfl
  | succ n ih => simp [le, ih]

theorem leAt_cons_succ (a : Byte) (l : Bytes) (o n : Nat) : leAt (a :: l) (o + 1) n = leAt l o n := by
  induction n generalizing o with
  | zero => rfl
  | succ n ih => simp [leAt, byteAt, ih]

/-- A field behind other bytes is read in what follows them. -/
theorem leAt_append_skip (l r : Bytes) (o n : Nat) (h : l.length ≤ o) : leAt (l ++ r) o n = leAt r (o - l.length) n := by
  induction l generalizing o with
  | nil => simp
  | cons a t ih =>
    obtain ⟨o, rfl⟩ : ∃ k, o = k + 1 := ⟨o - 1, by simp at h; omega⟩
    simp only [List.length_cons, Nat.add_le_add_iff_right] at h
    rw [List.cons_append, leAt_cons_succ, ih o h, List.length_cons, Nat.add_sub_add_right]

theorem leAt_le_append_skip (m v : Nat) (r : Bytes) (o n : Nat) (h : m ≤ o) : leAt (le m v ++ r) o n = leAt r (o - m) n := by
  rw [leAt_append_skip _ _ _ _ (by simpa using h), length_le]

/-- The field that a byte string begins with. -/
theorem leAt_le_append (n v : Nat) (r : Bytes) : leAt (le n v ++ r) 0 n = v % 2 ^ (8 * n) := by
  induction n generalizing v with
  | zero => simp [leAt, Nat.mod_one]
  | succ n ih =>
    rw [le, List.cons_append, leAt, leAt_cons_succ, ih, Nat.mul_succ, Nat.add_comm (8 * n), pow_add, Nat.mod_mul]
    simp [byteAt]

theorem leAt_le (n v : Nat) : leAt (le n v) 0 n = v % 2 ^ (8 * n) := by simpa using leAt_le_append n v []

@[simp] theorem length_withSeal (fold : Nat) (l : Bytes) : (withSeal fold l).length = l.length + 4 := by simp [withSeal]

theorem checkSeal_withSeal (fold : Nat) (l : Bytes) : checkSeal fold (withSeal fold l) = some l := by
  have hs : leAt (le 4 (sealOf fold l).toNat) 0 4 = (sealOf fold l).toNat := by
    rw [leAt_le]; exact Nat.mod_eq_of_lt (sealOf fold l).isLt
  simp [checkSeal, withSeal, leAt_append_skip, hs]

end Sys2Proof.Machine
end

section
/-! SUPPORT. Streams, queue pairs and batts after one of them has changed; the end of issues, a batt's failure and its roll-back. -/

namespace Sys2Proof.Machine

open Sys2Proof

/-! ## One stream, one queue pair, one batt (R364, R367) -/

@[simp] theorem Dev.str_modStr_same (d : Dev) (s : Nat) (f : Stream → Stream) : (d.modStr s f).str s = f (d.str s) :=
  getD_modAt_same d.plc.streams s f

theorem Dev.str_modStr_ne (d : Dev) {s j : Nat} (f : Stream → Stream) (h : j ≠ s) : (d.modStr s f).str j = d.str j :=
  getD_modAt_ne d.plc.streams f h

@[simp] theorem Dev.qp_modQp_same (d : Dev) (q : Nat) (f : QPair → QPair) : (d.modQp q f).qp q = f (d.qp q) :=
  getD_modAt_same d.plc.qps q f

theorem Dev.qp_modQp_ne (d : Dev) {q j : Nat} (f : QPair → QPair) (h : j ≠ q) : (d.modQp q f).qp j = d.qp j :=
  getD_modAt_ne d.plc.qps f h

@[simp] theorem Dev.modStr_qp (d : Dev) (s q : Nat) (f : Stream → Stream) : (d.modStr s f).qp q = d.qp q := rfl
@[simp] theorem Dev.hopRead_str (d : Dev) (i j : Nat) : (d.hopRead i).str j = d.str j := rfl

/-- The batt of a key after a change that keeps the keys. -/
theorem Dev.battKey_modKey (d : Dev) (k : Nat × Option Nat) {f : Batt → Batt} (hf : ∀ b, (f b).key = b.key) :
    (d.modKey k f).battKey k = (d.battKey k).map f := by
  have hk : ((fun b : Batt => b.key == k) ∘ fun b => if b.key = k then f b else b) = fun b => b.key == k := by
    funext b; simp only [Function.comp]; split <;> simp [hf]
  unfold Dev.battKey Dev.modKey
  rw [List.find?_map, hk]
  cases h : d.ful.batts.find? fun b => b.key == k with
  | none => rfl
  | some b => simpa using fun hb => absurd (by simpa using List.find?_some h) hb

theorem modAt_modAt {α : Type} [Inhabited α] (l : List α) (i : Nat) (f g : α → α) :
    modAt (modAt l i f) i g = modAt l i (g ∘ f) := by
  induction l, i, f using modAt.induct <;> simp_all [modAt]

/-- Two changes of the placed batts of a key, the first of which keeps the key, are one. -/
theorem Dev.modPlaced_modPlaced (d : Dev) (s : Nat) (k : Nat × Option Nat) {f : Placed → Placed} (g : Placed → Placed)
    (hf : ∀ p, (f p).batt = p.batt) : (d.modPlaced s k f).modPlaced s k g = d.modPlaced s k (g ∘ f) := by
  have hb : ((fun b : Placed => if b.batt = k then g b else b) ∘ fun b => if b.batt = k then f b else b)
      = fun b => if b.batt = k then (g ∘ f) b else b := by
    funext b; by_cases h : b.batt = k <;> simp [h, hf]
  simp only [Dev.modPlaced, Dev.modStr, Dev.modPlc, modAt_modAt]
  simp only [Function.comp_def, List.map_map] at hb ⊢
  rw [hb]

/-- Changing the placed batts of a key changes of the stream these alone. -/
theorem Dev.modPlaced_str (d : Dev) (s : Nat) (k : Nat × Option Nat) (f : Placed → Placed) :
    (d.modPlaced s k f).str s
      = { d.str s with batts := (d.str s).batts.map fun b => if b.batt = k then f b else b } :=
  d.str_modStr_same s _

theorem Dev.modPlaced_cmp (d : Dev) (s : Nat) (k : Nat × Option Nat) (f : Placed → Placed) :
    ((d.modPlaced s k f).str s).cmp = (d.str s).cmp := by rw [Dev.modPlaced_str]

/-- A placed batt of the key, changed. -/
theorem Dev.mem_modPlaced {d : Dev} {s : Nat} {k : Nat × Option Nat} {p : Placed} (f : Placed → Placed) (hp : p ∈ (d.str s).batts)
    (hk : p.batt = k) : f p ∈ ((d.modPlaced s k f).str s).batts := by
  rw [Dev.modPlaced_str]; exact List.mem_map.mpr ⟨p, hp, if_pos hk⟩

theorem Dev.modPlaced_str_ne (d : Dev) {s j : Nat} (k : Nat × Option Nat) (f : Placed → Placed) (h : j ≠ s) :
    (d.modPlaced s k f).str j = d.str j := d.str_modStr_ne _ h

@[simp] theorem Dev.showPlc_plc (d : Dev) (s : Nat) : (d.showPlc s).plc = d.plc := by
  unfold Dev.showPlc; rw [Dev.wrN_plc, Dev.wrN_plc, Dev.setFld_plc]
@[simp] theorem Dev.showPlc_ful (d : Dev) (s : Nat) : (d.showPlc s).ful = d.ful := by
  unfold Dev.showPlc; rw [Dev.wrN_ful, Dev.wrN_ful, Dev.setFld_ful]
@[simp] theorem Dev.showPlc_hood (d : Dev) (s : Nat) : (d.showPlc s).hood = d.hood := by
  unfold Dev.showPlc; rw [Dev.wrN_hood, Dev.wrN_hood, Dev.setFld_hood]
@[simp] theorem Dev.showPlc_pipes (d : Dev) (s : Nat) : (d.showPlc s).pipes = d.pipes := by
  unfold Dev.showPlc; rw [Dev.wrN_pipes, Dev.wrN_pipes, Dev.setFld_pipes]
@[simp] theorem Dev.showPlc_pos (d : Dev) (s : Nat) : (d.showPlc s).pos = d.pos := by
  unfold Dev.showPlc; rw [Dev.wrN_pos, Dev.wrN_pos, Dev.setFld_pos]
@[simp] theorem Dev.showPlc_cnf (d : Dev) (s : Nat) : (d.showPlc s).cnf = d.cnf := by
  unfold Dev.showPlc; rw [Dev.wrN_cnf, Dev.wrN_cnf, Dev.setFld_cnf]
@[simp] theorem Dev.showPlc_str (d : Dev) (s j : Nat) : (d.showPlc s).str j = d.str j := by simp [Dev.str]
@[simp] theorem Dev.showPlc_qp (d : Dev) (s q : Nat) : (d.showPlc s).qp q = d.qp q := by simp [Dev.qp]

/-- The registers that show the in-flight load change alone. -/
theorem Dev.showPlc_regsKept (d : Dev) (s : Nat) : d.regsKept (d.showPlc s) [Reg.strStat s, Reg.plcStat, Reg.plcInflKib] := by
  intro a ha
  simp only [List.mem_cons, List.not_mem_nil, or_false, not_or] at ha
  rw [Dev.showPlc, Dev.rd_wrN_ne _ _ _ _ ha.1, Dev.rd_wrN_ne _ _ _ _ ha.2.2, Dev.rd_setFld_ne _ _ _ _ _ _ ha.2.1]

/-! ## The end of issues (R384, R389) -/

/-- What holds is kept by the end of issues FAILED, if the end of each keeps it. -/
theorem Dev.failIssues_keeps {P : Dev → Prop} {s cause : Nat} (hP : ∀ d i, P d → P ((d.endIssue s i cause 0).dropWqe i.qp s i.pid))
    (d : Dev) (p : Issue → Bool) (h : P d) : P (d.failIssues s cause p) :=
  List.foldlRecOn _ _ h fun d hd i _ => hP d i hd

/-- Without such an issue nothing ends. -/
theorem Dev.failIssues_none {d : Dev} {s : Nat} {p : Issue → Bool} (cause : Nat) (h : ∀ i ∈ (d.str s).issues, p i = false) :
    d.failIssues s cause p = d := by
  have : (d.str s).issues.filter p = [] := by simpa using h
  simp [Dev.failIssues, this]

@[simp] theorem Dev.countBusy_plc (d : Dev) (before : Bool) : (d.countBusy before).plc = d.plc := by
  unfold Dev.countBusy; dsimp only; split
  · rfl
  · split <;> rfl

@[simp] theorem Dev.countBusy_fulBatts (d : Dev) (before : Bool) : (d.countBusy before).ful.batts = d.ful.batts := by
  unfold Dev.countBusy; dsimp only; split
  · rfl
  · split <;> rfl

/-- Of placement, the end of an issue changes its stream alone. -/
theorem Dev.endIssue_plc (d : Dev) (s : Nat) (i : Issue) (cause pseal : Nat) :
    ∃ f : Stream → Stream, (d.endIssue s i cause pseal).plc = (d.modStr s f).plc ∧ ∀ t, (f t).issues = t.issues.erase i := by
  unfold Dev.endIssue
  simp only [Dev.showPlc_plc, Dev.countBusy_plc]
  by_cases h : cause = 0
  · rw [if_pos h]; exact ⟨_, rfl, fun t => rfl⟩
  · rw [if_neg h, Dev.incSat_plc]; exact ⟨_, rfl, fun t => rfl⟩

theorem Dev.endIssue_fulBatts (d : Dev) (s : Nat) (i : Issue) (cause pseal : Nat) :
    (d.endIssue s i cause pseal).ful.batts = d.ful.batts := by
  unfold Dev.endIssue
  simp only [Dev.showPlc_ful, Dev.countBusy_fulBatts]
  by_cases h : cause = 0
  · rw [if_pos h]; rfl
  · rw [if_neg h, Dev.incSat_ful]; rfl

theorem Dev.endIssue_str_ne (d : Dev) {s j : Nat} (i : Issue) (cause pseal : Nat) (h : j ≠ s) :
    (d.endIssue s i cause pseal).str j = d.str j := by
  obtain ⟨f, hf, -⟩ := d.endIssue_plc s i cause pseal
  rw [Dev.str, hf]; exact d.str_modStr_ne f h

theorem Dev.endIssue_issues (d : Dev) (s : Nat) (i : Issue) (cause pseal : Nat) :
    ((d.endIssue s i cause pseal).str s).issues = (d.str s).issues.erase i := by
  obtain ⟨f, hf, hi⟩ := d.endIssue_plc s i cause pseal
  rw [Dev.str, hf]; exact (congrArg Stream.issues (d.str_modStr_same s f)).trans (hi _)

theorem Dev.endIssue_qp (d : Dev) (s : Nat) (i : Issue) (cause pseal q : Nat) : (d.endIssue s i cause pseal).qp q = d.qp q := by
  obtain ⟨f, hf, -⟩ := d.endIssue_plc s i cause pseal
  rw [Dev.qp, hf]; rfl

@[simp] theorem Dev.dropWqe_str (d : Dev) (q s pid j : Nat) : (d.dropWqe q s pid).str j = d.str j := rfl
@[simp] theorem Dev.dropWqe_ful (d : Dev) (q s pid : Nat) : (d.dropWqe q s pid).ful = d.ful := rfl

/-- Withdrawing a parcel's request leaves the last request of a queue pair, if that carries a record or a descriptor. -/
theorem Dev.dropWqe_getLast {d : Dev} {q : Nat} {w : Wqe} {st place : Nat} {desc : Bool} (hw : w.kind = .item st place desc)
    (h : (d.qp q).sq.getLast? = some w) (q' s pid : Nat) : ((d.dropWqe q' s pid).qp q).sq.getLast? = some w := by
  by_cases hq : q = q'
  · subst hq
    obtain ⟨l, hl⟩ := List.getLast?_eq_some_iff.mp h
    simp [Dev.dropWqe, hl, hw]
  · rw [Dev.dropWqe, Dev.qp_modQp_ne _ _ hq]; exact h

/-- The issues of a stream that satisfy a condition are gone once they have ended. -/
theorem Dev.failIssues_issues (d : Dev) (s cause : Nat) (p : Issue → Bool) :
    ∀ i ∈ ((d.failIssues s cause p).str s).issues, p i = false := by
  have hfold : ∀ (l : List Issue) (d : Dev),
      ((l.foldl (fun d i => (d.endIssue s i cause 0).dropWqe i.qp s i.pid) d).str s).issues = (d.str s).issues.diff l := by
    intro l
    induction l with
    | nil => intro d; rfl
    | cons i l ih =>
      intro d
      rw [List.foldl_cons, ih, List.diff_cons, Dev.dropWqe_str, Dev.endIssue_issues]
  intro i hi
  by_contra hp
  rw [Dev.failIssues, hfold, (List.mergeSort_perm _ _).diff_left _] at hi
  have hc := List.count_pos_iff.mpr hi
  rw [List.count_diff, List.count_filter (by simpa using hp)] at hc
  omega

/-! ## Roll-back (R43, R390) -/

theorem Dev.rollbackOn_str_ne (d : Dev) {s j : Nat} (p : Nat × Option Nat → Bool) (h : j ≠ s) : (d.rollbackOn s p).str j = d.str j := by
  rw [Dev.rollbackOn, Dev.str_modStr_ne _ _ h]
  exact Dev.failIssues_keeps (P := fun u => u.str j = d.str j) (fun u i hu => by
    rw [Dev.dropWqe_str, Dev.endIssue_str_ne _ _ _ _ h]; exact hu) d _ rfl

theorem Dev.rollbackOn_fulBatts (d : Dev) (s : Nat) (p : Nat × Option Nat → Bool) : (d.rollbackOn s p).ful.batts = d.ful.batts := by
  rw [Dev.rollbackOn, Dev.modStr_ful]
  exact Dev.failIssues_keeps (P := fun u => u.ful.batts = d.ful.batts) (fun u i hu => by
    rw [Dev.dropWqe_ful, Dev.endIssue_fulBatts]; exact hu) d _ rfl

theorem Dev.rollbackOn_getLast {d : Dev} {q : Nat} {w : Wqe} {st place : Nat} {desc : Bool} (hw : w.kind = .item st place desc)
    (h : (d.qp q).sq.getLast? = some w) (s : Nat) (p : Nat × Option Nat → Bool) :
    ((d.rollbackOn s p).qp q).sq.getLast? = some w := by
  rw [Dev.rollbackOn, Dev.modStr_qp]
  refine Dev.failIssues_keeps (P := fun u => (u.qp q).sq.getLast? = some w) (fun u i hu => ?_) d _ h
  have he : ((u.endIssue s i 4 0).qp q).sq.getLast? = some w := by rw [Dev.endIssue_qp]; exact hu
  exact Dev.dropWqe_getLast hw he i.qp s i.pid

/-- On stream j the batt of a key is before its cutting, unless it has FAILED there, and no issue of it stands. -/
def Dev.RolledBack (d : Dev) (key : Nat × Option Nat) (j : Nat) : Prop :=
  (∀ z ∈ (d.str j).batts, z.batt = key → z.fail = 0 → z.cut = false ∧ z.todo = [] ∧ z.re = [] ∧ z.done = [] ∧ z.placed = false)
  ∧ ∀ y ∈ (d.str j).issues, y.batt ≠ key

theorem Dev.rollbackOn_rolledBack (d : Dev) (key : Nat × Option Nat) (s : Nat) : (d.rollbackOn s (· == key)).RolledBack key s := by
  unfold Dev.RolledBack Dev.rollbackOn
  rw [Dev.str_modStr_same]
  refine ⟨fun z hz hk hf => ?_, fun y hy => by simpa using Dev.failIssues_issues d s 4 _ y hy⟩
  obtain ⟨b, -, rfl⟩ := List.mem_map.mp hz
  by_cases hb : b.batt = key <;> by_cases h0 : b.fail = 0 <;> simp_all [Placed.rollback]

/-- After the roll-back on every stream of a list the batt is rolled back on each of them. -/
theorem Dev.foldl_rollbackOn_rolledBack (key : Nat × Option Nat) (l : List Nat) (d : Dev) {j : Nat} (h : j ∈ l ∨ d.RolledBack key j) :
    (l.foldl (fun d s => d.rollbackOn s (· == key)) d).RolledBack key j := by
  induction l generalizing d with
  | nil => simpa using h
  | cons s l ih =>
    refine ih _ ?_
    by_cases hj : j = s
    · subst hj; exact .inr (d.rollbackOn_rolledBack key j)
    · refine h.imp (fun hl => (List.mem_cons.mp hl).resolve_left hj) fun hd => ?_
      unfold Dev.RolledBack; rw [Dev.rollbackOn_str_ne d _ hj]; exact hd

/-! ## What follows from a FAILED record (R384) -/

/-- A placed batt that becomes FAILED and has no issue left. -/
def Placed.failed (cause : Nat) (p : Placed) : Placed :=
  if p.fail = 0 then { p with fail := cause, cut := true, todo := [], re := [], placed := true } else { p with placed := true }

theorem Placed.failed_batt (cause : Nat) (p : Placed) : (p.failed cause).batt = p.batt := by unfold Placed.failed; split <;> rfl

theorem Dev.failPlaced_noIssues {d : Dev} {s : Nat} {k : Nat × Option Nat} (cause : Nat) (h : ∀ i ∈ (d.str s).issues, i.batt ≠ k) :
    d.failPlaced s k cause = d.modPlaced s k (Placed.failed cause) := by
  unfold Dev.failPlaced; dsimp only
  rw [Dev.failIssues_none 7 (by rw [Dev.modPlaced_str]; simpa using h), Dev.modPlaced_modPlaced _ _ _ _ (by intro p; split <;> rfl)]
  congr 1; funext p; unfold Placed.failed; simp only [Function.comp]; split <;> rfl

/-- Index k of a placed batt is to be issued again: it is cut, not FAILED, and the index neither waits nor is done. -/
def Placed.reissue (k : Nat) (p : Placed) : Placed :=
  if p.fail = 0 ∧ p.cut = true ∧ k < p.total ∧ (p.todo ++ p.re ++ p.done).contains k = false then { p with re := p.re ++ [k] } else p

theorem Placed.reissue_batt (k : Nat) (p : Placed) : (p.reissue k).batt = p.batt := by unfold Placed.reissue; split <;> rfl

theorem Dev.reissue_noIssues {d : Dev} {s : Nat} {key : Nat × Option Nat} (k : Nat) (h : ∀ i ∈ (d.str s).issues, i.batt ≠ key) :
    d.reissue s key k = d.modPlaced s key (Placed.reissue k) := by
  have hf : (d.str s).issues.any (fun i => i.batt == key && i.idx == k) = false := by simpa using fun i hi he => absurd he (h i hi)
  unfold Dev.reissue; simp only [hf, true_and]; rfl

end Sys2Proof.Machine
end

section
/-! SUPPORT. The next item of a completion hopper is written, or is lost, and a FAILED record is acted on (R111, R373, R384, R387). -/

namespace Sys2Proof.Machine

open Sys2Proof

/-! ## What follows from a FAILED record on its stream (R384) -/

/-- Failures of parcel k with a remote cause, with the present one. -/
def Placed.remoteCount (p : Placed) (k : Nat) : Nat := ((p.remote.find? fun x => x.1 == k).map (·.2)).getD 0 + 1

/-- The placed batt of a FAILED record of parcel k, acted on by a cause of that stream alone (R384); n counts remote failures. -/
def Placed.actedOn (k cause n : Nat) (p : Placed) : Placed :=
  if cause = 1 then p.failed 4
  else if cause = 7 then p.failed 6
  else if cause = 4 ∨ cause = 5 then p.reissue k
  else
    let q := { p with remote := (k, n) :: p.remote.filter fun y => y.1 != k }
    if 3 ≤ n then q.failed 5 else q.reissue k

theorem Placed.actedOn_batt (k cause n : Nat) (p : Placed) : (p.actedOn k cause n).batt = p.batt := by
  unfold Placed.actedOn; dsimp only; split_ifs <;> simp only [Placed.failed_batt, Placed.reissue_batt]

theorem Placed.failed_of_live {p : Placed} (h : p.fail = 0) (cause : Nat) :
    p.failed cause = { p with fail := cause, cut := true, todo := [], re := [], placed := true } := if_pos h

theorem Placed.reissue_of {p : Placed} {k : Nat} (h : p.fail = 0 ∧ p.cut = true ∧ k < p.total ∧ k ∉ p.todo ++ p.re ++ p.done) :
    p.reissue k = { p with re := p.re ++ [k] } := by
  refine if_pos ⟨h.1, h.2.1, h.2.2.1, ?_⟩
  simpa using h.2.2.2

/-- Flushed, poisoned and, up to twice, remote: the parcel is to be issued again. -/
theorem Placed.actedOn_again {p : Placed} {k cause n : Nat} (h0 : p.fail = 0)
    (hc : cause = 4 ∨ cause = 5 ∨ (cause = 2 ∨ cause = 3) ∧ n < 3)
    (h : p.cut = true ∧ k < p.total ∧ k ∉ p.todo ++ p.re ++ p.done) :
    (p.actedOn k cause n).fail = 0 ∧ (p.actedOn k cause n).re = p.re ++ [k] := by
  have h1 : cause ≠ 1 := by omega
  have h7 : cause ≠ 7 := by omega
  unfold Placed.actedOn
  rw [if_neg h1, if_neg h7]
  by_cases h45 : cause = 4 ∨ cause = 5
  · rw [if_pos h45, Placed.reissue_of ⟨h0, h⟩]; exact ⟨h0, rfl⟩
  · dsimp only
    rw [if_neg h45, if_neg (by omega : ¬ 3 ≤ n), Placed.reissue_of (by exact ⟨h0, h⟩)]; exact ⟨h0, rfl⟩

/-- Revoked, withdrawn and the third remote: the batt becomes FAILED on the stream. -/
theorem Placed.actedOn_fail {p : Placed} {k cause n fail : Nat} (h0 : p.fail = 0)
    (hc : fail = if cause = 1 then 4 else if cause = 7 then 6 else if (cause = 2 ∨ cause = 3) ∧ 3 ≤ n then 5 else 0)
    (hf : fail ≠ 0) : ∃ q : Placed, q.fail = 0 ∧ p.actedOn k cause n = q.failed fail := by
  unfold Placed.actedOn
  by_cases h1 : cause = 1
  · exact ⟨p, h0, by simp [h1, hc]⟩
  by_cases h7 : cause = 7
  · exact ⟨p, h0, by simp [h7, hc]⟩
  have h23 : (cause = 2 ∨ cause = 3) ∧ 3 ≤ n := by
    by_contra hn; rw [if_neg h1, if_neg h7, if_neg hn] at hc; exact hf hc
  rw [if_neg h1, if_neg h7, if_pos h23] at hc
  have h45 : ¬ (cause = 4 ∨ cause = 5) := by omega
  exact ⟨{ p with remote := (k, n) :: p.remote.filter fun y => y.1 != k }, h0, by simp only [h1, h7, h45, h23.2, hc, if_true, if_false]⟩

/-- A record whose cause concerns its stream alone is acted on by a change of the placed batt, if no issue of the batt stands. -/
theorem Dev.actOn_noIssues {d : Dev} {s cause : Nat} {i : Issue} {p : Placed}
    (hp : (d.str s).batts.find? (fun p => p.batt == i.batt) = some p) (h0 : p.fail = 0)
    (hn : ∀ y ∈ (d.str s).issues, y.batt ≠ i.batt) (h6 : cause ≠ 6) :
    d.actOn s i cause = d.modPlaced s i.batt (Placed.actedOn i.idx cause (p.remoteCount i.idx)) := by
  have hm : ∀ f, ∀ y ∈ ((d.modPlaced s i.batt f).str s).issues, y.batt ≠ i.batt := by
    intro f; rw [Dev.modPlaced_str]; exact hn
  unfold Dev.actOn
  simp only [hp, h0, ne_eq, not_true_eq_false, if_false]
  split
  · rw [Dev.failPlaced_noIssues 4 hn]; rfl
  · exact absurd rfl h6
  · rw [Dev.failPlaced_noIssues 6 hn]; rfl
  · rw [Dev.reissue_noIssues i.idx hn]; rfl
  · rw [Dev.reissue_noIssues i.idx hn]; rfl
  next h1 _ h7 h4 h5 =>
    have ha : Placed.actedOn i.idx cause (p.remoteCount i.idx) = (if 3 ≤ p.remoteCount i.idx then Placed.failed 5 else Placed.reissue i.idx)
        ∘ fun x => { x with remote := (i.idx, p.remoteCount i.idx) :: x.remote.filter fun y => y.1 != i.idx } := by
      have h45 : ¬ (cause = 4 ∨ cause = 5) := fun h => h.elim h4 h5
      funext x
      unfold Placed.actedOn; dsimp only
      rw [if_neg h1, if_neg h7, if_neg h45, Function.comp]
      split <;> rfl
    rw [ha, ← Dev.modPlaced_modPlaced _ _ _ _ (by intro x; rfl)]
    by_cases h3 : 3 ≤ p.remoteCount i.idx
    · rw [if_pos h3]; exact (if_pos h3).trans (Dev.failPlaced_noIssues 5 (hm _))
    · rw [if_neg h3]; exact (if_neg h3).trans (Dev.reissue_noIssues i.idx (hm _))

/-- Acting on a record read with poison leaves the completion hopper. -/
theorem Dev.actOn_poison_cmp (d : Dev) (s : Nat) (i : Issue) : ((d.actOn s i 5).str s).cmp = (d.str s).cmp := by
  have hr : ((d.reissue s i.batt i.idx).str s).cmp = (d.str s).cmp :=
    Dev.modPlaced_cmp ..
  unfold Dev.actOn
  split
  · rfl
  · split
    · rfl
    · exact hr

/-! ## A batt whose staging data are damaged (R43, R299, R384) -/

/-- A batt that the hood can supply again waits for a slice anew. -/
def Batt.refulled (x : Batt) : Batt :=
  { x with state := .closed, slice := none, again := true, data := [], index := [], deferred := [], capped := 0, cutter := none }

section
variable {d : Dev} {key : Nat × Option Nat} {x : Batt} (hx : d.battKey key = some x) (hh : d.notHooded x = false)
include hx hh

/-- It is rolled back on every stream, leaves its slice, and waits for one. -/
theorem Dev.refull_eq : ∃ u : Dev, d.refull key = u.modKey key (fun y => if y.tiles = 0 then y else y.refulled)
    ∧ u.plc = ((List.range 8).foldl (fun d s => d.rollbackOn s (· == key)) d).plc
    ∧ u.ful = ((List.range 8).foldl (fun d s => d.rollbackOn s (· == key)) d).ful := by
  unfold Dev.refull
  simp only [hx, hh, Bool.false_eq_true, if_false]
  generalize (List.range 8).foldl (fun d s => d.rollbackOn s (· == key)) d = r
  cases x.slice with
  | none => exact ⟨_, rfl, rfl, rfl⟩
  | some k => exact ⟨_, rfl, Dev.setFlag_plc .., Dev.setFlag_ful ..⟩

theorem Dev.refull_battKey (ht : x.tiles ≠ 0) : (d.refull key).battKey key = some x.refulled := by
  obtain ⟨u, hu, -, hful⟩ := Dev.refull_eq hx hh
  have hb : u.ful.batts = d.ful.batts := by
    rw [hful]
    exact List.foldlRecOn (motive := fun u : Dev => u.ful.batts = d.ful.batts) _ _ rfl fun (v : Dev) hv s _ => (v.rollbackOn_fulBatts s _).trans hv
  have hk : u.battKey key = some x := by rw [← hx]; unfold Dev.battKey; rw [hb]
  rw [hu, Dev.battKey_modKey _ _ (by intro b; split <;> rfl), hk]
  simp [ht]

theorem Dev.refull_rolledBack {j : Nat} (hj : j < 8) : (d.refull key).RolledBack key j := by
  obtain ⟨u, hu, hplc, -⟩ := Dev.refull_eq hx hh
  have hr := Dev.foldl_rollbackOn_rolledBack key (List.range 8) d (.inl (List.mem_range.mpr hj))
  unfold Dev.RolledBack Dev.str at hr ⊢
  rw [← hplc] at hr
  rw [hu]; exact hr

theorem Dev.refull_getLast {q : Nat} {w : Wqe} {st place : Nat} {desc : Bool} (hw : w.kind = .item st place desc)
    (h : (d.qp q).sq.getLast? = some w) : ((d.refull key).qp q).sq.getLast? = some w := by
  obtain ⟨u, hu, hplc, -⟩ := Dev.refull_eq hx hh
  have hl := List.foldlRecOn (motive := fun u : Dev => (u.qp q).sq.getLast? = some w) (List.range 8)
    (fun (d : Dev) s => d.rollbackOn s (· == key)) h fun v hv s _ => Dev.rollbackOn_getLast hw hv s _
  unfold Dev.qp at hl ⊢
  rw [← hplc] at hl
  rw [hu]; exact hl

end

/-! ## The item that is next (R372, R373) -/

/-- c is the next item of the completion hopper of stream st, and the stream can write it. -/
structure Dev.NextItem (d : Dev) (st : Nat) (pre post : List CmpItem) (c : CmpItem) (b : Binding) : Prop where
  hopper : (d.str st).cmp = pre ++ c :: post
  before : ∀ y ∈ pre, y.posted = true
  once : c ∉ post
  unposted : c.posted = false
  bound : (d.str st).bind = some b
  ready : d.qpReady (d.curQp st) = true
  noRecovery : d.devRec = false
  notSafe : d.safe = false

namespace Dev.NextItem

variable {d : Dev} {st : Nat} {pre post : List CmpItem} {c : CmpItem} {b : Binding} (n : d.NextItem st pre post c b)
include n

theorem notBefore : c ∉ pre := fun h => by simpa [n.unposted] using n.before c h

theorem find : (d.str st).cmp.find? (fun c => !c.posted) = some c := by
  have : pre.find? (fun c => !c.posted) = none := by simpa using n.before
  simp [n.hopper, this, n.unposted]

theorem erase : (d.str st).cmp.erase c = pre ++ post := by
  rw [n.hopper, List.erase_append_right _ n.notBefore, List.erase_cons_head]

theorem replace (c' : CmpItem) : ((d.str st).cmp.map fun x => if x = c then c' else x) = pre ++ c' :: post := by
  have keep : ∀ l : List CmpItem, c ∉ l → (l.map fun x => if x = c then c' else x) = l := fun l h =>
    (List.map_congr_left fun x hx => if_neg fun e : x = c => h (e ▸ hx)).trans (List.map_id' l)
  simp [n.hopper, keep _ n.notBefore, keep _ n.once]

end Dev.NextItem

/-- The region of an item's ring is live, or it needs none (R383, R387). -/
def Dev.itemLive (d : Dev) (st : Nat) (b : Binding) (c : CmpItem) : Prop :=
  (c.issue ≠ none → d.regionLive b.cmpRegion = true)
  ∧ (c.issue = none → d.flag (Reg.strCfg st) 9 = false → d.regionLive b.descRegion = true)

theorem Dev.itemLost_eq_false {d : Dev} {st : Nat} {b : Binding} {c : CmpItem} : d.itemLost st b c = false ↔ d.itemLive st b c := by
  unfold Dev.itemLost Dev.itemLive
  cases c.issue with
  | none => cases d.flag (Reg.strCfg st) 9 <;> simp
  | some i => simp

/-! ## The write of an item (R372, R373, R383) -/

/-- An item that has been written at a place of its ring, and acted on. -/
def CmpItem.written (c : CmpItem) (place : Nat) : CmpItem := { c with place := some place, posted := true, acted := true, read := true }

/-- The request that writes an item at a place of its ring. -/
def Dev.itemWqe (d : Dev) (st : Nat) (b : Binding) (c : CmpItem) (place : Nat) : Wqe :=
  { kind := .item st place c.issue.isNone, region := if c.issue = none then b.descRegion else b.cmpRegion
    off := if c.issue ≠ none then b.cmpOff + 32 * (place % max 1 b.cmpSlots)
      else if d.flag (Reg.strCfg st) 9 = true then 0 else b.descOff + 128 * (place % max 1 b.descSlots)
    len := c.bytes.length, bytes := c.bytes
    imm := if c.issue = none ∧ d.flag (Reg.strCfg st) 8 = true then some (c.batt.1 % 2 ^ 32) else none
    send := c.issue.isNone && d.flag (Reg.strCfg st) 9 }

theorem Dev.postItem_eq (d : Dev) (st : Nat) (b : Binding) (c : CmpItem) (place : Nat) :
    d.postItem st b c place = d.post (d.curQp st) (d.itemWqe st b c place) := by
  unfold Dev.postItem Dev.itemWqe
  cases c.issue <;> simp

@[simp] theorem Dev.post_str (d : Dev) (q : Nat) (w : Wqe) (j : Nat) : (d.post q w).str j = d.str j := rfl

/-- The binding after an item: a record without a place yet takes the next of its ring. -/
def Binding.after (b : Binding) (c : CmpItem) : Binding :=
  if c.issue = none ∨ c.place ≠ none then b else { b with cmpWritten := b.cmpWritten + 1 }

/-- Item c of stream st is written as c' at a place of its ring. -/
def Dev.itemPosted (d : Dev) (st : Nat) (b : Binding) (c c' : CmpItem) (place : Nat) : Dev :=
  ((d.modStr st fun t => { t with
    cmp := t.cmp.map fun x => if x = c then c' else x
    bind := if c.issue.isSome ∧ c.place.isNone then t.bind.map fun y => { y with cmpWritten := y.cmpWritten + 1 } else t.bind }).postItem st b c' place).showPlc st

section
variable (d : Dev) (st : Nat) (b : Binding) (c c' : CmpItem) (place : Nat)

theorem Dev.itemPosted_str : (d.itemPosted st b c c' place).str st = { d.str st with
    cmp := (d.str st).cmp.map fun x => if x = c then c' else x
    bind := (d.str st).bind.map fun b => b.after c } := by
  have hb : ∀ o : Option Binding, (if c.issue.isSome ∧ c.place.isNone then o.map fun y => { y with cmpWritten := y.cmpWritten + 1 } else o)
      = o.map fun b => b.after c := by
    intro o; unfold Binding.after; cases c.issue <;> cases c.place <;> simp
  unfold Dev.itemPosted
  rw [← hb, Dev.showPlc_str, Dev.postItem_eq, Dev.post_str, Dev.str_modStr_same]

theorem Dev.itemPosted_str_ne {j : Nat} (h : j ≠ st) : (d.itemPosted st b c c' place).str j = d.str j := by
  unfold Dev.itemPosted
  rw [Dev.showPlc_str, Dev.postItem_eq, Dev.post_str, Dev.str_modStr_ne _ _ h]

theorem Dev.itemPosted_sq : ((d.itemPosted st b c c' place).qp (d.curQp st)).sq = (d.qp (d.curQp st)).sq ++ [d.itemWqe st b c' place] := by
  unfold Dev.itemPosted
  rw [Dev.showPlc_qp, Dev.postItem_eq]
  exact congrArg QPair.sq (Dev.qp_modQp_same _ (d.curQp st) _)

theorem Dev.itemPosted_regsKept : d.regsKept (d.itemPosted st b c c' place) [Reg.strStat st, Reg.plcStat, Reg.plcInflKib] := fun a ha =>
  Dev.showPlc_regsKept _ st a ha

theorem Dev.itemPosted_pipes : (d.itemPosted st b c c' place).pipes = d.pipes := Dev.showPlc_pipes _ st
theorem Dev.itemPosted_pos : (d.itemPosted st b c c' place).pos = d.pos := Dev.showPlc_pos _ st
theorem Dev.itemPosted_ful : (d.itemPosted st b c c' place).ful = d.ful := Dev.showPlc_ful _ st
theorem Dev.itemPosted_hood : (d.itemPosted st b c c' place).hood = d.hood := Dev.showPlc_hood _ st

end

/-- Of what stands in the device, the write of item c at its place: its request, its mark in the hopper, and the count of its ring. -/
def Dev.ItemWritten (d u : Dev) (st : Nat) (pre post : List CmpItem) (c : CmpItem) (b : Binding) (place : Nat) : Prop :=
  (u.qp (d.curQp st)).sq = (d.qp (d.curQp st)).sq ++ [d.itemWqe st b c place]
  ∧ (u.str st).cmp = pre ++ c.written place :: post ∧ (u.str st).bind = some (b.after c)
  ∧ u.pipes = d.pipes ∧ u.pos = d.pos

theorem Dev.NextItem.itemPosted_written {d : Dev} {st : Nat} {pre post : List CmpItem} {c : CmpItem} {b : Binding}
    (n : d.NextItem st pre post c b) (place : Nat) :
    d.ItemWritten ((d.hopRead 68).itemPosted st b c (c.written place) place) st pre post c b place := by
  refine ⟨(d.hopRead 68).itemPosted_sq .., ?_, ?_, Dev.itemPosted_pipes .., Dev.itemPosted_pos ..⟩
  · rw [Dev.itemPosted_str]; exact n.replace _
  · rw [Dev.itemPosted_str]; exact congrArg (Option.map fun b : Binding => b.after c) n.bound

/-- Changing the placed batts of a key changes nothing of an item's write. -/
theorem Dev.ItemWritten.modPlaced {d u : Dev} {st : Nat} {pre post : List CmpItem} {c : CmpItem} {b : Binding} {place : Nat}
    (h : d.ItemWritten u st pre post c b place) (k : Nat × Option Nat) (f : Placed → Placed) :
    d.ItemWritten (u.modPlaced st k f) st pre post c b place := by
  unfold Dev.ItemWritten
  rw [Dev.modPlaced_str]
  exact h

/-! ## COMPLETION_WRITE -/

section
variable {s : State} {st : Fin 8} {pre post : List CmpItem} {c : CmpItem} {b : Binding} {hits : Hits}

/-- The words of an item that its reading meets with poison: none once it has been read. -/
def CmpItem.badWords (c : CmpItem) (hits : Hits) : List Nat := if c.read then [] else Machine.badWords c.bytes hits

theorem CmpItem.ite_read (c : CmpItem) (hits : Hits) : (if c.read then [] else Machine.badWords c.bytes hits) = c.badWords hits := rfl

/-- The place of an item in its ring. -/
def CmpItem.placeIn (c : CmpItem) (b : Binding) : Nat := c.place.getD (if c.issue = none then b.descWritten else b.cmpWritten)

/-- A record's ring is not full, or the record has its place in it (R372). -/
theorem CmpItem.hasRoom (h : c.place = none → b.cmpWritten - b.cmpRead < b.cmpSlots) :
    ¬ (c.place = none ∧ b.cmpSlots ≤ b.cmpWritten - b.cmpRead) := fun ⟨hp, hb⟩ => Nat.not_lt.mpr hb (h hp)

theorem exec_completionWrite : exec (.completionWrite st hits) s = execCompletionWrite st hits s := rfl

theorem completionWrite_idle (ha : s.alive) (h : (s.dev.str st.val).cmp.all (·.posted) = true
    ∨ s.dev.qpReady (s.dev.curQp st.val) = false ∨ (s.dev.str st.val).bind = none) :
    exec (.completionWrite st hits) s = .next { s with dev := s.dev } := by
  rw [exec_completionWrite, execCompletionWrite, State.upd_alive ha]
  congr 2
  dsimp only
  split
  next c b hc hb =>
    rcases h with h | h | h
    · have : (s.dev.str st.val).cmp.find? (fun c => !c.posted) = none := by simpa using h
      simp [this] at hc
    · rw [if_pos (.inl h)]
    · simp [h] at hb
  next => rfl

section
variable (ha : s.alive) (n : s.dev.NextItem st.val pre post c b)
include ha n

/-- An item to a revoked region is dropped (R387, notes/assumptions/121.md). -/
theorem completionWrite_dropped (hl : ¬ s.dev.itemLive st.val b c) : exec (.completionWrite st hits) s
    = .next { s with dev := s.dev.modStr st.val fun t => { t with cmp := t.cmp.erase c } } := by
  have hl : s.dev.itemLost st.val b c = true := by simpa [← Dev.itemLost_eq_false] using hl
  rw [exec_completionWrite, execCompletionWrite, State.upd_alive ha]
  simp [n.find, n.bound, n.ready, n.noRecovery, n.notSafe, hl]

variable (hl : s.dev.itemLive st.val b c)
include hl

/-- A descriptor is written, whatever of it is read with poison. -/
theorem completionWrite_descriptor (hi : c.issue = none) : exec (.completionWrite st hits) s = .next { s with
    dev := ((s.dev.hopRead 68).itemPosted st.val b c (c.written (c.placeIn b)) (c.placeIn b)).poisonRead 68 5 (c.badWords hits) } := by
  have hl := Dev.itemLost_eq_false.mpr hl
  rw [exec_completionWrite, execCompletionWrite, State.upd_alive ha]
  simp [n.find, n.bound, n.ready, n.noRecovery, n.notSafe, c.ite_read, hl, hi, CmpItem.placeIn, CmpItem.written, Dev.itemPosted]

variable {i : Issue} (hi : c.issue = some i) (hroom : c.place = none → b.cmpWritten - b.cmpRead < b.cmpSlots)
include hi hroom

/-- A record read without poison is written, and acted on if it is FAILED and has not been yet. -/
theorem completionWrite_record (hb : c.badWords hits = []) : exec (.completionWrite st hits) s = .next { s with
    dev := let u := (s.dev.hopRead 68).itemPosted st.val b c (c.written (c.placeIn b)) (c.placeIn b)
      if c.cause ≠ 0 ∧ c.acted = false then u.actOn st.val i c.cause else u } := by
  have hl := Dev.itemLost_eq_false.mpr hl
  have hroom := CmpItem.hasRoom hroom
  rw [exec_completionWrite, execCompletionWrite, State.upd_alive ha]
  simp [n.find, n.bound, n.ready, n.noRecovery, n.notSafe, c.ite_read, hl, hi, hb, hroom, CmpItem.placeIn, CmpItem.written, Dev.itemPosted,
    Dev.poisonRead]

/-- A record read with poison, not in both copies of its parcel index, is written as FAILED(POISON) (R111). -/
theorem completionWrite_poisoned (hb : c.badWords hits ≠ []) (h04 : ¬ (0 ∈ c.badWords hits ∧ 4 ∈ c.badWords hits)) :
    exec (.completionWrite st hits) s = .next { s with
      dev :=
        let r := (s.dev.hopRead 68).poisonItem st.val c i
        let u := r.2.itemPosted st.val b c (r.1.written (c.placeIn b)) (c.placeIn b)
        (if c.acted = false then u.actOn st.val i 5 else u).poisonRead 68 5 (c.badWords hits) } := by
  have hl := Dev.itemLost_eq_false.mpr hl
  have hroom := CmpItem.hasRoom hroom
  have hc : ((s.dev.hopRead 68).poisonItem st.val c i).1.cause = 5 := by unfold Dev.poisonItem; split <;> rfl
  rw [exec_completionWrite, execCompletionWrite, State.upd_alive ha]
  simp [n.find, n.bound, n.ready, n.noRecovery, n.notSafe, c.ite_read, hl, hi, hb, h04, hroom, hc, CmpItem.placeIn, CmpItem.written, Dev.itemPosted]

/-- A record both of whose copies of its parcel index are read with poison is lost (R111). -/
theorem completionWrite_lost (h0 : 0 ∈ c.badWords hits) (h4 : 4 ∈ c.badWords hits) : exec (.completionWrite st hits) s
    = .next { s with dev := (s.dev.hopRead 68).loseCompletion st.val c i (c.badWords hits) } := by
  have hl := Dev.itemLost_eq_false.mpr hl
  have hroom := CmpItem.hasRoom hroom
  rw [exec_completionWrite, execCompletionWrite, State.upd_alive ha]
  simp [n.find, n.bound, n.ready, n.noRecovery, n.notSafe, c.ite_read, hl, hi, h0, h4, hroom]

end

/-! ## What a record says when it has been read with poison (R111, R378) -/

theorem recordBytes_status (d : Dev) (s : Nat) (i : Issue) : leAt (d.recordBytes s i 5 0) 22 1 = 0x85 := by
  simp [Dev.recordBytes, withSeal, leAt_le_append_skip, leAt_le_append]

theorem recordBytes_noSeal (d : Dev) (s : Nat) (i : Issue) : leAt (d.recordBytes s i 5 0) 24 4 = 0 := by
  simp [Dev.recordBytes, withSeal, leAt_le_append_skip, leAt_le_append]

theorem Dev.poisonItem_fst (d : Dev) (s : Nat) (c : CmpItem) (i : Issue) :
    (d.poisonItem s c i).1 = { c with cause := 5, bytes := d.recordBytes s i 5 0 } := by unfold Dev.poisonItem; split <;> rfl

theorem Dev.poisonItem_cmp (d : Dev) (s : Nat) (c : CmpItem) (i : Issue) : ((d.poisonItem s c i).2.str s).cmp = (d.str s).cmp := by
  unfold Dev.poisonItem; split
  · rfl
  · exact d.modPlaced_cmp s i.batt _

/-! ## The clauses of COMPLETION_WRITE -/

section
variable (ha : s.alive) (n : s.dev.NextItem st.val pre post c b)
include ha n

theorem completionWrite_drops (hl : ¬ s.dev.itemLive st.val b c) : Becomes (.completionWrite st hits) s fun u =>
    (u.str st.val).cmp = pre ++ post ∧ u.plc.qps = s.dev.plc.qps ∧ u = { s.dev with plc := u.plc }
    ∧ ∀ j, j ≠ st.val → u.str j = s.dev.str j := by
  refine ⟨_, completionWrite_dropped ha n hl, ?_, rfl, rfl, fun j hj => s.dev.str_modStr_ne _ hj⟩
  rw [Dev.str_modStr_same]; exact n.erase

omit ha in
/-- The device after a write that nothing follows. -/
theorem Dev.NextItem.itemPosted_quiet (place : Nat) : let u := (s.dev.hopRead 68).itemPosted st.val b c (c.written place) place
    s.dev.ItemWritten u st.val pre post c b place ∧ (u.str st.val).batts = (s.dev.str st.val).batts
    ∧ (u.str st.val).issues = (s.dev.str st.val).issues ∧ u.ful = s.dev.ful ∧ u.hood = s.dev.hood
    ∧ s.dev.regsKept u [Reg.strStat st.val, Reg.plcStat, Reg.plcInflKib] := by
  refine ⟨n.itemPosted_written _, ?_, ?_, Dev.itemPosted_ful .., Dev.itemPosted_hood .., (s.dev.hopRead 68).itemPosted_regsKept st.val b c _ place⟩ <;> rw [Dev.itemPosted_str] <;> rfl

variable (hl : s.dev.itemLive st.val b c) {place : Nat} (hp : place = c.placeIn b)
include hl hp

theorem completionWrite_writes_descriptor (hi : c.issue = none) : Becomes (.completionWrite st hits) s fun v => ∃ u : Dev,
    v = u.poisonRead 68 5 (c.badWords hits) ∧ s.dev.ItemWritten u st.val pre post c b place
    ∧ (u.str st.val).batts = (s.dev.str st.val).batts := by
  subst hp
  obtain ⟨hw, hb, -⟩ := n.itemPosted_quiet (c.placeIn b)
  exact ⟨_, completionWrite_descriptor ha n hl hi, _, rfl, hw, hb⟩

variable (hroom : c.issue ≠ none → c.place = none → b.cmpWritten - b.cmpRead < b.cmpSlots)
include hroom

/-- A write of an item read without poison, a FAILED record not acted on before left aside. -/
theorem completionWrite_writes (hq : c.issue = none ∨ c.cause = 0 ∨ c.acted = true) (hb : c.badWords hits = []) :
    Becomes (.completionWrite st hits) s fun u => s.dev.ItemWritten u st.val pre post c b place
      ∧ (u.str st.val).batts = (s.dev.str st.val).batts ∧ (u.str st.val).issues = (s.dev.str st.val).issues
      ∧ u.ful = s.dev.ful ∧ u.hood = s.dev.hood ∧ s.dev.regsKept u [Reg.strStat st.val, Reg.plcStat, Reg.plcInflKib] := by
  subst hp
  cases hi : c.issue with
  | none =>
    have he := completionWrite_descriptor (hits := hits) ha n hl hi
    rw [hb, show ∀ d : Dev, d.poisonRead 68 5 [] = d from fun d => rfl] at he
    exact ⟨_, he, n.itemPosted_quiet _⟩
  | some i =>
    have he := completionWrite_record (hits := hits) ha n hl hi (hroom (by simp [hi])) hb
    have ha : ¬ (c.cause ≠ 0 ∧ c.acted = false) := by simpa [hi, imp_iff_not_or] using hq
    dsimp only at he
    rw [if_neg ha] at he
    exact ⟨_, he, n.itemPosted_quiet _⟩

variable {i : Issue} (hi : c.issue = some i)
include hi

/-- A FAILED record is written and acted on. -/
theorem completionWrite_acts (hact : c.acted = false) (hc : c.cause ≠ 0) (hb : c.badWords hits = []) :
    exec (.completionWrite st hits) s = .next { s with
      dev := ((s.dev.hopRead 68).itemPosted st.val b c (c.written place) place).actOn st.val i c.cause } := by
  subst hp
  have he := completionWrite_record (hits := hits) ha n hl hi (hroom (by simp [hi])) hb
  dsimp only at he
  rwa [if_pos ⟨hc, hact⟩] at he

/-- A FAILED record whose cause concerns its stream alone. -/
theorem completionWrite_acts_on_stream {p : Placed} {k : Nat} (hact : c.acted = false)
    (hf : (s.dev.str st.val).batts.find? (fun p => p.batt == i.batt) = some p) (h0 : p.fail = 0)
    (hno : ∀ y ∈ (s.dev.str st.val).issues, y.batt ≠ i.batt) (hk : k = p.remoteCount i.idx)
    (hc0 : c.cause ≠ 0) (hc6 : c.cause ≠ 6) (hb : c.badWords hits = []) :
    let again := (c.cause = 4 ∨ c.cause = 5 ∨ (c.cause = 2 ∨ c.cause = 3) ∧ k < 3) ∧ p.cut = true ∧ i.idx < p.total
      ∧ i.idx ∉ p.todo ++ p.re ++ p.done
    let fail := if c.cause = 1 then 4 else if c.cause = 7 then 6 else if (c.cause = 2 ∨ c.cause = 3) ∧ 3 ≤ k then 5 else 0
    Becomes (.completionWrite st hits) s fun u => s.dev.ItemWritten u st.val pre post c b place
      ∧ (again → ∃ z ∈ (u.str st.val).batts, z.batt = i.batt ∧ z.fail = 0 ∧ z.re = p.re ++ [i.idx])
      ∧ (fail ≠ 0 → ∃ z ∈ (u.str st.val).batts, z.batt = i.batt ∧ z.fail = fail ∧ z.placed = true ∧ z.todo = [] ∧ z.re = [])
      ∧ (∀ j, j ≠ st.val → u.str j = s.dev.str j) ∧ u.ful.batts = s.dev.ful.batts ∧ u.hood = s.dev.hood := by
  intro again fail
  subst hk
  have he := completionWrite_acts ha n hl hp hroom hi hact hc0 hb
  have hstr := Dev.itemPosted_str (s.dev.hopRead 68) st.val b c (c.written place) place
  rw [Dev.actOn_noIssues (p := p) (by rw [hstr]; exact hf) h0 (by rw [hstr]; exact hno) hc6] at he
  have hbatt : p.batt = i.batt := by simpa using List.find?_some hf
  have hmem := Dev.mem_modPlaced (d := (s.dev.hopRead 68).itemPosted st.val b c (c.written place) place)
    (Placed.actedOn i.idx c.cause (p.remoteCount i.idx)) (by rw [hstr]; exact List.mem_of_find?_eq_some hf) hbatt
  have hkey := (p.actedOn_batt i.idx c.cause (p.remoteCount i.idx)).trans hbatt
  refine ⟨_, he, (n.itemPosted_written place).modPlaced _ _, fun h => ⟨_, hmem, hkey, Placed.actedOn_again h0 h.1 h.2⟩, fun h => ?_,
    fun j hj => (Dev.modPlaced_str_ne _ _ _ hj).trans (Dev.itemPosted_str_ne _ _ _ _ _ _ hj), ?_, ?_⟩
  · obtain ⟨q, hq0, hq⟩ := Placed.actedOn_fail (k := i.idx) h0 rfl h
    refine ⟨_, hmem, hkey, ?_⟩
    rw [hq, Placed.failed_of_live hq0]
    exact ⟨rfl, rfl, rfl, rfl⟩
  · rw [Dev.modPlaced, Dev.modStr_ful, Dev.itemPosted_ful]; rfl
  · rw [Dev.modPlaced, Dev.modStr_hood, Dev.itemPosted_hood]; rfl

/-- A record of damaged staging data: the batt is fulled again from the hood. -/
theorem completionWrite_acts_on_batt {p : Placed} {x : Batt} (hact : c.acted = false)
    (hf : (s.dev.str st.val).batts.find? (fun p => p.batt == i.batt) = some p) (h0 : p.fail = 0) (hc : c.cause = 6)
    (hx : s.dev.battKey i.batt = some x) (hh : s.dev.notHooded x = false) (ht : x.tiles ≠ 0) (hb : c.badWords hits = []) :
    Becomes (.completionWrite st hits) s fun u => (u.qp (s.dev.curQp st.val)).sq.getLast? = some (s.dev.itemWqe st.val b c place)
      ∧ u.battKey i.batt = some x.refulled ∧ ∀ j, j < 8 → u.RolledBack i.batt j := by
  have he := completionWrite_acts ha n hl hp hroom hi hact (by omega) hb
  have hstr := Dev.itemPosted_str (s.dev.hopRead 68) st.val b c (c.written place) place
  have hlast := (n.itemPosted_written place).1
  generalize hu : (s.dev.hopRead 68).itemPosted st.val b c (c.written place) place = u at he hstr hlast
  have hux : u.battKey i.batt = some x := by rw [← hu, Dev.battKey, Dev.itemPosted_ful]; exact hx
  have huh : u.notHooded x = false := by rw [← hu, Dev.notHooded, Dev.itemPosted_hood]; exact hh
  have hr : u.actOn st.val i 6 = u.refull i.batt := by
    have hfu : (u.str st.val).batts.find? (fun p => p.batt == i.batt) = some p := by rw [hstr]; exact hf
    simp [Dev.actOn, hfu, h0]
  rw [hc, hr] at he
  exact ⟨_, he, Dev.refull_getLast hux huh rfl (by rw [hlast, List.getLast?_concat]), Dev.refull_battKey hux huh ht,
    fun j hj => Dev.refull_rolledBack hux huh hj⟩

omit hp in
/-- A record read with poison that still names its parcel (R111). -/
theorem completionWrite_fails_poisoned (hb : c.badWords hits ≠ []) (h04 : ¬ (0 ∈ c.badWords hits ∧ 4 ∈ c.badWords hits)) :
    Becomes (.completionWrite st hits) s fun u => ∃ d c', u = Dev.poisonRead d 68 5 (c.badWords hits) ∧ c' ∈ (d.str st.val).cmp
      ∧ c'.issue = some i ∧ c'.cause = 5 ∧ c'.posted = true ∧ leAt c'.bytes 22 1 = 0x85 ∧ leAt c'.bytes 24 4 = 0 := by
  have he := completionWrite_poisoned ha n hl hi (hroom (by simp [hi])) hb h04
  have hfst := (s.dev.hopRead 68).poisonItem_fst st.val c i
  have hcmp := (s.dev.hopRead 68).poisonItem_cmp st.val c i
  generalize (s.dev.hopRead 68).poisonItem st.val c i = r at he hfst hcmp
  dsimp only at he
  have hmem : r.1.written (c.placeIn b) ∈ ((r.2.itemPosted st.val b c (r.1.written (c.placeIn b)) (c.placeIn b)).str st.val).cmp := by
    rw [Dev.itemPosted_str, hcmp, Dev.hopRead_str, n.replace]; simp
  refine ⟨_, he, _, r.1.written (c.placeIn b), rfl, ?_, ?_⟩
  · split
    · rw [Dev.actOn_poison_cmp]; exact hmem
    · exact hmem
  · rw [hfst]; exact ⟨hi, rfl, rfl, recordBytes_status .., recordBytes_noSeal ..⟩

omit hp in
/-- A record read with poison that no longer names its parcel is lost, and its issue stands again (R111). -/
theorem completionWrite_loses (h0 : 0 ∈ c.badWords hits) (h4 : 4 ∈ c.badWords hits) :
    Becomes (.completionWrite st hits) s fun u => ∃ d : Dev,
      u = (d.incSat (Reg.hopCnt 68) 16 16 (c.badWords hits).length).occur [0x4D, 0x69] 0
      ∧ (d.str st.val).cmp = pre ++ post ∧ (d.str st.val).issues = (s.dev.str st.val).issues ++ [i] ∧ d.plc.qps = s.dev.plc.qps := by
  refine ⟨_, completionWrite_lost ha n hl hi (hroom (by simp [hi])) h0 h4, _, rfl, ?_, ?_, rfl⟩ <;>
    rw [Dev.modPlaced_str, Dev.str_modStr_same]
  · exact n.erase
  · rfl

end

end

end Sys2Proof.Machine
end

section
/-! SUPPORT. The descriptor of a batt: when it may be written, what it says, and what the batt becomes (R35 to R41, R367, R380). -/

namespace Sys2Proof.Machine

open Sys2Proof

/-! ## When a batt has its descriptor (R37 to R40, R100, R372) -/

/-- No packet of a write into the buffer of a batt is still under way on any queue pair (R40). -/
def Dev.bufferFree (d : Dev) (st : Nat) (p : Placed) : Prop :=
  ∀ f, p.buf = some f → ∀ q ∈ d.plc.qps, ∀ w ∈ q.sq, ∀ pid, w.kind = .parcel st pid → w.psn ≠ none → w.region = f.region →
    ¬ (f.off ≤ w.off ∧ w.off < f.off + f.len)

theorem Dev.bufferBusy_eq_false {d : Dev} {st : Nat} {p : Placed} : d.bufferBusy st p = false ↔ d.bufferFree st p := by
  unfold Dev.bufferBusy Dev.bufferFree
  cases p.buf with
  | none => simp
  | some f =>
    simp only [Option.any_some, List.any_eq_false, Option.some.injEq, forall_eq']
    refine forall₂_congr fun q _ => ?_
    rw [List.any_eq_true, not_exists]
    refine forall_congr' fun w => ?_
    cases hk : w.kind <;> cases hp : w.psn <;> simp
    grind

/-- The premises of a descriptor (R37 to R40, R372). -/
def Dev.ready (d : Dev) (st : Nat) (p : Placed) (b : Binding) : Prop :=
  p.placed = true ∧ d.devRec = false ∧ d.safe = false
  ∧ (d.flag (Reg.strCfg st) 9 = true ∨ b.descWritten - b.descRead < b.descSlots) ∧ (p.fail ≠ 0 ∨ d.bufferFree st p) ∧ d.cmpLoad + 4 ≤ 1024
  ∧ (d.qpReady (d.curQp st) = true ∧ (∀ c ∈ (d.str st).cmp, c.batt = p.batt → c.posted = true)
    ∨ (d.str st).stop ≠ none ∧ d.qpReady (d.curQp st) = false)

theorem Dev.mayPublish_iff {d : Dev} {st : Nat} {p : Placed} {b : Binding} : d.mayPublish st p b = true ↔ d.ready st p b := by
  have hall : ((d.str st).cmp.all fun c => c.batt != p.batt || c.posted) = true
      ↔ ∀ c ∈ (d.str st).cmp, c.batt = p.batt → c.posted = true := by simp [imp_iff_not_or]
  have hstop : (d.str st).stop.isSome = true ↔ (d.str st).stop ≠ none := Option.isSome_iff_ne_none
  unfold Dev.mayPublish Dev.ready Dev.stranded
  simp only [Bool.and_eq_true, Bool.or_eq_true, Bool.not_eq_true', decide_eq_true_eq, bne_iff_ne, hall, hstop, Dev.bufferBusy_eq_false]
  constructor
  · rintro ⟨⟨⟨⟨⟨⟨hp, hd⟩, hs⟩, hf⟩, hc⟩, hq⟩, hr⟩
    exact ⟨hp, hd, hs, hr, hf, hc, hq.symm⟩
  · rintro ⟨hp, hd, hs, hr, hf, hc, hq⟩
    exact ⟨⟨⟨⟨⟨⟨hp, hd⟩, hs⟩, hf⟩, hc⟩, hq.symm⟩, hr⟩

/-! ## What a descriptor says (R380, R381) -/

theorem descriptor_length (d : Dev) (st : Nat) (p : Placed) (x : Batt) : (d.descriptor st p x).length = 128 := by
  simp [Dev.descriptor, sle, zeros]

theorem descriptor_seal (d : Dev) (st : Nat) (p : Placed) {x : Batt} (h : x.num < 2 ^ 48) :
    checkSeal (x.num + 0xFFFF * 2 ^ 48) (d.descriptor st p x) = some ((d.descriptor st p x).take 124) := by
  have hf : parcelFold x.num 0xFFFF = x.num + 0xFFFF * 2 ^ 48 :=
    congrArg (· + 0xFFFF * 2 ^ 48) (Nat.mod_eq_of_lt h)
  unfold Dev.descriptor
  dsimp only
  rw [hf, checkSeal_withSeal, withSeal, List.take_left']
  simp [sle, zeros]

theorem unsigned_64 (i : Int) : ((unsigned 64 i : Nat) : Int) = i % 2 ^ 64 := by
  unfold unsigned; exact Int.toNat_of_nonneg (Int.emod_nonneg _ (by norm_num))

theorem unsigned_64_lt (i : Int) : unsigned 64 i < 2 ^ 64 := by have := unsigned_64 i; omega

theorem floorDiv_eq (a : Int) (b : Nat) : floorDiv a b = a / b := Int.fdiv_eq_ediv_of_nonneg a (Int.natCast_nonneg b)

theorem ite_zero_mod (c : Prop) [Decidable c] (v m : Nat) : (if c then v else 0) % m = if c then v % m else 0 := by
  split
  · rfl
  · exact Nat.zero_mod m

/-- The image of a batt and its sections are within the bounds of the descriptor's fields. -/
structure Batt.Fits (x : Batt) : Prop where
  data : x.data.length < 2 ^ 31
  index : x.index.length < 2 ^ 26
  deferred : x.deferred.length < 2 ^ 26
  map : x.map.length < 2 ^ 20
  crop : x.cropFirst < 2 ^ 20
  stats : x.statLen < 2 ^ 20

section
variable (d : Dev) (st : Fin 8) (p : Placed) {x : Batt} {y : Decision} (hy : x.decision = some y)

theorem descriptor_names (hn : x.num < 2 ^ 48) : let f := leAt (d.descriptor st.val p x)
    f 0 8 = x.num + st.val * 2 ^ 48 + b2n x.recalled.isSome * 2 ^ 51 ∧ f 8 4 = d.fld Reg.plantAddr 0 18 := by
  have hst := st.isLt
  have hr : b2n x.recalled.isSome ≤ 1 := by unfold b2n; split <;> omega
  have hp : d.fld Reg.plantAddr 0 18 < 2 ^ 18 := Nat.mod_lt _ (by norm_num)
  unfold Dev.descriptor
  simp only [withSeal, List.append_assoc, sle, leAt_le_append_skip, leAt_le_append, Nat.reduceLeDiff, Nat.reduceSub, Nat.reduceMul]
  constructor <;> omega

include hy

theorem descriptor_outcome (hf : p.fail < 256) (hr : y.rung < 8) : let f := leAt (d.descriptor st.val p x)
    let has := fun (g : Nat → Bool) => x.map.any fun e => g (bits e 32 16)
    f 12 1 = (if p.fail ≠ 0 then 3 else if y.overrun = true then 2 else if has (fun z => z % 16 != 0) = true ∨ x.deferred ≠ [] then 1 else 0)
    ∧ f 13 1 = p.fail ∧ f 14 1 = y.rung + 8 * b2n y.exhausted + 16 * b2n y.fixed
    ∧ f 15 1 = b2n x.notHooded + 2 * b2n (has fun z => z % 16 != 0) + 4 * b2n (x.deferred != []) + 8 * b2n x.seamExpired
      + 16 * b2n (has fun z => bit z 9) + 32 * b2n (has fun z => bit z 8) + 64 * b2n p.reissued := by
  have hb : ∀ b, b2n b ≤ 1 := by intro b; cases b <;> decide
  have hs : x.descStatus p.fail = (if p.fail ≠ 0 then 3 else if y.overrun = true then 2
      else if x.mapHas (fun z => z % 16 != 0) = true ∨ x.deferred ≠ [] then 1 else 0) := by
    unfold Batt.descStatus; simp [hy]
  have hlt : x.descStatus p.fail < 256 := by unfold Batt.descStatus; split_ifs <;> omega
  unfold Dev.descriptor
  simp only [withSeal, List.append_assoc, sle, leAt_le_append_skip, leAt_le_append, Nat.reduceLeDiff, Nat.reduceSub, Nat.reduceMul, hy,
    Option.getD_some]
  refine ⟨(Nat.mod_eq_of_lt hlt).trans hs, Nat.mod_eq_of_lt hf, Nat.mod_eq_of_lt ?_, Nat.mod_eq_of_lt ?_⟩
  · have := hb y.exhausted; have := hb y.fixed; omega
  · have := hb x.notHooded; have := hb (x.mapHas fun z => z % 16 != 0); have := hb (x.deferred != []); have := hb x.seamExpired
    have := hb (x.mapHas fun z => bit z 9); have := hb (x.mapHas fun z => bit z 8); have := hb p.reissued
    omega

theorem descriptor_origin (hc : x.coil < 2 ^ 32) : let f := leAt (d.descriptor st.val p x)
    let row0 := (x.num - x.grid.first) * 2 ^ x.grid.hlog
    (row0 < 2 ^ 63 → f 16 8 = row0) ∧ (f 24 8 : Int) = (x.grid.origin + (row0 * x.grid.pitch : Nat)) / 4 % 2 ^ 64
    ∧ (f 32 8 : Int) = y.spos % 2 ^ 64 ∧ f 40 8 = y.time % 2 ^ 64 ∧ f 48 4 = x.coil
    ∧ (∀ z, p.buf = some z → z.seq < 2 ^ 32 → f 52 4 = z.seq) ∧ (p.buf = none → f 52 4 = 2 ^ 32 - 1) := by
  have hu : ∀ i, unsigned 64 i % 2 ^ 64 = unsigned 64 i := fun i => Nat.mod_eq_of_lt (unsigned_64_lt i)
  unfold Dev.descriptor
  simp only [withSeal, List.append_assoc, sle, leAt_le_append_skip, leAt_le_append, Nat.reduceLeDiff, Nat.reduceSub, Nat.reduceMul, hy,
    Option.getD_some, hu, unsigned_64, floorDiv_eq]
  refine ⟨fun h => Nat.mod_eq_of_lt (by omega), rfl, trivial, trivial, Nat.mod_eq_of_lt hc, ?_, ?_⟩
  · rintro z hz hs; rw [hz]; exact Nat.mod_eq_of_lt hs
  · intro hz; rw [hz]; rfl

omit hy

theorem descriptor_image (ht : p.total < 2 ^ 16) (hf : p.pfailed < 2 ^ 16) (hx : x.Fits) : let f := leAt (d.descriptor st.val p x)
    let ok := fun (v : Nat) => if p.fail = 0 then v else 0
    let nt := x.index.length / 16
    let nd := x.deferred.length / 4
    let idx := (x.data.length + 4095) / 4096 * 4096
    let att := idx + (16 * nt + 4095) / 4096 * 4096
    let mp := att + (4 * nd + 63) / 64 * 64
    let edge := mp + (8 * x.map.length + 63) / 64 * 64
    f 56 4 = ok (edge + 64 + x.statLen) ∧ f 60 2 = p.total ∧ f 62 2 = p.pfailed ∧ f 64 4 = ok nt ∧ f 68 4 = ok nd ∧ f 72 4 = ok x.data.length
    ∧ f 76 4 = ok idx ∧ f 80 4 = ok att ∧ f 84 4 = ok mp ∧ f 88 4 = ok (8 * x.map.length) ∧ f 92 4 = ok edge ∧ f 96 4 = ok (edge + 64)
    ∧ f 100 2 = ok (listMask (x.stats.map (·.1)) % 2 ^ 16) ∧ f 102 2 = ok (x.cropFirst / 64) ∧ f 104 4 = ok (d.parcelSize st.val)
    ∧ f 108 8 = d.timeNs % 2 ^ 64 ∧ f 116 8 = 0 := by
  obtain ⟨h1, h2, h3, h4, h5, h6⟩ := hx
  have hp : d.parcelSize st.val ≤ 65536 := by
    have : d.fld (Reg.strCfg st.val) 4 4 < 2 ^ 4 := Nat.mod_lt _ (by norm_num)
    unfold Dev.parcelSize; omega
  unfold Dev.descriptor
  simp only [withSeal, List.append_assoc, sle, leAt_le_append_skip, leAt_le_append, Nat.reduceLeDiff, Nat.reduceSub, Nat.reduceMul,
    show zeros 8 = le 8 0 from rfl, ite_zero_mod, Layout.imgLen, Layout.statsOff, Layout.edgeOff, Layout.mapOff, Layout.attOff,
    Layout.idxOff, up4k, up64, Batt.layout]
  have fits : ∀ v, v < 2 ^ 32 → (if p.fail = 0 then v % 2 ^ 32 else 0) = if p.fail = 0 then v else 0 := fun v hv => by rw [Nat.mod_eq_of_lt hv]
  and_intros
  any_goals apply fits; omega
  · exact Nat.mod_eq_of_lt ht
  · exact Nat.mod_eq_of_lt hf
  · trivial
  · rw [Nat.mod_eq_of_lt]; omega
  · trivial
  · rfl

end

/-! ## The release of a batt (R35, R41, R367) -/

/-- Nothing of output staging waits to be retired as batts leave it (R523). -/
def Dev.nothingDue (d : Dev) : Prop := ∀ z ∈ d.cnf.retired, z.pending = false

theorem Dev.retireStaging_eq {d : Dev} (h : d.nothingDue) : d.retireStaging = d := by
  have : (d.cnf.retired.filter fun r => r.pending && (r.kind == 3 || r.kind == 4)) = [] := by
    rw [List.filter_eq_nil_iff]; intro r hr; simp [h r hr]
  unfold Dev.retireStaging; rw [this]; rfl

/-- A batt whose staging is freed. -/
def Batt.freed (b : Batt) : Batt := { b with state := if b.state = .failed then .failed else .released, staged := 0 }

theorem Batt.freed_key (b : Batt) : b.freed.key = b.key := rfl

/-- No stream owes the batt a descriptor, no slice fulls it, and it is at its end. -/
def Batt.doneWith (b : Batt) : Prop := b.owed = [] ∧ b.slice = none ∧ (b.state = .fulled ∨ b.state = .published ∨ b.state = .failed)

theorem Dev.releaseIfDone_done {d : Dev} {k : Nat × Option Nat} {b : Batt} (hd : d.nothingDue) (hb : d.battKey k = some b)
    (h : b.doneWith) : ∃ v, d.releaseIfDone k = (d.modKey k Batt.freed).wrN Reg.hoodStgUsed v := by
  have hr : (d.modKey k Batt.freed).retireStaging = d.modKey k Batt.freed := Dev.retireStaging_eq hd
  refine ⟨ceilDiv (d.modKey k Batt.freed).stagedBytes pageSize, ?_⟩
  unfold Dev.releaseIfDone; rw [hb]
  exact (if_pos h).trans (congrArg Dev.showStaged hr)

theorem Dev.releaseIfDone_notDone {d : Dev} {k : Nat × Option Nat} {b : Batt} (hb : d.battKey k = some b) (h : ¬ b.doneWith) :
    d.releaseIfDone k = d := by
  unfold Dev.releaseIfDone; rw [hb]; exact if_neg h

/-- The release changes no stream, no queue pair, no recall and no register but HOOD_STG_USED. -/
theorem Dev.releaseIfDone_frame {d : Dev} {k : Nat × Option Nat} {b : Batt} (hd : d.nothingDue) (hb : d.battKey k = some b) :
    (d.releaseIfDone k).plc = d.plc ∧ (d.releaseIfDone k).pipes = d.pipes ∧ (d.releaseIfDone k).ful.recalls = d.ful.recalls
    ∧ d.regsKept (d.releaseIfDone k) [Reg.hoodStgUsed] := by
  by_cases h : b.doneWith
  · obtain ⟨v, hv⟩ := Dev.releaseIfDone_done hd hb h
    rw [hv]
    exact ⟨rfl, rfl, rfl, fun a ha => Dev.rd_wrN_ne _ _ _ _ (by simpa using ha)⟩
  · rw [Dev.releaseIfDone_notDone hb h]
    exact ⟨rfl, rfl, rfl, fun _ _ => rfl⟩

/-- The batt after the release that follows it. -/
theorem Dev.releaseIfDone_battKey {d : Dev} {k : Nat × Option Nat} {b : Batt} (hd : d.nothingDue) (hb : d.battKey k = some b) :
    ∃ z, (d.releaseIfDone k).battKey k = some z ∧ z.owed = b.owed ∧ z.described = b.described
      ∧ z.state = if b.owed = [] ∧ b.slice = none ∧ (b.state = .fulled ∨ b.state = .published) then .released else b.state := by
  by_cases h : b.doneWith
  · obtain ⟨v, hv⟩ := Dev.releaseIfDone_done hd hb h
    refine ⟨b.freed, ?_, rfl, rfl, ?_⟩
    · rw [hv]; exact (d.battKey_modKey k Batt.freed_key).trans (by rw [hb]; rfl)
    · obtain ⟨ho, hs, hst⟩ := h
      rcases hst with hst | hst | hst <;> simp [Batt.freed, ho, hs, hst]
  · rw [Dev.releaseIfDone_notDone hb h]
    refine ⟨b, hb, rfl, rfl, ?_⟩
    rw [if_neg fun hn => h ⟨hn.1, hn.2.1, hn.2.2.imp_right .inl⟩]

/-! ## DESCRIPTOR_WRITE -/

/-- The batt whose descriptor a stream has issued (R35, R37, R367). -/
def Batt.describedOn (st fail : Nat) (y : Batt) : Batt :=
  { y with
    described := true, owed := y.owed.erase st
    state := if fail ≠ 0 ∧ y.recalled.isSome then .failed else if y.state = .fulled ∧ fail = 0 then .published else y.state }

/-- The descriptor of a placed batt as an item of the completion hopper. -/
def Dev.descriptorItem (d : Dev) (st : Nat) (p : Placed) (b : Binding) (x : Batt) : CmpItem :=
  { issue := none, batt := p.batt, cause := p.fail, bytes := d.descriptor st p x, place := some b.descWritten, acted := true }

/-- The descriptor of the first batt of stream st enters the completion hopper, before the release that may follow. -/
def Dev.described (d : Dev) (st : Nat) (p : Placed) (rest : List Placed) (b : Binding) (x : Batt) : Dev :=
  ((((d.modStr st fun t => { t with
      batts := rest, cmp := t.cmp ++ [d.descriptorItem st p b x]
      bind := t.bind.map fun y => { y with descWritten := y.descWritten + 1 } }).wr64 (Reg.strPub st) (p.batt.1 % 2 ^ 48)).modKey p.batt
    (Batt.describedOn st p.fail)).countRecall p).showPlc st

section
variable {s : State} {st : Fin 8}

theorem exec_descriptorWrite : exec (.descriptorWrite st) s = execDescriptorWrite st s := rfl

theorem descriptorWrite_idle (ha : s.alive) (h : (s.dev.str st.val).batts = [] ∨ (s.dev.str st.val).bind = none) :
    exec (.descriptorWrite st) s = .next { s with dev := s.dev } := by
  rw [exec_descriptorWrite, execDescriptorWrite, State.upd_alive ha]
  congr 2
  dsimp only
  split
  next p rest b hp hb => rcases h with h | h <;> simp_all
  next => rfl

variable {p : Placed} {rest : List Placed} {b : Binding} {x : Batt} (ha : s.alive) (hp : (s.dev.str st.val).batts = p :: rest)
  (hb : (s.dev.str st.val).bind = some b) (hx : s.dev.battKey p.batt = some x)
include ha hp hb hx

theorem descriptorWrite_waits (h : ¬ s.dev.ready st.val p b) : exec (.descriptorWrite st) s = .next { s with dev := s.dev } := by
  have h : s.dev.mayPublish st.val p b = false := by rwa [← Dev.mayPublish_iff, Bool.not_eq_true] at h
  rw [exec_descriptorWrite, execDescriptorWrite, State.upd_alive ha]
  simp [hp, hb, hx, h]

theorem descriptorWrite_describes (h : s.dev.ready st.val p b) : exec (.descriptorWrite st) s
    = .next { s with dev := (s.dev.described st.val p rest b x).releaseIfDone p.batt } := by
  have h := Dev.mayPublish_iff.mpr h
  rw [exec_descriptorWrite, execDescriptorWrite, State.upd_alive ha]
  simp only [hp, hb, hx, h, Bool.true_eq_false, if_false]
  rfl

end

section
variable {d : Dev} {st : Nat} {p : Placed} {rest : List Placed} {b : Binding} {x : Batt}

@[simp] theorem Dev.countRecall_plc (d : Dev) (p : Placed) : (d.countRecall p).plc = d.plc := by unfold Dev.countRecall; split <;> rfl
@[simp] theorem Dev.countRecall_pipes (d : Dev) (p : Placed) : (d.countRecall p).pipes = d.pipes := by unfold Dev.countRecall; split <;> rfl
@[simp] theorem Dev.countRecall_cnf (d : Dev) (p : Placed) : (d.countRecall p).cnf = d.cnf := by unfold Dev.countRecall; split <;> rfl
@[simp] theorem Dev.countRecall_regs (d : Dev) (p : Placed) : (d.countRecall p).regs = d.regs := by unfold Dev.countRecall; split <;> rfl
@[simp] theorem Dev.countRecall_fulBatts (d : Dev) (p : Placed) : (d.countRecall p).ful.batts = d.ful.batts := by
  unfold Dev.countRecall; split <;> rfl

/-- A RECALL counts the descriptors of its batts, and the FAILED ones (R350). -/
theorem Dev.countRecall_counts {d : Dev} {p : Placed} {z : RecallRun} (hz : z ∈ d.ful.recalls) (hp : p.batt.2 = some z.id) :
    ∃ v ∈ (d.countRecall p).ful.recalls, v.id = z.id ∧ v.count = z.count + 1 ∧ v.failed = z.failed + if p.fail = 0 then 0 else 1 := by
  unfold Dev.countRecall; rw [hp]
  refine ⟨_, List.mem_map.mpr ⟨z, hz, if_pos rfl⟩, rfl, rfl, ?_⟩
  by_cases h : p.fail = 0 <;> simp [h, b2n]

theorem Dev.described_str (hb : (d.str st).bind = some b) : (d.described st p rest b x).str st = { d.str st with
    batts := rest, cmp := (d.str st).cmp ++ [d.descriptorItem st p b x], bind := some { b with descWritten := b.descWritten + 1 } } := by
  have h := d.str_modStr_same st fun t => { t with
      batts := rest, cmp := t.cmp ++ [d.descriptorItem st p b x]
      bind := t.bind.map fun y => { y with descWritten := y.descWritten + 1 } }
  rw [hb] at h
  unfold Dev.described Dev.str
  rw [Dev.showPlc_plc, Dev.countRecall_plc]
  exact h

theorem Dev.described_str_ne {j : Nat} (h : j ≠ st) : (d.described st p rest b x).str j = d.str j := by
  unfold Dev.described Dev.str
  rw [Dev.showPlc_plc, Dev.countRecall_plc]
  exact d.str_modStr_ne _ h

theorem Dev.described_qps : (d.described st p rest b x).plc.qps = d.plc.qps := by
  unfold Dev.described; rw [Dev.showPlc_plc, Dev.countRecall_plc]; rfl

theorem Dev.described_pipes : (d.described st p rest b x).pipes = d.pipes := by
  unfold Dev.described; rw [Dev.showPlc_pipes, Dev.countRecall_pipes]; rfl

theorem Dev.described_nothingDue (h : d.nothingDue) : (d.described st p rest b x).nothingDue := by
  have : (d.described st p rest b x).cnf = d.cnf := by
    unfold Dev.described; rw [Dev.showPlc_cnf, Dev.countRecall_cnf]; rfl
  unfold Dev.nothingDue; rw [this]; exact h

theorem Dev.described_battKey (hx : d.battKey p.batt = some x) :
    (d.described st p rest b x).battKey p.batt = some (x.describedOn st p.fail) := by
  unfold Dev.described Dev.battKey
  rw [Dev.showPlc_ful, Dev.countRecall_fulBatts]
  refine (Dev.battKey_modKey _ p.batt ?_).trans (congrArg (Option.map _) hx)
  intro y; rfl

theorem Dev.described_recalls {z : RecallRun} (hz : z ∈ d.ful.recalls) (hp : p.batt.2 = some z.id) :
    ∃ v ∈ (d.described st p rest b x).ful.recalls, v.id = z.id ∧ v.count = z.count + 1 ∧ v.failed = z.failed + if p.fail = 0 then 0 else 1 := by
  unfold Dev.described; rw [Dev.showPlc_ful]
  exact Dev.countRecall_counts hz hp

/-- STRn_PUB holds the number of the batt. -/
theorem Dev.described_published : ∀ a, a = Reg.strPub st ∨ a = Reg.strPub st + 4 →
    (d.described st p rest b x).rd a = (d.wr64 (Reg.strPub st) (p.batt.1 % 2 ^ 48)).rd a := by
  intro a ha
  have hk : a ∉ [Reg.strStat st, Reg.plcStat, Reg.plcInflKib] := by
    unfold Reg.strPub at ha
    simp only [List.mem_cons, List.not_mem_nil, or_false, Reg.strStat, Reg.plcStat, Reg.plcInflKib]
    omega
  unfold Dev.described
  rw [Dev.showPlc_regsKept _ st a hk, Dev.rd, Dev.countRecall_regs]
  rfl

theorem Dev.rd64_wr64 (d : Dev) (a v : Nat) : (d.wr64 a v).rd64 a = v % 2 ^ 64 := by
  have h1 : (d.wr64 a v).rdN a = v % 2 ^ 32 := by
    unfold Dev.wr64 Dev.rdN
    rw [Dev.rd_wrN_ne _ _ _ _ (by omega)]
    exact Dev.rdN_wrN_same d a v
  have h2 : (d.wr64 a v).rdN (a + 4) = v / 2 ^ 32 % 2 ^ 32 := Dev.rdN_wrN_same _ _ _
  rw [Dev.rd64, h1, h2]; omega

end

end Sys2Proof.Machine
end

section
/-! SUPPORT. Completion records and descriptors: the statement, from the clauses of its two rows. -/

namespace Sys2Proof.Machine

open Sys2Proof

section
variable {s : State} {st : Fin 8} {p : Placed} {rest : List Placed} {b : Binding} {x : Batt} (ha : s.alive)
  (hp : (s.dev.str st.val).batts = p :: rest) (hb : (s.dev.str st.val).bind = some b) (hx : s.dev.battKey p.batt = some x)
include ha hp hb hx

/-- What a descriptor's issue makes of its stream, its batt and its RECALL, and what it leaves (R35, R37, R350, R367). -/
theorem descriptorWrite_publishes (hk : x.key = p.batt) (hn : x.num < 2 ^ 48) (hr : s.dev.ready st.val p b) (hd : s.dev.nothingDue) :
    Becomes (.descriptorWrite st) s fun u =>
      (u.str st.val).batts = rest ∧ (u.str st.val).cmp = (s.dev.str st.val).cmp ++ [s.dev.descriptorItem st.val p b x]
      ∧ (u.str st.val).bind = some { b with descWritten := b.descWritten + 1 }
      ∧ u.rd64 (Reg.strPub st.val) % 2 ^ 48 = x.num ∧ (∀ j, j ≠ st.val → u.str j = s.dev.str j) ∧ u.plc.qps = s.dev.plc.qps
      ∧ u.pipes = s.dev.pipes
      ∧ (∀ z ∈ s.dev.ful.recalls, p.batt.2 = some z.id → ∃ v ∈ u.ful.recalls, v.id = z.id ∧ v.count = z.count + 1
          ∧ v.failed = z.failed + if p.fail = 0 then 0 else 1)
      ∧ ∃ z, u.battKey p.batt = some z ∧ z.owed = x.owed.erase st.val ∧ z.described = true
        ∧ z.state = (let st1 := if p.fail ≠ 0 ∧ x.recalled.isSome = true then .failed else if x.state = .fulled ∧ p.fail = 0 then .published else x.state
            if x.owed.erase st.val = [] ∧ x.slice = none ∧ (st1 = .fulled ∨ st1 = .published) then .released else st1) := by
  have hdue := Dev.described_nothingDue (st := st.val) (p := p) (rest := rest) (b := b) (x := x) hd
  have hkey := Dev.described_battKey (st := st.val) (rest := rest) (b := b) hx
  obtain ⟨hplc, hpipes, hrec, hregs⟩ := Dev.releaseIfDone_frame hdue hkey
  have hstr : ∀ j, ((s.dev.described st.val p rest b x).releaseIfDone p.batt).str j = (s.dev.described st.val p rest b x).str j :=
    fun j => congrArg (fun l : Place => l.streams.getD j {}) hplc
  have hpub : ∀ a, a = Reg.strPub st.val ∨ a = Reg.strPub st.val + 4 →
      ((s.dev.described st.val p rest b x).releaseIfDone p.batt).rdN a = (s.dev.wr64 (Reg.strPub st.val) (p.batt.1 % 2 ^ 48)).rdN a := by
    intro a h
    have ha : a ∉ [Reg.hoodStgUsed] := by
      unfold Reg.strPub at h; simp only [List.mem_singleton, Reg.hoodStgUsed]; omega
    exact congrArg BitVec.toNat ((hregs a ha).trans (Dev.described_published a h))
  have hnum : p.batt.1 = x.num := by rw [← hk]; rfl
  refine ⟨_, descriptorWrite_describes ha hp hb hx hr, ?_, ?_, ?_, ?_, fun j hj => (hstr j).trans (Dev.described_str_ne hj),
    (congrArg Place.qps hplc).trans Dev.described_qps, hpipes.trans Dev.described_pipes, ?_, ?_⟩
  · rw [hstr, Dev.described_str hb]
  · rw [hstr, Dev.described_str hb]
  · rw [hstr, Dev.described_str hb]
  · rw [Dev.rd64, hpub _ (.inl rfl), hpub _ (.inr rfl), ← Dev.rd64, Dev.rd64_wr64, hnum]; omega
  · rw [hrec]; exact fun z hz hpz => Dev.described_recalls hz hpz
  · exact Dev.releaseIfDone_battKey hdue hkey

end

/-- Settles O41: each clause is one lemma about its row, on the states its premises describe. -/
theorem recordsAndDescriptors : Obligations.RecordsAndDescriptors := by
  unfold Obligations.RecordsAndDescriptors
  intro s st ha t cur
  refine ⟨?_, fun h k => ⟨_, completionWrite_idle ha h, rfl⟩, ?_, fun h => ⟨_, descriptorWrite_idle ha h, rfl⟩⟩
  · intro pre post c b place hits hcmp hpre hpost hc hbind hqp hdr hsafe
    have n : s.dev.NextItem st.val pre post c b := ⟨hcmp, hpre, hpost, hc, hbind, hqp, hdr, hsafe⟩
    refine ⟨fun hl => completionWrite_drops ha n hl, fun hl hplace hroom => ⟨?_, ?_, ?_, ?_, ?_, ?_⟩⟩
    · exact completionWrite_writes_descriptor ha n hl hplace
    · exact completionWrite_writes ha n hl hplace hroom
    · intro i p k hi hact hf h0 hno hk again fail hc0 hc6 hc7 hbad
      exact completionWrite_acts_on_stream ha n hl hplace hroom hi hact hf h0 hno hk hc0 hc6 hbad
    · intro i p x hi hact hf h0 hc6 hx hh ht hbad
      obtain ⟨u, he, hlast, hkey, hrb⟩ := completionWrite_acts_on_batt ha n hl hplace hroom hi hact hf h0 hc6 hx hh ht hbad
      exact ⟨u, he, hlast, hkey, fun j hj => (hrb j hj).1, fun j hj => (hrb j hj).2⟩
    · intro i hi hbad h04
      exact completionWrite_fails_poisoned ha n hl hroom hi hbad h04
    · intro i hi h0 h4
      exact completionWrite_loses ha n hl hroom hi h0 h4
  · intro p rest b x y hp hb hx hk hy room free ready
    refine ⟨fun h => ⟨_, descriptorWrite_waits ha hp hb hx h, rfl⟩, ?_⟩
    intro hr hd hfail hnum hrung hcoil htotal hpf hdata hindex hdef hmap hcrop hstat _
    obtain ⟨u, he, hrest, hcmp, hbind, hpub, hother, hqps, hpipes, hrec, hbatt⟩ := descriptorWrite_publishes ha hp hb hx hk hnum hr hd
    refine ⟨u, he, s.dev.descriptorItem st.val p b x, rfl, rfl, rfl, rfl, hrest, hcmp, hbind, hpub, hother, hqps, hpipes, hrec, hbatt, ?_⟩
    obtain ⟨h0, h8⟩ := descriptor_names s.dev st p hnum
    obtain ⟨h12, h13, h14, h15⟩ := descriptor_outcome s.dev st p hy hfail hrung
    obtain ⟨h16, h24, h32, h40, h48, h52, h52'⟩ := descriptor_origin s.dev st p hy hcoil
    exact ⟨descriptor_length .., descriptor_seal _ _ _ hnum, h0, h8, h12, h13, h14, h15, h16, h24, h32, h40, h48, h52, h52',
      descriptor_image s.dev st p htotal hpf ⟨hdata, hindex, hdef, hmap, hcrop, hstat⟩⟩

end Sys2Proof.Machine
end

section
/-! SUPPORT. A flag stored in a register word, bit by bit; what a step leaves as it was; and a write of one word of the block STF,
which holds the seal units and the scan engine (R112, R118, R596). -/

namespace Sys2Proof.Machine

open Sys2Proof

/-! ## Bits of a register word -/

theorem bit_eq_testBit (v i : Nat) : bit v i = v.testBit i := by
  rw [bit, Nat.testBit_eq_decide_div_mod_eq, beq_eq_decide]

theorem Dev.flag_eq_getLsbD (d : Dev) (a i : Nat) : d.flag a i = (d.rd a).getLsbD i := bit_eq_testBit _ i

theorem testBit_bits (v lo w j : Nat) : (bits v lo w).testBit j = (decide (j < w) && v.testBit (lo + j)) := by
  rw [bits, Nat.testBit_mod_two_pow, Nat.testBit_div_two_pow, Nat.add_comm]

/-- A number with bit i replaced, as the bits above it, the bit, and the bits below it. -/
theorem putBit_eq (x i : Nat) (b : Bool) :
    x - bits x i 1 * 2 ^ i + b2n b % 2 ^ 1 * 2 ^ i = 2 ^ i * (2 * (x / 2 ^ i / 2) + b2n b) + x % 2 ^ i := by
  have hb : b2n b % 2 ^ 1 = b2n b := by cases b <;> rfl
  have hx : x = 2 ^ i * (2 * (x / 2 ^ i / 2)) + bits x i 1 * 2 ^ i + x % 2 ^ i := by
    rw [bits, Nat.pow_one, Nat.mul_comm _ (2 ^ i), ← Nat.mul_add, Nat.div_add_mod, Nat.div_add_mod]
  rw [hb, Nat.mul_add, Nat.mul_comm (b2n b)]
  omega

theorem testBit_putBit (x i j : Nat) (b : Bool) :
    (x - bits x i 1 * 2 ^ i + b2n b % 2 ^ 1 * 2 ^ i).testBit j = if j = i then b else x.testBit j := by
  have hlo : x % 2 ^ i < 2 ^ i := Nat.mod_lt _ (by positivity)
  have hb : b2n b < 2 := by cases b <;> decide
  rw [putBit_eq, Nat.testBit_two_pow_mul_add _ hlo]
  obtain hj | rfl | ⟨k, rfl⟩ : j < i ∨ j = i ∨ ∃ k, j = i + (k + 1) := by
    rcases Nat.lt_trichotomy j i with h | h | h
    · exact .inl h
    · exact .inr (.inl h)
    · exact .inr (.inr ⟨j - i - 1, by omega⟩)
  · simp [hj, hj.ne]
  · cases b <;> simp [b2n]
  · have hhi : (2 * (x / 2 ^ i / 2) + b2n b) / 2 = x / 2 ^ i / 2 := by omega
    rw [if_neg (by omega), if_neg (by omega), Nat.add_sub_cancel_left, Nat.testBit_succ, hhi, ← Nat.testBit_succ,
      Nat.testBit_div_two_pow, Nat.add_comm]

/-- Storing a flag leaves every other bit of the word. -/
theorem Dev.getLsbD_setFlag (d : Dev) (a : Nat) {i : Nat} (b : Bool) (j : Nat) (hi : i < 32) :
    ((d.setFlag a i b).rd a).getLsbD j = if j = i then b else (d.rd a).getLsbD j := by
  have hval : (d.setFlag a i b).rd a = BitVec.ofNat 32 (d.rdN a - bits (d.rdN a) i 1 * 2 ^ i + b2n b % 2 ^ 1 * 2 ^ i) :=
    Dev.rd_wr_same ..
  rw [hval, BitVec.getLsbD_ofNat, testBit_putBit]
  by_cases hj : j < 32
  · simp only [hj, decide_true, Bool.true_and]; rfl
  · have hji : ¬ j = i := by omega
    simp [hj, hji, BitVec.getLsbD_of_ge _ _ (by omega : 32 ≤ j)]

theorem Dev.flag_setFlag_ne (d : Dev) (a : Nat) {i j : Nat} (b : Bool) (hi : i < 32) (h : j ≠ i) :
    (d.setFlag a i b).flag a j = d.flag a j := by
  rw [Dev.flag_eq_getLsbD, Dev.getLsbD_setFlag _ _ _ _ hi, if_neg h, ← Dev.flag_eq_getLsbD]

/-- A flag stored beside a field leaves the field. -/
theorem Dev.fld_setFlag_ne (d : Dev) (a : Nat) {i lo w : Nat} (b : Bool) (hi : i < 32) (h : i < lo ∨ lo + w ≤ i) :
    (d.setFlag a i b).fld a lo w = d.fld a lo w := by
  refine Nat.eq_of_testBit_eq fun j => ?_
  simp only [Dev.fld, testBit_bits]
  by_cases hj : j < w
  · have hji : lo + j ≠ i := by omega
    exact congrArg (_ && ·) ((d.getLsbD_setFlag a b (lo + j) hi).trans (if_neg hji))
  · simp [hj]

/-- Another register keeps its flags and fields. -/
theorem Dev.flag_setFlag_other (d : Dev) {a c : Nat} (i j : Nat) (b : Bool) (h : c ≠ a) :
    (d.setFlag a i b).flag c j = d.flag c j := by
  rw [Dev.flag, Dev.rdN, Dev.rd_setFlag_ne _ _ _ _ _ h]; rfl

theorem Dev.fld_setFlag_other (d : Dev) {a c : Nat} (i lo w : Nat) (b : Bool) (h : c ≠ a) :
    (d.setFlag a i b).fld c lo w = d.fld c lo w := by
  rw [Dev.fld, Dev.rdN, Dev.rd_setFlag_ne _ _ _ _ _ h]; rfl

/-! ## What a step leaves as it was -/

/-- A command or event that runs a function on the device that acts leaves what that gives. -/
theorem becomes_of_upd {i : Instr} {s : State} {f : Dev → Dev} {t : Dev} {effect : Dev → Prop} (ha : s.alive)
    (hi : exec i s = s.upd f) (ht : f s.dev = t) (he : effect t) : Becomes i s effect :=
  ⟨t, by rw [hi, State.upd_alive ha, ht], he⟩

theorem Dev.setFlag_regs_only (d : Dev) (a i : Nat) (b : Bool) : d.setFlag a i b = { d with regs := (d.setFlag a i b).regs } := rfl

theorem Dev.regsKept_refl (d : Dev) (l : List Nat) : d.regsKept d l := by intro a _; rfl

/-- Words stored again as they were, or listed, are all that may differ. -/
theorem Dev.regsKept.wr {d t : Dev} {l : List Nat} (h : d.regsKept t l) {a : Nat} {v : Word} (ha : a ∈ l ∨ v = d.rd a) :
    d.regsKept (t.wr a v) l := by
  intro b hb
  by_cases hba : b = a
  · subst hba; rw [Dev.rd_wr_same]; exact ha.resolve_left hb
  · rw [Dev.rd_wr_ne _ _ _ _ hba]; exact h b hb

theorem Dev.regsKept.setFlag {d t : Dev} {l : List Nat} (h : d.regsKept t l) {a : Nat} (ha : a ∈ l) (i : Nat) (b : Bool) :
    d.regsKept (t.setFlag a i b) l := h.wr (.inl ha)

theorem Dev.regsKept.answered {d t : Dev} {l : List Nat} (h : d.regsKept t l) (p : Path) (x : Answer) :
    d.regsKept (t.answered p x) l := h

theorem Dev.regsKept.trans {d t u : Dev} {l : List Nat} (h : d.regsKept t l) (k : t.regsKept u l) : d.regsKept u l :=
  fun a ha => (k a ha).trans (h a ha)

theorem Dev.answered_flag (d : Dev) (p : Path) (x : Answer) (a i : Nat) : (d.answered p x).flag a i = d.flag a i := rfl
theorem Dev.answered_fld (d : Dev) (p : Path) (x : Answer) (a lo w : Nat) : (d.answered p x).fld a lo w = d.fld a lo w := rfl

theorem Dev.onlyRegs_refl (d : Dev) (l : List Nat) : d.onlyRegs d l := ⟨rfl, d.regsKept_refl l⟩

theorem Dev.onlyRegs.setFlag {d t : Dev} {l : List Nat} (h : d.onlyRegs t l) {a : Nat} (ha : a ∈ l) (i : Nat) (b : Bool) :
    d.onlyRegs (t.setFlag a i b) l := by
  obtain ⟨ht, hr⟩ := h
  refine ⟨?_, hr.setFlag ha i b⟩
  rw [Dev.setFlag_regs_only]
  generalize (t.setFlag a i b).regs = r
  rw [ht]

/-! ## One word of the block STF -/

/-- The bytes of a word that an access enables, in ascending order. -/
def fedBytes (v en : Word) : Bytes :=
  (List.range 4).filterMap fun i => if en.getLsbD (8 * i) then some (BitVec.ofNat 8 (v.toNat / 2 ^ (8 * i))) else none

/-- A write of a word through the direct view stores its writable bits; then come its further effects. -/
theorem Dev.writeWord_direct (d : Dev) (p : Path) (a : Nat) (v en : Word) :
    d.writeWord p a 0 v en = (d.wr a (viewed 0 (d.rd a) v (en &&& RegMap.rwMask a))).afterWrite p a (d.rd a) (v &&& en).toNat
      (fedBytes v en) := by
  simp only [Dev.writeWord, viewed, fedBytes, if_true, OfNat.zero_ne_ofNat, if_false, BitVec.and_assoc]

/-- A defined word of the block STF (slot 9) that is no half of a 64-bit register. -/
def stfWord (a : Nat) : Bool :=
  decide (0x90000 ≤ a ∧ a < 0x91000 ∧ a % 4 = 0) && (RegMap.descAt a).isSome && !RegMap.isWide a

theorem stfWord_sealCtrl : ∀ n : Fin 9, stfWord (Reg.sealCtrl n.val) = true := by decide
theorem stfWord_sealRun : ∀ n : Fin 9, stfWord (Reg.sealRun n.val) = true := by decide
theorem stfWord_sealData : ∀ n : Fin 9, stfWord (Reg.sealData n.val) = true := by decide
theorem stfWord_scanCtrl : stfWord Reg.scanCtrl = true := by decide

section
variable {a : Nat} (ha : stfWord a = true)
include ha

theorem stfWord_place : 0x90000 ≤ a ∧ a < 0x91000 ∧ a % 4 = 0 := by
  simp only [stfWord, Bool.and_eq_true, decide_eq_true_eq] at ha; exact ha.1.1

theorem stfWord_defined : defined a = true := by
  simp only [stfWord, Bool.and_eq_true] at ha; simp [defined, ha.1.2]

theorem stfWord_narrow : RegMap.isWide a = false := by
  simp only [stfWord, Bool.and_eq_true, Bool.not_eq_true'] at ha; exact ha.2

theorem stfWord_direct : winSlot a = 9 ∧ winDirect a = a ∧ winView a = 0 := by
  obtain ⟨h1, h2, -⟩ := stfWord_place ha
  have hs : winSlot a = 9 := by unfold winSlot; omega
  refine ⟨hs, ?_, by unfold winView; omega⟩
  have hspan : RegMap.slotSpan 9 = 0x1000 := rfl
  unfold winDirect; rw [hs, hspan]; omega

/-- With PD_STF up no path is refused such a write (R429, R430, R435, R448). -/
theorem Dev.stfWord_accessError {d : Dev} (hup : d.domainUp 133 = true) (p : Path) {size : Size} (hs : size ≠ .b64) (v : Nat) :
    d.accessError p a size (some v) = none := by
  obtain ⟨h1, h2, h4⟩ := stfWord_place ha
  obtain ⟨hslot, hdir, -⟩ := stfWord_direct ha
  have haligned : a % sizeBytes size = 0 := by
    cases size with
    | b64 => exact absurd rfl hs
    | _ => simp only [sizeBytes]; omega
  have hcovers : ∀ b, b < 0x90000 → covers a size b = false := by
    intro b hb; simp only [covers, hdir, decide_eq_false_iff_not]; omega
  have hdenied : denied p a size (some v) = false := by
    simp [denied, hcovers Reg.regAccess (by decide), hcovers (Reg.fltInject + 3) (by decide)]
  have hdomain : regDomain a = 133 := by
    have hk : a / 0x10000 = 9 := by omega
    simp [regDomain, hk]
  have hrows : (RegMap.slotRows 9).isNone = false := rfl
  simp [Dev.accessError, hslot, hdir, haligned, hdenied, hdomain, hup, hrows]

/-- A write of the word, or of its low lanes, when the path holds no write shadow of the block. -/
theorem Dev.access_stfWord {d : Dev} {p : Path} (hf : d.pathFree p) (hup : d.domainUp 133 = true)
    (hsh : shadowOf d.bus.writeShadows 9 p = none) {size : Size} (hs : size ≠ .b64) (v : Nat) :
    d.access p a size (some v)
      = (d.writeWord p a 0 (BitVec.ofNat 32 (v % 2 ^ (8 * sizeBytes size))) (laneMask 0 (sizeBytes size))).reply p .done := by
  obtain ⟨h1, h2, h4⟩ := stfWord_place ha
  obtain ⟨-, hdir, hview⟩ := stfWord_direct ha
  have hsize : sizeBytes size ≠ 8 := by cases size <;> simp_all [sizeBytes]
  have hword : a / 4 * 4 = a := by omega
  have hslot : a / 0x10000 = 9 := by omega
  have hidx : isIdx a = false := by simp only [isIdx, decide_eq_false_iff_not]; omega
  rw [Dev.access_write hf.1 (Dev.stfWord_accessError ha hup p hs v)]
  simp [Dev.writeAccess, hsize, hdir, hview, h4, hword, Dev.writeNarrow, stfWord_defined ha, stfWord_narrow ha, Dev.dropOther, hslot,
    hsh, Dev.putWord, hidx]

end

theorem Dev.accessHw_false (d : Dev) (p : Path) (addr : Nat) (size : Size) (w : Option Nat) :
    d.accessHw p addr size w false = d.access p addr size w := by
  simp only [Dev.accessHw, Bool.false_and, Bool.false_eq_true, if_false]

end Sys2Proof.Machine
end

section
/-! SUPPORT. The seal units that the Milliner leaves to diagnostics (R112, R114, R116, R120). -/

namespace Sys2Proof.Machine

open Sys2Proof

theorem rwMask_sealCtrl : ∀ n : Fin 9, RegMap.rwMask (Reg.sealCtrl n.val) = 2#32 := by decide
theorem rwMask_sealRun : ∀ n : Fin 9, RegMap.rwMask (Reg.sealRun n.val) = 0xFFFFFFFF#32 := by decide
theorem rwMask_sealData : ∀ n : Fin 9, RegMap.rwMask (Reg.sealData n.val) = 0#32 := by decide

/-- The bytes of the lowest n lanes. -/
theorem fedBytes_laneMask (v : Word) {n : Nat} (h : n ≤ 4) :
    fedBytes v (laneMask 0 n) = (List.range n).map fun i => BitVec.ofNat 8 (v.toNat / 2 ^ (8 * i)) := by
  interval_cases n <;> rfl

/-- The bytes that a write of SEALn_DATA feeds are those of its width, in ascending order. -/
theorem fedBytes_low {size : Size} (hs : size ≠ .b64) (data : Word) :
    fedBytes (BitVec.ofNat 32 (data.toNat % 2 ^ (8 * sizeBytes size))) (laneMask 0 (sizeBytes size))
      = le (sizeBytes size) data.toNat := by
  have hb : ∀ x y : Nat, x % 256 = y % 256 → BitVec.ofNat 8 x = BitVec.ofNat 8 y := fun x y h =>
    BitVec.eq_of_toNat_eq (by simpa using h)
  have hn : sizeBytes size ≤ 4 := by
    cases size with
    | b64 => exact absurd rfl hs
    | _ => decide
  rw [fedBytes_laneMask _ hn]
  cases size with
  | b64 => exact absurd rfl hs
  | _ =>
    simp only [sizeBytes, List.range_succ, List.range_zero, List.nil_append, List.cons_append, List.map_cons, List.map_nil, le,
      List.cons.injEq, and_true, BitVec.toNat_ofNat]
    and_intros <;> exact hb _ _ (by omega)

/-- A write in the block of a seal unit has that unit's effects. -/
theorem Dev.afterWrite_seal (d : Dev) (p : Path) {a n r : Nat} (ha : a = 0x90200 + 0x20 * n + r) (hn : n < 9) (hr : r < 0x20)
    (old : Word) (pulse : Nat) (fed : Bytes) : d.afterWrite p a old pulse fed = d.sealWrite n r pulse fed := by
  have hbank : a ≠ Reg.nextBank := by unfold Reg.nextBank; omega
  have hunit : 0x90200 ≤ a ∧ a < 0x90320 := by omega
  have hn' : (a - 0x90200) / 0x20 = n := by omega
  have hr' : a % 0x20 = r := by omega
  rw [Dev.afterWrite, if_neg hbank, if_pos hunit, hn', hr']

section
variable {n : Nat} (h7 : 7 ≤ n)
include h7

/-- Writing the registers of such a unit spoils nothing. -/
theorem Dev.spoilSeal_diagnostic (d : Dev) : d.spoilSeal n = d := by
  have h6 : n ≠ 6 := by omega
  have h2 : ¬ n < 2 := by omega
  rw [Dev.spoilSeal, if_neg h6, if_neg h2]

theorem Dev.sealWrite_diagnostic (d : Dev) (r pulse : Nat) (fed : Bytes) :
    d.sealWrite n r pulse fed =
      if r = 0 ∧ bit pulse 0 = true then
        d.wr (Reg.sealRun n) (if d.flag (Reg.sealCtrl n) 1 then 0xFFFFFFFF#32
          else crcRun 0xFFFFFFFF#32 (le 8 (d.rd64 (Reg.sealFold n))))
      else if r = 0x10 then d.wr (Reg.sealRun n) (crcRun (d.rd (Reg.sealRun n)) fed) else d := by
  have h6 : ¬ (n = 6 ∧ r = 4 ∧ d.scan.running.isSome = true) := by omega
  simp only [Dev.sealWrite, if_neg h6, Dev.spoilSeal_diagnostic h7]

end

/-! ## What a write to such a unit leaves -/

section
variable {d : Dev} {p : Path} (hf : d.pathFree p) (hup : d.domainUp 133 = true) (hsh : shadowOf d.bus.writeShadows 9 p = none)
  {n : Fin 9} (h7 : 7 ≤ n.val)
include hf hup hsh h7

/-- START stores NOFOLD and loads RUN. -/
theorem Dev.access_sealStart (nofold : Bool) : ∃ c : Word, c.getLsbD 1 = nofold ∧
    d.access p (Reg.sealCtrl n.val) .b32 (some (b2n nofold * 2 + 1))
      = ((d.wr (Reg.sealCtrl n.val) c).wr (Reg.sealRun n.val) (if nofold then 0xFFFFFFFF#32
          else crcRun 0xFFFFFFFF#32 (le 8 (d.rd64 (Reg.sealFold n.val))))).answered p .done := by
  have hplace : Reg.sealCtrl n.val = 0x90200 + 0x20 * n.val + 0 := rfl
  have hval : (b2n nofold * 2 + 1) % 2 ^ (8 * sizeBytes .b32) = b2n nofold * 2 + 1 := by cases nofold <;> rfl
  have hpulse : bit (BitVec.ofNat 32 (b2n nofold * 2 + 1) &&& laneMask 0 (sizeBytes .b32)).toNat 0 = true := by cases nofold <;> rfl
  have hc : (viewed 0 (d.rd (Reg.sealCtrl n.val)) (BitVec.ofNat 32 (b2n nofold * 2 + 1)) (laneMask 0 (sizeBytes .b32) &&& 2#32)).getLsbD 1
      = nofold := by cases nofold <;> simp [viewed, laneMask, sizeBytes, b2n]
  have hfold : ∀ c, (d.wr (Reg.sealCtrl n.val) c).rd64 (Reg.sealFold n.val) = d.rd64 (Reg.sealFold n.val) := by
    intro c
    have hlo : Reg.sealFold n.val ≠ Reg.sealCtrl n.val := by unfold Reg.sealFold Reg.sealCtrl; omega
    have hhi : Reg.sealFold n.val + 4 ≠ Reg.sealCtrl n.val := by unfold Reg.sealFold Reg.sealCtrl; omega
    rw [Dev.rd64, Dev.rdN, Dev.rdN, Dev.rd_wr_ne _ _ _ _ hlo, Dev.rd_wr_ne _ _ _ _ hhi]; rfl
  refine ⟨viewed 0 (d.rd (Reg.sealCtrl n.val)) (BitVec.ofNat 32 (b2n nofold * 2 + 1)) (laneMask 0 (sizeBytes .b32) &&& 2#32), hc, ?_⟩
  rw [Dev.access_stfWord (stfWord_sealCtrl n) hf hup hsh (by decide), hval, Dev.writeWord_direct, rwMask_sealCtrl,
    Dev.afterWrite_seal _ _ hplace n.isLt (by decide), Dev.sealWrite_diagnostic h7, if_pos ⟨rfl, hpulse⟩,
    Dev.flag_eq_getLsbD, Dev.rd_wr_same, hc, hfold]
  exact Dev.reply_eq (d := (d.wr _ _).wr _ _) hf.2 p .done

/-- SEALn_DATA feeds its bytes; it holds nothing itself. -/
theorem Dev.access_sealData {size : Size} (hs : size ≠ .b64) (data : Word) :
    d.access p (Reg.sealData n.val) size (some data.toNat)
      = ((d.wr (Reg.sealData n.val) (d.rd (Reg.sealData n.val))).wr (Reg.sealRun n.val)
          (crcRun (d.rd (Reg.sealRun n.val)) (le (sizeBytes size) data.toNat))).answered p .done := by
  have hplace : Reg.sealData n.val = 0x90200 + 0x20 * n.val + 0x10 := by unfold Reg.sealData; omega
  have hrun : (d.wr (Reg.sealData n.val) (d.rd (Reg.sealData n.val))).rd (Reg.sealRun n.val) = d.rd (Reg.sealRun n.val) :=
    Dev.rd_wr_ne _ _ _ _ (by unfold Reg.sealRun Reg.sealData; omega)
  have hkeep : ∀ v en, viewed 0 (d.rd (Reg.sealData n.val)) v (en &&& 0#32) = d.rd (Reg.sealData n.val) := by
    intro v en
    rw [viewed, if_pos rfl, BitVec.and_zero, BitVec.and_zero, BitVec.or_zero]
    exact BitVec.and_allOnes
  rw [Dev.access_stfWord (stfWord_sealData n) hf hup hsh hs, Dev.writeWord_direct, rwMask_sealData, hkeep, fedBytes_low hs,
    Dev.afterWrite_seal _ _ hplace n.isLt (by decide), Dev.sealWrite_diagnostic h7, if_neg (by simp), if_pos rfl, hrun]
  exact Dev.reply_eq (d := (d.wr _ _).wr _ _) hf.2 p .done

/-- SEALn_RUN takes the value. -/
theorem Dev.access_sealRun (value : Word) :
    d.access p (Reg.sealRun n.val) .b32 (some value.toNat) = (d.wr (Reg.sealRun n.val) value).answered p .done := by
  have hplace : Reg.sealRun n.val = 0x90200 + 0x20 * n.val + 4 := by unfold Reg.sealRun; omega
  have hval : BitVec.ofNat 32 (value.toNat % 2 ^ (8 * sizeBytes .b32)) = value :=
    BitVec.eq_of_toNat_eq (by simpa [sizeBytes] using value.isLt)
  have hput : viewed 0 (d.rd (Reg.sealRun n.val)) value (laneMask 0 (sizeBytes .b32) &&& 0xFFFFFFFF#32) = value := by
    have hen : laneMask 0 (sizeBytes .b32) &&& 0xFFFFFFFF#32 = BitVec.allOnes 32 := by decide
    rw [hen, viewed, if_pos rfl, BitVec.not_allOnes, BitVec.and_zero, BitVec.zero_or, BitVec.and_allOnes]
  rw [Dev.access_stfWord (stfWord_sealRun n) hf hup hsh (by decide), hval, Dev.writeWord_direct, rwMask_sealRun, hput,
    Dev.afterWrite_seal _ _ hplace n.isLt (by decide), Dev.sealWrite_diagnostic h7, if_neg (by simp), if_neg (by decide)]
  exact Dev.reply_eq (d := d.wr _ _) hf.2 p .done

/-- A hardware update of SEALn_RUN in the same cycle is lost (R443, R444). -/
theorem Dev.accessHw_sealRun (value : Word) :
    d.accessHw p (Reg.sealRun n.val) .b32 (some value.toNat) true
      = ((d.wr (Reg.sealRun n.val) value).answered p .done).setFlag (Reg.luMap 0) 9 true := by
  obtain ⟨hslot, hdir, -⟩ := stfWord_direct (stfWord_sealRun n)
  have hword : Reg.sealRun n.val / 4 * 4 = Reg.sealRun n.val := by unfold Reg.sealRun; omega
  have hrwh : rwhWord (Reg.sealRun n.val) = true := by
    have hrange : 0x90200 ≤ Reg.sealRun n.val ∧ Reg.sealRun n.val < 0x90320 ∧ Reg.sealRun n.val % 0x20 = 4 := by
      unfold Reg.sealRun; omega
    simp [rwhWord, hrange]
  have herr := Dev.stfWord_accessError (stfWord_sealRun n) hup p (size := .b32) (by decide) value.toNat
  rw [Dev.accessHw, Dev.access_sealRun hf hup hsh h7, hdir, hword, hrwh, herr, hf.1, hslot]
  rfl

end

/-- Settles O10: each write is one of the three of a diagnostic seal unit. -/
theorem sealUnits : Obligations.SealUnits := by
  unfold Obligations.SealUnits
  intro s p n data ha hf hup h7 hsh
  have hrun : Reg.sealRun n.val ≠ Reg.luMap 0 := by unfold Reg.sealRun Reg.luMap; omega
  have hctrl : Reg.sealCtrl n.val ≠ Reg.sealRun n.val := by unfold Reg.sealRun Reg.sealCtrl; omega
  refine ⟨fun nofold => ?_, fun size hs => ?_, ?_, ?_⟩
  · obtain ⟨c, hc, he⟩ := Dev.access_sealStart hf hup hsh h7 nofold
    refine becomes_of_upd ha (f := fun d => d.access _ _ _ _) rfl he ⟨⟨?_, ?_⟩, ?_, ?_⟩
    · rfl
    · exact (((s.dev.regsKept_refl _).wr (.inl (by simp))).wr (.inl (by simp))).answered _ _
    · rw [Dev.flag_eq_getLsbD, ← hc]
      exact congrArg (BitVec.getLsbD · 1) ((Dev.rd_wr_ne _ _ _ _ hctrl).trans (Dev.rd_wr_same ..))
    · exact Dev.rd_wr_same ..
  · refine becomes_of_upd ha (f := fun d => d.access _ _ _ _) rfl (Dev.access_sealData hf hup hsh h7 hs data) ⟨⟨?_, ?_⟩, ?_⟩
    · rfl
    · exact (((s.dev.regsKept_refl _).wr (.inr rfl)).wr (.inl (by simp))).answered _ _
    · exact Dev.rd_wr_same ..
  · refine becomes_of_upd ha (f := fun d => d.accessHw _ _ _ _ _) rfl
      ((Dev.accessHw_false ..).trans (Dev.access_sealRun hf hup hsh h7 data)) ⟨⟨?_, ?_⟩, ?_⟩
    · rfl
    · exact ((s.dev.regsKept_refl _).wr (.inl (by simp))).answered _ _
    · exact Dev.rd_wr_same ..
  · refine becomes_of_upd ha (f := fun d => d.accessHw _ _ _ _ _) rfl (Dev.accessHw_sealRun hf hup hsh h7 data) ⟨⟨?_, ?_⟩, ?_, ?_⟩
    · exact Dev.setFlag_regs_only ..
    · exact (((s.dev.regsKept_refl _).wr (.inl (by simp))).answered _ _).setFlag (by simp) _ _
    · exact (Dev.rd_setFlag_ne _ _ _ _ _ hrun).trans (Dev.rd_wr_same ..)
    · exact Dev.flag_setFlag_same _ _ _ _ (by decide)

end Sys2Proof.Machine
end

section
/-! SUPPORT. The scan engine: what SCAN_CTRL and SEAL6_CTRL show, and how a requested scan starts or waits (R118, R119). -/

namespace Sys2Proof.Machine

open Sys2Proof

/-! ## What is shown (R118, R119) -/

theorem Dev.showScan_onlyRegs (d : Dev) : d.onlyRegs d.showScan [Reg.scanCtrl, Reg.sealCtrl 6] :=
  (((d.onlyRegs_refl _).setFlag (by simp) _ _).setFlag (by simp) _ _).setFlag (by simp) _ _

theorem scanCtrl_ne_sealCtrl : Reg.scanCtrl ≠ Reg.sealCtrl 6 := by decide

/-- BUSY and PENDING of SCAN_CTRL, and BUSY of SEAL6_CTRL. -/
theorem Dev.showScan_shows (d : Dev) : d.showScan.flag Reg.scanCtrl 31 = d.scan.running.isSome
    ∧ d.showScan.flag Reg.scanCtrl 30 = (d.scan.waiting != []) ∧ d.showScan.flag (Reg.sealCtrl 6) 31 = d.scan.running.isSome := by
  unfold Dev.showScan
  refine ⟨?_, ?_, Dev.flag_setFlag_same _ _ _ _ (by decide)⟩
  · rw [Dev.flag_setFlag_other _ _ _ _ scanCtrl_ne_sealCtrl, Dev.flag_setFlag_ne _ _ _ (by decide) (by decide),
      Dev.flag_setFlag_same _ _ _ _ (by decide)]
  · rw [Dev.flag_setFlag_other _ _ _ _ scanCtrl_ne_sealCtrl, Dev.flag_setFlag_same _ _ _ _ (by decide)]

theorem Dev.showScan_space (d : Dev) : d.showScan.fld Reg.scanCtrl 6 2 = d.fld Reg.scanCtrl 6 2 := by
  unfold Dev.showScan
  rw [Dev.fld_setFlag_other _ _ _ _ _ scanCtrl_ne_sealCtrl, Dev.fld_setFlag_ne _ _ _ (by decide) (.inr (by decide)),
    Dev.fld_setFlag_ne _ _ _ (by decide) (.inr (by decide))]

/-- The device with another state of the scan engine, which is shown. -/
def Dev.scanSet (d : Dev) (x : Scan) : Dev := ({ d with scan := x } : Dev).showScan

theorem Dev.scanSet_eq (d : Dev) (x : Scan) : d.scanSet x = { d with regs := (d.scanSet x).regs, scan := x } :=
  ({ d with scan := x } : Dev).showScan_onlyRegs.1

theorem Dev.scanSet_regsKept (d : Dev) (x : Scan) : d.regsKept (d.scanSet x) [Reg.scanCtrl, Reg.sealCtrl 6] :=
  ({ d with scan := x } : Dev).showScan_onlyRegs.2

theorem Dev.scanSet_shows (d : Dev) {x : Scan} {busy pending : Bool} (hb : x.running.isSome = busy) (hp : (x.waiting != []) = pending) :
    (d.scanSet x).flag Reg.scanCtrl 31 = busy ∧ (d.scanSet x).flag Reg.scanCtrl 30 = pending
      ∧ (d.scanSet x).flag (Reg.sealCtrl 6) 31 = busy := by
  subst hb hp; exact ({ d with scan := x } : Dev).showScan_shows

theorem Dev.scanSet_space (d : Dev) (x : Scan) : (d.scanSet x).fld Reg.scanCtrl 6 2 = d.fld Reg.scanCtrl 6 2 :=
  ({ d with scan := x } : Dev).showScan_space

theorem Dev.scanSet_wr_eq (d : Dev) (a : Nat) (c : Word) (x : Scan) :
    (d.wr a c).scanSet x = { d with regs := ((d.wr a c).scanSet x).regs, scan := x } := Dev.scanSet_eq _ x

/-! ## A request starts or waits (R119) -/

/-- The state of the scan engine in which a scan has started. -/
def Scan.started (x : Scan) (q : ScanReq) : Scan := { x with running := some q, spoiled := false }

/-- The state in which a request waits: a stiffening scan behind those of its kind and before all others, another last. -/
def Scan.queued (x : Scan) (q : ScanReq) : Scan :=
  { x with waiting :=
      if q.stiffening then x.waiting.takeWhile (·.stiffening) ++ q :: x.waiting.dropWhile (·.stiffening) else x.waiting ++ [q] }

theorem Scan.queued_waiting (x : Scan) (q : ScanReq) : ((x.queued q).waiting != []) = true := by
  unfold Scan.queued; dsimp only; split <;> simp

/-- What a stiffening scan takes at its start: the running values over the stiffened registers as they stand. -/
def Scan.taken (x : Scan) (d : Dev) : Scan :=
  { x with runs := d.scanRuns, rebaseThis := d.flag Reg.stfStat 30, changed := false, serves := (d.owed 0x0F03).isSome }

theorem Dev.requestScan_starts (d : Dev) {x : Scan} {q : ScanReq} (hr : x.running = none) (hq : q.stiffening = false) :
    ({ d with scan := x } : Dev).requestScan q = d.scanSet (x.started q) := by
  simp [Dev.requestScan, hr, Dev.startScan, hq, Dev.scanSet, Scan.started]

theorem Dev.requestScan_starts_stiff {d : Dev} (hr : d.scan.running = none) :
    d.requestScan ScanReq.stiff = d.scanSet ((d.scan.taken d).started ScanReq.stiff) := by
  simp [Dev.requestScan, hr, Dev.startScan, ScanReq.stiff, Dev.scanSet, Scan.started, Scan.taken]

theorem Dev.requestScan_waits (d : Dev) {x : Scan} {q y : ScanReq} (hr : x.running = some y) :
    ({ d with scan := x } : Dev).requestScan q = d.scanSet (x.queued q) := by
  simp [Dev.requestScan, hr, List.span_eq_takeWhile_dropWhile, Dev.scanSet, Scan.queued]

/-! ## A GO write of SCAN_CTRL (R118, R120) -/

/-- Writing the scan registers spoils a running scan, unless the Milliner writes them. -/
def Scan.touched (x : Scan) (p : Path) : Scan := { x with spoiled := x.spoiled || (x.running.isSome && p != .milliner) }

theorem Dev.spoilSeal_scan (d : Dev) (p : Path) :
    (if p = .milliner then d else d.spoilSeal 6) = { d with scan := d.scan.touched p } := by
  unfold Scan.touched
  by_cases hm : p = .milliner
  · rw [if_pos hm, bne_eq_false_iff_eq.mpr hm, Bool.and_false, Bool.or_false]
  · rw [if_neg hm, bne_iff_ne.mpr hm, Bool.and_true, Dev.spoilSeal, if_pos rfl]
    cases hr : d.scan.running.isSome with
    | false => rw [Bool.or_false]; rfl
    | true => rw [Bool.or_true]; rfl

theorem Dev.afterWrite_scanGo (d : Dev) (p : Path) (old : Word) {pulse : Nat} (fed : Bytes) (hp : bit pulse 0 = true) :
    d.afterWrite p Reg.scanCtrl old pulse fed = ({ d with scan := d.scan.touched p } : Dev).requestScan
      ⟨d.fld Reg.scanCtrl 6 2, d.rd64 Reg.scanAddr, d.rdN Reg.scanLen, false⟩ := by
  rw [Dev.afterWrite, if_neg (by decide), if_neg (by decide), if_pos (by decide)]
  dsimp only
  rw [Dev.spoilSeal_scan, if_pos ⟨rfl, hp⟩]
  rfl

/-- A field all of whose bits are written takes the bits of the value. -/
theorem bits_viewed {old v en : Word} {lo w : Nat} (h : ∀ j, j < w → en.getLsbD (lo + j) = true) :
    bits (viewed 0 old v en).toNat lo w = bits v.toNat lo w := by
  refine Nat.eq_of_testBit_eq fun j => ?_
  rw [testBit_bits, testBit_bits, BitVec.testBit_toNat, BitVec.testBit_toNat]
  by_cases hj : j < w
  · simp [viewed, h j hj]
  · simp [hj]

theorem rwMask_scanCtrl : RegMap.rwMask Reg.scanCtrl = 0xC0#32 := by decide

section
variable {d : Dev} {p : Path} (hf : d.pathFree p) (hup : d.domainUp 133 = true) (hsh : shadowOf d.bus.writeShadows 9 p = none)
include hf hup hsh

/-- The write stores SPACE and requests a scan of it. -/
theorem Dev.access_scanGo (space : Fin 4) : ∃ c : Word, (d.wr Reg.scanCtrl c).fld Reg.scanCtrl 6 2 = space.val ∧
    d.access p Reg.scanCtrl .b32 (some (space.val * 2 ^ 6 + 1))
      = (({ d.wr Reg.scanCtrl c with scan := d.scan.touched p } : Dev).requestScan
          ⟨space.val, d.rd64 Reg.scanAddr, d.rdN Reg.scanLen, false⟩).reply p .done := by
  have hval : (space.val * 2 ^ 6 + 1) % 2 ^ (8 * sizeBytes .b32) = space.val * 2 ^ 6 + 1 := by revert space; decide
  have hpulse : bit (BitVec.ofNat 32 (space.val * 2 ^ 6 + 1) &&& laneMask 0 (sizeBytes .b32)).toNat 0 = true := by
    clear hval; revert space; decide
  have hc : (d.wr Reg.scanCtrl
      (viewed 0 (d.rd Reg.scanCtrl) (BitVec.ofNat 32 (space.val * 2 ^ 6 + 1)) (laneMask 0 (sizeBytes .b32) &&& 0xC0#32))).fld
        Reg.scanCtrl 6 2 = space.val := by
    have hen : ∀ j, j < 2 → (laneMask 0 (sizeBytes .b32) &&& 0xC0#32).getLsbD (6 + j) = true := by decide
    rw [Dev.fld, Dev.rdN, Dev.rd_wr_same, bits_viewed hen]
    clear hval hpulse; revert space; decide
  refine ⟨viewed 0 (d.rd Reg.scanCtrl) (BitVec.ofNat 32 (space.val * 2 ^ 6 + 1)) (laneMask 0 (sizeBytes .b32) &&& 0xC0#32), hc, ?_⟩
  have haddr : ∀ c, (d.wr Reg.scanCtrl c).rd64 Reg.scanAddr = d.rd64 Reg.scanAddr := by
    intro c
    rw [Dev.rd64, Dev.rdN, Dev.rdN, Dev.rd_wr_ne _ _ _ _ (by decide), Dev.rd_wr_ne _ _ _ _ (by decide)]; rfl
  have hlen : ∀ c, (d.wr Reg.scanCtrl c).rdN Reg.scanLen = d.rdN Reg.scanLen := fun c => 
    congrArg BitVec.toNat (Dev.rd_wr_ne _ _ _ _ (by decide))
  rw [Dev.access_stfWord stfWord_scanCtrl hf hup hsh (by decide), hval, Dev.writeWord_direct, rwMask_scanCtrl,
    Dev.afterWrite_scanGo _ _ _ _ hpulse, hc, haddr, hlen]
  rfl

/-- Whatever state x the request leaves the scan engine in, the write has been answered and SCAN_CTRL shows x and SPACE. -/
theorem Dev.access_scanGo_sets (space : Fin 4) {x : Scan}
    (hx : ∀ e : Dev, ({ e with scan := d.scan.touched p } : Dev).requestScan
      ⟨space.val, d.rd64 Reg.scanAddr, d.rdN Reg.scanLen, false⟩ = e.scanSet x) :
    ∃ t : Dev, d.access p Reg.scanCtrl .b32 (some (space.val * 2 ^ 6 + 1)) = t
      ∧ t = ({ d with regs := t.regs, scan := x } : Dev).answered p .done
      ∧ (∀ busy pending, x.running.isSome = busy → (x.waiting != []) = pending →
          t.flag Reg.scanCtrl 31 = busy ∧ t.flag Reg.scanCtrl 30 = pending ∧ t.flag (Reg.sealCtrl 6) 31 = busy)
      ∧ t.fld Reg.scanCtrl 6 2 = space.val ∧ d.regsKept t [Reg.scanCtrl, Reg.sealCtrl 6] := by
  obtain ⟨c, hc, he⟩ := Dev.access_scanGo hf hup hsh space
  have heq := d.scanSet_wr_eq Reg.scanCtrl c x
  have hshow := fun busy pending => (d.wr Reg.scanCtrl c).scanSet_shows (x := x) (busy := busy) (pending := pending)
  have hspace := ((d.wr Reg.scanCtrl c).scanSet_space x).trans hc
  have hkept := ((d.regsKept_refl [Reg.scanCtrl, Reg.sealCtrl 6]).wr (v := c) (.inl (by simp))).trans
    ((d.wr Reg.scanCtrl c).scanSet_regsKept x)
  rw [hx] at he
  generalize (d.wr Reg.scanCtrl c).scanSet x = v at *
  have hwin : v.smb.win = none := by rw [heq]; exact hf.2
  refine ⟨v.answered p .done, he.trans (Dev.reply_eq hwin p .done), congrArg (Dev.answered · p .done) heq, ?_, ?_, hkept.answered _ _⟩
  · intro busy pending
    rw [Dev.answered_flag, Dev.answered_flag, Dev.answered_flag]
    exact hshow busy pending
  · rw [Dev.answered_fld, hspace]

end

/-- Settles O11: each clause is a request of R119 on a scan engine that is idle or runs. -/
theorem scansStartOrWait : Obligations.ScansStartOrWait := by
  unfold Obligations.ScansStartOrWait
  intro s p ha hf hup hsh
  refine ⟨fun space hr hw => ?_, fun space x hr => ?_, fun hr hw hon => ?_, fun x hr hon => ?_, fun hoff => ?_⟩
  · obtain ⟨t, he, ht, hshow, hspace, hkept⟩ := Dev.access_scanGo_sets hf hup hsh space fun e => e.requestScan_starts hr rfl
    have hpend : ((s.dev.scan.touched p).started ⟨space.val, s.dev.rd64 Reg.scanAddr, s.dev.rdN Reg.scanLen, false⟩).waiting
        = [] := hw
    exact becomes_of_upd ha (f := fun d => d.access _ _ _ _) rfl he ⟨ht, hshow true false rfl (by rw [hpend]; rfl), hspace, hkept⟩
  · obtain ⟨t, he, ht, hshow, -, hkept⟩ := Dev.access_scanGo_sets hf hup hsh space fun e => e.requestScan_waits hr
    refine becomes_of_upd ha (f := fun d => d.access _ _ _ _) rfl he
      ⟨ht.trans ?_, hshow true true (congrArg Option.isSome hr) (Scan.queued_waiting ..), hkept⟩
    simp [Scan.queued, Scan.touched, hr]
  · refine becomes_of_upd ha (f := fun d => if d.domainOn 133 then d.requestScan _ else d) rfl
      ((if_pos hon).trans (Dev.requestScan_starts_stiff hr)) ⟨Dev.scanSet_eq .., Dev.scanSet_shows _ rfl ?_, Dev.scanSet_regsKept _ _⟩
    simp [Scan.started, Scan.taken, hw]
  · exact becomes_of_upd ha (f := fun d => if d.domainOn 133 then d.requestScan _ else d) rfl
      ((if_pos hon).trans (Dev.requestScan_waits s.dev hr))
      ⟨Dev.scanSet_eq .., Dev.scanSet_shows _ (congrArg Option.isSome hr) (Scan.queued_waiting ..), Dev.scanSet_regsKept _ _⟩
  · exact becomes_of_upd ha (f := fun d => if d.domainOn 133 then d.requestScan _ else d) rfl (if_neg (by simp [hoff])) rfl

end Sys2Proof.Machine
end

section
/-! SUPPORT. What the boundary of a flush discards, hopper by hopper, and what the tail notice does (R104 to R109, R374, R475). -/

namespace Sys2Proof.Machine

open Sys2Proof

/-! ## One box, one pipeline -/

theorem Dev.box_modBox_same (d : Dev) (m : Nat) (f : Mailbox → Mailbox) : (d.modBox m f).box m = f (d.box m) :=
  getD_modAt_same d.boxes m f

theorem Dev.box_modBox_ne (d : Dev) {m j : Nat} (f : Mailbox → Mailbox) (h : j ≠ m) : (d.modBox m f).box j = d.box j :=
  getD_modAt_ne d.boxes f h

theorem Dev.pipe_modPipe (d : Dev) (n m : Nat) (f : Pipe → Pipe) :
    (d.modPipe n f).pipe m = if m = n then f (d.pipe m) else d.pipe m := by
  split
  next h => subst h; exact getD_modAt_same d.pipes m f
  next h => exact getD_modAt_ne d.pipes f h

/-! ## What a flush discards of each hopper (R104) -/

section
variable (d : Dev) {i : Nat}

theorem Dev.discardHop_request (h : i < 8) : d.discardHop i = d.modBox i fun b => { b with hopper := [] } := by
  rw [Dev.discardHop, if_pos h]

theorem Dev.discardHop_events (h : i = 8) : d.discardHop i = { d with ev := { d.ev with hopper := [], past := [] } } := by
  rw [Dev.discardHop, if_neg (by omega), if_pos h]

theorem Dev.discardHop_eventQueue (h : i = 9) : d.discardHop i = { d with ev := { d.ev with q0 := [] } } := by
  rw [Dev.discardHop, if_neg (by omega), if_neg (by omega), if_pos h]

theorem Dev.discardHop_rx (h1 : 10 ≤ i) (h2 : i < 26) :
    d.discardHop i = d.modPipe ((i - 10) % 16) fun p => { p with rx := p.rx.map Line.flushed } := by
  have hn : (i - 10) % 16 = i - 10 := by omega
  rw [Dev.discardHop, if_neg (by omega), if_neg (by omega), if_neg (by omega), if_pos h2, hn]

theorem Dev.discardHop_card (h1 : 26 ≤ i) (h2 : i < 58) :
    d.discardHop i = d.modPipe ((i - 10) % 16) fun p => { p with cards := p.cards.map Card.flush } := by
  have hn : (i - 10) % 16 = if i < 42 then i - 26 else i - 42 := by split <;> omega
  rw [Dev.discardHop, if_neg (by omega), if_neg (by omega), if_neg (by omega), if_neg (by omega), if_pos h2, hn]

theorem Dev.discardHop_slice (h1 : 59 ≤ i) (h2 : i < 67) :
    d.discardHop i = { d with ful := { d.ful with
      batts := d.ful.batts.map fun x => if x.slice = some (i - 59) then x.rollback else x } } := by
  rw [Dev.discardHop, if_neg (by omega), if_neg (by omega), if_neg (by omega), if_neg (by omega), if_neg (by omega), if_pos ⟨h1, h2⟩]

theorem Dev.discardHop_holdsNothing (h : i = 58 ∨ 67 ≤ i) : d.discardHop i = d := by
  rw [Dev.discardHop, if_neg (by omega), if_neg (by omega), if_neg (by omega), if_neg (by omega), if_neg (by omega), if_neg (by omega)]

end

/-! ## When a tail notice is due (R107, R374) -/

/-- A tail notice of hopper i can be raised: items wait, its timer is not disabled, and its domain is on. -/
def Dev.tailDue (d : Dev) (i : Nat) : Prop :=
  d.hopItems i ≠ 0 ∧ d.fld (Reg.hopCfg i) 0 16 ≠ 0 ∧ d.domainOn (hopDomain i) = true

/-- The cutter of slice k has not closed the last parcels of the batt. -/
def Batt.uncut (b : Batt) (k : Nat) : Prop := b.cutter = some k ∧ b.state ≠ .closed

theorem Dev.tailDue_iff (d : Dev) (i : Nat) :
    d.tailDue i ↔ ¬ (d.fld (Reg.hopCfg i) 0 16 = 0 ∨ d.domainOn (hopDomain i) = false ∨ d.hopItems i = 0) := by
  simp only [Dev.tailDue, not_or, Bool.not_eq_false]; tauto

theorem Dev.any_uncut_iff (d : Dev) (k : Nat) :
    (d.ful.batts.any fun b => b.cutter == some k && b.state != .closed) = true ↔ ∃ b ∈ d.ful.batts, b.uncut k := by
  simp [Batt.uncut]

/-! ## The two rows -/

section
variable {s : State} {h : Fin 71} (ha : s.alive)
include ha

theorem exec_hopperFlushBoundary_none (hf : (s.dev.hoppers.getD h.val {}).flushing = false) :
    exec (.hopperFlushBoundary h) s = .next s := by
  change execHopperFlushBoundary h s = _
  rw [execHopperFlushBoundary, State.upd_alive ha]
  dsimp only
  rw [if_pos hf]

theorem exec_hopperFlushBoundary_discards (hf : (s.dev.hoppers.getD h.val {}).flushing = true) :
    exec (.hopperFlushBoundary h) s
      = .next { s with dev := (s.dev.modHop h.val fun x => { x with flushing := false }).discardHop h.val } := by
  change execHopperFlushBoundary h s = _
  rw [execHopperFlushBoundary, State.upd_alive ha]
  dsimp only
  rw [if_neg (by rw [hf]; decide)]

theorem exec_tailNotice_none (hn : ¬ s.dev.tailDue h.val) : exec (.tailNotice h) s = .next s := by
  rw [Dev.tailDue_iff, not_not] at hn
  change execTailNotice h s = _
  rw [execTailNotice, State.upd_alive ha]
  dsimp only
  rw [if_pos hn]

theorem exec_tailNotice_raises (hd : s.dev.tailDue h.val)
    (hn : 59 ≤ h.val → h.val < 67 → ∀ b ∈ s.dev.ful.batts, ¬ b.uncut (h.val - 59)) :
    exec (.tailNotice h) s = .next { s with dev := s.dev.modHop h.val fun x => { x with tail := true } } := by
  have hcut : ¬ (59 ≤ h.val ∧ h.val < 67
      ∧ (s.dev.ful.batts.any fun b => b.cutter == some (h.val - 59) && b.state != .closed) = true) := by
    rw [Dev.any_uncut_iff]
    rintro ⟨h59, h67, b, hb, hu⟩
    exact hn h59 h67 b hb hu
  change execTailNotice h s = _
  rw [execTailNotice, State.upd_alive ha]
  dsimp only
  rw [if_neg ((Dev.tailDue_iff ..).mp hd), if_neg hcut]

theorem exec_tailNotice_closes (hd : s.dev.tailDue h.val) (h59 : 59 ≤ h.val) (h67 : h.val < 67)
    (hu : ∃ b ∈ s.dev.ful.batts, b.uncut (h.val - 59)) :
    exec (.tailNotice h) s = .next { s with dev := { s.dev.modHop h.val (fun x => { x with tail := false }) with ful := { s.dev.ful with
      batts := s.dev.ful.batts.map fun b =>
        if b.cutter = some (h.val - 59) ∧ b.state ≠ .closed then { b with cutter := none } else b } } } := by
  change execTailNotice h s = _
  rw [execTailNotice, State.upd_alive ha]
  dsimp only
  rw [if_neg ((Dev.tailDue_iff ..).mp hd), if_pos ⟨h59, h67, (Dev.any_uncut_iff ..).mpr hu⟩]
  rfl

end

/-- Settles O13: the flush hopper by hopper, the tail notice by whether it is due and whether it closes parcels. -/
theorem hopperFlushAndTail : Obligations.HopperFlushAndTail := by
  unfold Obligations.HopperFlushAndTail
  intro s h ha u n
  refine ⟨fun hf => ⟨_, exec_hopperFlushBoundary_none ha hf, rfl⟩, fun hf => ⟨_, exec_hopperFlushBoundary_discards ha hf, ?_⟩, ?_⟩
  · refine ⟨fun h8 => ?_, Dev.discardHop_events u, Dev.discardHop_eventQueue u, fun h10 h58 => ?_,
      Dev.discardHop_slice u, Dev.discardHop_holdsNothing u⟩
    · rw [Dev.discardHop_request _ h8]
      exact ⟨rfl, congrArg Mailbox.hopper (u.box_modBox_same _ _), fun m hm => u.box_modBox_ne _ hm⟩
    · by_cases h26 : h.val < 26
      · rw [Dev.discardHop_rx _ h10 h26]
        refine ⟨rfl, fun m _ => (u.pipe_modPipe _ m _).trans ?_⟩
        rw [if_pos h26, ite_not]; rfl
      · rw [Dev.discardHop_card _ (by omega) h58]
        refine ⟨rfl, fun m _ => (u.pipe_modPipe _ m _).trans ?_⟩
        rw [if_neg h26, ite_not]; rfl
  · exact ⟨fun hn => ⟨_, exec_tailNotice_none ha hn, rfl⟩, fun hd hn => ⟨_, exec_tailNotice_raises ha hd hn, rfl⟩,
      fun hd h59 h67 hu => ⟨_, exec_tailNotice_closes ha hd h59 h67 hu, rfl⟩⟩

end Sys2Proof.Machine
end

section
/-! SUPPORT. What stored words leave of the registers, a field read back from a payload, and a command that answers OK. -/

namespace Sys2Proof.Machine

open Sys2Proof

theorem Dev.regsKept.mono {d t : Dev} {l m : List Nat} (h : d.regsKept t l) (hl : l ⊆ m) : d.regsKept t m :=
  fun a ha => h a fun hm => ha (hl hm)

theorem Dev.regsKept.wrN {d t : Dev} {l : List Nat} (h : d.regsKept t l) {a : Nat} (ha : a ∈ l) (v : Nat) :
    d.regsKept (t.wrN a v) l := h.wr (.inl ha)

theorem Dev.regsKept.wr64 {d t : Dev} {l : List Nat} (h : d.regsKept t l) {a : Nat} (ha : a ∈ l) (hb : a + 4 ∈ l) (v : Nat) :
    d.regsKept (t.wr64 a v) l := (h.wrN ha _).wrN hb _

theorem Dev.rdN_wrN_ne (d : Dev) {a b : Nat} (v : Nat) (h : b ≠ a) : (d.wrN a v).rdN b = d.rdN b :=
  congrArg BitVec.toNat (d.rd_wrN_ne a b v h)

section
variable {d t : Dev} {a : Nat} (h : t.rd a = d.rd a)
include h

theorem Dev.rdN_congr : t.rdN a = d.rdN a := congrArg BitVec.toNat h
theorem Dev.fld_congr (lo w : Nat) : t.fld a lo w = d.fld a lo w := by rw [Dev.fld, Dev.rdN_congr h, Dev.fld]
theorem Dev.flag_congr (i : Nat) : t.flag a i = d.flag a i := by rw [Dev.flag, Dev.rdN_congr h, Dev.flag]
theorem Dev.rd64_congr (h4 : t.rd (a + 4) = d.rd (a + 4)) : t.rd64 a = d.rd64 a := by
  rw [Dev.rd64, Dev.rdN_congr h, Dev.rdN_congr h4, Dev.rd64]

end

theorem leAt_lt (b : Bytes) (o n : Nat) : leAt b o n < 2 ^ (8 * n) := by
  induction n generalizing o with
  | zero => simp [leAt]
  | succ n ih =>
    have hb : byteAt b o < 256 := (b.getD o 0).isLt
    have hr := ih (o + 1)
    rw [leAt, Nat.mul_succ, pow_add]
    omega

theorem Dev.onlyRegs.wrN {d t : Dev} {l : List Nat} (h : d.onlyRegs t l) {a : Nat} (ha : a ∈ l) (v : Nat) :
    d.onlyRegs (t.wrN a v) l := by
  obtain ⟨ht, hr⟩ := h
  refine ⟨?_, hr.wrN ha v⟩
  have hw : t.wrN a v = { t with regs := (t.wrN a v).regs } := rfl
  rw [hw]
  generalize (t.wrN a v).regs = x
  rw [ht]

theorem Dev.onlyRegs.wr64 {d t : Dev} {l : List Nat} (h : d.onlyRegs t l) {a : Nat} (ha : a ∈ l) (hb : a + 4 ∈ l) (v : Nat) :
    d.onlyRegs (t.wr64 a v) l := (h.wrN ha _).wrN hb _

/-- A command whose body gives OK and a device is done on it. -/
theorem command_ok {i : Instr} {s : State} {r : Req} {objs : List Obj} {code : Nat} (h : Begins s r objs) (sp : Spec) (body : Dev → Result)
    {d : Dev} {payload : Bytes} {effect : Dev → Prop} (hi : exec i s = s.upd fun d => d.command sp r body) (hc : sp.code = code)
    (ho : sp.objs r.payload = objs) (hl : sp.len r.payload = true) (hr : sp.reserved r.payload = true)
    (hb : body (s.dev.takeReq code r) = .ok d payload) (he : effect d) : Does i s code r payload effect :=
  command_does h sp body hi hc ho hl hr hb he

/-- While no register is stiffened a command that changes them goes ahead. -/
theorem Result.stiff_soft {d : Dev} (h : d.stiffActive = false) (k : Result) : Result.stiff d k = k := by
  rw [Result.stiff, if_neg (by rw [h]; decide)]

end Sys2Proof.Machine
end

section
/-! SUPPORT. The settings of the strip position: encoders, trigger plans with their strobes, the batt grid and the coil marks (R125 to
R147). -/

namespace Sys2Proof.Machine

open Sys2Proof

/-! ## ENCODER_CONFIG (R125, R127) -/

section
variable (d : Dev) (e role flags filter ratio limit hyst guard : Nat)

/-- The device with the settings of ENCODER_CONFIG in their registers, before a change of master takes effect. -/
def Dev.encoderWords : Dev :=
  let d2 := ((d.wrN (Reg.encCfg e) (role * 2 ^ 30 + bits flags 0 1 * 2 ^ 29 + filter * 2 ^ 16)).wrN (Reg.encRatio e) ratio).wrN
    (Reg.encLimit e) limit
  if role = 1 then
    d2.wrN Reg.posCtrl (bits flags 1 1 * 2 ^ 31 + bits flags 2 1 * 2 ^ 30 + e * 2 ^ 28 + 2 ^ 27 + guard * 2 ^ 16 + hyst)
  else if d.master = some e then d2.setFlag Reg.posCtrl 27 false
  else d2

/-- The position after a change of master: SPOS and the fraction stay until the new master's first tick. -/
def Dev.posForMaster (t : Dev) : Pos :=
  if t.master = d.master then d.pos else { d.pos with f := d.fraction, lastTick := none, period := none }

theorem Dev.encoderWords_onlyRegs : d.onlyRegs (d.encoderWords e role flags filter ratio limit hyst guard)
    [Reg.encCfg e, Reg.encRatio e, Reg.encLimit e, Reg.posCtrl] := by
  have hd2 := (((d.onlyRegs_refl [Reg.encCfg e, Reg.encRatio e, Reg.encLimit e, Reg.posCtrl]).wrN (a := Reg.encCfg e) (by simp)
    (role * 2 ^ 30 + bits flags 0 1 * 2 ^ 29 + filter * 2 ^ 16)).wrN (a := Reg.encRatio e) (by simp) ratio).wrN
    (a := Reg.encLimit e) (by simp) limit
  unfold Dev.encoderWords
  dsimp only
  split
  · exact hd2.wrN (by simp) _
  · split
    · exact hd2.setFlag (by simp) 27 false
    · exact hd2

theorem Dev.setEncoder_eq : d.setEncoder e role flags filter ratio limit hyst guard
    = { d.encoderWords e role flags filter ratio limit hyst guard with
        pos := d.posForMaster (d.encoderWords e role flags filter ratio limit hyst guard) } := by
  have hpos : (d.encoderWords e role flags filter ratio limit hyst guard).pos = d.pos := by
    rw [(d.encoderWords_onlyRegs e role flags filter ratio limit hyst guard).1]
  change (if (d.encoderWords e role flags filter ratio limit hyst guard).master = d.master then _ else _) = _
  unfold Dev.posForMaster
  split
  · rw [← hpos]; rfl
  · rw [← hpos]; rfl

/-- Whatever the role, POS_CTRL is the only other word that may change. -/
theorem Dev.encoderWords_rd {a : Nat} (ha : a ≠ Reg.posCtrl) : (d.encoderWords e role flags filter ratio limit hyst guard).rd a
    = (((d.wrN (Reg.encCfg e) (role * 2 ^ 30 + bits flags 0 1 * 2 ^ 29 + filter * 2 ^ 16)).wrN (Reg.encRatio e) ratio).wrN
        (Reg.encLimit e) limit).rd a := by
  unfold Dev.encoderWords
  dsimp only
  split
  · exact Dev.rd_wrN_ne _ _ _ _ ha
  · split
    · exact Dev.rd_setFlag_ne _ _ _ _ _ ha
    · rfl

theorem Dev.encoderWords_settings : (d.encoderWords e role flags filter ratio limit hyst guard).rdN (Reg.encCfg e)
      = (role * 2 ^ 30 + bits flags 0 1 * 2 ^ 29 + filter * 2 ^ 16) % 2 ^ 32
    ∧ (d.encoderWords e role flags filter ratio limit hyst guard).rdN (Reg.encRatio e) = ratio % 2 ^ 32
    ∧ (d.encoderWords e role flags filter ratio limit hyst guard).rdN (Reg.encLimit e) = limit % 2 ^ 32 := by
  have hrd : ∀ a, a ≠ Reg.posCtrl → (d.encoderWords e role flags filter ratio limit hyst guard).rdN a = _ := fun a ha =>
    congrArg BitVec.toNat (d.encoderWords_rd e role flags filter ratio limit hyst guard ha)
  have hc : Reg.encCfg e ≠ Reg.encRatio e ∧ Reg.encCfg e ≠ Reg.encLimit e ∧ Reg.encRatio e ≠ Reg.encLimit e := by
    unfold Reg.encCfg Reg.encRatio Reg.encLimit; omega
  have hp : Reg.encCfg e ≠ Reg.posCtrl ∧ Reg.encRatio e ≠ Reg.posCtrl ∧ Reg.encLimit e ≠ Reg.posCtrl := by
    unfold Reg.encCfg Reg.encRatio Reg.encLimit Reg.posCtrl; omega
  refine ⟨(hrd _ hp.1).trans ?_, (hrd _ hp.2.1).trans ?_, (hrd _ hp.2.2).trans (Dev.rdN_wrN_same _ _ _)⟩
  · exact (Dev.rdN_wrN_ne _ _ hc.2.1).trans ((Dev.rdN_wrN_ne _ _ hc.1).trans (Dev.rdN_wrN_same _ _ _))
  · exact (Dev.rdN_wrN_ne _ _ hc.2.2).trans (Dev.rdN_wrN_same _ _ _)

theorem Dev.encoderWords_posCtrl_master (h : role = 1) : (d.encoderWords e role flags filter ratio limit hyst guard).rdN Reg.posCtrl
    = (bits flags 1 1 * 2 ^ 31 + bits flags 2 1 * 2 ^ 30 + e * 2 ^ 28 + 2 ^ 27 + guard * 2 ^ 16 + hyst) % 2 ^ 32 := by
  unfold Dev.encoderWords
  dsimp only
  rw [if_pos h, Dev.rdN_wrN_same]

theorem Dev.encoderWords_master_leaves (h : role ≠ 1) (hm : d.master = some e) :
    (d.encoderWords e role flags filter ratio limit hyst guard).master = none := by
  unfold Dev.encoderWords
  dsimp only
  rw [if_neg h, if_pos hm, Dev.master, Dev.flag_setFlag_same _ _ _ _ (by decide)]
  rfl

theorem Dev.encoderWords_posCtrl_kept (h : role ≠ 1) (hm : d.master ≠ some e) :
    (d.encoderWords e role flags filter ratio limit hyst guard).rd Reg.posCtrl = d.rd Reg.posCtrl := by
  have hp : Reg.posCtrl ≠ Reg.encCfg e ∧ Reg.posCtrl ≠ Reg.encRatio e ∧ Reg.posCtrl ≠ Reg.encLimit e := by
    unfold Reg.encCfg Reg.encRatio Reg.encLimit Reg.posCtrl; omega
  unfold Dev.encoderWords
  dsimp only
  rw [if_neg h, if_neg hm, Dev.rd_wrN_ne _ _ _ _ hp.2.2, Dev.rd_wrN_ne _ _ _ _ hp.2.1, Dev.rd_wrN_ne _ _ _ _ hp.1]

end

/-- What ENCODER_CONFIG's own checks ask of its payload and of the device (R125, R127). -/
structure Dev.TakesEncoder (d : Dev) (p : Bytes) : Prop where
  encoder : leAt p 0 1 ≤ 3
  role : leAt p 1 1 ≤ 2
  check : if leAt p 1 1 = 2 then 0 < leAt p 4 4 ∧ 0 < leAt p 8 4 ∧ leAt p 8 4 < 2 ^ 31 else leAt p 4 4 = 0 ∧ leAt p 8 4 = 0
  sole : leAt p 1 1 = 1 → leAt p 14 2 ≤ 1000 ∧ d.isFollower = false ∧ ∀ x, x < 4 → x ≠ leAt p 0 1 → d.encRole x ≠ 1
  line : d.lineStarted = true → (d.master = some (leAt p 0 1) ↔ leAt p 1 1 = 1)
  soft : d.stiffActive = false

theorem encoderConfig_does {s : State} {r : Req} (h : Begins s r [.position]) (hl : r.payload.length = 16)
    (hf : leAt r.payload 3 1 < 8) (ht : (s.dev.takeReq 0x0301 r).TakesEncoder r.payload) {effect : Dev → Prop}
    (he : effect ((s.dev.takeReq 0x0301 r).setEncoder (leAt r.payload 0 1) (leAt r.payload 1 1) (leAt r.payload 3 1)
      (leAt r.payload 2 1) (leAt r.payload 4 4) (leAt r.payload 8 4) (leAt r.payload 12 2) (leAt r.payload 14 2))) :
    Does (.encoderConfig r) s 0x0301 r [] effect := by
  refine command_ok h _ _ rfl rfl rfl (by simp [lenIs, hl]) ?_ ?_ he
  · simp [bits]; omega
  · obtain ⟨h3, h2, hcheck, hsole, hline, hsoft⟩ := ht
    clear he
    generalize s.dev.takeReq 0x0301 r = d at *
    have hany : ¬ (leAt r.payload 1 1 = 1 ∧ ((List.range 4).any fun x => x != leAt r.payload 0 1 && d.encRole x == 1) = true) := by
      rintro ⟨h1, hx⟩
      obtain ⟨x, hx4, hxe⟩ := List.any_eq_true.mp hx
      simp only [Bool.and_eq_true, bne_iff_ne, beq_iff_eq] at hxe
      exact (hsole h1).2.2 x (List.mem_range.mp hx4) hxe.1 hxe.2
    have hstate : (d.lineStarted && (d.master == some (leAt r.payload 0 1)) != (leAt r.payload 1 1 == 1)
        || leAt r.payload 1 1 == 1 && d.isFollower) = false := by
      by_cases h1 : leAt r.payload 1 1 = 1
      · simpa [h1, (hsole h1).2.1] using hline
      · simpa [h1] using hline
    dsimp only
    rw [if_neg, if_neg (by rw [hstate]; decide), Result.stiff_soft hsoft]
    rintro (h | h | h | h | h | h)
    · omega
    · omega
    · rw [if_pos h.1] at hcheck; omega
    · rw [if_neg h.1] at hcheck; omega
    · have := (hsole h.1).1; omega
    · exact hany h

/-- What ENCODER_CONFIG leaves (R125, R127). -/
theorem setEncoder_effect {s : State} {c : Nat} {r : Req} {e role flags filter ratio limit hyst guard : Nat}
    (he : e ≤ 3) (hr : role ≤ 2) (hf : filter < 256) (hra : ratio < 2 ^ 32) (hli : limit < 2 ^ 32) (hh : hyst < 2 ^ 16)
    (hg : role = 1 → guard ≤ 1000) :
    let d := (s.dev.takeReq c r).setEncoder e role flags filter ratio limit hyst guard
    d = { s.dev.takeReq c r with regs := d.regs, pos := d.pos }
    ∧ d.rdN (Reg.encCfg e) = role * 2 ^ 30 + bits flags 0 1 * 2 ^ 29 + filter * 2 ^ 16
    ∧ d.rdN (Reg.encRatio e) = ratio ∧ d.rdN (Reg.encLimit e) = limit
    ∧ (role = 1 → d.rdN Reg.posCtrl = bits flags 1 1 * 2 ^ 31 + bits flags 2 1 * 2 ^ 30 + e * 2 ^ 28 + 2 ^ 27 + guard * 2 ^ 16 + hyst)
    ∧ (role ≠ 1 → s.dev.master = some e → d.master = none)
    ∧ (role ≠ 1 → s.dev.master ≠ some e → d.rd Reg.posCtrl = s.dev.rd Reg.posCtrl)
    ∧ (s.dev.takeReq c r).regsKept d [Reg.encCfg e, Reg.encRatio e, Reg.encLimit e, Reg.posCtrl]
    ∧ (if d.master = s.dev.master then d.pos = s.dev.pos
       else d.pos.f = s.dev.fraction ∧ d.pos.n = s.dev.pos.n ∧ d.pos.lastTick = none ∧ d.pos.period = none) := by
  have hbit : ∀ i, bits flags i 1 < 2 := fun i => Nat.mod_lt _ (by decide)
  have hb0 := hbit 0
  have hb1 := hbit 1
  have hb2 := hbit 2
  intro d
  have hd : d = _ := Dev.setEncoder_eq _ e role flags filter ratio limit hyst guard
  clear_value d
  obtain ⟨hw, hk⟩ := (s.dev.takeReq c r).encoderWords_onlyRegs e role flags filter ratio limit hyst guard
  obtain ⟨hcfg, hratio, hlimit⟩ := (s.dev.takeReq c r).encoderWords_settings e role flags filter ratio limit hyst guard
  have hctrl := (s.dev.takeReq c r).encoderWords_posCtrl_master e role flags filter ratio limit hyst guard
  have hleave := (s.dev.takeReq c r).encoderWords_master_leaves e role flags filter ratio limit hyst guard
  have hstay := (s.dev.takeReq c r).encoderWords_posCtrl_kept e role flags filter ratio limit hyst guard
  generalize (s.dev.takeReq c r).encoderWords e role flags filter ratio limit hyst guard = w at *
  subst hd
  refine ⟨?_, hcfg.trans (Nat.mod_eq_of_lt ?_), hratio.trans (Nat.mod_eq_of_lt hra), hlimit.trans (Nat.mod_eq_of_lt hli),
    fun h1 => (hctrl h1).trans (Nat.mod_eq_of_lt ?_), hleave, hstay, hk, ?_⟩
  · exact congrArg (fun x : Dev => ({ x with pos := (s.dev.takeReq c r).posForMaster w } : Dev)) hw
  · omega
  · have := hg h1; omega
  · change if w.master = s.dev.master then Dev.posForMaster _ w = _ else _
    split <;> rename_i hm
    · exact if_pos hm
    · have hp : (s.dev.takeReq c r).posForMaster w = _ := if_neg hm
      dsimp only
      rw [hp]
      exact ⟨rfl, rfl, rfl, rfl⟩

/-! ## What shows the exposure setting (R151), and the strobe outputs of a head (R147) -/

/-- The registers that show the exposure setting of head k and the widths of its strobes. -/
def expRegs (k : Nat) : List Nat := [Reg.expNow k, Reg.expTime k, Reg.expTarget k, Reg.expTarget k + 4] ++ (List.range 8).map Reg.strbWidth

theorem Dev.showExp_onlyRegs (d : Dev) (k : Nat) : d.onlyRegs (d.showExp k) (expRegs k) := by
  unfold Dev.showExp
  refine List.foldlRecOn (motive := fun t => d.onlyRegs t (expRegs k)) _ _ ?_ fun t ht n hn => ?_
  · exact (((d.onlyRegs_refl (expRegs k)).wrN (by simp [expRegs]) _).wrN (by simp [expRegs]) _).wr64 (by simp [expRegs])
      (by simp [expRegs]) _
  · split
    · exact ht.wrN (List.mem_append_right _ (List.mem_map_of_mem hn)) _
    · exact ht

/-- They are none of the words below the strobe outputs or between them and the pipelines, nor a binding of a strobe. -/
theorem not_mem_expRegs {k a : Nat} (h : a < 0x60800 ∨ a < 0x200000 ∧ (0x60880 ≤ a ∨ a % 16 = 0)) : a ∉ expRegs k := by
  simp only [expRegs, Reg.expNow, Reg.expTime, Reg.expTarget, Reg.strbWidth, List.cons_append, List.nil_append, List.mem_cons,
    List.mem_map, List.mem_range]
  rintro (rfl | rfl | rfl | rfl | ⟨n, hn, rfl⟩) <;> omega

theorem Dev.showExp_rd (d : Dev) (k : Nat) {a : Nat} (h : a < 0x60800 ∨ a < 0x200000 ∧ (0x60880 ≤ a ∨ a % 16 = 0)) : (d.showExp k).rd a = d.rd a :=
  (d.showExp_onlyRegs k).2 a (not_mem_expRegs h)

section
variable (k mask pol delay : Nat)

/-- The binding of strobe output n when the plan of head k is set. -/
def Dev.strobeBinding (d : Dev) (n : Nat) : Word :=
  if bit mask n = true then BitVec.ofNat 32 (2 ^ 31 + b2n (bit pol n) * 2 ^ 30 + k * 2 ^ 24 + delay)
  else if d.flag (Reg.strbCfg n) 31 = true ∧ d.fld (Reg.strbCfg n) 24 4 = k then 0 else d.rd (Reg.strbCfg n)

/-- One output bound, unbound or left. -/
def Dev.bindStrobe (d : Dev) (n : Nat) : Dev :=
  if bit mask n then d.wrN (Reg.strbCfg n) (2 ^ 31 + b2n (bit pol n) * 2 ^ 30 + k * 2 ^ 24 + delay)
  else if bit (d.rdN (Reg.strbCfg n)) 31 && bits (d.rdN (Reg.strbCfg n)) 24 4 == k then
    ({ d with pos := { d.pos with strobes := modAt d.pos.strobes n fun _ => {} } } : Dev).wrN (Reg.strbCfg n) 0
  else d

theorem Dev.bindStrobe_rd (d : Dev) (n a : Nat) :
    (d.bindStrobe k mask pol delay n).rd a = if a = Reg.strbCfg n then d.strobeBinding k mask pol delay n else d.rd a := by
  unfold Dev.bindStrobe Dev.strobeBinding
  have hheld : (bit (d.rdN (Reg.strbCfg n)) 31 && bits (d.rdN (Reg.strbCfg n)) 24 4 == k) = true
      ↔ d.flag (Reg.strbCfg n) 31 = true ∧ d.fld (Reg.strbCfg n) 24 4 = k := by
    rw [Bool.and_eq_true, beq_iff_eq]; rfl
  by_cases ha : a = Reg.strbCfg n
  · subst ha
    rw [if_pos rfl]
    split
    · exact Dev.rd_wr_same _ _ _
    · simp only [hheld]
      split
      · exact Dev.rd_wr_same _ _ _
      · rfl
  · rw [if_neg ha]
    split
    · exact Dev.rd_wrN_ne _ _ _ _ ha
    · split
      · exact Dev.rd_wrN_ne _ _ _ _ ha
      · rfl

/-- All of the device but its registers and strobe outputs. -/
def Dev.sansStrobes (d : Dev) : Dev := { d with regs := [], pos := { d.pos with strobes := [] } }

theorem Dev.wrN_sansStrobes (d : Dev) (a v : Nat) : (d.wrN a v).sansStrobes = d.sansStrobes := rfl

theorem Dev.onlyRegs.sansStrobes {d t : Dev} {l : List Nat} (h : d.onlyRegs t l) : t.sansStrobes = d.sansStrobes :=
  (congrArg Dev.sansStrobes h.1 :)

theorem Dev.eq_of_sansStrobes {d t : Dev} (h : t.sansStrobes = d.sansStrobes) :
    t = { d with regs := t.regs, pos := { d.pos with strobes := t.pos.strobes } } :=
  (congrArg (fun x : Dev => ({ x with regs := t.regs, pos := { x.pos with strobes := t.pos.strobes } } : Dev)) h :)

theorem Dev.bindStrobe_sansStrobes (d : Dev) (n : Nat) : (d.bindStrobe k mask pol delay n).sansStrobes = d.sansStrobes := by
  unfold Dev.bindStrobe
  split
  · exact d.wrN_sansStrobes _ _
  · split
    · exact Dev.wrN_sansStrobes _ _ _
    · rfl

/-- The first m outputs are bound as the plan says, and no other register is different. -/
theorem Dev.foldl_bindStrobe (d : Dev) (m : Nat) :
    let t := (List.range m).foldl (fun d n => d.bindStrobe k mask pol delay n) d
    (∀ n, n < m → t.rd (Reg.strbCfg n) = d.strobeBinding k mask pol delay n)
    ∧ ∀ a, (∀ n, n < m → a ≠ Reg.strbCfg n) → t.rd a = d.rd a := by
  induction m with
  | zero => exact ⟨fun n hn => absurd hn n.not_lt_zero, fun a _ => rfl⟩
  | succ m ih =>
    rw [List.range_succ, List.foldl_append]
    obtain ⟨hb, hk⟩ := ih
    generalize (List.range m).foldl (fun d n => d.bindStrobe k mask pol delay n) d = t at *
    have hinj : ∀ n, n < m → Reg.strbCfg n ≠ Reg.strbCfg m := fun n hn => by unfold Reg.strbCfg; omega
    have hm : t.rd (Reg.strbCfg m) = d.rd (Reg.strbCfg m) := hk _ fun n hn => (hinj n hn).symm
    refine ⟨fun n hn => (t.bindStrobe_rd k mask pol delay m _).trans ?_, fun a ha => ?_⟩
    · by_cases hnm : n = m
      · subst hnm
        rw [if_pos rfl, Dev.strobeBinding, Dev.flag, Dev.fld, Dev.rdN, hm]
        rfl
      · rw [if_neg (hinj n (by omega)), hb n (by omega)]
    · refine (t.bindStrobe_rd k mask pol delay m a).trans ?_
      rw [if_neg (ha m m.lt_succ_self), hk a fun n hn => ha n (by omega)]

theorem Dev.bindStrobes_eq (d : Dev) :
    d.bindStrobes k mask pol delay = ((List.range 8).foldl (fun d n => d.bindStrobe k mask pol delay n) d).showExp k := rfl

theorem Dev.bindStrobes_sansStrobes (d : Dev) : (d.bindStrobes k mask pol delay).sansStrobes = d.sansStrobes := by
  rw [Dev.bindStrobes_eq, (Dev.showExp_onlyRegs _ k).sansStrobes]
  exact List.foldlRecOn (motive := fun t : Dev => t.sansStrobes = d.sansStrobes) _ _ rfl fun t ht n _ =>
    (t.bindStrobe_sansStrobes k mask pol delay n).trans ht

theorem Dev.bindStrobes_binding (d : Dev) {n : Nat} (hn : n < 8) :
    (d.bindStrobes k mask pol delay).rd (Reg.strbCfg n) = d.strobeBinding k mask pol delay n :=
  (Dev.showExp_rd _ k (.inr (by unfold Reg.strbCfg; omega))).trans ((d.foldl_bindStrobe k mask pol delay 8).1 n hn)

theorem Dev.bindStrobes_rd (d : Dev) {a : Nat} (h : a < 0x60800 ∨ 0x60880 ≤ a ∧ a < 0x200000) :
    (d.bindStrobes k mask pol delay).rd a = d.rd a :=
  (Dev.showExp_rd _ k (by omega)).trans ((d.foldl_bindStrobe k mask pol delay 8).2 a fun n _ => by unfold Reg.strbCfg; omega)

end

/-! ## TRIGGER_PLAN (R139, R147) -/

section
variable (d : Dev) (k mode pitch off minp : Nat)

/-- The plan of head k in its registers. -/
def Dev.planWords : Dev :=
  ((d.wrN (Reg.headTrig k) (mode * 2 ^ 30 + pitch)).wr64 (Reg.headOffset k) off).wrN (Reg.headMinp k) minp

theorem Dev.planWords_onlyRegs :
    d.onlyRegs (d.planWords k mode pitch off minp) [Reg.headTrig k, Reg.headOffset k, Reg.headOffset k + 4, Reg.headMinp k] :=
  (((d.onlyRegs_refl _).wrN (by simp) _).wr64 (by simp) (by simp) _).wrN (by simp) _

theorem Dev.planWords_plan (hm : mode ≤ 2) (hp : pitch < 2 ^ 24) (ho : off < 2 ^ 48) (hmin : minp < 2 ^ 16) :
    (d.planWords k mode pitch off minp).mode k = mode ∧ (d.planWords k mode pitch off minp).pitch k = pitch
    ∧ (d.planWords k mode pitch off minp).offset256 k = off ∧ (d.planWords k mode pitch off minp).rdN (Reg.headMinp k) = minp := by
  have h1 : Reg.headTrig k ≠ Reg.headMinp k ∧ Reg.headTrig k ≠ Reg.headOffset k + 4 ∧ Reg.headTrig k ≠ Reg.headOffset k := by
    unfold Reg.headTrig Reg.headMinp Reg.headOffset; omega
  have h2 : Reg.headOffset k ≠ Reg.headMinp k ∧ Reg.headOffset k + 4 ≠ Reg.headMinp k := by
    unfold Reg.headMinp Reg.headOffset; omega
  have htrig : (d.planWords k mode pitch off minp).rdN (Reg.headTrig k) = mode * 2 ^ 30 + pitch := by
    unfold Dev.planWords Dev.wr64
    rw [Dev.rdN_wrN_ne _ _ h1.1, Dev.rdN_wrN_ne _ _ h1.2.1, Dev.rdN_wrN_ne _ _ h1.2.2, Dev.rdN_wrN_same]
    omega
  have hoff : (d.planWords k mode pitch off minp).rd64 (Reg.headOffset k) = off := by
    unfold Dev.planWords
    rw [Dev.rd64, Dev.rdN_wrN_ne _ _ h2.1, Dev.rdN_wrN_ne _ _ h2.2]
    exact (Dev.rd64_wr64 _ _ _).trans (Nat.mod_eq_of_lt (by omega))
  refine ⟨?_, ?_, ?_, (Dev.rdN_wrN_same _ _ _).trans (Nat.mod_eq_of_lt (by omega))⟩
  · rw [Dev.mode, Dev.fld, htrig, bits]; omega
  · rw [Dev.pitch, Dev.fld, htrig, bits]; omega
  · rw [Dev.offset256, hoff]; omega

end

/-- What TRIGGER_PLAN's own checks ask of its payload and of the device (R139, R147). -/
structure Dev.TakesPlan (d : Dev) (p : Bytes) : Prop where
  head : leAt p 0 1 ≤ 15
  mode : leAt p 1 1 ≤ 2
  pitch : if leAt p 1 1 = 1 then 0x100 ≤ leAt p 4 4 else leAt p 4 4 = 0
  line : d.lineStarted = true → d.mode (leAt p 0 1) = 0 ∧ leAt p 1 1 = 0
  soft : d.stiffActive = false
  own : d.isFollower = false
  new : (d.mode (leAt p 0 1) == leAt p 1 1 && d.pitch (leAt p 0 1) == leAt p 4 4 && d.offset256 (leAt p 0 1) == leAt p 8 8
    && d.rdN (Reg.headMinp (leAt p 0 1)) == leAt p 2 2
    && d.strobesEqual (leAt p 0 1) (leAt p 16 1) (leAt p 17 1) (leAt p 18 2)) = false

/-- The device with a trigger plan set. -/
def Dev.setPlan (d : Dev) (p : Bytes) : Dev :=
  (d.planWords (leAt p 0 1) (leAt p 1 1) (leAt p 4 4) (leAt p 8 8) (leAt p 2 2)).bindStrobes (leAt p 0 1) (leAt p 16 1) (leAt p 17 1)
    (leAt p 18 2)

theorem Dev.reportOffset_own {d : Dev} (h : d.isFollower = false) : d.reportOffset = d := by
  rw [Dev.reportOffset]
  exact if_neg fun hf => absurd (hf.1.symm.trans h) (by decide)

theorem Dev.setPlan_rd (d : Dev) (p : Bytes) {a : Nat} (ha : a < 0x60800 ∨ 0x60880 ≤ a ∧ a < 0x200000) : (d.setPlan p).rd a
    = (d.planWords (leAt p 0 1) (leAt p 1 1) (leAt p 4 4) (leAt p 8 8) (leAt p 2 2)).rd a := Dev.bindStrobes_rd _ _ _ _ _ ha

theorem triggerPlan_does {s : State} {r : Req} (h : Begins s r [.position]) (hl : r.payload.length = 20)
    (hp : leAt r.payload 4 4 < 2 ^ 24) (ho : leAt r.payload 8 8 < 2 ^ 48) (ht : (s.dev.takeReq 0x0302 r).TakesPlan r.payload)
    {effect : Dev → Prop} (he : effect ((s.dev.takeReq 0x0302 r).setPlan r.payload)) :
    Does (.triggerPlan r) s 0x0302 r [] effect := by
  refine command_ok h _ _ rfl rfl rfl (by simp [lenIs, hl]) ?_ ?_ he
  · simp [bits]; omega
  · obtain ⟨h15, h2, hpitch, hline, hsoft, hown, hnew⟩ := ht
    clear he
    generalize s.dev.takeReq 0x0302 r = d at *
    have hstate : (d.lineStarted && (d.mode (leAt r.payload 0 1) != 0 || leAt r.payload 1 1 != 0)) = false := by
      simpa using hline
    have hfollow : (d.setPlan r.payload).isFollower = false := by
      refine Eq.trans ?_ hown
      have hband : (d.setPlan r.payload).rd Reg.bandCfg = d.rd Reg.bandCfg := by
        refine (d.setPlan_rd r.payload (by decide)).trans ((d.planWords_onlyRegs _ _ _ _ _).2 _ ?_)
        simp only [Reg.bandCfg, Reg.headTrig, Reg.headOffset, Reg.headMinp, List.mem_cons, List.not_mem_nil, or_false]
        omega
      rw [Dev.isFollower, Dev.fld_congr hband, Dev.isFollower]
    dsimp only
    rw [if_neg, if_neg (by rw [hnew]; decide), if_neg (by rw [hstate]; decide), Result.stiff_soft hsoft]
    · exact congrArg (Result.ok · []) (Dev.reportOffset_own hfollow)
    · rintro (h | h | h | h)
      · omega
      · omega
      · rw [if_pos h.1] at hpitch; omega
      · rw [if_neg h.1] at hpitch; omega

/-- What TRIGGER_PLAN leaves (R139, R147). -/
theorem setPlan_effect (d : Dev) (p : Bytes) (h15 : leAt p 0 1 ≤ 15) (hm : leAt p 1 1 ≤ 2) (hp : leAt p 4 4 < 2 ^ 24)
    (ho : leAt p 8 8 < 2 ^ 48) :
    let t := d.setPlan p
    t.mode (leAt p 0 1) = leAt p 1 1 ∧ t.pitch (leAt p 0 1) = leAt p 4 4 ∧ t.offset256 (leAt p 0 1) = leAt p 8 8
    ∧ t.rdN (Reg.headMinp (leAt p 0 1)) = leAt p 2 2
    ∧ (∀ n, n < 8 → bit (leAt p 16 1) n = true → t.rdN (Reg.strbCfg n)
        = 2 ^ 31 + b2n (bit (leAt p 17 1) n) * 2 ^ 30 + leAt p 0 1 * 2 ^ 24 + leAt p 18 2)
    ∧ (∀ n, n < 8 → bit (leAt p 16 1) n = false → t.rd (Reg.strbCfg n)
        = if d.flag (Reg.strbCfg n) 31 = true ∧ d.fld (Reg.strbCfg n) 24 4 = leAt p 0 1 then 0 else d.rd (Reg.strbCfg n))
    ∧ (∀ j, j < 16 → j ≠ leAt p 0 1 → t.rd (Reg.headTrig j) = d.rd (Reg.headTrig j) ∧ t.offset256 j = d.offset256 j)
    ∧ ∃ x, t = { d with regs := t.regs, pos := { d.pos with strobes := x } } := by
  have hmin : leAt p 2 2 < 2 ^ 16 := leAt_lt p 2 2
  obtain ⟨hmode, hpitch, hoff, hminp⟩ :=
    d.planWords_plan (leAt p 0 1) (leAt p 1 1) (leAt p 4 4) (leAt p 8 8) (leAt p 2 2) hm hp ho hmin
  have honly := d.planWords_onlyRegs (leAt p 0 1) (leAt p 1 1) (leAt p 4 4) (leAt p 8 8) (leAt p 2 2)
  have hkept : ∀ a, a < 0x60800 → (d.setPlan p).rd a = _ := fun a ha => d.setPlan_rd p (.inl ha)
  have hbind : ∀ n, n < 8 → (d.setPlan p).rd (Reg.strbCfg n) = _ := fun n hn => Dev.bindStrobes_binding _ _ _ _ _ hn
  have hsans : (d.setPlan p).sansStrobes = d.sansStrobes := (Dev.bindStrobes_sansStrobes _ _ _ _ _).trans honly.sansStrobes
  generalize d.setPlan p = t at *
  generalize hw : d.planWords (leAt p 0 1) (leAt p 1 1) (leAt p 4 4) (leAt p 8 8) (leAt p 2 2) = w at *
  have hstrb : ∀ n, w.rd (Reg.strbCfg n) = d.rd (Reg.strbCfg n) := fun n => honly.2 _ (by
    simp only [Reg.strbCfg, Reg.headTrig, Reg.headOffset, Reg.headMinp, List.mem_cons, List.not_mem_nil, or_false]
    omega)
  have hbelow : ∀ j, j < 16 → Reg.headTrig j < 0x60800 ∧ Reg.headOffset j + 4 < 0x60800 ∧ Reg.headMinp j < 0x60800 := fun j hj => by
    unfold Reg.headTrig Reg.headOffset Reg.headMinp; omega
  obtain ⟨b1, b2, b3⟩ := hbelow (leAt p 0 1) (by omega)
  have hoffset : ∀ j, j < 16 → t.offset256 j = w.offset256 j := fun j hj => by
    have hj' := (hbelow j hj).2.1
    rw [Dev.offset256, Dev.rd64_congr (hkept _ (by omega)) (hkept _ hj'), Dev.offset256]
  refine ⟨?_, ?_, (hoffset _ (by omega)).trans hoff, (Dev.rdN_congr (hkept _ b3)).trans hminp, fun n hn hb => ?_, fun n hn hb => ?_,
    fun j hj hjk => ?_, _, Dev.eq_of_sansStrobes hsans⟩
  · rw [Dev.mode, Dev.fld_congr (hkept _ b1)]; exact hmode
  · rw [Dev.pitch, Dev.fld_congr (hkept _ b1)]; exact hpitch
  · have hd := leAt_lt p 18 2
    have hp1 : b2n (bit (leAt p 17 1) n) ≤ 1 := by cases bit (leAt p 17 1) n <;> decide
    rw [Dev.rdN, hbind n hn, Dev.strobeBinding, if_pos hb, BitVec.toNat_ofNat, Nat.mod_eq_of_lt]
    omega
  · rw [hbind n hn, Dev.strobeBinding, if_neg (by rw [hb]; decide), Dev.flag_congr (hstrb n), Dev.fld_congr (hstrb n), hstrb n]
  · have hlist : ∀ a, a = Reg.headTrig j ∨ a = Reg.headOffset j ∨ a = Reg.headOffset j + 4 → w.rd a = d.rd a := fun a ha =>
      honly.2 a (by
        simp only [Reg.headTrig, Reg.headOffset, Reg.headMinp, List.mem_cons, List.not_mem_nil, or_false] at ha ⊢
        omega)
    refine ⟨(hkept _ (hbelow j hj).1).trans (hlist _ (.inl rfl)), (hoffset j hj).trans ?_⟩
    rw [Dev.offset256, Dev.rd64_congr (hlist _ (.inr (.inl rfl))) (hlist _ (.inr (.inr rfl))), Dev.offset256]

/-! ## POSITION_READ, BATT_GEOMETRY and COIL_MARK_CONFIG (R131, R132, R134) -/

/-- A step that stores registers and may then tell the band's neighbours leaves only registers different on a device that does not
lead. -/
theorem Dev.fanOut_alone {d : Dev} (h : d.isLead = false) (code : Nat) (body : List Int) : d.fanOut code body = d := by
  rw [Dev.fanOut, if_neg (by rw [h]; decide)]

theorem Dev.positionReport_eq (d : Dev) : d.positionReport
    = sle 8 d.spos ++ le 8 d.timeNs ++ le 8 (d.rd64 Reg.sposHwm) ++ le 4 (d.rdN Reg.posRate)
      ++ le 1 (b2n d.lineStarted + 2 * b2n (d.flag Reg.posStat 30) + 4 * b2n d.isFollower + 8 * b2n (d.flag Reg.posStat 28)
          + 16 * b2n d.unlocked)
      ++ le 1 (d.master.getD 0xFF) ++ zeros 2 ++ le 8 (d.rd64 Reg.lineOrigin) ++ le 8 d.refBatt ++ le 4 (d.rdN Reg.coilNum)
      ++ zeros 4 ++ le 4 (d.rdN (Reg.encCnt 0)) ++ le 4 (d.rdN (Reg.encCnt 1)) ++ le 4 (d.rdN (Reg.encCnt 2))
      ++ le 4 (d.rdN (Reg.encCnt 3)) := by
  have hcnt : ((List.range 4).map fun e => le 4 (d.rdN (Reg.encCnt e))).flatten = le 4 (d.rdN (Reg.encCnt 0))
      ++ (le 4 (d.rdN (Reg.encCnt 1)) ++ (le 4 (d.rdN (Reg.encCnt 2)) ++ le 4 (d.rdN (Reg.encCnt 3)))) := by
    simp [List.range_succ]
  rw [Dev.positionReport, hcnt]
  simp only [List.append_assoc]

/-- The device with COIL_MARK_CONFIG's settings of channel c. -/
def Dev.setMark (d : Dev) (c src fl filt off hold : Nat) : Dev :=
  ((d.wrN (Reg.mkCfg c) (src * 2 ^ 29 + bits fl 0 1 * 2 ^ 28 + bits fl 1 1 * 2 ^ 27 + filt * 2 ^ 16)).wrN (Reg.mkOffset c) off).wrN
    (Reg.mkHold c) hold

theorem Dev.setMark_effect (d : Dev) {c src fl filt off hold : Nat} (hs : src ≤ 6) (hf : filt < 256) (ho : off < 2 ^ 32)
    (hh : hold < 2 ^ 32) : d.onlyRegs (d.setMark c src fl filt off hold) [Reg.mkCfg c, Reg.mkOffset c, Reg.mkHold c]
    ∧ (d.setMark c src fl filt off hold).rdN (Reg.mkCfg c) = src * 2 ^ 29 + bits fl 0 1 * 2 ^ 28 + bits fl 1 1 * 2 ^ 27 + filt * 2 ^ 16
    ∧ (d.setMark c src fl filt off hold).rdN (Reg.mkOffset c) = off ∧ (d.setMark c src fl filt off hold).rdN (Reg.mkHold c) = hold := by
  have hbit : ∀ i, bits fl i 1 < 2 := fun i => Nat.mod_lt _ (by decide)
  have hb0 := hbit 0
  have hb1 := hbit 1
  have hne : Reg.mkCfg c ≠ Reg.mkOffset c ∧ Reg.mkCfg c ≠ Reg.mkHold c ∧ Reg.mkOffset c ≠ Reg.mkHold c := by
    unfold Reg.mkCfg Reg.mkOffset Reg.mkHold; omega
  unfold Dev.setMark
  refine ⟨(((d.onlyRegs_refl _).wrN (by simp) _).wrN (by simp) _).wrN (by simp) _, ?_, ?_, ?_⟩
  · rw [Dev.rdN_wrN_ne _ _ hne.2.1, Dev.rdN_wrN_ne _ _ hne.1, Dev.rdN_wrN_same]; omega
  · rw [Dev.rdN_wrN_ne _ _ hne.2.2, Dev.rdN_wrN_same]; omega
  · rw [Dev.rdN_wrN_same]; omega

section
variable {s : State} {r : Req} (h : Begins s r [.position])
include h

theorem positionRead_does (hl : r.payload.length = 0) :
    Does (.positionRead r) s 0x0303 r s.dev.positionReport (· = s.dev.takeReq 0x0303 r) :=
  command_ok h _ _ rfl rfl rfl (by simp [lenIs, hl]) rfl rfl rfl

theorem battGeometry_does (hl : r.payload.length = 8) (hz : zeroAt r.payload 5 3 = true) (hp : 0x100 ≤ leAt r.payload 0 4)
    (hp24 : leAt r.payload 0 4 < 2 ^ 24) (h6 : 6 ≤ leAt r.payload 4 1) (h13 : leAt r.payload 4 1 ≤ 13)
    (hline : s.dev.lineStarted = false) (hown : s.dev.isFollower = false) (hsoft : s.dev.stiffActive = false) {effect : Dev → Prop}
    (he : effect (((s.dev.takeReq 0x0304 r).wrN Reg.battCfg (leAt r.payload 4 1 * 2 ^ 28 + leAt r.payload 0 4)).fanOut 0x0304
      [(leAt r.payload 0 4 : Int), (leAt r.payload 4 1 : Int)])) : Does (.battGeometry r) s 0x0304 r [] effect := by
  refine command_ok h _ _ rfl rfl rfl (by simp [lenIs, hl]) ?_ ?_ he
  · simp [bits, hz]; omega
  · have hstate : ((s.dev.takeReq 0x0304 r).lineStarted || (s.dev.takeReq 0x0304 r).isFollower) = false :=
      Bool.or_eq_false_iff.mpr ⟨hline, hown⟩
    dsimp only
    rw [if_neg (by omega), if_neg (by rw [hstate]; decide), Result.stiff_soft (d := s.dev.takeReq 0x0304 r) hsoft]

theorem coilMarkConfig_does (hl : r.payload.length = 16) (hf : leAt r.payload 2 1 < 4) (hz : zeroAt r.payload 12 4 = true)
    (hc : leAt r.payload 0 1 ≤ 1) (hs : leAt r.payload 1 1 ≤ 6) (hfilt : 1 ≤ leAt r.payload 1 1 → leAt r.payload 1 1 ≤ 4 → leAt r.payload 3 1 = 0)
    (hh : leAt r.payload 8 4 < 2 ^ 31) (hsoft : s.dev.stiffActive = false) {effect : Dev → Prop}
    (he : effect ((s.dev.takeReq 0x0307 r).setMark (leAt r.payload 0 1) (leAt r.payload 1 1) (leAt r.payload 2 1) (leAt r.payload 3 1)
      (leAt r.payload 4 4) (leAt r.payload 8 4))) : Does (.coilMarkConfig r) s 0x0307 r [] effect := by
  refine command_ok h _ _ rfl rfl rfl (by simp [lenIs, hl]) ?_ ?_ he
  · simp [bits, hz]; omega
  · dsimp only
    rw [if_neg, Result.stiff_soft (d := s.dev.takeReq 0x0307 r) hsoft]
    · rfl
    · rintro (h | h | h | h)
      · omega
      · omega
      · exact h.2.2 (hfilt h.1 h.2.1)
      · omega

end

/-- Settles O15: each command passes its checks, and leaves what its registers' writes give. -/
theorem positionSettings : Obligations.PositionSettings := by
  unfold Obligations.PositionSettings
  intro s r h
  refine ⟨?_, ?_, fun hl => ?_, ?_, ?_⟩
  · rintro _ _ _ _ _ rfl rfl rfl rfl rfl hl hf h3 h2 hcheck hsole hline hsoft
    exact encoderConfig_does h hl hf ⟨h3, h2, hcheck, hsole, hline, hsoft⟩
      (setEncoder_effect h3 h2 (leAt_lt r.payload 2 1) (leAt_lt r.payload 4 4) (leAt_lt r.payload 8 4) (leAt_lt r.payload 12 2)
        fun h1 => (hsole h1).1)
  · rintro _ _ _ _ _ rfl rfl rfl rfl rfl hl hp ho h15 h2 hpitch hline hsoft hown hnew
    exact triggerPlan_does h hl hp ho ⟨h15, h2, hpitch, hline, hsoft, hown, hnew⟩ (setPlan_effect _ _ h15 h2 hp ho)
  · have hread := positionRead_does h hl
    rw [Dev.positionReport_eq] at hread
    exact hread
  · rintro _ _ rfl rfl hl hz hp hp24 h6 h13 hline hown hsoft
    refine battGeometry_does h hl hz hp hp24 h6 h13 hline hown hsoft ⟨rfl, fun hlead => ?_⟩
    have hrest : ((s.dev.takeReq 0x0304 r).wrN Reg.battCfg (leAt r.payload 4 1 * 2 ^ 28 + leAt r.payload 0 4)).isLead = false := by
      refine Eq.trans ?_ hlead
      rw [Dev.isLead, Dev.fld_congr (Dev.rd_wrN_ne _ _ _ _ (by decide))]; rfl
    rw [Dev.fanOut_alone hrest]
    exact (Dev.onlyRegs_refl _ _).wrN (by simp) _
  · rintro _ _ _ rfl rfl rfl hl hf hz hc hs hfilt hh hsoft
    exact coilMarkConfig_does h hl hf hz hc hs hfilt hh hsoft
      (Dev.setMark_effect _ hs (leAt_lt r.payload 3 1) (leAt_lt r.payload 4 4) (by omega))

end Sys2Proof.Machine
end

section
/-! SUPPORT. What an event leaves of the registers and of the device (R81, R82, R85, R88), and SPOS formed anew (R127 to R130). -/

namespace Sys2Proof.Machine

open Sys2Proof

/-! ## Fields beside a stored one -/

theorem Dev.rdI64_congr {d t : Dev} {a : Nat} (h : t.rd a = d.rd a) (h4 : t.rd (a + 4) = d.rd (a + 4)) : t.rdI64 a = d.rdI64 a := by
  rw [Dev.rdI64, Dev.rd64_congr h h4, Dev.rdI64]

/-- A number with the field of w bits at bit lo replaced, bit by bit. -/
theorem testBit_putField (x v j : Nat) {lo w : Nat} (h : j < lo ∨ lo + w ≤ j) :
    (x - bits x lo w * 2 ^ lo + v % 2 ^ w * 2 ^ lo).testBit j = x.testBit j := by
  have hlo : x % 2 ^ lo < 2 ^ lo := Nat.mod_lt _ (by positivity)
  have hw : ∀ y, y % 2 ^ w < 2 ^ w := fun y => Nat.mod_lt _ (by positivity)
  have hx : x = 2 ^ lo * (2 ^ w * (x / 2 ^ lo / 2 ^ w)) + bits x lo w * 2 ^ lo + x % 2 ^ lo := by
    rw [bits, Nat.mul_comm _ (2 ^ lo), ← Nat.mul_add, Nat.div_add_mod, Nat.div_add_mod]
  have hput : x - bits x lo w * 2 ^ lo + v % 2 ^ w * 2 ^ lo
      = 2 ^ lo * (2 ^ w * (x / 2 ^ lo / 2 ^ w) + v % 2 ^ w) + x % 2 ^ lo := by
    rw [Nat.mul_add, Nat.mul_comm (2 ^ lo) (v % 2 ^ w)]; omega
  have hold : x = 2 ^ lo * (2 ^ w * (x / 2 ^ lo / 2 ^ w) + x / 2 ^ lo % 2 ^ w) + x % 2 ^ lo := by
    rw [Nat.div_add_mod, Nat.div_add_mod]
  rw [hput]
  conv_rhs => rw [hold]
  rw [Nat.testBit_two_pow_mul_add _ hlo, Nat.testBit_two_pow_mul_add _ hlo]
  by_cases hj : j < lo
  · rw [if_pos hj, if_pos hj]
  · have hjw : ¬ j - lo < w := by omega
    rw [if_neg hj, if_neg hj, Nat.testBit_two_pow_mul_add _ (hw _), Nat.testBit_two_pow_mul_add _ (hw _), if_neg hjw, if_neg hjw]

/-- A field stored in a register leaves the fields beside it. -/
theorem Dev.fld_setFld_ne (d : Dev) (a v : Nat) {lo w lo' w' : Nat} (h32 : lo' + w' ≤ 32) (h : lo' + w' ≤ lo ∨ lo + w ≤ lo') :
    (d.setFld a lo w v).fld a lo' w' = d.fld a lo' w' := by
  refine Nat.eq_of_testBit_eq fun j => ?_
  rw [Dev.fld, Dev.fld, testBit_bits, testBit_bits]
  by_cases hj : j < w'
  · have hval : (d.setFld a lo w v).rdN a = (d.rdN a - bits (d.rdN a) lo w * 2 ^ lo + v % 2 ^ w * 2 ^ lo) % 2 ^ 32 :=
      Dev.rdN_wrN_same _ _ _
    have h32' : lo' + j < 32 := by omega
    rw [hval, Nat.testBit_mod_two_pow, testBit_putField _ _ _ (by omega)]
    simp [h32']
  · simp [hj]

theorem Dev.fld_incWrap_same (d : Dev) (a k : Nat) {lo w : Nat} (h : lo + w ≤ 32) :
    (d.incWrap a lo w k).fld a lo w = wrapAdd w (d.fld a lo w) k :=
  (d.fld_setFld_same a lo w _ h).trans (Nat.mod_mod _ _)

theorem Dev.fld_incSat_same (d : Dev) (a k : Nat) {lo w : Nat} (h : lo + w ≤ 32) :
    (d.incSat a lo w k).fld a lo w = satAdd w (d.fld a lo w) k := by
  have hw : 0 < 2 ^ w := by positivity
  exact (d.fld_setFld_same a lo w _ h).trans (Nat.mod_eq_of_lt (by unfold satAdd; omega))

/-! ## Events -/

/-- The registers that an event or its loss may change. -/
def eventRegs : List Nat := [Reg.evtFilteredCnt, Reg.evtLostCnt, Reg.hopCnt 8, Reg.hopCnt 9, Reg.mbAlert]

/-- They are none of the block POS. -/
theorem not_mem_eventRegs {a : Nat} (h : 0x60000 ≤ a ∧ a < 0xa0000) : a ∉ eventRegs := by
  simp only [eventRegs, Reg.evtFilteredCnt, Reg.evtLostCnt, Reg.hopCnt, Reg.mbAlert, List.mem_cons, List.not_mem_nil, or_false]
  omega

/-- All of the device but its registers, its events, and what the management bus is told of them. -/
def Dev.sansEvents (d : Dev) : Dev := { d with regs := [], ev := {}, smb := {} }

theorem Dev.regsKept.incSat {d t : Dev} {l : List Nat} (h : d.regsKept t l) {a : Nat} (ha : a ∈ l) (lo w k : Nat) :
    d.regsKept (t.incSat a lo w k) l := h.wr (.inl ha)

theorem Dev.regsKept.incWrap {d t : Dev} {l : List Nat} (h : d.regsKept t l) {a : Nat} (ha : a ∈ l) (lo w k : Nat) :
    d.regsKept (t.incWrap a lo w k) l := h.wr (.inl ha)

theorem Dev.enterEvent_regsKept (d : Dev) (m : Msg) : d.regsKept (d.enterEvent m) eventRegs := by
  unfold Dev.enterEvent
  split
  · exact d.regsKept_refl _
  · refine Dev.regsKept.incWrap (a := Reg.evtLostCnt) (Dev.regsKept.incSat (a := Reg.hopCnt _) (d.regsKept_refl _) ?_ _ _ _) (by simp [eventRegs]) _ _ _
    split <;> simp [eventRegs]

theorem Dev.enterEvent_sansEvents (d : Dev) (m : Msg) : (d.enterEvent m).sansEvents = d.sansEvents := by
  unfold Dev.enterEvent
  split <;> rfl

theorem Dev.alert_regsKept (d : Dev) (i : Nat) : d.regsKept (d.alert i) eventRegs := by
  have hd : d.regsKept (d.setFlag Reg.mbAlert i true) eventRegs := (d.regsKept_refl _).setFlag (by simp [eventRegs]) _ _
  unfold Dev.alert
  dsimp only
  split <;> exact hd

theorem Dev.alert_sansEvents (d : Dev) (i : Nat) : (d.alert i).sansEvents = d.sansEvents := by
  unfold Dev.alert
  dsimp only
  split <;> rfl

section
variable (d : Dev) (code : Nat) (batt : Option Nat) (extra : Bytes)

theorem Dev.event_regsKept : d.regsKept (d.event code batt extra) eventRegs := by
  unfold Dev.event
  split
  · exact (d.regsKept_refl _).incWrap (by simp [eventRegs]) _ _ _
  · dsimp only
    split
    · exact (Dev.enterEvent_regsKept { d with ev := { d.ev with nextSeq := d.ev.nextSeq + 1 } } _).trans (Dev.alert_regsKept _ _)
    · exact Dev.enterEvent_regsKept { d with ev := { d.ev with nextSeq := d.ev.nextSeq + 1 } } _

theorem Dev.event_sansEvents : (d.event code batt extra).sansEvents = d.sansEvents := by
  unfold Dev.event
  split
  · rfl
  · dsimp only
    split
    · exact (Dev.alert_sansEvents _ _).trans (Dev.enterEvent_sansEvents { d with ev := { d.ev with nextSeq := d.ev.nextSeq + 1 } } _)
    · exact Dev.enterEvent_sansEvents { d with ev := { d.ev with nextSeq := d.ev.nextSeq + 1 } } _

theorem Dev.event_rd {a : Nat} (h : 0x60000 ≤ a ∧ a < 0xa0000) : (d.event code batt extra).rd a = d.rd a :=
  d.event_regsKept code batt extra a (not_mem_eventRegs h)

end

/-! ## SPOS formed anew (R127 to R130) -/

/-- The registers other than SPOS that follow it in the same cycle. -/
def sposRegs : List Nat := [Reg.sposHwm, Reg.sposHwm + 4, Reg.posStat, Reg.posRate] ++ eventRegs

theorem eventRegs_subset_sposRegs : eventRegs ⊆ sposRegs := List.subset_append_right _ _

/-- They lie below the settings and counts of encoders, heads, strobes and marks. -/
theorem not_mem_sposRegs {a : Nat} (h : 0x60020 ≤ a ∧ a < 0xa0000) : a ∉ sposRegs := by
  have he : a ∉ eventRegs := not_mem_eventRegs (by omega)
  simp only [sposRegs, Reg.sposHwm, Reg.posStat, Reg.posRate, List.mem_append, List.mem_cons, List.not_mem_nil, or_false, he]
  omega

/-- All of the device but its registers, its events, and the record of where the strip has been. -/
def Dev.sansCourse (d : Dev) : Dev := { d.sansEvents with pos := { d.pos with hist := [], peak := 0 } }

theorem Dev.wrN_sansCourse (d : Dev) (a v : Nat) : (d.wrN a v).sansCourse = d.sansCourse := rfl
theorem Dev.wrI64_sansCourse (d : Dev) (a : Nat) (v : Int) : (d.wrI64 a v).sansCourse = d.sansCourse := rfl
theorem Dev.setFlag_sansCourse (d : Dev) (a i : Nat) (b : Bool) : (d.setFlag a i b).sansCourse = d.sansCourse := rfl

theorem Dev.reversal_regsKept {d t : Dev} (h : d.regsKept t sposRegs) (kind : Nat) : d.regsKept (t.reversal kind) sposRegs :=
  h.trans ((t.event_regsKept _ _ _).mono eventRegs_subset_sposRegs)

theorem Dev.reversal_sansCourse (d : Dev) (kind : Nat) : (d.reversal kind).sansCourse = d.sansCourse := by
  have he : (d.reversal kind).sansEvents = d.sansEvents := d.event_sansEvents _ _ _
  exact (congrArg (fun x : Dev => ({ x with pos := { x.pos with hist := [], peak := 0 } } : Dev)) he :)

section
variable (d : Dev) (v : Int)

theorem Dev.setSpos_regsKept : (d.wrI64 Reg.spos v).regsKept (d.setSpos v) sposRegs := by
  unfold Dev.setSpos
  extract_lets d1 d2 hwm rev d3 hist delta
  have h2 : d1.regsKept d2 sposRegs := by
    unfold d2
    split
    · exact (d1.regsKept_refl _).wr64 (by simp [sposRegs]) (by simp [sposRegs]) _
    · exact d1.regsKept_refl _
  have h3 : d1.regsKept d3 sposRegs := by
    unfold d3
    split
    · exact Dev.reversal_regsKept (h2.setFlag (by simp [sposRegs]) _ _) _
    · split
      · exact Dev.reversal_regsKept (h2.setFlag (by simp [sposRegs]) _ _) _
      · exact h2
  exact Dev.regsKept.wrN (t := { d3 with pos := { d3.pos with hist := hist, peak := max d3.pos.peak v } }) h3 (by simp [sposRegs]) _

theorem Dev.setSpos_sansCourse : (d.setSpos v).sansCourse = d.sansCourse := by
  unfold Dev.setSpos
  extract_lets d1 d2 hwm rev d3 hist delta
  have h1 : d1.sansCourse = d.sansCourse := d.wrI64_sansCourse _ _
  have h2 : d2.sansCourse = d.sansCourse := by
    unfold d2
    split
    · exact (d1.wrI64_sansCourse _ _).trans h1
    · exact h1
  have h3 : d3.sansCourse = d.sansCourse := by
    unfold d3
    split
    · exact (Dev.reversal_sansCourse _ _).trans ((d2.setFlag_sansCourse _ _ _).trans h2)
    · split
      · exact (Dev.reversal_sansCourse _ _).trans ((d2.setFlag_sansCourse _ _ _).trans h2)
      · exact h2
  exact (Dev.wrN_sansCourse _ _ _).trans h3

theorem Dev.setSpos_spos : (d.setSpos v).rd64 Reg.spos = unsigned 64 v := by
  rw [Dev.rd64_congr (d.setSpos_regsKept v _ (by decide)) (d.setSpos_regsKept v _ (by decide)), Dev.wrI64, Dev.rd64_wr64]
  exact Nat.mod_eq_of_lt (unsigned_64_lt v)

/-- SPOS is the only other register that forming it changes. -/
theorem Dev.formSpos_rd {a : Nat} (h : a ∉ sposRegs) (hs : a ≠ Reg.spos ∧ a ≠ Reg.spos + 4) : d.formSpos.rd a = d.rd a := by
  refine (d.setSpos_regsKept _ a h).trans ?_
  exact (Dev.rd_wrN_ne _ _ _ _ hs.2).trans (Dev.rd_wrN_ne _ _ _ _ hs.1)

end

/-- In the cycle of the master's tick nothing has been interpolated yet (R128). -/
theorem Dev.fraction_now {d : Dev} (h : d.pos.lastTick = some d.now) : d.fraction = 0 := by
  unfold Dev.fraction
  rw [h]
  cases d.pos.period with
  | none => rfl
  | some p => simp

end Sys2Proof.Machine
end

section
/-! SUPPORT. Encoders, coil marks and strobes: what a tick, an edge and a pulse leave (R121 to R128, R132, R133, R147, R148). -/

namespace Sys2Proof.Machine

open Sys2Proof

/-! ## Encoders (R123, R127) -/

theorem Dev.enc_modEnc_same (d : Dev) (e : Nat) (f : Encoder → Encoder) : (d.modEnc e f).enc e = f (d.enc e) :=
  getD_modAt_same d.pos.encs e f

theorem Dev.enc_modEnc_ne (d : Dev) {e j : Nat} (f : Encoder → Encoder) (h : j ≠ e) : (d.modEnc e f).enc j = d.enc j :=
  getD_modAt_ne d.pos.encs f h

/-- The levels that encoder j shows. -/
def Dev.levelsOf (d : Dev) (j : Nat) : Bool × Bool := ((d.enc j).a, (d.enc j).b)

section
variable (d : Dev) (e : Nat) (a b fwd : Bool)

/-- A tick's step of a count: forward or backward. -/
def tickStep : Int := if fwd then 1 else -1

/-- The encoder has counted a tick. -/
def Dev.counted : Dev :=
  let d1 := d.modEnc e fun x => { x with a := a, b := b }
  ((d1.modEnc e fun x => { x with dC := x.dC + tickStep fwd, openPair := false }).wrN (Reg.encCnt e)
    (unsigned 32 ((d1.rdN (Reg.encCnt e) : Int) + tickStep fwd))).faultOff (0x73 + e)

/-- The strip has moved with its master by a tick. -/
def Dev.ticked : Dev :=
  if (d.counted e a b fwd).master = some e ∧ (d.counted e a b fwd).isFollower = false then ((d.counted e a b fwd).masterTick fwd).formSpos
  else d.counted e a b fwd

theorem Dev.levels_tick (hd : (phaseOf a b + 4 - phaseOf (d.enc e).a (d.enc e).b) % 4 = 1
      ∨ (phaseOf a b + 4 - phaseOf (d.enc e).a (d.enc e).b) % 4 = 3)
    (hf : fwd = (((phaseOf a b + 4 - phaseOf (d.enc e).a (d.enc e).b) % 4 == 1) != d.flag (Reg.encCfg e) 29)) :
    d.levels e a b = if (d.ticked e a b fwd).master.isSome then (List.range 4).foldl (fun d i => d.slipCheck i) (d.ticked e a b fwd)
      else d.ticked e a b fwd := by
  subst hf
  unfold Dev.levels
  dsimp only
  rw [if_neg (by omega), if_neg (by omega)]
  rfl

theorem Dev.counted_regsKept : d.regsKept (d.counted e a b fwd) [Reg.encCnt e, Reg.fltLive ((0x73 + e) / 32)] :=
  Dev.regsKept.setFlag (Dev.regsKept.wrN (t := (d.modEnc e _).modEnc e _) (d.regsKept_refl _) (by simp) _) (by simp) _ _

theorem Dev.counted_cnt : (d.counted e a b fwd).rdN (Reg.encCnt e) = unsigned 32 ((d.rdN (Reg.encCnt e) : Int) + tickStep fwd) := by
  have hne : Reg.encCnt e ≠ Reg.fltLive ((0x73 + e) / 32) := by unfold Reg.encCnt Reg.fltLive; omega
  have hcnt : ∀ (t : Dev) (i : Int), (t.wrN (Reg.encCnt e) (unsigned 32 i)).rdN (Reg.encCnt e) = unsigned 32 i := fun t i => by
    rw [Dev.rdN_wrN_same, Nat.mod_eq_of_lt]
    unfold unsigned; omega
  exact (Dev.rdN_congr (Dev.rd_setFlag_ne _ _ _ _ _ hne)).trans (hcnt _ _)

theorem Dev.counted_pos : (d.counted e a b fwd).pos = ((d.modEnc e fun x => { x with a := a, b := b }).modEnc e fun x =>
    { x with dC := x.dC + tickStep fwd, openPair := false }).pos := rfl

theorem Dev.counted_levels : (d.counted e a b fwd).levelsOf e = (a, b) := by
  have henc : (d.counted e a b fwd).enc e = { ({ d.enc e with a := a, b := b } : Encoder) with
      dC := (d.enc e).dC + tickStep fwd, openPair := false } := by
    rw [Dev.enc, Dev.counted_pos]
    change ((d.modEnc e _).modEnc e _).enc e = _
    rw [Dev.enc_modEnc_same, Dev.enc_modEnc_same]
  rw [Dev.levelsOf, henc]

theorem Dev.counted_levels_ne {j : Nat} (h : j ≠ e) : (d.counted e a b fwd).levelsOf j = d.levelsOf j := by
  have henc : (d.counted e a b fwd).enc j = d.enc j := by
    rw [Dev.enc, Dev.counted_pos]
    change ((d.modEnc e _).modEnc e _).enc j = _
    rw [Dev.enc_modEnc_ne _ _ h, Dev.enc_modEnc_ne _ _ h]
  rw [Dev.levelsOf, henc, Dev.levelsOf]

/-- The master's tick counts for the check encoders; no encoder's levels change. -/
theorem Dev.masterTick_levels (j : Nat) : (d.masterTick fwd).levelsOf j = d.levelsOf j := by
  have henc : (d.masterTick fwd).enc j = (d.pos.encs.map fun x => { x with dM := x.dM + tickStep fwd }).getD j {} := rfl
  rw [Dev.levelsOf, henc, Dev.levelsOf, Dev.enc, List.getD_eq_getElem?_getD, List.getD_eq_getElem?_getD, List.getElem?_map]
  cases d.pos.encs[j]? <;> rfl

theorem Dev.formSpos_levels (j : Nat) : d.formSpos.levelsOf j = d.levelsOf j := by
  have h : d.formSpos.pos.encs = d.pos.encs := (congrArg (fun x : Dev => x.pos.encs) (d.setSpos_sansCourse _) :)
  rw [Dev.levelsOf, Dev.enc, h, Dev.levelsOf, Dev.enc]

theorem Dev.formSpos_n : d.formSpos.pos.n = d.pos.n := (congrArg (fun x : Dev => x.pos.n) (d.setSpos_sansCourse _) :)
theorem Dev.formSpos_f : d.formSpos.pos.f = d.pos.f := (congrArg (fun x : Dev => x.pos.f) (d.setSpos_sansCourse _) :)

/-- In the cycle of a tick the fraction is 0: SPOS is a whole tick (R128). -/
theorem Dev.masterTick_spos (h : d.isFollower = false) :
    (d.masterTick fwd).computedSpos = 64 * (d.pos.n + tickStep fwd) := by
  have hf : (d.masterTick fwd).isFollower = false := h
  have hfrac : (d.masterTick fwd).fraction = 0 := Dev.fraction_now rfl
  have hn : (d.masterTick fwd).pos.n = d.pos.n + tickStep fwd := rfl
  rw [Dev.computedSpos, if_neg (by rw [hf]; decide), Dev.ownSpos, hfrac, hn]
  split <;> simp

/-- What a tick leaves: the levels, the count, and SPOS where the encoder is the master of a device that is no follower. -/
theorem Dev.ticked_effect (he : e < 4) :
    ((d.ticked e a b fwd).enc e).a = a ∧ ((d.ticked e a b fwd).enc e).b = b
    ∧ (d.ticked e a b fwd).rdN (Reg.encCnt e) = unsigned 32 ((d.rdN (Reg.encCnt e) : Int) + tickStep fwd)
    ∧ (∀ j, j < 4 → j ≠ e → ((d.ticked e a b fwd).enc j).a = (d.enc j).a ∧ ((d.ticked e a b fwd).enc j).b = (d.enc j).b
      ∧ (d.ticked e a b fwd).rd (Reg.encCnt j) = d.rd (Reg.encCnt j))
    ∧ if d.master = some e ∧ d.isFollower = false then
        (d.ticked e a b fwd).pos.n = d.pos.n + tickStep fwd ∧ (d.ticked e a b fwd).pos.f = 0
        ∧ (d.ticked e a b fwd).rd64 Reg.spos = unsigned 64 (64 * (d.pos.n + tickStep fwd))
      else (d.ticked e a b fwd).pos.n = d.pos.n ∧ (d.ticked e a b fwd).rd64 Reg.spos = d.rd64 Reg.spos := by
  have hkept := d.counted_regsKept e a b fwd
  have hout : ∀ x, x = Reg.posCtrl ∨ x = Reg.bandCfg ∨ x = Reg.spos ∨ x = Reg.spos + 4 → (d.counted e a b fwd).rd x = d.rd x :=
    fun x hx => hkept x (by
      simp only [Reg.posCtrl, Reg.bandCfg, Reg.spos, Reg.encCnt, Reg.fltLive, List.mem_cons, List.not_mem_nil, or_false] at hx ⊢
      omega)
  have hcnt : ∀ j, j < 4 → j ≠ e → (d.counted e a b fwd).rd (Reg.encCnt j) = d.rd (Reg.encCnt j) := fun j hj hje => hkept _ (by
    simp only [Reg.encCnt, Reg.fltLive, List.mem_cons, List.not_mem_nil, or_false]
    omega)
  have hlev := d.counted_levels e a b fwd
  have hlev' : ∀ j, j ≠ e → (d.counted e a b fwd).levelsOf j = d.levelsOf j := fun j hj => d.counted_levels_ne e a b fwd hj
  have hcount := d.counted_cnt e a b fwd
  have hn : (d.counted e a b fwd).pos.n = d.pos.n := rfl
  have hmaster : (d.counted e a b fwd).master = d.master := by
    rw [Dev.master, Dev.flag_congr (hout _ (.inl rfl)), Dev.fld_congr (hout _ (.inl rfl)), Dev.master]
  have hfollow : (d.counted e a b fwd).isFollower = d.isFollower := by
    rw [Dev.isFollower, Dev.fld_congr (hout _ (.inr (.inl rfl))), Dev.isFollower]
  unfold Dev.ticked
  rw [hmaster, hfollow]
  generalize d.counted e a b fwd = c at *
  by_cases hm : d.master = some e ∧ d.isFollower = false
  · rw [if_pos hm, if_pos hm]
    have hform : ∀ j, j < 4 → (c.masterTick fwd).formSpos.rd (Reg.encCnt j) = c.rd (Reg.encCnt j) := fun j hj =>
      Dev.formSpos_rd _ (not_mem_sposRegs (by unfold Reg.encCnt; omega)) (by unfold Reg.encCnt Reg.spos; omega)
    have hl : ∀ j, (c.masterTick fwd).formSpos.levelsOf j = c.levelsOf j := fun j =>
      (Dev.formSpos_levels _ j).trans (c.masterTick_levels fwd j)
    have hspos : (c.masterTick fwd).formSpos.rd64 Reg.spos = unsigned 64 (64 * (d.pos.n + tickStep fwd)) := by
      rw [Dev.formSpos, Dev.setSpos_spos, c.masterTick_spos fwd (hfollow.trans hm.2), hn]
    refine ⟨congrArg Prod.fst ((hl e).trans hlev), congrArg Prod.snd ((hl e).trans hlev), (Dev.rdN_congr (hform e he)).trans hcount,
      fun j hj hje => ⟨congrArg Prod.fst ((hl j).trans (hlev' j hje)), congrArg Prod.snd ((hl j).trans (hlev' j hje)),
        (hform j hj).trans (hcnt j hj hje)⟩, ?_, Dev.formSpos_f _, hspos⟩
    rw [Dev.formSpos_n, ← hn]; rfl
  · rw [if_neg hm, if_neg hm]
    exact ⟨congrArg Prod.fst hlev, congrArg Prod.snd hlev, hcount, fun j hj hje => ⟨congrArg Prod.fst (hlev' j hje),
      congrArg Prod.snd (hlev' j hje), hcnt j hj hje⟩, hn,
      Dev.rd64_congr (hout _ (.inr (.inr (.inl rfl)))) (hout _ (.inr (.inr (.inr rfl))))⟩

end

theorem filtered_iff (filter held : Nat) : filtered filter held = true ↔ ¬ held ≤ filter := by
  rw [filtered, decide_eq_true_eq]; omega

/-- What a sample does to the device d that meets it. -/
theorem exec_encoderTick {s : State} (ha : s.alive) (enc : Fin 4) (a b : Bool) (held dt : Nat) {d : Dev}
    (hd : d = if dt = 0 then s.dev else (s.dev.advance (dt - 1)).clock) : exec (.encoderTick enc a b ⟨held, dt⟩) s
      = .next { s with dev := (if held ≤ d.fld (Reg.encCfg enc.val) 16 8 then d else d.levels enc.val a b).formSpos } := by
  have hadv : (if dt = 0 then s.dev.advance (dt - 1) else (s.dev.advance (dt - 1)).clock) = d := by
    rw [hd]
    cases dt <;> rfl
  change execEncoderTick enc a b ⟨held, dt⟩ s = _
  rw [execEncoderTick, State.upd_alive ha]
  dsimp only
  rw [hadv]
  by_cases hlow : held ≤ d.fld (Reg.encCfg enc.val) 16 8
  · rw [if_pos hlow, if_neg fun h => (filtered_iff (d.encFilter enc.val) held).mp h hlow]
  · rw [if_neg hlow, if_pos ((filtered_iff (d.encFilter enc.val) held).mpr hlow)]

theorem Dev.levels_still {d : Dev} {e : Nat} {a b : Bool} (h : (phaseOf a b + 4 - phaseOf (d.enc e).a (d.enc e).b) % 4 = 0) :
    d.levels e a b = d := by
  unfold Dev.levels
  dsimp only
  rw [if_pos h]

theorem Dev.levels_illegal {d : Dev} {e : Nat} {a b : Bool} (h : (phaseOf a b + 4 - phaseOf (d.enc e).a (d.enc e).b) % 4 = 2) :
    d.levels e a b = ((d.modEnc e fun x => { x with a := a, b := b }).incSat (Reg.encErr e) 16 16 1).encFault e := by
  unfold Dev.levels
  dsimp only
  rw [if_neg (by omega), if_pos h]

/-! ## Coil marks (R132, R133) -/

section
variable (d : Dev) (c : Nat)

/-- The FILTER of a mark channel's source (R132). -/
def Dev.markFilter : Nat :=
  if d.fld (Reg.mkCfg c) 29 3 ≤ 4 then d.fld (Reg.encCfg (d.fld (Reg.mkCfg c) 29 3 - 1)) 16 8 else d.fld (Reg.mkCfg c) 16 8

/-- The position at which an edge of channel c stands. -/
def Dev.markPos : Int := d.spos - 64 * signed 32 (d.rdN (Reg.mkOffset c))

/-- The device when the accepted edge of channel c has set its source's Z level. -/
def Dev.edgeSeen : Dev :=
  if d.fld (Reg.mkCfg c) 29 3 ≤ 4 then d.modEnc (d.fld (Reg.mkCfg c) 29 3 - 1) fun x => { x with z := !bit (d.rdN (Reg.mkCfg c)) 28 }
  else d

/-- An edge beyond LAST + HOLD: a mark, which may begin a coil. -/
def Dev.markTaken : Dev :=
  let d1 := ((d.edgeSeen c).wrI64 (Reg.mkLast c) (d.markPos c)).incWrap (Reg.mkCnt c) 16 16 1
  let d2 := if d.flag (Reg.mkCfg c) 27 then d1.newCoil else d1
  d2.event 0x8304 none (le 1 c ++ zeros 3 ++ le 4 (d2.rdN Reg.coilNum) ++ sle 8 (d.markPos c))

theorem Dev.edgeSeen_regs : (d.edgeSeen c).regs = d.regs := by
  unfold Dev.edgeSeen
  split <;> rfl

theorem Dev.edgeSeen_rd (a : Nat) : (d.edgeSeen c).rd a = d.rd a := by rw [Dev.rd, Dev.edgeSeen_regs, Dev.rd]

theorem Dev.edgeSeen_markPos : (d.edgeSeen c).markPos c = d.markPos c := by
  rw [Dev.markPos, Dev.spos, Dev.rdI64_congr (d.edgeSeen_rd c _) (d.edgeSeen_rd c _), Dev.rdN_congr (d.edgeSeen_rd c _)]; rfl

theorem Dev.edgeSeen_ev : (d.edgeSeen c).ev = d.ev := by
  unfold Dev.edgeSeen
  split <;> rfl

end

section
variable {s : State} (ha : s.alive) (ch : Fin 2) (held : Nat)
include ha

theorem exec_markEdge_glitch (h : held ≤ s.dev.markFilter ch.val) : exec (.markEdge ⟨ch, held⟩) s = .next s := by
  have hf : filtered (s.dev.markFilter ch.val) held = false := Bool.eq_false_iff.mpr fun hf => (filtered_iff _ _).mp hf h
  change execMarkEdge ⟨ch, held⟩ s = _
  rw [execMarkEdge, State.upd_alive ha]
  dsimp only
  exact congrArg (fun d : Dev => Host.Outcome.next { s with dev := d }) (if_pos (Or.inr (Or.inr hf)))

theorem exec_markEdge (h : ¬ held ≤ s.dev.markFilter ch.val) (h1 : 1 ≤ s.dev.fld (Reg.mkCfg ch.val) 29 3)
    (h6 : s.dev.fld (Reg.mkCfg ch.val) 29 3 ≤ 6) : exec (.markEdge ⟨ch, held⟩) s = .next { s with dev :=
      (if s.dev.rdI64 (Reg.mkLast ch.val) + 64 * (s.dev.rdN (Reg.mkHold ch.val) : Int) < s.dev.markPos ch.val then s.dev.markTaken ch.val
        else (s.dev.edgeSeen ch.val).incSat (Reg.mkCnt ch.val) 0 16 1) } := by
  have hf : filtered (s.dev.markFilter ch.val) held = true := (filtered_iff _ _).mpr h
  have hgo : ¬ (bits (s.dev.rdN (Reg.mkCfg ch.val)) 29 3 = 0 ∨ bits (s.dev.rdN (Reg.mkCfg ch.val)) 29 3 = 7
      ∨ filtered (s.dev.markFilter ch.val) held = false) := by
    rintro (h | h | h)
    · exact absurd (h1.trans_eq h) (by decide)
    · exact absurd (h.symm.trans_le h6) (by decide)
    · exact absurd (h.symm.trans hf) (by decide)
  change execMarkEdge ⟨ch, held⟩ s = _
  rw [execMarkEdge, State.upd_alive ha]
  dsimp only
  refine (congrArg (fun d : Dev => Host.Outcome.next { s with dev := d }) (if_neg hgo)).trans ?_
  rw [Dev.markTaken, ← s.dev.edgeSeen_markPos, ← Dev.rdI64_congr (s.dev.edgeSeen_rd ch.val _) (s.dev.edgeSeen_rd ch.val _),
    ← Dev.rdN_congr (s.dev.edgeSeen_rd ch.val (Reg.mkHold ch.val))]
  rfl

end

/-- What a mark leaves: LAST, COUNT, and a coil's number where the channel begins one (R132, R133). -/
theorem Dev.markTaken_effect (d : Dev) {c : Nat} (hc : c < 2) : (d.markTaken c).rd64 (Reg.mkLast c) = unsigned 64 (d.markPos c)
    ∧ (d.markTaken c).fld (Reg.mkCnt c) 16 16 = wrapAdd 16 (d.fld (Reg.mkCnt c) 16 16) 1
    ∧ (d.markTaken c).fld Reg.coilNum 0 32
        = (if d.flag (Reg.mkCfg c) 27 then wrapAdd 32 (d.fld Reg.coilNum 0 32) 1 else d.fld Reg.coilNum 0 32)
    ∧ (d.markTaken c).fld (Reg.mkCnt c) 0 16 = d.fld (Reg.mkCnt c) 0 16 := by
  unfold Dev.markTaken
  extract_lets d1 d2
  have hlc : Reg.mkLast c ≠ Reg.mkCnt c ∧ Reg.mkLast c + 4 ≠ Reg.mkCnt c ∧ Reg.mkLast c ≠ Reg.coilNum ∧ Reg.mkLast c + 4 ≠ Reg.coilNum
      ∧ Reg.mkCnt c ≠ Reg.coilNum := by
    unfold Reg.mkLast Reg.mkCnt Reg.coilNum; omega
  have hpos : ∀ a, a = Reg.mkLast c ∨ a = Reg.mkLast c + 4 ∨ a = Reg.mkCnt c ∨ a = Reg.coilNum → 0x60000 ≤ a ∧ a < 0xa0000 := by
    unfold Reg.mkLast Reg.mkCnt Reg.coilNum; omega
  have hd2 : ∀ a, a ≠ Reg.coilNum → d2.rd a = d1.rd a := fun a ha => by
    unfold d2
    split
    · exact Dev.rd_incWrap_ne _ _ _ _ _ _ ha
    · rfl
  have ht : ∀ a, a = Reg.mkLast c ∨ a = Reg.mkLast c + 4 ∨ a = Reg.mkCnt c ∨ a = Reg.coilNum →
      (d2.event 0x8304 none (le 1 c ++ zeros 3 ++ le 4 (d2.rdN Reg.coilNum) ++ sle 8 (d.markPos c))).rd a = d2.rd a := fun a ha =>
    d2.event_rd _ _ _ (hpos a ha)
  generalize d2.event 0x8304 none (le 1 c ++ zeros 3 ++ le 4 (d2.rdN Reg.coilNum) ++ sle 8 (d.markPos c)) = t at *
  have hlast : ∀ a, a = Reg.mkLast c ∨ a = Reg.mkLast c + 4 → t.rd a = ((d.edgeSeen c).wrI64 (Reg.mkLast c) (d.markPos c)).rd a :=
    fun a ha => ((ht a (by omega)).trans (hd2 a (by omega))).trans (Dev.rd_incWrap_ne _ _ _ _ _ _ (by omega))
  have hcnt : t.rd (Reg.mkCnt c) = d1.rd (Reg.mkCnt c) := (ht _ (by simp)).trans (hd2 _ hlc.2.2.2.2)
  have hbefore : ∀ a, a = Reg.mkCnt c ∨ a = Reg.coilNum → ((d.edgeSeen c).wrI64 (Reg.mkLast c) (d.markPos c)).rd a = d.rd a :=
    fun a ha => ((Dev.rd_wrN_ne _ _ _ _ (by omega)).trans (Dev.rd_wrN_ne _ _ _ _ (by omega))).trans (d.edgeSeen_rd c a)
  refine ⟨?_, ?_, ?_, ?_⟩
  · rw [Dev.rd64_congr (hlast _ (.inl rfl)) (hlast _ (.inr rfl)), Dev.wrI64, Dev.rd64_wr64]
    exact Nat.mod_eq_of_lt (unsigned_64_lt _)
  · rw [Dev.fld_congr hcnt, Dev.fld_incWrap_same _ _ _ (by decide), Dev.fld_congr (hbefore _ (.inl rfl))]
  · have hcoil : d1.rd Reg.coilNum = d.rd Reg.coilNum := (Dev.rd_incWrap_ne _ _ _ _ _ _ hlc.2.2.2.2.symm).trans (hbefore _ (.inr rfl))
    rw [Dev.fld_congr (ht _ (by simp))]
    unfold d2
    split
    · exact (d1.fld_incWrap_same _ _ (by decide)).trans (by rw [Dev.fld_congr hcoil])
    · exact Dev.fld_congr hcoil _ _
  · rw [Dev.fld_congr hcnt, Dev.fld_congr (hbefore _ (.inl rfl)).symm]
    exact Dev.fld_setFld_ne _ _ _ (by decide) (by decide)

/-- What a repeat leaves: DUP, and everything else as it was. -/
theorem Dev.markRepeated_effect (d : Dev) (c : Nat) :
    ((d.edgeSeen c).incSat (Reg.mkCnt c) 0 16 1).fld (Reg.mkCnt c) 0 16 = satAdd 16 (d.fld (Reg.mkCnt c) 0 16) 1
    ∧ d.regsKept ((d.edgeSeen c).incSat (Reg.mkCnt c) 0 16 1) [Reg.mkCnt c]
    ∧ ((d.edgeSeen c).incSat (Reg.mkCnt c) 0 16 1).fld (Reg.mkCnt c) 16 16 = d.fld (Reg.mkCnt c) 16 16
    ∧ ((d.edgeSeen c).incSat (Reg.mkCnt c) 0 16 1).ev = d.ev := by
  have hsame : ∀ lo w, (d.edgeSeen c).fld (Reg.mkCnt c) lo w = d.fld (Reg.mkCnt c) lo w := Dev.fld_congr (d.edgeSeen_rd c _)
  refine ⟨?_, ?_, ?_, d.edgeSeen_ev c⟩
  · rw [Dev.fld_incSat_same _ _ _ (by decide), hsame]
  · exact Dev.regsKept.incSat (fun a _ => d.edgeSeen_rd c a) (by simp) _ _ _
  · exact (Dev.fld_setFld_ne _ _ _ (by decide) (by decide)).trans (hsame _ _)

/-! ## Strobes (R147, R148) -/

/-- Output n is active, with these pulses still due. -/
def Dev.pulsed (d : Dev) (n : Nat) (rest : List Nat) : Dev :=
  { d with pos := { d.pos with strobes := modAt d.pos.strobes n fun _ => ⟨true, rest⟩ } }

/-- Encoder e's pair has been open for 1 us. -/
def Dev.opened (d : Dev) (e : Nat) : Dev := (d.modEnc e fun x => { x with openPair := true }).incSat (Reg.encErr e) 8 8 1

section
variable {s : State} (ha : s.alive) (out : Fin 8)
include ha

theorem exec_strobeActive {w : Nat} {rest : List Nat} (hdue : (s.dev.pos.strobes.getD out.val {}).due = w :: rest)
    (hline : s.dev.lineStarted = true) (hbound : s.dev.flag (Reg.strbCfg out.val) 31 = true) (hsafe : s.dev.safe = false) :
    exec (.strobeActive out) s = .next { s with dev :=
      (if (s.dev.pos.strobes.getD out.val {}).active then (s.dev.pulsed out.val rest).incSat (Reg.strbStat out.val) 0 16 1
        else (s.dev.pulsed out.val rest).emit (.strobe out.val true)) } := by
  have hgo : ¬ (!s.dev.lineStarted || !s.dev.flag (Reg.strbCfg out.val) 31 || s.dev.safe) = true := by
    rw [hline, hbound, hsafe]; decide
  change execStrobeActive out s = _
  rw [execStrobeActive, State.upd_alive ha]
  dsimp only
  rw [hdue]
  exact congrArg (fun d : Dev => Host.Outcome.next { s with dev := d }) (if_neg hgo)

theorem exec_strobeEnd (hon : (s.dev.pos.strobes.getD out.val {}).active = true) : exec (.strobeEnd out) s = .next { s with
      dev := Dev.emit { s.dev with pos := { s.dev.pos with strobes := modAt s.dev.pos.strobes out.val fun x => { x with active := false } } }
        (.strobe out.val false) } := by
  change execStrobeEnd out s = _
  rw [execStrobeEnd, State.upd_alive ha]
  dsimp only
  rw [if_pos hon]

end

theorem exec_encoderOpen {s : State} (ha : s.alive) (enc : Fin 4) : exec (.encoderOpen enc) s = .next { s with dev :=
      (if s.dev.encRole enc.val = 0 then s.dev.opened enc.val else (s.dev.opened enc.val).faultOn (0x73 + enc.val)) } := by
  have hrole : (s.dev.opened enc.val).encRole enc.val = s.dev.encRole enc.val :=
    Dev.fld_congr (Dev.rd_incSat_ne _ _ _ _ _ _ (by unfold Reg.encCfg Reg.encErr; omega)) _ _
  change execEncoderOpen enc s = _
  rw [execEncoderOpen, State.upd_alive ha, ← hrole]
  rfl

/-- Settles O17: an encoder's samples by how its levels change, a mark's edges by how far they come, and the pulses of a strobe. -/
theorem encodersMarksStrobes : Obligations.EncodersMarksStrobes := by
  unfold Obligations.EncodersMarksStrobes
  intro s ha
  refine ⟨?_, fun enc => ⟨_, exec_encoderOpen ha enc, rfl⟩, ?_, ?_, ?_⟩
  · rintro enc a b held dt _ d rfl hd x delta fwd step low
    refine ⟨_, exec_encoderTick ha enc a b held dt hd, ?_, ?_, ?_⟩
    · rintro (h | h)
      · exact congrArg Dev.formSpos (if_pos h)
      · rw [Dev.levels_still h, ite_self]
    · intro h h2
      exact congrArg Dev.formSpos ((if_neg h).trans (Dev.levels_illegal h2))
    · intro h h13
      exact ⟨d.ticked enc.val a b fwd, congrArg Dev.formSpos ((if_neg h).trans (d.levels_tick _ a b fwd h13 rfl)),
        d.ticked_effect enc.val a b fwd enc.isLt⟩
  · rintro ch _ _ held _ st rfl rfl h1 h6 rfl
    refine ⟨exec_markEdge_glitch ha ch held, fun hlt hst => ⟨_, exec_markEdge ha ch held (Nat.not_le.mpr hlt) h1 h6, ?_⟩⟩
    subst hst
    by_cases hmark : s.dev.rdI64 (Reg.mkLast ch.val) + 64 * (s.dev.rdN (Reg.mkHold ch.val) : Int) < s.dev.markPos ch.val
    · rw [if_pos hmark]
      exact (if_pos hmark).mpr (s.dev.markTaken_effect ch.isLt)
    · rw [if_neg hmark]
      exact (if_neg hmark).mpr (s.dev.markRepeated_effect ch.val)
  · rintro out _ w rest rfl hdue hline hbound hsafe
    exact ⟨_, exec_strobeActive ha out hdue hline hbound hsafe, rfl⟩
  · rintro out _ rfl hon
    exact ⟨_, exec_strobeEnd ha out hon, rfl⟩

end Sys2Proof.Machine
end

section
/-! SUPPORT. What the shared operations of a line leave: the words that show SPOS, the line and the heads, the trigger generators, a stop
that stands, and what has left the device. -/

namespace Sys2Proof.Machine

open Sys2Proof

/-- A word of POS that shows SPOS, the line, an encoder or a head. -/
def lineWord (a : Nat) : Prop := 0x60000 ≤ a ∧ a < 0x60800

/-- From d to t the words of the line stay but for those listed, and so do the generators and a stop; what has left stays. -/
structure Dev.Quiet (l : List Nat) (d t : Dev) : Prop where
  word : ∀ a, lineWord a → a ∉ l → t.rd a = d.rd a
  gens : t.pos.gens = d.pos.gens
  stopAfter : t.pos.stopAfter = d.pos.stopAfter
  out : d.out <:+ t.out

section
variable {l : List Nat} {d t u : Dev}

theorem Dev.Quiet.refl (l : List Nat) (d : Dev) : d.Quiet l d := ⟨fun _ _ _ => rfl, rfl, rfl, List.suffix_rfl⟩

theorem Dev.Quiet.trans (h : d.Quiet l t) (k : t.Quiet l u) : d.Quiet l u :=
  ⟨fun a ha hl => (k.word a ha hl).trans (h.word a ha hl), k.gens.trans h.gens, k.stopAfter.trans h.stopAfter, h.out.trans k.out⟩

/-- A change of what is none of these. -/
theorem Dev.Quiet.step (h : d.Quiet l t) (hr : u.regs = t.regs) (hg : u.pos.gens = t.pos.gens)
    (hs : u.pos.stopAfter = t.pos.stopAfter) (ho : t.out <:+ u.out) : d.Quiet l u :=
  h.trans ⟨fun a _ _ => by rw [Dev.rd, hr, Dev.rd], hg, hs, ho⟩

theorem Dev.Quiet.wr (h : d.Quiet l t) {a : Nat} (ha : a ∈ l ∨ ¬ lineWord a) (v : Word) : d.Quiet l (t.wr a v) :=
  h.trans ⟨fun _ hx hl => Dev.rd_wr_ne _ _ _ _ fun hxa => ha.elim (fun hm => hl (hxa ▸ hm)) fun hn => hn (hxa ▸ hx), rfl, rfl,
    List.suffix_rfl⟩

theorem Dev.Quiet.incSat (h : d.Quiet l t) {a : Nat} (ha : a ∈ l ∨ ¬ lineWord a) (lo w k : Nat) : d.Quiet l (t.incSat a lo w k) :=
  h.wr ha _

theorem Dev.Quiet.setFld (h : d.Quiet l t) {a : Nat} (ha : a ∈ l ∨ ¬ lineWord a) (lo w v : Nat) : d.Quiet l (t.setFld a lo w v) :=
  h.wr ha _

theorem Dev.Quiet.wr64 (h : d.Quiet l t) {a : Nat} (ha : ¬ lineWord a) (hb : ¬ lineWord (a + 4)) (v : Nat) : d.Quiet l (t.wr64 a v) :=
  (h.wr (.inr ha) _).wr (.inr hb) _

theorem Dev.Quiet.mono {m : List Nat} (h : d.Quiet l t) (hl : l ⊆ m) : d.Quiet m t :=
  ⟨fun a ha hm => h.word a ha fun hx => hm (hl hx), h.gens, h.stopAfter, h.out⟩

theorem Dev.Quiet.foldl {α : Type} {f : Dev → α → Dev} (h : d.Quiet l t) (xs : List α) (hf : ∀ (v : Dev) x, v.Quiet l (f v x)) :
    d.Quiet l (xs.foldl f t) :=
  List.foldlRecOn (motive := fun u => d.Quiet l u) xs _ h fun u hu x _ => hu.trans (hf u x)

end

section
variable (l : List Nat) (d : Dev)

theorem Dev.quiet_event (code : Nat) (batt : Option Nat) (extra : Bytes) : d.Quiet l (d.event code batt extra) := by
  have hs := d.event_sansEvents code batt extra
  refine ⟨fun a ha _ => d.event_rd code batt extra ⟨ha.1, ?_⟩, (congrArg (fun x : Dev => x.pos.gens) hs :),
    (congrArg (fun x : Dev => x.pos.stopAfter) hs :), ?_⟩
  · have := ha.2; omega
  · have ho : (d.event code batt extra).out = d.out := (congrArg Dev.out hs :)
    rw [ho]

theorem Dev.quiet_eventFor (m code : Nat) (batt : Option Nat) (extra : Bytes) : d.Quiet l (d.eventFor m code batt extra) :=
  (((Dev.Quiet.refl l d).step (u := { d with cause := some m }) rfl rfl rfl List.suffix_rfl).trans
    (Dev.quiet_event l _ code batt extra)).step rfl rfl rfl List.suffix_rfl

theorem Dev.quiet_enterEvent (m : Msg) : d.Quiet l (d.enterEvent m) := by
  have hs := d.enterEvent_sansEvents m
  refine ⟨fun a ha _ => d.enterEvent_regsKept m a (not_mem_eventRegs ⟨ha.1, ?_⟩), (congrArg (fun x : Dev => x.pos.gens) hs :),
    (congrArg (fun x : Dev => x.pos.stopAfter) hs :), ?_⟩
  · have := ha.2; omega
  · have ho : (d.enterEvent m).out = d.out := (congrArg Dev.out hs :)
    rw [ho]

theorem Dev.quiet_emit (o : Out) : d.Quiet l (d.emit o) := (Dev.Quiet.refl l d).step rfl rfl rfl (List.suffix_cons _ _)

theorem Dev.quiet_showExp (k : Nat) : d.Quiet l (d.showExp k) := by
  have hf := (d.showExp_onlyRegs k).1
  refine ⟨fun a ha _ => d.showExp_rd k (.inl ha.2), ?_, ?_, ?_⟩
  · exact (congrArg (fun x : Dev => x.pos.gens) hf :)
  · exact (congrArg (fun x : Dev => x.pos.stopAfter) hf :)
  · have ho : (d.showExp k).out = d.out := (congrArg Dev.out hf :)
    rw [ho]

/-! ## Messages (R52, R57, R66, R398) -/

theorem Dev.quiet_sealOut (m : Msg) (tag : Bytes) : d.Quiet l (d.sealOut m tag) :=
  (Dev.Quiet.refl l d).wr (.inr (by unfold lineWord Reg.sealRun; omega)) _

theorem Dev.quiet_queueResp (m : Msg) : d.Quiet l (d.queueResp m) := by
  unfold Dev.queueResp
  extract_lets m' t
  have ht : d.Quiet l t := d.quiet_sealOut l m' []
  clear_value t
  split
  · exact ht.step rfl rfl rfl List.suffix_rfl
  · refine Dev.Quiet.incSat ?_ (a := Reg.mbErr) (.inr (by unfold lineWord Reg.mbErr; omega)) _ _ _
    exact ht.step rfl rfl rfl List.suffix_rfl

theorem Dev.quiet_sendTo (m : Msg) (dst : Nat × Nat) : d.Quiet l (d.sendTo m dst) := by
  unfold Dev.sendTo
  split
  · exact Dev.Quiet.refl l d
  · exact (d.quiet_sealOut l _ _).trans (Dev.quiet_emit l _ _)

theorem Dev.quiet_send (m : Msg) : d.Quiet l (d.send m) := by
  unfold Dev.send
  split
  · exact d.quiet_queueResp l m
  · exact d.quiet_sendTo l m _

theorem Dev.quiet_followUp (a : Accepted) (status : Nat) (payload : Bytes) : d.Quiet l (d.followUp a status payload) := by
  unfold Dev.followUp
  extract_lets bare body m d1 d2 d3
  have h2 : d.Quiet l d2 := (Dev.Quiet.refl l d).step rfl rfl rfl List.suffix_rfl
  have h3 : d.Quiet l d3 := by
    unfold d3
    split
    · exact h2
    · exact h2.trans (d2.quiet_send l m)
  split
  · exact h3.trans (d3.quiet_enterEvent l _)
  · exact h3

theorem Dev.quiet_settleStop : d.Quiet l d.settleStop := by
  unfold Dev.settleStop
  split
  · exact Dev.Quiet.refl l d
  · unfold Dev.finish
    split
    · exact d.quiet_followUp l _ _ _
    · exact Dev.Quiet.refl l d

theorem Dev.quiet_bandReliable (p kind : Nat) (body : List Int) : d.Quiet l (d.bandReliable p kind body) := by
  unfold Dev.bandReliable
  split
  · exact (Dev.Quiet.refl l d).step rfl rfl rfl (List.suffix_cons _ _)
  · exact Dev.Quiet.refl l d

theorem Dev.quiet_fanOut (code : Nat) (body : List Int) : d.Quiet l (d.fanOut code body) := by
  unfold Dev.fanOut
  split
  · exact (d.quiet_bandReliable l 0 _ _).trans (Dev.quiet_bandReliable l _ 1 _ _)
  · exact Dev.Quiet.refl l d

/-! ## Exposure changes (R151 to R154, R610), cards and batts -/

theorem Dev.quiet_trackEvent (t : ExpTrack) : d.Quiet l (d.trackEvent t) := by
  unfold Dev.trackEvent
  split
  · exact Dev.Quiet.refl l d
  · exact d.quiet_event l _ _ _

theorem Dev.quiet_resolveEntry (cmd head : Nat) (applied late : Bool) : d.Quiet l (d.resolveEntry cmd head applied late) := by
  unfold Dev.resolveEntry
  split
  · split
    · exact d.quiet_bandReliable l _ _ _
    · exact Dev.Quiet.refl l d
  · extract_lets t1 rest
    split
    · exact ((Dev.Quiet.refl l d).step (u := { d with pos := { d.pos with tracks := rest } }) rfl rfl rfl List.suffix_rfl).trans
        (Dev.quiet_trackEvent l _ t1)
    · exact (Dev.Quiet.refl l d).step rfl rfl rfl List.suffix_rfl

theorem Dev.quiet_modCard (n gen : Nat) (f : Card → Card) : d.Quiet l (d.modCard n gen f) :=
  (Dev.Quiet.refl l d).step rfl rfl rfl List.suffix_rfl

theorem Dev.quiet_genLoss (n i batt cause : Nat) : d.Quiet l (d.genLoss n i batt cause) := by
  unfold Dev.genLoss Dev.showHwm
  extract_lets a line
  split
  · exact (d.quiet_modCard l n _ _).wr64 (by unfold lineWord Reg.cardLineHwm; omega) (by unfold lineWord Reg.cardLineHwm; omega) _
  · exact d.quiet_modCard l n _ _

theorem Dev.genLoss_out (n i batt cause : Nat) : (d.genLoss n i batt cause).out = d.out := by
  unfold Dev.genLoss Dev.showHwm
  extract_lets a line
  split <;> rfl

theorem Dev.quiet_openBatts (b : Nat) : d.Quiet l (d.openBatts b) := by
  unfold Dev.openBatts
  split
  · exact Dev.Quiet.refl l d
  · extract_lets new ful d1
    have h1 : d.Quiet l d1 := by
      refine Dev.Quiet.wr64 (Dev.Quiet.setFld ?_ (.inr ?_) _ _ _) ?_ ?_ _
      · exact (Dev.Quiet.refl l d).step rfl rfl rfl List.suffix_rfl
      · unfold lineWord Reg.btStat; omega
      · unfold lineWord Reg.btOpenMin; omega
      · unfold lineWord Reg.btOpenMin; omega
    split
    · exact h1.trans (d1.quiet_bandReliable l _ _ _)
    · exact h1

end

/-! ## The next lines of the heads -/

theorem Dev.gen_modGen_same (d : Dev) (k : Nat) (f : TrigGen → TrigGen) : (d.modGen k f).gen k = f (d.gen k) :=
  getD_modAt_same d.pos.gens k f

theorem Dev.gen_modGen_ne (d : Dev) {k j : Nat} (f : TrigGen → TrigGen) (h : j ≠ k) : (d.modGen k f).gen j = d.gen j :=
  getD_modAt_ne d.pos.gens f h

/-- As `Quiet`, but of the generators only their next lines stay. -/
structure Dev.LineKept (l : List Nat) (d t : Dev) : Prop where
  word : ∀ a, lineWord a → a ∉ l → t.rd a = d.rd a
  next : ∀ j, (t.gen j).iNext = (d.gen j).iNext
  stopAfter : t.pos.stopAfter = d.pos.stopAfter
  out : d.out <:+ t.out

section
variable {l : List Nat} {d t u : Dev}

theorem Dev.Quiet.lineKept (h : d.Quiet l t) : d.LineKept l t :=
  ⟨h.word, fun j => by rw [Dev.gen, h.gens, Dev.gen], h.stopAfter, h.out⟩

theorem Dev.LineKept.trans (h : d.LineKept l t) (k : t.LineKept l u) : d.LineKept l u :=
  ⟨fun a ha hl => (k.word a ha hl).trans (h.word a ha hl), fun j => (k.next j).trans (h.next j), k.stopAfter.trans h.stopAfter,
    h.out.trans k.out⟩

theorem Dev.LineKept.mono {m : List Nat} (h : d.LineKept l t) (hl : l ⊆ m) : d.LineKept m t :=
  ⟨fun a ha hm => h.word a ha fun hx => hm (hl hx), h.next, h.stopAfter, h.out⟩

theorem Dev.LineKept.foldl {α : Type} {f : Dev → α → Dev} (h : d.LineKept l t) (xs : List α)
    (hf : ∀ (v : Dev) x, v.LineKept l (f v x)) : d.LineKept l (xs.foldl f t) :=
  List.foldlRecOn (motive := fun u => d.LineKept l u) xs _ h fun u hu x _ => hu.trans (hf u x)

theorem Dev.lineKept_modGen (l : List Nat) (d : Dev) (k : Nat) {f : TrigGen → TrigGen} (hf : ∀ g, (f g).iNext = g.iNext) :
    d.LineKept l (d.modGen k f) := by
  refine ⟨fun _ _ _ => rfl, fun j => ?_, rfl, List.suffix_rfl⟩
  by_cases hj : j = k
  · subst hj; rw [d.gen_modGen_same, hf]
  · rw [d.gen_modGen_ne _ hj]

/-- LINE, and SPOS, are among the words that stay. -/
theorem Dev.LineKept.lineStarted (h : d.LineKept l t) (hl : Reg.posStat ∉ l) : t.lineStarted = d.lineStarted :=
  Dev.flag_congr (h.word _ (by unfold lineWord; decide) hl) 31

theorem Dev.LineKept.spos (h : d.LineKept l t) (hl : Reg.spos ∉ l ∧ Reg.spos + 4 ∉ l) : t.rd64 Reg.spos = d.rd64 Reg.spos :=
  Dev.rd64_congr (h.word _ (by unfold lineWord; decide) hl.1) (h.word _ (by unfold lineWord; decide) hl.2)

end

end Sys2Proof.Machine
end

section
/-! SUPPORT. The end of a line: what the stop of a head, the stop of the line and LINE_STOP leave (R154, R156). -/

namespace Sys2Proof.Machine

open Sys2Proof

section
variable (l : List Nat) (d : Dev) (k : Nat)

theorem Dev.LineKept.loopsAtStop {l : List Nat} {d t : Dev} (h : d.LineKept l t) : d.LineKept l t.loopsAtStop := by
  refine h.trans (Dev.Quiet.lineKept ?_)
  exact (Dev.Quiet.refl l t).step rfl rfl rfl List.suffix_rfl

theorem Dev.lineKept_dropChanges (lim : Nat) : d.LineKept l (d.dropChanges k lim) := by
  unfold Dev.dropChanges
  extract_lets gone d1 d2
  have h1 : d.LineKept l d1 := d.lineKept_modGen l k fun _ => rfl
  have h2 : d.LineKept l d2 :=
    (h1.foldl gone fun v c => (v.quiet_resolveEntry l _ _ _ _).lineKept).trans (Dev.quiet_showExp l _ k).lineKept
  refine h2.trans (Dev.Quiet.lineKept ?_)
  exact (Dev.Quiet.refl l d2).step rfl rfl rfl List.suffix_rfl

theorem Dev.lineKept_stopHead : d.LineKept l (d.stopHead k) := by
  unfold Dev.stopHead
  split
  · split
    · exact (d.lineKept_dropChanges l k _).trans (Dev.quiet_modCard l _ k _ _).lineKept
    · exact (Dev.Quiet.refl l d).lineKept
  · exact (Dev.Quiet.refl l d).lineKept

/-- The device whose heads have all stopped, before the line ends. -/
def Dev.headsStopped (last : Nat) : Dev :=
  let d0 := if d.lineEmpty last then d else d.openBatts last
  let lim := if d.lineEmpty last then d.battFirst else last + 1
  let e := (List.range 16).foldl (fun d k => d.dropChanges k lim) d0
  ((List.range 16).foldl (fun d k => d.modCard k d.pos.gen fun c =>
    { c with stopped := some (d.gen k).reached, last := some last }) e).loopsAtStop

theorem Dev.lineKept_headsStopped (last : Nat) : d.LineKept l (d.headsStopped last) := by
  unfold Dev.headsStopped
  extract_lets d0 lim e
  have h0 : d.LineKept l d0 := by
    unfold d0
    split
    · exact (Dev.Quiet.refl l d).lineKept
    · exact (d.quiet_openBatts l last).lineKept
  have he : d.LineKept l e := h0.foldl _ fun v k => v.lineKept_dropChanges l k lim
  refine Dev.LineKept.loopsAtStop ?_
  exact he.foldl _ fun v k => (v.quiet_modCard l k _ _).lineKept

end

/-- A stop after LAST_BATT stands, and the strobes end. -/
def Dev.stopNoted (d : Dev) (last : Nat) : Dev :=
  { d with pos := { d.pos with stopAfter := some last, strobes := d.pos.strobes.map fun _ => {} } }

theorem Dev.rd_stopNoted (d : Dev) (last a : Nat) : (d.stopNoted last).rd a = d.rd a := rfl

/-- The line has ended at LAST_BATT. -/
def Dev.lineEnded (d : Dev) (last : Nat) : Dev := ((d.setFlag Reg.posStat 31 false).wr64 Reg.battLastUsed last).stopNoted last

/-- LINE_STOPPED is raised, and a LINE_STOP may get its follow-up. -/
theorem Dev.quiet_finishStop (l : List Nat) (d : Dev) (cause last : Nat) :
    ((d.headsStopped last).lineEnded last).Quiet l (d.finishStop cause last) := by
  unfold Dev.finishStop
  extract_lets d0 lim e e1 d1 pos d2 extra d4
  have h4 : d2.Quiet l d4 := by
    unfold d4
    split
    · split
      · exact d2.quiet_eventFor l _ _ _ _
      · exact d2.quiet_event l _ _ _
    · exact d2.quiet_event l _ _ _
  exact h4.trans (d4.quiet_settleStop l)

theorem Dev.lineEnded_effect (d : Dev) (last : Nat) : (d.lineEnded last).lineStarted = false
    ∧ (d.lineEnded last).rd64 Reg.battLastUsed = last % 2 ^ 64 ∧ (d.lineEnded last).rd64 Reg.spos = d.rd64 Reg.spos := by
  have hother : ∀ a, a ≠ Reg.battLastUsed → a ≠ Reg.battLastUsed + 4 → (d.lineEnded last).rd a = (d.setFlag Reg.posStat 31 false).rd a :=
    fun a h1 h2 => (Dev.rd_stopNoted _ _ _).trans ((Dev.rd_wrN_ne _ _ _ _ h2).trans (Dev.rd_wrN_ne _ _ _ _ h1))
  refine ⟨?_, (Dev.rd64_congr (Dev.rd_stopNoted _ _ _) (Dev.rd_stopNoted _ _ _)).trans (Dev.rd64_wr64 _ _ _), ?_⟩
  · rw [Dev.lineStarted, Dev.flag_congr (hother _ (by decide) (by decide)), Dev.flag_setFlag_same _ _ _ _ (by decide)]
  · exact Dev.rd64_congr ((hother _ (by decide) (by decide)).trans (Dev.rd_setFlag_ne _ _ _ _ _ (by decide)))
      ((hother _ (by decide) (by decide)).trans (Dev.rd_setFlag_ne _ _ _ _ _ (by decide)))

theorem Dev.finishStop_effect (d : Dev) (cause last : Nat) : (d.finishStop cause last).lineStarted = false
    ∧ (d.finishStop cause last).rd64 Reg.battLastUsed = last % 2 ^ 64 ∧ (d.finishStop cause last).rd64 Reg.spos = d.rd64 Reg.spos
    ∧ (d.finishStop cause last).pos.stopAfter = some last := by
  have hq := d.quiet_finishStop [] cause last
  obtain ⟨hline, hlast, hspos⟩ := (d.headsStopped last).lineEnded_effect last
  refine ⟨(hq.lineKept.lineStarted (by simp)).trans hline, ?_, ?_, hq.stopAfter⟩
  · exact (Dev.rd64_congr (hq.word _ (by unfold lineWord; decide) (by simp)) (hq.word _ (by unfold lineWord; decide) (by simp))).trans hlast
  · exact (hq.lineKept.spos (by simp)).trans (hspos.trans ((d.lineKept_headsStopped [] last).spos (by simp)))

/-- A stop after batt `last` is committed: the line still runs, or has ended there. -/
theorem Dev.commitStop_effect (d : Dev) {last : Nat} (hl : last < 2 ^ 64) (hs : d.lineStarted = true) :
    (d.commitStop last).pos.stopAfter = some last
    ∧ ((d.commitStop last).lineStarted = true ∨ (d.commitStop last).rd64 Reg.battLastUsed = last) := by
  unfold Dev.commitStop
  extract_lets pos d1
  have hk : d1.LineKept [] ((List.range 16).foldl (fun d k => d.stopHead k) d1) :=
    (Dev.Quiet.refl [] d1).lineKept.foldl _ fun v k => v.lineKept_stopHead [] k
  have hstop : d1.pos.stopAfter = some last := rfl
  have hline : d1.lineStarted = true := hs
  generalize (List.range 16).foldl (fun d k => d.stopHead k) d1 = t at *
  have ht : t.pos.stopAfter = some last := hk.stopAfter.trans hstop
  unfold Dev.checkStopped
  rw [ht]
  dsimp only
  split
  · obtain ⟨-, hlast, -, hafter⟩ := t.finishStop_effect 0 last
    exact ⟨hafter, .inr (hlast.trans (Nat.mod_eq_of_lt hl))⟩
  · exact ⟨ht, .inl ((hk.lineStarted (by simp)).trans hline)⟩

/-- A stop now ends the line at the last batt that a head has reached. -/
theorem Dev.stopNow_effect {d : Dev} (hs : d.lineStarted = true) (cause : Nat) : (d.stopNow cause).lineStarted = false
    ∧ (d.stopNow cause).rd64 Reg.battLastUsed = d.lastReached % 2 ^ 64 ∧ (d.stopNow cause).rd64 Reg.spos = d.rd64 Reg.spos := by
  obtain ⟨hline, hlast, hspos, -⟩ := d.finishStop_effect cause d.lastReached
  rw [Dev.stopNow, if_pos hs]
  exact ⟨hline, hlast, hspos⟩

/-! ## LINE_STOP -/

/-- The device once a request is accepted with what its doing holds, and its answer has gone. -/
def Dev.accepting (d : Dev) (code : Nat) (r : Req) (held : List Obj) : Dev :=
  ((({ d with accepted := d.accepted ++ [⟨code, r, held, []⟩] } : Dev).record code r.payload).answer code r St.accepted []).drainUnknown
    r.mbx.val 8

/-- A command that can begin and is accepted, after which a stop may be settled. -/
theorem command_accepted_settled {i : Instr} {s : State} {r : Req} {objs : List Obj} {code : Nat} (h : Begins s r objs) (sp : Spec)
    (body : Dev → Result) {d : Dev} {held : List Obj} (hi : exec i s = s.upd fun d => (d.command sp r body).settleStop)
    (hc : sp.code = code) (ho : sp.objs r.payload = objs) (hl : sp.len r.payload = true) (hr : sp.reserved r.payload = true)
    (hq : s.dev.behind code r = false) (hb : body (s.dev.takeReq code r) = .acc d held []) :
    exec i s = .next { s with dev := (d.accepting code r held).settleStop } := by
  subst hc
  rw [hi, State.upd_alive h.serves.1]
  simp only [Dev.command, Dev.commandOr, h.mustWait sp ho hq, h.firstFailure sp ho hl hr, hb]
  simp [Dev.after, Dev.conclude, Result.acc, Dev.accepting]

section
variable {s : State} {r : Req} {w last : Nat}

/-- LINE_STOP, WHEN `w` and LAST_BATT `last`, as it stops the line of a device that has taken it. -/
def Dev.takeStop (d : Dev) (w last : Nat) : Dev :=
  let l := if w = 0 then last else d.lastReached
  let d1 := d.fanOut 0x0306 [(w : Int), (l : Int)]
  if w = 0 then d1.commitStop l else d1.stopNow 0

/-- LINE_STOP with fields that R156 allows is accepted while a line runs. -/
theorem exec_lineStop (h : Begins s r [.position]) (hq : s.dev.behind 0x0306 r = false) (hl : r.payload.length = 16)
    (hz : zeroAt r.payload 1 7 = true) (hw : leAt r.payload 0 1 = w) (hlast : leAt r.payload 8 8 = last)
    (hok : (w = 0 ∧ last < 2 ^ 48 ∧ s.dev.battFirst ≤ last ∧ s.dev.tooLate (last + 1) = false) ∨ (w = 1 ∧ last = 0))
    (hs : s.dev.lineStarted = true) (hf : s.dev.isFollower = false) :
    exec (.lineStop r) s =
      .next { s with dev := (((s.dev.takeReq 0x0306 r).takeStop w last).accepting 0x0306 r [.position]).settleStop } := by
  refine command_accepted_settled (code := 0x0306) h _ _ rfl rfl rfl ?_ hz hq ?_
  · simp [lenIs, hl]
  · have hstate : (!(s.dev.takeReq 0x0306 r).lineStarted || (s.dev.takeReq 0x0306 r).isFollower) = false :=
      Bool.or_eq_false_iff.mpr ⟨(congrArg not hs :), hf⟩
    have hfields : ¬ (w > 1 ∨ (w = 0 ∧ (last ≥ 2 ^ 48 ∨ last < (s.dev.takeReq 0x0306 r).battFirst)) ∨ (w = 1 ∧ last ≠ 0)) := by
      change ¬ (w > 1 ∨ (w = 0 ∧ (last ≥ 2 ^ 48 ∨ last < s.dev.battFirst)) ∨ (w = 1 ∧ last ≠ 0))
      omega
    have htime : ¬ (w = 0 ∧ (s.dev.takeReq 0x0306 r).tooLate (last + 1) = true) := by
      rintro ⟨h0, hlate⟩
      obtain ⟨-, -, -, hnot⟩ | ⟨h1, -⟩ := hok
      · exact absurd (hlate.symm.trans hnot) (by decide)
      · omega
    rw [hw, hlast, if_neg hfields, if_neg (by rw [hstate]; decide), if_neg htime]
    rfl

/-- A stop after a batt stands from then on; the line runs on, or has ended there. -/
theorem Dev.takeStop_after {d : Dev} (hs : d.lineStarted = true) (hl : last < 2 ^ 64) : (d.takeStop 0 last).pos.stopAfter = some last
    ∧ ((d.takeStop 0 last).lineStarted = true ∨ (d.takeStop 0 last).rd64 Reg.battLastUsed = last) := by
  have hq := d.quiet_fanOut [] 0x0306 [((0 : Nat) : Int), (last : Int)]
  exact Dev.commitStop_effect _ hl ((hq.lineKept.lineStarted (by simp)).trans hs)

theorem Dev.openReports_bandReliable (d : Dev) (p kind : Nat) (body : List Int) :
    (d.bandReliable p kind body).band.openReports = d.band.openReports := by
  unfold Dev.bandReliable
  split <;> rfl

theorem Dev.fanOut_bandOut (d : Dev) (code : Nat) (body : List Int) :
    d.fanOut code body = { d with band := (d.fanOut code body).band, out := (d.fanOut code body).out } := by
  unfold Dev.fanOut Dev.bandBoth Dev.bandReliable
  split
  · split <;> split <;> rfl
  · rfl

/-- The batts of the line that have been opened here or at a follower do not change when a command fans out. -/
theorem Dev.lastReached_fanOut (d : Dev) (code : Nat) (body : List Int) : (d.fanOut code body).lastReached = d.lastReached := by
  have hq := d.quiet_fanOut [] code body
  have hfirst : (d.fanOut code body).battFirst = d.battFirst := congrArg (· % 2 ^ 48)
    (Dev.rd64_congr (hq.word Reg.battFirst (by unfold lineWord; decide) (by simp)) (hq.word _ (by unfold lineWord; decide) (by simp)))
  have hful : (d.fanOut code body).ful = d.ful := (congrArg Dev.ful (d.fanOut_bandOut code body) :)
  have hopen : (d.fanOut code body).band.openReports = d.band.openReports := by
    unfold Dev.fanOut Dev.bandBoth
    split
    · rw [Dev.openReports_bandReliable, Dev.openReports_bandReliable]
    · rfl
  rw [Dev.lastReached, hfirst, hful, hopen, Dev.lastReached]

theorem Dev.lastReached_takeReq (d : Dev) (code : Nat) (r : Req) : (d.takeReq code r).lastReached = d.lastReached := rfl

theorem Dev.rd64_takeReq (d : Dev) (code : Nat) (r : Req) (a : Nat) : (d.takeReq code r).rd64 a = d.rd64 a := rfl

/-- A stop now ends the line at the highest batt reached, where SPOS stands. -/
theorem Dev.takeStop_now (d : Dev) (hs : d.lineStarted = true) (last : Nat) : (d.takeStop 1 last).lineStarted = false
    ∧ (d.takeStop 1 last).rd64 Reg.battLastUsed = d.lastReached % 2 ^ 64
    ∧ (d.takeStop 1 last).rd64 Reg.spos = d.rd64 Reg.spos := by
  have hq := d.quiet_fanOut [] 0x0306 [((1 : Nat) : Int), (d.lastReached : Int)]
  have hn := Dev.stopNow_effect ((hq.lineKept.lineStarted (by simp)).trans hs) 0
  rw [Dev.lastReached_fanOut, hq.lineKept.spos (by simp)] at hn
  exact hn

end

end Sys2Proof.Machine
end

section
/-! SUPPORT. The firing of a line: exposure changes that apply, the trigger record, the TRIGGER that leaves, the head's counts (R141, R142,
R151, R172, R178, R180, R607). -/

namespace Sys2Proof.Machine

open Sys2Proof

theorem Dev.port_modPort_same (d : Dev) (k : Nat) (f : Port → Port) : (d.modPort k f).port k = f (d.port k) :=
  getD_modAt_same d.ports k f

section
variable (l : List Nat) (d : Dev) (k : Nat)

theorem Dev.quiet_modPort (f : Port → Port) : d.Quiet l (d.modPort k f) := (Dev.Quiet.refl l d).step rfl rfl rfl List.suffix_rfl

theorem Dev.quiet_modPipe (f : Pipe → Pipe) : d.Quiet l (d.modPipe k f) := (Dev.Quiet.refl l d).step rfl rfl rfl List.suffix_rfl

theorem Dev.quiet_markLate (b i : Nat) : d.Quiet l (d.markLate k b i) := (d.quiet_modPort l k _).trans (Dev.quiet_modPipe l _ k _)

theorem Dev.quiet_loseRecord (n : Nat) (t : TrigRec) (cause : Nat) : d.Quiet l (d.loseRecord n t cause) :=
  (Dev.Quiet.refl l d).foldl _ fun v _ => v.quiet_modPipe l n _

theorem Dev.quiet_retire (n : Nat) (t : TrigRec) : d.Quiet l (d.retire n t) :=
  (d.quiet_loseRecord l n t _).incSat (.inr (by unfold lineWord Reg.hlErr2; omega)) _ _ _

theorem Dev.quiet_enterRecord (t : TrigRec) : d.Quiet l (d.enterRecord k t) :=
  (d.quiet_modPort l k _).foldl _ fun v t => v.quiet_retire l k t

theorem Dev.quiet_noteFired (b : Nat) : d.Quiet l (d.noteFired k b) := d.quiet_modPort l k _

/-! ## Changes that apply, and whether a batt's first line fires (R151, R153, R180) -/

theorem Dev.lineKept_applyChanges (b i : Nat) : d.LineKept [Reg.headCnt k] (d.applyChanges k b i) := by
  unfold Dev.applyChanges
  refine (Dev.Quiet.refl _ d).lineKept.foldl _ fun v c => ?_
  extract_lets late d1 d2
  have h1 : v.LineKept [Reg.headCnt k] d1 := v.lineKept_modGen _ k fun _ => rfl
  have h2 : v.LineKept [Reg.headCnt k] d2 := by
    unfold d2
    split
    · exact h1.trans ((d1.quiet_markLate _ k _ _).incSat (.inl (List.mem_singleton_self _)) _ _ _).lineKept
    · exact h1
  exact h2.trans (d2.quiet_resolveEntry _ _ _ _ _).lineKept

end

theorem Dev.firstOf_congr {d t : Dev} {k : Nat} (hu : (t.port k).unfired = (d.port k).unfired)
    (hf : (t.port k).lastFiredBatt = (d.port k).lastFiredBatt) (b : Nat) : t.firstOf k b = d.firstOf k b := by
  rw [Dev.firstOf, hu, hf, Dev.firstOf]

theorem Dev.firstOf_modPort (d : Dev) (k c : Nat) {f : Port → Port}
    (hf : ∀ p, (f p).unfired = p.unfired ∧ (f p).lastFiredBatt = p.lastFiredBatt) : (d.modPort k f).firstOf k c = d.firstOf k c := by
  refine Dev.firstOf_congr ?_ ?_ c
  · rw [d.port_modPort_same, (hf _).1]
  · rw [d.port_modPort_same, (hf _).2]

theorem Dev.firstOf_markLate (d : Dev) (k b i c : Nat) : (d.markLate k b i).firstOf k c = d.firstOf k c := by
  unfold Dev.markLate
  exact (Dev.firstOf_congr rfl rfl c).trans (d.firstOf_modPort k c fun _ => ⟨rfl, rfl⟩)

theorem Dev.ports_bandReliable (d : Dev) (p kind : Nat) (body : List Int) : (d.bandReliable p kind body).ports = d.ports := by
  unfold Dev.bandReliable
  split <;> rfl

theorem Dev.ports_resolveEntry (d : Dev) (cmd head : Nat) (applied late : Bool) :
    (d.resolveEntry cmd head applied late).ports = d.ports := by
  unfold Dev.resolveEntry
  split
  · split
    · exact d.ports_bandReliable _ _ _
    · rfl
  · extract_lets t1 rest
    split
    · unfold Dev.trackEvent
      split
      · rfl
      · exact (congrArg Dev.ports (Dev.event_sansEvents _ _ _ _) :)
    · rfl

theorem Dev.firstOf_applyChanges (d : Dev) (k b i c : Nat) : (d.applyChanges k b i).firstOf k c = d.firstOf k c := by
  unfold Dev.applyChanges
  refine List.foldlRecOn (motive := fun u : Dev => u.firstOf k c = d.firstOf k c) _ _ rfl fun u hu x _ => ?_
  extract_lets late d1 d2
  have h2 : d2.firstOf k c = u.firstOf k c := by
    unfold d2
    split
    · exact Dev.firstOf_markLate d1 k x.target i c
    · rfl
  have hp : ((d2.resolveEntry x.cmd (d2.headKey k) true late).port k) = d2.port k := by
    rw [Dev.port, Dev.ports_resolveEntry, Dev.port]
  exact (Dev.firstOf_congr (congrArg Port.unfired hp) (congrArg Port.lastFiredBatt hp) c).trans (h2.trans hu)

/-! ## A line fired, skipped or suppressed (R141, R142, R178, R607) -/

/-- What a fired line leaves: the TRIGGER has left with the exposure in force, and the head's count has its tag. -/
structure Dev.Fired (d : Dev) (k i : Nat) (first newexp : Bool) (phase : Nat) (t : Dev) : Prop where
  kept : d.LineKept [Reg.headCnt k, Reg.headLines k] t
  trigger : Out.trigger k (i % 65536) (t.gen k).setting.expid first newexp phase
    (pecOf (le 1 (32 * b2n newexp + 16 * b2n first + phase) ++ le 2 (i % 65536) ++ le 1 (t.gen k).setting.expid)).toNat ∈ t.out
  tag : t.fld (Reg.headCnt k) 16 16 = i % 65536
  count : t.fld (Reg.headLines k) 0 32 = wrapAdd 32 (d.fld (Reg.headLines k) 0 32) 1

/-- What keeps the words of the line and the generators keeps what a fired line leaves. -/
theorem Dev.Fired.quiet {d t u : Dev} {k i phase : Nat} {first newexp : Bool} (hk : k < 16) (h : d.Fired k i first newexp phase t)
    (hq : t.Quiet [] u) : d.Fired k i first newexp phase u := by
  have hcnt : u.rd (Reg.headCnt k) = t.rd (Reg.headCnt k) := hq.word _ (by unfold lineWord Reg.headCnt; omega) (by simp)
  have hlines : u.rd (Reg.headLines k) = t.rd (Reg.headLines k) := hq.word _ (by unfold lineWord Reg.headLines; omega) (by simp)
  have hgen : u.gen k = t.gen k := by rw [Dev.gen, hq.gens, Dev.gen]
  refine ⟨h.kept.trans (hq.mono (List.nil_subset _)).lineKept, ?_, ?_, ?_⟩
  · rw [hgen]; exact hq.out.subset h.trigger
  · rw [Dev.fld_congr hcnt]; exact h.tag
  · rw [Dev.fld_congr hlines]; exact h.count

/-- The TRIGGER leaves, and the head's counts follow. -/
def Dev.triggers (d : Dev) (k i id : Nat) (first newexp : Bool) (phase : Nat) : Dev :=
  ((((d.modGen k fun g => { g with lastFire := some d.now }).sendTrigger k (i % 65536) id first newexp phase).setFld (Reg.headCnt k) 16 16
    (i % 65536)).incWrap (Reg.headLines k) 0 32 1)

theorem Dev.triggers_fired {d u : Dev} {k : Nat} (hk : k < 16) (h : d.LineKept [Reg.headCnt k] u) (i : Nat) (first newexp : Bool)
    (phase : Nat) : d.Fired k i first newexp phase (u.triggers k i (u.gen k).setting.expid first newexp phase) := by
  have hne : Reg.headLines k ≠ Reg.headCnt k := by unfold Reg.headLines Reg.headCnt; omega
  have hlines : u.rd (Reg.headLines k) = d.rd (Reg.headLines k) :=
    h.word _ (by unfold lineWord Reg.headLines; omega) (List.mem_singleton.not.mpr hne)
  unfold Dev.triggers
  generalize hu1 : (u.modGen k fun g => { g with lastFire := some u.now }) = u1
  have h1 : d.LineKept [Reg.headCnt k] u1 := hu1 ▸ h.trans (u.lineKept_modGen _ k fun _ => rfl)
  have hid : (u.gen k).setting.expid = (u1.gen k).setting.expid := by rw [← hu1, u.gen_modGen_same]
  have hl1 : u1.rd (Reg.headLines k) = d.rd (Reg.headLines k) := by rw [← hu1]; exact hlines
  rw [hid]
  unfold Dev.sendTrigger
  extract_lets ctl
  generalize hu2 : u1.emit _ = u2
  have h2 : u1.Quiet [] u2 := hu2 ▸ u1.quiet_emit [] _
  have hgen : u2.gen k = u1.gen k := by rw [Dev.gen, h2.gens, Dev.gen]
  have hq : u2.Quiet [Reg.headCnt k, Reg.headLines k] ((u2.setFld (Reg.headCnt k) 16 16 (i % 65536)).incWrap (Reg.headLines k) 0 32 1) :=
    ((Dev.Quiet.refl _ u2).setFld (.inl (by simp)) _ _ _).wr (.inl (by simp)) _
  refine ⟨(h1.mono (by simp)).trans ((h2.mono (by simp)).trans hq).lineKept, ?_, ?_, ?_⟩
  · rw [Dev.gen, hq.gens, ← Dev.gen, hgen, ← hu2]
    exact List.mem_cons_self
  · have hcnt : (Dev.incWrap (u2.setFld (Reg.headCnt k) 16 16 (i % 65536)) (Reg.headLines k) 0 32 1).rd (Reg.headCnt k)
        = (u2.setFld (Reg.headCnt k) 16 16 (i % 65536)).rd (Reg.headCnt k) := Dev.rd_setFld_ne _ _ _ _ _ _ (Ne.symm hne)
    rw [Dev.fld_congr hcnt, Dev.fld_setFld_same _ _ _ _ _ (by decide)]
    omega
  · have hl2 : (u2.setFld (Reg.headCnt k) 16 16 (i % 65536)).rd (Reg.headLines k) = d.rd (Reg.headLines k) :=
      (Dev.rd_setFld_ne _ _ _ _ _ _ hne).trans ((h2.word _ (by unfold lineWord Reg.headLines; omega) (by simp)).trans hl1)
    rw [Dev.fld_incWrap_same _ _ _ (by decide), Dev.fld_congr hl2]

/-- The first line fired of a line is raised as LINE_STARTED (R155). -/
def Dev.noteLine (d : Dev) : Dev :=
  if d.pos.firstFired then d
  else ({ d with pos := { d.pos with firstFired := true } } : Dev).event 0x8301 none (sle 8 (d.rdI64 Reg.lineOrigin) ++ le 8 d.battFirst)

theorem Dev.quiet_noteLine (l : List Nat) (d : Dev) : d.Quiet l d.noteLine := by
  unfold Dev.noteLine
  split
  · exact Dev.Quiet.refl l d
  · refine Dev.Quiet.trans ?_ (Dev.quiet_event l _ _ _ _)
    exact (Dev.Quiet.refl l d).step rfl rfl rfl List.suffix_rfl

/-- Firing a line (R141, R172, R178, R180). -/
theorem Dev.fireLine_fired {d : Dev} {k : Nat} (hk : k < 16) (i b : Nat) (late : Bool) (phase : Nat) :
    d.Fired k i (d.firstOf k b) (!late && (d.gen k).pending.any fun c => decide (c.target ≤ b)) phase (d.fireLine k i b late phase) := by
  unfold Dev.fireLine
  extract_lets newexp d1 first id t d3 d4 d5 d6 d7 pos
  have h1 : d.LineKept [Reg.headCnt k] d1 := by
    unfold d1
    split
    · exact d.lineKept_applyChanges k b i
    · exact (Dev.Quiet.refl _ d).lineKept
  have hfirst : first = d.firstOf k b := by
    unfold first d1
    split
    · exact d.firstOf_applyChanges k b i b
    · rfl
  have h3 : d1.Quiet [Reg.headCnt k] d3 := (d1.quiet_noteFired _ k b).trans (Dev.quiet_enterRecord _ _ k t)
  have hid : id = (d3.gen k).setting.expid := by rw [Dev.gen, h3.gens, ← Dev.gen]
  have h5 : d.Fired k i first newexp phase d5 := by
    have h := Dev.triggers_fired hk (h1.trans h3.lineKept) i first newexp phase
    rw [← hid] at h
    exact h
  have h7 : d5.Quiet [] d7 := by
    refine Dev.Quiet.trans ?_ (d6.quiet_showExp [] k)
    refine (Dev.Quiet.refl [] d5).foldl _ fun v n => ?_
    split
    · exact (Dev.Quiet.refl [] v).step rfl rfl rfl List.suffix_rfl
    · exact Dev.Quiet.refl [] v
  have h := h5.quiet hk h7
  have hpos : pos = d7.pos := rfl
  rw [← hfirst]
  clear_value pos d7
  subst hpos
  exact h.quiet hk (d7.quiet_noteLine [])

/-! ## TRIGGER_FIRE -/

/-- Line i of head k is suppressed, skipped or fired. -/
def Dev.takeLine (d : Dev) (k i b : Nat) (x : FireAt) : Dev :=
  if d.portState k = 0 ∨ (d.port k).halted = true then d.genLoss k i b Cause.detached
  else if (d.gen k).lastFire.any fun t => decide (d.now < t + d.minPeriod k) then
    (d.incSat (Reg.headCnt k) 8 8 1).genLoss k i b Cause.overspeed
  else d.fireLine k i b x.expsetLate x.phase.val

/-- The next line of head k is the one after line i. -/
def Dev.lineTaken (d : Dev) (k i : Nat) : Dev := d.modGen k fun g => { g with iNext := i + 1, reached := max g.reached (i + 1) }

theorem Dev.stopHead_of_none {d : Dev} (h : d.pos.stopAfter = none) (k : Nat) : d.stopHead k = d := by rw [Dev.stopHead, h]

theorem Dev.checkStopped_of_none {d : Dev} (h : d.pos.stopAfter = none) : d.checkStopped = d := by rw [Dev.checkStopped, h]

section
variable {d : Dev} {k i b : Nat} {x : FireAt}

theorem Dev.takeLine_detached (h : d.portState k = 0 ∨ (d.port k).halted = true) : d.takeLine k i b x = d.genLoss k i b Cause.detached :=
  if_pos h

theorem Dev.takeLine_soon (h : ¬ (d.portState k = 0 ∨ (d.port k).halted = true))
    (hs : ((d.gen k).lastFire.any fun t => decide (d.now < t + d.minPeriod k)) = true) :
    d.takeLine k i b x = (d.incSat (Reg.headCnt k) 8 8 1).genLoss k i b Cause.overspeed :=
  (if_neg h).trans (if_pos hs)

theorem Dev.takeLine_fires (h : ¬ (d.portState k = 0 ∨ (d.port k).halted = true))
    (hs : ((d.gen k).lastFire.any fun t => decide (d.now < t + d.minPeriod k)) = false) :
    d.takeLine k i b x = d.fireLine k i b x.expsetLate x.phase.val :=
  (if_neg h).trans (if_neg (by rw [hs]; decide))

theorem Dev.lineKept_takeLine (hk : k < 16) (i b : Nat) (x : FireAt) :
    d.LineKept [Reg.headCnt k, Reg.headLines k] (d.takeLine k i b x) := by
  unfold Dev.takeLine
  split
  · exact (d.quiet_genLoss _ k i b _).lineKept
  · split
    · exact (((Dev.Quiet.refl _ d).incSat (.inl (by simp)) _ _ _).trans (Dev.quiet_genLoss _ _ k i b _)).lineKept
    · exact (Dev.fireLine_fired hk i b _ _).kept

/-- The words of another head are not among those a head's line changes. -/
theorem Dev.headWords_ne {j : Nat} (hj : j ≠ k) :
    Reg.headCnt j ∉ [Reg.headCnt k, Reg.headLines k] ∧ Reg.headLines j ∉ [Reg.headCnt k, Reg.headLines k] := by
  simp only [List.mem_cons, List.not_mem_nil, or_false, Reg.headCnt, Reg.headLines]
  omega

end

/-- TRIGGER_FIRE of a head whose next line SPOS has reached, while no stop stands and the line's batt is open. -/
theorem exec_triggerFire {s : State} {head : Fin 16} {x : FireAt} {k i : Nat} (ha : s.alive) (hk : k = head.val)
    (hi : i = (s.dev.gen k).iNext) (hs : s.dev.lineStarted = true) (hm : s.dev.mode k ≠ 0) (hrun : (s.dev.gen k).stopped = false)
    (hp : s.dev.trigPos k i ≤ 4 * s.dev.spos) (hn : s.dev.pos.stopAfter = none) (hb : s.dev.battOfLine k i < s.dev.ful.nextOpen) :
    exec (.triggerFire head x) s = .next { s with dev := (s.dev.takeLine k i (s.dev.battOfLine k i) x).lineTaken k i } := by
  subst hk hi
  have hcond : ¬ ((!s.dev.lineStarted || s.dev.mode head.val == 0 || (s.dev.gen head.val).stopped
      || decide (4 * s.dev.spos < s.dev.trigPos head.val (s.dev.gen head.val).iNext)) = true) := by
    rw [hs, hrun, decide_eq_false (by omega), beq_eq_false_iff_ne.mpr hm]
    decide
  have hopen : s.dev.openBatts (s.dev.battOfLine head.val (s.dev.gen head.val).iNext) = s.dev := if_pos hb
  have hstop : ((s.dev.takeLine head.val (s.dev.gen head.val).iNext (s.dev.battOfLine head.val (s.dev.gen head.val).iNext) x).lineTaken
      head.val (s.dev.gen head.val).iNext).pos.stopAfter = none := (Dev.lineKept_takeLine head.isLt _ _ x).stopAfter.trans hn
  change execTriggerFire head x s = _
  rw [execTriggerFire, State.upd_alive ha]
  dsimp only
  refine congrArg (fun d : Dev => Host.Outcome.next { s with dev := d }) ((if_neg hcond).trans ?_)
  rw [hopen]
  refine Eq.trans ?_ (Dev.checkStopped_of_none hstop)
  exact congrArg Dev.checkStopped (Dev.stopHead_of_none hstop head.val)

/-- What every line taken leaves of the line, of SPOS and of the other heads. -/
theorem Dev.lineTaken_others {d u : Dev} {k : Nat} (h : d.LineKept [Reg.headCnt k, Reg.headLines k] u) (i : Nat) :
    ((u.lineTaken k i).gen k).iNext = i + 1 ∧ (u.lineTaken k i).rd64 Reg.spos = d.rd64 Reg.spos
    ∧ (u.lineTaken k i).lineStarted = d.lineStarted
    ∧ ∀ j, j < 16 → j ≠ k → ((u.lineTaken k i).gen j).iNext = (d.gen j).iNext
      ∧ (u.lineTaken k i).fld (Reg.headCnt j) 8 24 = d.fld (Reg.headCnt j) 8 24
      ∧ (u.lineTaken k i).rd (Reg.headLines j) = d.rd (Reg.headLines j) := by
  refine ⟨congrArg TrigGen.iNext (u.gen_modGen_same k _), h.spos ?_, h.lineStarted ?_, fun j hj hjk => ⟨?_, ?_, ?_⟩⟩
  · simp only [List.mem_cons, List.not_mem_nil, or_false, Reg.headCnt, Reg.headLines, Reg.spos]
    omega
  · simp only [List.mem_cons, List.not_mem_nil, or_false, Reg.headCnt, Reg.headLines, Reg.posStat]
    omega
  · exact (congrArg TrigGen.iNext (u.gen_modGen_ne _ hjk)).trans (h.next j)
  · exact Dev.fld_congr (h.word _ (by unfold lineWord Reg.headCnt; omega) (Dev.headWords_ne hjk).1) 8 24
  · exact h.word _ (by unfold lineWord Reg.headLines; omega) (Dev.headWords_ne hjk).2

theorem Dev.setting_lineTaken (u : Dev) (k i : Nat) : ((u.lineTaken k i).gen k).setting = (u.gen k).setting := by
  rw [Dev.lineTaken, Dev.gen_modGen_same]

theorem Dev.out_lineTaken (u : Dev) (k i : Nat) : (u.lineTaken k i).out = u.out := rfl

theorem Dev.rd_lineTaken (u : Dev) (k i a : Nat) : (u.lineTaken k i).rd a = u.rd a := rfl

theorem Dev.fld_lineTaken (u : Dev) (k i a lo w : Nat) : (u.lineTaken k i).fld a lo w = u.fld a lo w := rfl

/-- A suppressed line: nothing leaves and nothing counts (R607). -/
theorem Dev.takeLine_detached_effect {d : Dev} {k i b : Nat} {x : FireAt} (hk : k < 16) (h : d.portState k = 0 ∨ (d.port k).halted = true) :
    (d.takeLine k i b x).out = d.out ∧ (d.takeLine k i b x).rd (Reg.headCnt k) = d.rd (Reg.headCnt k)
    ∧ (d.takeLine k i b x).rd (Reg.headLines k) = d.rd (Reg.headLines k) := by
  have hq := d.quiet_genLoss [] k i b Cause.detached
  rw [Dev.takeLine_detached h]
  exact ⟨d.genLoss_out k i b _, hq.word _ (by unfold lineWord Reg.headCnt; omega) (by simp),
    hq.word _ (by unfold lineWord Reg.headLines; omega) (by simp)⟩

/-- A skipped line: nothing leaves, and SKIPPED counts (R142). -/
theorem Dev.takeLine_soon_effect {d : Dev} {k i b : Nat} {x : FireAt} (hk : k < 16) (h : ¬ (d.portState k = 0 ∨ (d.port k).halted = true))
    (hs : ((d.gen k).lastFire.any fun t => decide (d.now < t + d.minPeriod k)) = true) :
    (d.takeLine k i b x).out = d.out
    ∧ (d.takeLine k i b x).fld (Reg.headCnt k) 8 8 = satAdd 8 (d.fld (Reg.headCnt k) 8 8) 1
    ∧ (d.takeLine k i b x).rd (Reg.headLines k) = d.rd (Reg.headLines k) := by
  have hq := (d.incSat (Reg.headCnt k) 8 8 1).quiet_genLoss [] k i b Cause.overspeed
  have hne : Reg.headLines k ≠ Reg.headCnt k := by unfold Reg.headLines Reg.headCnt; omega
  rw [Dev.takeLine_soon h hs]
  refine ⟨Dev.genLoss_out _ k i b _, ?_, ?_⟩
  · rw [Dev.fld_congr (hq.word _ (by unfold lineWord Reg.headCnt; omega) (by simp)), Dev.fld_incSat_same _ _ _ (by decide)]
  · exact (hq.word _ (by unfold lineWord Reg.headLines; omega) (by simp)).trans (Dev.rd_wrN_ne _ _ _ _ hne)

/-! ## TRIGGER_REARM (R141, R143) -/

/-- The smallest line of head k above SPOS. -/
def Dev.lineAbove (d : Dev) (k : Nat) : Nat :=
  let x := 4 * d.spos - d.trigPos k 0
  if x < 0 then 0 else x.toNat / max 1 (d.linePitch256 k) + 1

theorem Dev.trigPos_eq (d : Dev) (k j : Nat) : d.trigPos k j = d.trigPos k 0 + ((j * d.linePitch256 k : Nat) : Int) := by
  simp only [Dev.trigPos, Nat.zero_mul, Nat.cast_zero, add_zero]

theorem Dev.lineAbove_least {d : Dev} {k : Nat} (hl : 0 < d.linePitch256 k) : 4 * d.spos < d.trigPos k (d.lineAbove k)
    ∧ ∀ j, j < d.lineAbove k → d.trigPos k j ≤ 4 * d.spos := by
  have hmax : max 1 (d.linePitch256 k) = d.linePitch256 k := by omega
  unfold Dev.lineAbove
  rw [hmax]
  extract_lets x
  have hx : x = 4 * d.spos - d.trigPos k 0 := rfl
  split
  next hneg => exact ⟨by omega, fun j hj => absurd hj (Nat.not_lt_zero j)⟩
  next hpos =>
    have hlt : x.toNat < (x.toNat / d.linePitch256 k + 1) * d.linePitch256 k := (Nat.div_lt_iff_lt_mul hl).mp (Nat.lt_succ_self _)
    constructor
    · rw [d.trigPos_eq]; omega
    · intro j hj
      have hle : j * d.linePitch256 k ≤ x.toNat := (Nat.le_div_iff_mul_le hl).mp (Nat.le_of_lt_succ hj)
      rw [d.trigPos_eq]; omega

/-- TRIGGER_REARM of a head that SPOS has fallen far enough below. -/
theorem exec_triggerRearm {s : State} {head : Fin 16} {k : Nat} (ha : s.alive) (hk : k = head.val) (hs : s.dev.lineStarted = true)
    (hm : s.dev.mode k ≠ 0) (hrun : (s.dev.gen k).stopped = false) (hlock : s.dev.flag Reg.posCtrl 30 = false)
    (h0 : (s.dev.gen k).iNext ≠ 0)
    (hp : 4 * s.dev.spos ≤ s.dev.trigPos k ((s.dev.gen k).iNext - 1) - 256 * (s.dev.revHyst : Int)) :
    exec (.triggerRearm head) s = .next { s with dev := s.dev.modGen k fun g => { g with iNext := s.dev.lineAbove k } } := by
  subst hk
  have hcond : ¬ ((!s.dev.lineStarted || s.dev.mode head.val == 0 || (s.dev.gen head.val).stopped || s.dev.flag Reg.posCtrl 30
      || (s.dev.gen head.val).iNext == 0 || decide (4 * s.dev.spos >
        s.dev.trigPos head.val ((s.dev.gen head.val).iNext - 1) - 256 * (s.dev.revHyst : Int))) = true) := by
    rw [hs, hrun, hlock, decide_eq_false (by omega), beq_eq_false_iff_ne.mpr hm, beq_eq_false_iff_ne.mpr h0]
    decide
  change execTriggerRearm head s = _
  rw [execTriggerRearm, State.upd_alive ha]
  dsimp only
  exact congrArg (fun d : Dev => Host.Outcome.next { s with dev := d }) (if_neg hcond)

end Sys2Proof.Machine
end

section
/-! SUPPORT. LINE_START: the line that begins with its origin and first batt, and what the hoods, ports and cards made ready for it leave
(R134, R155, R336). -/

namespace Sys2Proof.Machine

open Sys2Proof

/-- The words that a line's start reads: those of the line and the heads, and the role in the line group. -/
def startWord (a : Nat) : Prop := a < 0x60800 ∨ a = Reg.bandCfg

/-- From d to t these words and the state of POS stay, and of the rest all but ports, pipelines, the line group and the laps of the hood. -/
structure Dev.Readied (d t : Dev) : Prop where
  word : ∀ a, startWord a → t.rd a = d.rd a
  pos : t.pos = d.pos
  hood : t.hood = { d.hood with laps := t.hood.laps }
  deep : t.deep = d.deep
  bulk : t.bulk = d.bulk
  plc : t.plc = d.plc
  out : t.out = d.out

section
variable {d t u : Dev}

theorem Dev.Readied.refl (d : Dev) : d.Readied d := ⟨fun _ _ => rfl, rfl, rfl, rfl, rfl, rfl, rfl⟩

theorem Dev.Readied.trans (h : d.Readied t) (k : t.Readied u) : d.Readied u :=
  ⟨fun a ha => (k.word a ha).trans (h.word a ha), k.pos.trans h.pos, k.hood.trans (by rw [h.hood]), k.deep.trans h.deep,
    k.bulk.trans h.bulk, k.plc.trans h.plc, k.out.trans h.out⟩

theorem Dev.Readied.foldl {α : Type} {f : Dev → α → Dev} (h : d.Readied t) (xs : List α) (hf : ∀ (v : Dev) x, v.Readied (f v x)) :
    d.Readied (xs.foldl f t) :=
  List.foldlRecOn (motive := fun u => d.Readied u) xs _ h fun u hu x _ => hu.trans (hf u x)

theorem Dev.Readied.wr (h : d.Readied t) {a : Nat} (ha : 0x200000 ≤ a) (v : Word) : d.Readied (t.wr a v) :=
  h.trans ⟨fun x hx => Dev.rd_wr_ne _ _ _ _ (by unfold startWord Reg.bandCfg at hx; omega), rfl, rfl, rfl, rfl, rfl, rfl⟩

theorem Dev.Readied.wrN (h : d.Readied t) {a : Nat} (ha : 0x200000 ≤ a) (v : Nat) : d.Readied (t.wrN a v) := h.wr ha _

theorem Dev.Readied.wr64 (h : d.Readied t) {a : Nat} (ha : 0x200000 ≤ a) (v : Nat) : d.Readied (t.wr64 a v) :=
  (h.wrN ha _).wrN (Nat.le_add_right_of_le ha) _

end

section
variable (d : Dev)

theorem Dev.readied_modPipe (n : Nat) (f : Pipe → Pipe) : d.Readied (d.modPipe n f) := ⟨fun _ _ => rfl, rfl, rfl, rfl, rfl, rfl, rfl⟩

theorem Dev.readied_modPort (n : Nat) (f : Port → Port) : d.Readied (d.modPort n f) := ⟨fun _ _ => rfl, rfl, rfl, rfl, rfl, rfl, rfl⟩

theorem Dev.readied_showExp (k : Nat) : d.Readied (d.showExp k) := by
  have hf := (d.showExp_onlyRegs k).1
  refine ⟨fun a ha => d.showExp_rd k ?_, (congrArg Dev.pos hf :), ?_, (congrArg Dev.deep hf :), (congrArg Dev.bulk hf :),
    (congrArg Dev.plc hf :), (congrArg Dev.out hf :)⟩
  · unfold startWord Reg.bandCfg at ha; omega
  · have hh : (d.showExp k).hood = d.hood := (congrArg Dev.hood hf :)
    rw [hh]

theorem Dev.readied_fixHood (n : Nat) : d.Readied (d.fixHood n) := by
  unfold Dev.fixHood
  extract_lets hood d1 rb
  have h1 : d.Readied d1 := by
    refine Dev.Readied.wr64 ?_ (by unfold Reg.hoodWptr; omega) _
    exact ⟨fun _ _ => rfl, rfl, rfl, rfl, rfl, rfl, rfl⟩
  exact (h1.wrN (by unfold Reg.hoodRowb; omega) _).wrN (by unfold Reg.hoodNslot; omega) _

/-- The hood, the pipeline and the card of a contributing head are ready for the line. -/
def Dev.readyHead (g : Grid) (d : Dev) (n : Nat) : Dev :=
  (((d.fixHood n).modPipe n fun p => { p with
    cards := p.cards ++ [{ grid := g, mode := d.mode n, pitch := d.pitch n, offset := d.offset256 n, awaits := max 1 (d.awaits n) }],
    brims := [{}, {}] }).wr64 (Reg.cardLineHwm n) (2 ^ 64 - 1)).wr64 (Reg.cardRowLast n) (2 ^ 63)

theorem Dev.readied_readyHead (g : Grid) (n : Nat) : d.Readied (d.readyHead g n) := by
  unfold Dev.readyHead
  exact (((d.readied_fixHood n).trans (Dev.readied_modPipe _ n _)).wr64 (by unfold Reg.cardLineHwm; omega) _).wr64
    (by unfold Reg.cardRowLast; omega) _

/-- A port has fired no line of the line yet. -/
def Dev.readyPort (d : Dev) (n : Nat) : Dev :=
  ((d.modPort n fun p => { p with lastFiredBatt := none, unfired := [] }).setFld (Reg.brStat n) 30 2 0).showExp n

theorem Dev.readied_readyPort (n : Nat) : d.Readied (d.readyPort n) := by
  unfold Dev.readyPort
  exact ((d.readied_modPort n _).wr (by unfold Reg.brStat; omega) _).trans (Dev.readied_showExp _ n)

/-- Heads and ports, and the crop bounds, are ready for the line. -/
def Dev.readied (d : Dev) (heads : List Nat) : Dev :=
  let d4 := (List.range 16).foldl (fun d n => d.readyPort n) (heads.foldl (fun e n => e.readyHead d.grid n) d)
  ((({ d4 with band := { d4.band with openReports := [] } } : Dev).wrN Reg.cropNowFirst (d4.rdN Reg.devFirst)).wrN
    Reg.cropNowLast (d4.rdN Reg.devLast)).wrN Reg.cropStat 0

theorem Dev.readied_readied (heads : List Nat) : d.Readied (d.readied heads) := by
  unfold Dev.readied
  extract_lets d4 band
  have h4 : d.Readied d4 :=
    ((Dev.Readied.refl d).foldl heads fun v n => v.readied_readyHead _ n).foldl _ fun v n => v.readied_readyPort n
  refine Dev.Readied.wrN (Dev.Readied.wrN (Dev.Readied.wrN (h4.trans ?_) ?_ _) ?_ _) ?_ _
  · exact ⟨fun _ _ => rfl, rfl, rfl, rfl, rfl, rfl, rfl⟩
  · decide
  · decide
  · decide

/-! ## The line itself (R134, R155) -/

/-- The registers of a line that starts. -/
def Dev.startWords (d : Dev) (origin : Int) (first : Nat) : Dev :=
  ((d.wrI64 Reg.lineOrigin origin).wr64 Reg.battFirst first).setFlag Reg.posStat 31 true

theorem Dev.startWords_onlyRegs (origin : Int) (first : Nat) : d.onlyRegs (d.startWords origin first)
    [Reg.posStat, Reg.lineOrigin, Reg.lineOrigin + 4, Reg.battFirst, Reg.battFirst + 4] :=
  (((d.onlyRegs_refl _).wr64 (by simp) (by simp) _).wr64 (by simp) (by simp) _).wrN (by simp) _

theorem Dev.startWords_rd (origin : Int) (first : Nat) {a : Nat}
    (h : a ∉ [Reg.posStat, Reg.lineOrigin, Reg.lineOrigin + 4, Reg.battFirst, Reg.battFirst + 4]) :
    (d.startWords origin first).rd a = d.rd a := (d.startWords_onlyRegs origin first).2 a h

theorem Dev.startWords_line (origin : Int) (first : Nat) : (d.startWords origin first).lineStarted = true :=
  Dev.flag_setFlag_same _ _ _ _ (by decide)

theorem Dev.startWords_origin (origin : Int) (first : Nat) : (d.startWords origin first).rd64 Reg.lineOrigin = unsigned 64 origin := by
  have hother : ∀ a, a ≠ Reg.posStat → a ≠ Reg.battFirst → a ≠ Reg.battFirst + 4 →
      (d.startWords origin first).rd a = (d.wrI64 Reg.lineOrigin origin).rd a := fun a h1 h2 h3 =>
    (Dev.rd_setFlag_ne _ _ _ _ _ h1).trans ((Dev.rd_wrN_ne _ _ _ _ h3).trans (Dev.rd_wrN_ne _ _ _ _ h2))
  rw [Dev.rd64_congr (hother _ (by decide) (by decide) (by decide)) (hother _ (by decide) (by decide) (by decide)), Dev.wrI64,
    Dev.rd64_wr64, Nat.mod_eq_of_lt (unsigned_64_lt origin)]

theorem Dev.startWords_first (origin : Int) {first : Nat} (h : first < 2 ^ 48) : (d.startWords origin first).battFirst = first := by
  have hother : ∀ a, a ≠ Reg.posStat → (d.startWords origin first).rd a = ((d.wrI64 Reg.lineOrigin origin).wr64 Reg.battFirst first).rd a :=
    fun a h1 => Dev.rd_setFlag_ne _ _ _ _ _ h1
  rw [Dev.battFirst, Dev.rd64_congr (hother _ (by decide)) (hother _ (by decide)), Dev.rd64_wr64]
  omega

/-- The state of POS of a line that starts. -/
def Dev.startPos (d : Dev) (heads : List Nat) (first : Nat) : Pos :=
  { d.pos with
    pitch := d.fld Reg.battCfg 0 24, hlog := d.fld Reg.battCfg 28 4, contributing := heads, stopAfter := none,
    firstFired := false, dropped := [], peak := d.spos, coils := [(d.spos, d.rdN Reg.coilNum)], gen := d.pos.gen + 1,
    gens := (d.pos.gens.zip (List.range 16)).map fun p => p.1.start first (heads.contains p.2),
    encs := d.pos.encs.map fun e => { e with dM := 0, dC := 0 },
    tracks := d.pos.tracks.map fun t => if t.target = noBatt then { t with target := first } else t }

/-- With another state of POS. -/
def Dev.withPos (d : Dev) (p : Pos) : Dev := { d with pos := p }

theorem Dev.rd_withPos (d : Dev) (p : Pos) (a : Nat) : (d.withPos p).rd a = d.rd a := rfl

theorem Dev.withPos_frame {d t : Dev} (h : t = { d with regs := t.regs }) (p : Pos) :
    t.withPos p = { d with regs := (t.withPos p).regs, pos := (t.withPos p).pos } := congrArg (fun x : Dev => x.withPos p) h

/-- The line has begun; hoods, pipelines and ports are not ready yet. -/
def Dev.begun (d : Dev) (origin : Int) (first : Nat) : Dev :=
  (d.startWords origin first).withPos ((d.startWords origin first).startPos d.enabledHeads first)

theorem Dev.begun_frame (origin : Int) (first : Nat) :
    d.begun origin first = { d with regs := (d.begun origin first).regs, pos := (d.begun origin first).pos } :=
  Dev.withPos_frame (d.startWords_onlyRegs origin first).1 _

/-- The heads' generators start at line 0, and those of the other heads are stopped. -/
theorem Dev.startPos_gen {heads : List Nat} {first k : Nat} (hk : k < d.pos.gens.length) (h16 : k < 16) :
    (d.startPos heads first).gens.getD k {} = (d.gen k).start first (heads.contains k) := by
  simp [Dev.startPos, Dev.gen, List.getD_eq_getElem?_getD, hk, h16]

/-- The fulling of a line that starts: its first batt is the next to open. -/
def Dev.readyFul (d : Dev) (first : Nat) : Dev :=
  { d with ful := { d.ful with
      nextOpen := first, cur := 0, cPrev := d.nrungs, lastRung := 0, marks := [d.rateMark],
      loops := d.ful.loops.map fun l => { l with lead := d.loopLead l } } }

theorem Dev.startLine_eq (origin : Int) (first : Nat) :
    d.startLine origin first = ((d.begun origin first).readied d.enabledHeads).readyFul first := rfl

end

/-! ## LINE_START -/

/-- The line of a device that has one from its start on. -/
structure Dev.Starts (d : Dev) (origin : Int) (first : Nat) (t : Dev) : Prop where
  line : t.lineStarted = true
  lineOrigin : t.rd64 Reg.lineOrigin = unsigned 64 origin
  battFirst : t.battFirst = first
  grid : t.pos.pitch = d.fld Reg.battCfg 0 24 ∧ t.pos.hlog = d.fld Reg.battCfg 28 4
  heads : t.pos.contributing = d.enabledHeads
  opens : t.ful.nextOpen = first
  spos : t.spos = d.spos
  gens : ∀ k, k < d.pos.gens.length → k < 16 → (t.gen k).iNext = 0 ∧ (t.gen k).stopped = !d.enabledHeads.contains k
  stores : t.deep = d.deep ∧ t.bulk = d.bulk
  hood : t.hood = { d.hood with laps := t.hood.laps }
  plc : t.plc = d.plc
  out : d.isLead = false → t.out = d.out

/-- LINE_START on the device that took it, its copies to the followers among what leaves (R155, R415). -/
def Dev.takeStart (d : Dev) (origin : Int) (first : Nat) : Dev :=
  (d.startLine origin first).fanOut 0x0305 [origin, (first : Int)]

theorem Dev.startLine_starts (d : Dev) (origin : Int) {first : Nat} (h : first < 2 ^ 48) :
    d.Starts origin first (d.startLine origin first) := by
  rw [Dev.startLine_eq]
  have hr := (d.begun origin first).readied_readied d.enabledHeads
  have hb := d.begun_frame origin first
  have hhood : (d.begun origin first).hood = d.hood := (congrArg Dev.hood hb :)
  generalize (d.begun origin first).readied d.enabledHeads = t at hr
  have hw : ∀ a, startWord a → (t.readyFul first).rd a = (d.startWords origin first).rd a :=
    fun a ha => (hr.word a ha).trans (Dev.rd_withPos _ _ a)
  have hp : (t.readyFul first).pos = (d.startWords origin first).startPos d.enabledHeads first := hr.pos
  have hcfg : (d.startWords origin first).rd Reg.battCfg = d.rd Reg.battCfg := d.startWords_rd origin first (by decide)
  have hlow : ∀ a, a < 0x60800 → (t.readyFul first).rd a = (d.startWords origin first).rd a := fun a ha => hw a (.inl ha)
  refine ⟨?_, ?_, ?_, ⟨?_, ?_⟩, ?_, rfl, ?_, ?_, ⟨hr.deep.trans (congrArg Dev.deep hb :),
    hr.bulk.trans (congrArg Dev.bulk hb :)⟩, hr.hood.trans (by rw [hhood]; rfl), hr.plc.trans (congrArg Dev.plc hb :),
    fun _ => hr.out.trans (congrArg Dev.out hb :)⟩
  · rw [Dev.lineStarted, Dev.flag_congr (hlow _ (by decide))]
    exact d.startWords_line origin first
  · rw [Dev.rd64_congr (hlow _ (by decide)) (hlow _ (by decide)), d.startWords_origin]
  · rw [Dev.battFirst, Dev.rd64_congr (hlow _ (by decide)) (hlow _ (by decide))]
    exact d.startWords_first origin h
  · rw [hp]; exact Dev.fld_congr hcfg 0 24
  · rw [hp]; exact Dev.fld_congr hcfg 28 4
  · rw [hp]; rfl
  · refine congrArg (signed 64) (Dev.rd64_congr ?_ ?_)
    · exact (hlow _ (by decide)).trans (d.startWords_rd origin first (by decide))
    · exact (hlow _ (by decide)).trans (d.startWords_rd origin first (by decide))
  · intro k hk h16
    have hpos : (d.startWords origin first).pos = d.pos := (congrArg Dev.pos (d.startWords_onlyRegs origin first).1 :)
    rw [Dev.gen, hp, Dev.startPos_gen _ (by rw [hpos]; exact hk) h16]
    exact ⟨rfl, rfl⟩

theorem Dev.startLine_isLead (d : Dev) (origin : Int) (first : Nat) : (d.startLine origin first).isLead = d.isLead := by
  have hr := (d.begun origin first).readied_readied d.enabledHeads
  have hw : (d.startLine origin first).rd Reg.bandCfg = d.rd Reg.bandCfg := by
    rw [Dev.startLine_eq]
    exact (hr.word _ (.inr rfl)).trans ((Dev.rd_withPos _ _ _).trans (d.startWords_rd origin first (by decide)))
  rw [Dev.isLead, Dev.fld_congr hw, Dev.isLead]

/-- What leaves, and the line group, matter to the line's start only in what left before. -/
theorem Dev.Starts.bandOut {d t : Dev} {origin : Int} {first : Nat} (h : d.Starts origin first t) (b : Band) {o : List Out}
    (ho : d.isLead = false → o = d.out) : d.Starts origin first { t with band := b, out := o } :=
  ⟨h.line, h.lineOrigin, h.battFirst, h.grid, h.heads, h.opens, h.spos, h.gens, h.stores, h.hood, h.plc, ho⟩

theorem Dev.takeStart_starts (d : Dev) (origin : Int) {first : Nat} (h : first < 2 ^ 48) :
    d.Starts origin first (d.takeStart origin first) := by
  have hs := d.startLine_starts origin h
  have hlead := d.startLine_isLead origin first
  unfold Dev.takeStart
  generalize d.startLine origin first = t at hs hlead
  rw [Dev.fanOut_bandOut]
  refine hs.bandOut _ fun hd => ?_
  rw [Dev.fanOut_alone (hlead.trans hd)]
  exact hs.out hd

theorem Dev.Starts.of_takeReq {d t : Dev} {code : Nat} {r : Req} {origin : Int} {first : Nat}
    (h : (d.takeReq code r).Starts origin first t) : d.Starts origin first t :=
  ⟨h.line, h.lineOrigin, h.battFirst, h.grid, h.heads, h.opens, h.spos, h.gens, h.stores, h.hood, h.plc, h.out⟩

/-! ### The fields of LINE_START (R155) -/

section
variable {w fb last first : Nat} {org edge o : Int}

/-- The first batt that R155 gives: that of the request, or the one after the last batt used. -/
def StartsAt (fb last first : Nat) : Prop :=
  (fb = 2 ^ 48 - 1 ∧ first = if last = 2 ^ 48 - 1 then 0 else last + 1)
    ∨ (fb < 2 ^ 48 - 1 ∧ first = fb ∧ (last = 2 ^ 48 - 1 ∨ last < fb))

/-- The origin that R155 gives: that of the request, or the first whole tick beyond the guard. -/
def StartsFrom (w : Nat) (org edge o : Int) : Prop :=
  (w = 1 ∧ org = 0 ∧ o % 64 = 0 ∧ edge ≤ o ∧ o < edge + 64) ∨ (w = 0 ∧ o = org ∧ edge ≤ o)

theorem StartsAt.eq (h : StartsAt fb last first) :
    (if fb = 2 ^ 48 - 1 then (if last = 2 ^ 48 - 1 then 0 else last + 1) else fb) = first := by
  obtain ⟨h1, h2⟩ | ⟨h1, h2, -⟩ := h
  · rw [if_pos h1, h2]
  · rw [if_neg (by omega), h2]

theorem StartsAt.lt (h : StartsAt fb last first) (hl : last < 2 ^ 48) : first < 2 ^ 48 := by
  obtain ⟨-, h2⟩ | ⟨h1, h2, -⟩ := h
  · split at h2 <;> omega
  · omega

theorem StartsFrom.eq (h : StartsFrom w org edge o) : (if w = 1 then -(floorDiv (-edge) 64) * 64 else org) = o := by
  obtain ⟨h1, -, hgrid, hle, hlt⟩ | ⟨h0, ho, -⟩ := h
  · rw [if_pos h1, floorDiv_eq]
    omega
  · rw [if_neg (by omega), ho]

theorem StartsFrom.edge_le (h : StartsFrom w org edge o) : edge ≤ o := by
  obtain ⟨-, -, -, hle, -⟩ | ⟨-, -, hle⟩ := h <;> exact hle

/-- The request has no field that R155 turns away. -/
theorem StartsFrom.fields (h : StartsFrom w org edge o) (hb : StartsAt fb last first) :
    ¬ (w > 1 ∨ (w = 1 ∧ org ≠ 0) ∨ fb ≥ 2 ^ 48 ∨ (fb ≠ 2 ^ 48 - 1 ∧ ¬ last = 2 ^ 48 - 1 ∧ fb ≤ last)) := by
  unfold StartsFrom at h
  unfold StartsAt at hb
  omega

end

/-- LINE_START with fields that R155 allows starts the line. -/
theorem lineStart_does {s : State} {r : Req} {first : Nat} {o : Int} (h : Begins s r [.position]) (hl : r.payload.length = 24)
    (hz : zeroAt r.payload 1 7 = true)
    (ho : StartsFrom (leAt r.payload 0 1) (sleAt r.payload 8 8) (s.dev.spos + 64 * (s.dev.guard : Int)) o)
    (hf : StartsAt (leAt r.payload 16 8) (s.dev.rd64 Reg.battLastUsed % 2 ^ 48) first) (hline : s.dev.lineStarted = false)
    (hown : s.dev.isFollower = false) (hm : s.dev.master.isSome = true) {effect : Dev → Prop}
    (he : effect ((s.dev.takeReq 0x0305 r).takeStart o first)) : Does (.lineStart r) s 0x0305 r (sle 8 o ++ le 8 first) effect := by
  refine command_ok (code := 0x0305) h _ _ rfl rfl rfl (by simp [lenIs, hl]) hz ?_ he
  have hlast : (s.dev.takeReq 0x0305 r).rd64 Reg.battLastUsed = s.dev.rd64 Reg.battLastUsed := rfl
  have hspos : (s.dev.takeReq 0x0305 r).spos = s.dev.spos := rfl
  have hguard : (s.dev.takeReq 0x0305 r).guard = s.dev.guard := rfl
  have hstate : ¬ (((s.dev.takeReq 0x0305 r).lineStarted || (s.dev.takeReq 0x0305 r).isFollower
      || (s.dev.takeReq 0x0305 r).master.isNone) = true) := by
    change ¬ ((s.dev.lineStarted || s.dev.isFollower || s.dev.master.isNone) = true)
    rw [hline, hown, Option.isNone_eq_false_iff.mpr hm]
    decide
  dsimp only
  rw [hlast, hspos, hguard, if_neg (ho.fields hf), if_neg hstate, hf.eq, ho.eq, if_neg (Int.not_lt.mpr ho.edge_le)]
  rfl

/-- Settles O16: LINE_START by what the line's start writes and what making ready for it leaves, LINE_STOP by how the line ends, and the
trigger generators by the line they take or the line they are set back to. -/
theorem lineAndTriggers : Obligations.LineAndTriggers := by
  unfold Obligations.LineAndTriggers
  intro s
  refine ⟨?_, ?_, ?_, ?_, ?_⟩
  · intro r w fb first o h hw hfb hl hz ho hf hline hown hm
    have hat : StartsAt (leAt r.payload 16 8) (s.dev.rd64 Reg.battLastUsed % 2 ^ 48) first := hfb ▸ hf _ rfl
    have hfrom : StartsFrom (leAt r.payload 0 1) (sleAt r.payload 8 8) (s.dev.spos + 64 * (s.dev.guard : Int)) o := by
      obtain ⟨h1, h0, hgrid⟩ | hgiven := ho _ rfl
      · exact .inl ⟨hw ▸ h1, by rw [sleAt, h0]; rfl, hgrid⟩
      · exact .inr (hw ▸ hgiven)
    obtain ⟨hs, horg, hb, ⟨hpitch, hlog⟩, hheads, hopens, hspos, hgens, ⟨hdeep, hbulk⟩, hhood, hplc, hout⟩ :=
      ((s.dev.takeReq 0x0305 r).takeStart_starts o (hat.lt (Nat.mod_lt _ (by decide)))).of_takeReq
    exact lineStart_does h hl hz hfrom hat hline hown hm
      ⟨hs, horg, hb, hpitch, hlog, hheads, hopens, hspos, hgens, hdeep, hbulk, hhood, hplc, hout⟩
  · intro r last h hq hlast hw hl hz h48 hfirst hs hf htime
    exact ⟨(s.dev.takeReq 0x0306 r).takeStop 0 last,
      exec_lineStop h hq hl hz hw hlast.symm (.inl ⟨rfl, h48, hfirst, htime⟩) hs hf, Dev.takeStop_after hs (by omega)⟩
  · intro r h hq hw hlast hl hz hs hf
    have hnow := (s.dev.takeReq 0x0306 r).takeStop_now hs 0
    rw [Dev.lastReached_takeReq, Dev.rd64_takeReq] at hnow
    exact ⟨(s.dev.takeReq 0x0306 r).takeStop 1 0, exec_lineStop h hq hl hz hw hlast (.inr ⟨rfl, rfl⟩) hs hf, hnow⟩
  · intro head late phase k i ha hk hi hs hm hrun hp hn hb soon detached first newexp
    have hk16 : k < 16 := hk ▸ head.isLt
    obtain ⟨hnext, hspos, hline, hothers⟩ := Dev.lineTaken_others (Dev.lineKept_takeLine hk16 i (s.dev.battOfLine k i) ⟨late, phase⟩) i
    refine ⟨_, exec_triggerFire ha hk hi hs hm hrun hp hn hb, hnext, hspos, hline.trans hs, hothers, ?_, ?_, ?_⟩
    · intro hd
      rw [Dev.out_lineTaken, Dev.rd_lineTaken, Dev.rd_lineTaken]
      exact Dev.takeLine_detached_effect hk16 hd
    · intro hd hsoon
      rw [Dev.out_lineTaken, Dev.fld_lineTaken, Dev.rd_lineTaken]
      exact Dev.takeLine_soon_effect hk16 hd hsoon
    · intro hd hsoon
      have hf := Dev.fireLine_fired (d := s.dev) hk16 i (s.dev.battOfLine k i) late phase.val
      rw [Dev.setting_lineTaken, Dev.out_lineTaken, Dev.fld_lineTaken, Dev.fld_lineTaken, Dev.takeLine_fires hd hsoon]
      exact ⟨hf.trigger, hf.tag, hf.count⟩
  · intro head k ha hk hs hm hrun hlock h0 hl hp
    exact ⟨_, exec_triggerRearm ha hk hs hm hrun hlock h0 hp, _, rfl, Dev.lineAbove_least hl⟩

end Sys2Proof.Machine
end

section
/-! SUPPORT. Ports and pipelines after one of them has changed; fields of a register beside a stored one; the lines that a port loses
(R172, R175, R186, R188). -/

namespace Sys2Proof.Machine

open Sys2Proof

/-! ## Fields and flags beside a stored field -/

theorem Dev.fld_lt (d : Dev) (a lo w : Nat) : d.fld a lo w < 2 ^ w := Nat.mod_lt _ (by positivity)

theorem Dev.flag_eq_fld (d : Dev) (a i : Nat) : d.flag a i = (d.fld a i 1 == 1) := rfl

theorem Dev.flag_setFld_ne (d : Dev) (a v : Nat) {lo w i : Nat} (hi : i < 32) (h : i < lo ∨ lo + w ≤ i) :
    (d.setFld a lo w v).flag a i = d.flag a i := by
  rw [Dev.flag_eq_fld, Dev.fld_setFld_ne _ _ _ (by omega) (by omega), Dev.flag_eq_fld]

/-- A count that counts nothing stays. -/
theorem Dev.satAdd_fld_zero (d : Dev) (a lo w : Nat) : satAdd w (d.fld a lo w) 0 = d.fld a lo w := by
  have := d.fld_lt a lo w
  unfold satAdd; omega

theorem satAdd_satAdd (w v j k : Nat) : satAdd w (satAdd w v j) k = satAdd w v (j + k) := by unfold satAdd; omega

theorem Dev.onlyRegs.setFld {d t : Dev} {l : List Nat} (h : d.onlyRegs t l) {a : Nat} (ha : a ∈ l) (lo w v : Nat) :
    d.onlyRegs (t.setFld a lo w v) l := h.wrN ha _

theorem Dev.onlyRegs.incSat {d t : Dev} {l : List Nat} (h : d.onlyRegs t l) {a : Nat} (ha : a ∈ l) (lo w k : Nat) :
    d.onlyRegs (t.incSat a lo w k) l := h.wrN ha _

/-! ## One port, one pipeline -/

theorem Dev.port_modPort_ne (d : Dev) {n m : Nat} (f : Port → Port) (h : m ≠ n) : (d.modPort n f).port m = d.port m :=
  getD_modAt_ne d.ports f h

theorem Dev.pipe_modPipe_same (d : Dev) (n : Nat) (f : Pipe → Pipe) : (d.modPipe n f).pipe n = f (d.pipe n) :=
  getD_modAt_same d.pipes n f

theorem Dev.pipe_modPipe_ne (d : Dev) {n m : Nat} (f : Pipe → Pipe) (h : m ≠ n) : (d.modPipe n f).pipe m = d.pipe m :=
  getD_modAt_ne d.pipes f h

/-- A change of one element sets it to what the change gives of its old value. -/
theorem modAt_eq_const {α : Type} [Inhabited α] (l : List α) (i : Nat) (f : α → α) :
    modAt l i f = modAt l i fun _ => f (l.getD i default) := by
  induction l, i, f using modAt.induct <;> simp_all [modAt]

theorem Dev.modPort_eq_const (d : Dev) (n : Nat) (f : Port → Port) :
    d.modPort n f = { d with ports := modAt d.ports n fun _ => f (d.port n) } :=
  congrArg (fun x => { d with ports := x }) (modAt_eq_const d.ports n f)

/-- All of the device but its registers, ports and pipelines. -/
def Dev.sansHead (d : Dev) : Dev := { d with regs := [], ports := [], pipes := [] }

/-- From d to t only head n may be different: of the registers those listed, its port and its pipeline. -/
structure Dev.OnlyHead (l : List Nat) (n : Nat) (d t : Dev) : Prop where
  word : d.regsKept t l
  port : ∀ m, m ≠ n → t.port m = d.port m
  pipe : ∀ m, m ≠ n → t.pipe m = d.pipe m
  rest : t.sansHead = d.sansHead

section
variable {l : List Nat} {n : Nat} {d t u : Dev}

theorem Dev.OnlyHead.refl (l : List Nat) (n : Nat) (d : Dev) : d.OnlyHead l n d :=
  ⟨d.regsKept_refl l, fun _ _ => rfl, fun _ _ => rfl, rfl⟩

theorem Dev.OnlyHead.trans (h : d.OnlyHead l n t) (k : t.OnlyHead l n u) : d.OnlyHead l n u :=
  ⟨h.word.trans k.word, fun m hm => (k.port m hm).trans (h.port m hm), fun m hm => (k.pipe m hm).trans (h.pipe m hm),
    k.rest.trans h.rest⟩

theorem Dev.OnlyHead.wr (h : d.OnlyHead l n t) {a : Nat} (ha : a ∈ l) (v : Word) : d.OnlyHead l n (t.wr a v) :=
  ⟨h.word.wr (.inl ha), h.port, h.pipe, h.rest⟩

theorem Dev.OnlyHead.setFld (h : d.OnlyHead l n t) {a : Nat} (ha : a ∈ l) (lo w v : Nat) : d.OnlyHead l n (t.setFld a lo w v) :=
  h.wr ha _

theorem Dev.OnlyHead.incSat (h : d.OnlyHead l n t) {a : Nat} (ha : a ∈ l) (lo w k : Nat) : d.OnlyHead l n (t.incSat a lo w k) :=
  h.wr ha _

theorem Dev.OnlyHead.incWrap (h : d.OnlyHead l n t) {a : Nat} (ha : a ∈ l) (lo w k : Nat) : d.OnlyHead l n (t.incWrap a lo w k) :=
  h.wr ha _

theorem Dev.OnlyHead.setFlag (h : d.OnlyHead l n t) {a : Nat} (ha : a ∈ l) (i : Nat) (b : Bool) : d.OnlyHead l n (t.setFlag a i b) :=
  h.wr ha _

theorem Dev.OnlyHead.modPort (h : d.OnlyHead l n t) (f : Port → Port) : d.OnlyHead l n (t.modPort n f) :=
  ⟨h.word, fun m hm => (t.port_modPort_ne f hm).trans (h.port m hm), h.pipe, h.rest⟩

theorem Dev.OnlyHead.modPipe (h : d.OnlyHead l n t) (f : Pipe → Pipe) : d.OnlyHead l n (t.modPipe n f) :=
  ⟨h.word, h.port, fun m hm => (t.pipe_modPipe_ne f hm).trans (h.pipe m hm), h.rest⟩

theorem Dev.OnlyHead.passLine (h : d.OnlyHead l n t) (x : Line) : d.OnlyHead l n (t.passLine n x) := h.modPipe _

theorem Dev.OnlyHead.frame (h : d.OnlyHead l n t) : t = { d with regs := t.regs, ports := t.ports, pipes := t.pipes } :=
  (congrArg (fun x : Dev => ({ x with regs := t.regs, ports := t.ports, pipes := t.pipes } : Dev)) h.rest :)

/-- A change that touches no pipeline. -/
theorem Dev.OnlyHead.frame_ports (h : d.OnlyHead l n t) (hp : t.pipes = d.pipes) : t = { d with regs := t.regs, ports := t.ports } := by
  have hf := h.frame
  rw [hp] at hf
  exact hf

end

/-! ## Lines on their way to pouncing (R172, R175) -/

/-- Lines pass towards pouncing, one after the other. -/
def Dev.passLines (d : Dev) (n : Nat) (ls : List Line) : Dev := ls.foldl (fun d l => d.passLine n l) d

section
variable (d : Dev) (n : Nat)

theorem Dev.passLines_append (xs ys : List Line) : d.passLines n (xs ++ ys) = (d.passLines n xs).passLines n ys := List.foldl_append

theorem Dev.passLines_flatMap {α : Type} (xs : List α) (f : α → List Line) :
    d.passLines n (xs.flatMap f) = xs.foldl (fun d x => d.passLines n (f x)) d := List.foldl_flatMap

theorem Dev.onlyHead_passLines (l : List Nat) (ls : List Line) : d.OnlyHead l n (d.passLines n ls) :=
  List.foldlRecOn (motive := fun t => d.OnlyHead l n t) ls _ (Dev.OnlyHead.refl l n d) fun _ ht x _ => ht.passLine x

theorem Dev.passLine_rx (x : Line) : ((d.passLine n x).pipe n).rx = (d.pipe n).rx ++ [x] :=
  congrArg Pipe.rx (d.pipe_modPipe_same n _)

theorem Dev.passLines_rx (ls : List Line) : ((d.passLines n ls).pipe n).rx = (d.pipe n).rx ++ ls := by
  induction ls generalizing d with
  | nil => rw [List.append_nil]; rfl
  | cons x xs ih => exact (ih (d.passLine n x)).trans (by rw [d.passLine_rx, List.append_assoc, List.singleton_append])

theorem Dev.passLines_ports (ls : List Line) : (d.passLines n ls).ports = d.ports :=
  List.foldlRecOn (motive := fun t : Dev => t.ports = d.ports) ls _ rfl fun _ ht _ _ => ht

theorem Dev.passLines_regs (ls : List Line) : (d.passLines n ls).regs = d.regs :=
  List.foldlRecOn (motive := fun t : Dev => t.regs = d.regs) ls _ rfl fun _ ht _ _ => ht

theorem Dev.loseRecord_eq (t : TrigRec) (cause : Nat) : d.loseRecord n t cause = d.passLines n (t.lostLines cause) := by
  rw [Dev.loseRecord, Dev.passLines, TrigRec.lostLines, List.foldl_map]

/-! ## What a link's loss and a detach leave of a port (R186, R188) -/

/-- A port without the line in progress and without records. -/
def Port.emptied (p : Port) : Port := { p with table := [], inUse := none, line := none, echo := none }

theorem Dev.dropTable_eq (cause : Nat) :
    d.dropTable n cause = (d.passLines n ((d.port n).lostLines cause)).modPort n Port.emptied := by
  unfold Dev.dropTable Port.lostLines
  extract_lets p d1 d2 d3
  have h1 : d1 = d.passLines n (p.line.toList.map fun l => l.rcd.line l.sub cause l.why []) := by
    unfold d1
    cases p.line <;> rfl
  have h2 : d2 = d1.passLines n (p.inUse.toList.flatMap fun t => t.lostLines cause) := by
    unfold d2
    cases p.inUse with
    | none => rfl
    | some t => exact (d1.loseRecord_eq n t cause).trans (congrArg (d1.passLines n) (List.append_nil _).symm)
  have h3 : d3 = d2.passLines n (p.table.flatMap fun t => t.lostLines cause) := by
    rw [Dev.passLines_flatMap]
    exact congrArg (fun f => p.table.foldl f d2) (funext fun d => funext fun t => d.loseRecord_eq n t cause)
  rw [List.flatMap_append, Dev.passLines_append, Dev.passLines_append, ← h1, ← h2, ← h3]
  rfl

theorem Dev.onlyHead_dropTable (l : List Nat) (cause : Nat) : d.OnlyHead l n (d.dropTable n cause) := by
  rw [Dev.dropTable_eq]
  exact (d.onlyHead_passLines n l _).modPort _

theorem Dev.dropTable_rx (cause : Nat) : ((d.dropTable n cause).pipe n).rx = (d.pipe n).rx ++ (d.port n).lostLines cause := by
  rw [Dev.dropTable_eq]
  exact d.passLines_rx n _

theorem Dev.dropTable_port (cause : Nat) : (d.dropTable n cause).port n = (d.port n).emptied := by
  rw [Dev.dropTable_eq, Dev.port_modPort_same, Dev.port, Dev.passLines_ports]; rfl

theorem Dev.dropTable_regs (cause : Nat) : (d.dropTable n cause).regs = d.regs := by
  rw [Dev.dropTable_eq]
  exact d.passLines_regs n _

end

end Sys2Proof.Machine
end

section
/-! SUPPORT. Packets of a head link: their headers, and what each row does with a packet that is kept (R165 to R168, R173). -/

namespace Sys2Proof.Machine

open Sys2Proof

/-! ## Headers (R167, R168) -/

section
variable {d : Dev} {n : Nat} (hup : d.portState n = 3) (hsafe : d.safe = false)
include hup hsafe

theorem Dev.header_up (h : Word) : d.header n h = match eccCheck h with
    | none => (d.incSat (Reg.hlErr0 n) 16 8 1, none)
    | some (w, fixed) =>
      let d1 := if fixed then d.incSat (Reg.hlErr0 n) 24 8 1 else d
      if hdrVc w ≠ d1.fld (Reg.hlCfg n) 16 4 then (d1.incSat (Reg.hlErr1 n) 16 16 1, none) else (d1, some w) := by
  unfold Dev.header
  rw [if_neg (by simp [hup, hsafe])] <;> rfl

theorem Dev.header_bad {h : Word} (he : eccCheck h = none) : d.header n h = (d.incSat (Reg.hlErr0 n) 16 8 1, none) := by
  rw [Dev.header_up hup hsafe, he]

theorem Dev.header_otherVc {h w : Word} (he : eccCheck h = some (w, false)) (hv : hdrVc w ≠ d.fld (Reg.hlCfg n) 16 4) :
    d.header n h = (d.incSat (Reg.hlErr1 n) 16 16 1, none) := by
  rw [Dev.header_up hup hsafe, he]
  exact if_pos hv

theorem Dev.header_kept {h w : Word} (he : eccCheck h = some (w, false)) (hv : hdrVc w = d.fld (Reg.hlCfg n) 16 4) :
    d.header n h = (d, some w) := by
  rw [Dev.header_up hup hsafe, he]
  exact if_neg (not_not.mpr hv)

end

section
variable {d : Dev} {n : Nat}

theorem Dev.packet_dropped {h : Word} {d1 : Dev} (hh : d.header n h = (d1, none)) (types : Nat → Bool) (f : Dev → Word → Dev) :
    d.packet n h types f = d1 := by
  unfold Dev.packet
  rw [hh]

theorem Dev.packet_taken {h w : Word} {d1 : Dev} (hh : d.header n h = (d1, some w)) {types : Nat → Bool} (ht : types (hdrType w) = true)
    (f : Dev → Word → Dev) : d.packet n h types f = f d1 w := by
  unfold Dev.packet
  rw [hh]
  exact if_pos ht

/-- Counting a corrected header changes neither the port's state nor its settings. -/
theorem Dev.corrected_rd (d : Dev) {n a : Nat} (h : a ≠ Reg.hlErr0 n) : (d.incSat (Reg.hlErr0 n) 24 8 1).rd a = d.rd a :=
  d.rd_incSat_ne _ _ _ _ _ h

theorem Reg.hlStat_ne_hlErr0 (n : Nat) : Reg.hlStat n ≠ Reg.hlErr0 n := by unfold Reg.hlStat Reg.hlErr0; omega
theorem Reg.hlCfg_ne_hlErr0 (n : Nat) : Reg.hlCfg n ≠ Reg.hlErr0 n := by unfold Reg.hlCfg Reg.hlErr0; omega
theorem Reg.fltState_ne_hlErr0 (n : Nat) : Reg.fltState ≠ Reg.hlErr0 n := by unfold Reg.fltState Reg.hlErr0; omega

/-- A packet with a corrected header is the packet with that header, once the correction has been counted. -/
theorem Dev.packet_corrected (hup : d.portState n = 3) (hsafe : d.safe = false) {h w v : Word} (hh : eccCheck h = some (w, true))
    (hv : eccCheck v = some (v, false)) (hvc : hdrVc v = hdrVc w) {types types' : Nat → Bool} {f : Dev → Word → Dev}
    (ht : types' (hdrType v) = types (hdrType w)) (hf : f (d.incSat (Reg.hlErr0 n) 24 8 1) v = f (d.incSat (Reg.hlErr0 n) 24 8 1) w)
    (hgo : types (hdrType w) = true ∨ hdrVc w ≠ d.fld (Reg.hlCfg n) 16 4) :
    d.packet n h types f = (d.incSat (Reg.hlErr0 n) 24 8 1).packet n v types' f := by
  have hcfg : (d.incSat (Reg.hlErr0 n) 24 8 1).fld (Reg.hlCfg n) 16 4 = d.fld (Reg.hlCfg n) 16 4 :=
    Dev.fld_congr (d.corrected_rd (Reg.hlCfg_ne_hlErr0 n)) 16 4
  have hup1 : (d.incSat (Reg.hlErr0 n) 24 8 1).portState n = 3 :=
    (Dev.fld_congr (d.corrected_rd (Reg.hlStat_ne_hlErr0 n)) 29 3).trans hup
  have hsafe1 : (d.incSat (Reg.hlErr0 n) 24 8 1).safe = false :=
    (Dev.flag_congr (d.corrected_rd (Reg.fltState_ne_hlErr0 n)) 31).trans hsafe
  have hhdr := Dev.header_up hup hsafe h
  rw [hh] at hhdr
  dsimp only at hhdr
  rw [if_pos rfl, hcfg] at hhdr
  by_cases hw : hdrVc w = d.fld (Reg.hlCfg n) 16 4
  · have htw := hgo.resolve_right (not_not.mpr hw)
    rw [if_neg (not_not.mpr hw)] at hhdr
    rw [Dev.packet_taken hhdr htw, Dev.packet_taken (Dev.header_kept hup1 hsafe1 hv ((hvc.trans hw).trans hcfg.symm)) (ht.trans htw), hf]
  · rw [if_pos hw] at hhdr
    rw [Dev.packet_dropped hhdr, Dev.packet_dropped (Dev.header_otherVc hup1 hsafe1 hv (by rw [hvc, hcfg]; exact hw))]

end

/-! ## The rows of packets -/

/-- A row c runs treatment f on a packet of port n whose data type is one of its types; the treatment sees of the header its data type
and data field, and the types depend on the port's settings alone. -/
structure TreatsPackets (n : Nat) (types : Dev → Nat → Bool) (f : Dev → Word → Dev) (c : Word → Instr) : Prop where
  runs : ∀ h s, exec (c h) s = s.upd fun d => d.packet n h (types d) f
  reads : ∀ d v w, hdrType v = hdrType w → hdrField v = hdrField w → f d v = f d w
  settings : ∀ d t : Dev, t.rd (Reg.hlCfg n) = d.rd (Reg.hlCfg n) → types t = types d

section
variable (n : Nat) (d : Dev) (w : Word)

/-- A kept Frame Start (R173). -/
def Dev.takeFrameStart : Dev :=
  (if (d.port n).frameOpen then d.incSat (Reg.hlErr1 n) 0 8 1 else d).modPort n fun p =>
    { p with frameOpen := true, echo := some (hdrField w % 256) }

/-- A kept Frame End (R173). -/
def Dev.takeFrameEnd (_w : Word) : Dev := d.modPort n fun p => { p with frameOpen := false }

/-- A Line Start that consumes record t: the records of `retired` go, and `rest` stays in the table (R172). -/
def Dev.consumeRecord (retired rest : List TrigRec) (t : TrigRec) : Dev :=
  (((retired.foldl (fun d t => d.retire n t) (d.modPort n fun p => { p with table := rest, inUse := none })).echoCheck n t).openLine n t)

/-- A kept Line Start with no line open before it (R172). -/
def Dev.lineStarts (tag : Nat) : Dev :=
  match (d.port n).inUse.filter fun t => t.tag == tag && decide (t.got < t.awaits) with
  | some t => (d.echoCheck n t).openLine n t
  | none =>
    match (d.port n).table.find? fun t => t.tag == tag with
    | none => d.incSat (Reg.hlErr2 n) 24 8 1
    | some t =>
      let older := (d.port n).table.takeWhile fun x => x.tag != tag
      let retired := ((d.port n).inUse.filter fun t => decide (t.got < t.awaits)).toList ++ older
      let d1 := d.modPort n fun p => { p with table := p.table.drop (older.length + 1), inUse := none }
      ((retired.foldl (fun d t => d.retire n t) d1).echoCheck n t).openLine n t

/-- A kept Line Start (R170, R172). -/
def Dev.takeLineStart : Dev := (d.lengthError n).lineStarts n (hdrField w)

/-- A kept Line End (R168). -/
def Dev.takeLineEnd : Dev :=
  if (d.port n).line.any fun l => l.rcd.tag == hdrField w then d else d.incSat (Reg.hlErr1 n) 0 8 1

/-- Pixels of plane q join an open line whose footer agrees (R169, R170, R203). -/
def Dev.joinPixels (p : Pixels) (l : OpenLine) (q : Nat) : Dev :=
  let dt := d.fld (Reg.hlCfg n) 8 6
  let px := unpack dt (p.payload.length / unitBytes dt) p.payload
  let old := l.planes.getD q []
  let grown := (l.planes ++ List.replicate (q + 1 - l.planes.length) []).set q (old ++ px)
  let w := d.width n
  let pk := if q = 0 then l.packets + 1 else l.packets
  let l1 : OpenLine := { l with planes := grown, packets := pk, overflow := l.overflow || p.overflow }
  if old.length + px.length > w ∨ q ≥ d.planesIn n ∨ (pk ≥ 8 ∧ (grown.getD 0 []).length < w) then d.lengthError n
  else if (List.range (d.planesIn n)).all fun j => (grown.getD j []).length == w then d.completeLine n l1
  else d.modPort n fun q => { q with line := some l1 }

/-- A kept packet of pixels (R168 to R170). -/
def Dev.takePixels (p : Pixels) : Dev :=
  match d.planeOf n (hdrType w) with
  | none => d.incSat (Reg.hlErr1 n) 8 8 1
  | some q =>
    match (d.port n).line with
    | none => d.incSat (Reg.hlErr0 n) 0 8 1
    | some l => if p.footer ≠ csiCrc p.payload then d.failLine n Cause.checksum 8 else d.joinPixels n p l q

/-- A kept message of the head (R167, R168). -/
def Dev.takeHeadMessage (x : HeadData) (_w : Word) : Dev :=
  if x.data.length = 0 ∨ x.data.length > 256 then d.incSat (Reg.hlErr1 n) 8 8 1
  else if x.footer ≠ csiCrc x.data then d.incSat (Reg.hlErr0 n) 8 8 1
  else d.event 0x8403 none (le 1 n ++ zeros 1 ++ le 2 x.data.length ++ x.data)

/-- A packet of a data type that the port does not take (R168). -/
def Dev.discardPacket (_w : Word) : Dev := d.incSat (Reg.hlErr1 n) 8 8 1

end

theorem Dev.planeOf_congr {d t : Dev} {n : Nat} (h : t.rd (Reg.hlCfg n) = d.rd (Reg.hlCfg n)) (dt : Nat) : t.planeOf n dt = d.planeOf n dt := by
  rw [Dev.planeOf, Dev.fld_congr h, Dev.flag_congr h, Dev.planeOf]

/-- The data types that port n of a device discards (R168). -/
def discards (n : Nat) (d : Dev) (t : Nat) : Bool := decide (t > 3) && t != 0x37 && (d.planeOf n t).isNone

section
variable (head : Fin 16)

theorem frameStart_treats : TreatsPackets head.val (fun _ => (· == 0)) (Dev.takeFrameStart head.val) (.frameStart head) :=
  ⟨fun _ _ => rfl, fun d v w _ hf => by rw [Dev.takeFrameStart, hf, Dev.takeFrameStart], fun _ _ _ => rfl⟩

theorem frameEnd_treats : TreatsPackets head.val (fun _ => (· == 1)) (Dev.takeFrameEnd head.val) (.frameEnd head) :=
  ⟨fun _ _ => rfl, fun _ _ _ _ _ => rfl, fun _ _ _ => rfl⟩

theorem lineStart_treats : TreatsPackets head.val (fun _ => (· == 2)) (Dev.takeLineStart head.val) (.lineStartPacket head) :=
  ⟨fun _ _ => rfl, fun d v w _ hf => by rw [Dev.takeLineStart, hf, Dev.takeLineStart], fun _ _ _ => rfl⟩

theorem lineEnd_treats : TreatsPackets head.val (fun _ => (· == 3)) (Dev.takeLineEnd head.val) (.lineEnd head) :=
  ⟨fun _ _ => rfl, fun d v w _ hf => by rw [Dev.takeLineEnd, hf, Dev.takeLineEnd], fun _ _ _ => rfl⟩

theorem pixels_treats (px : Pixels) :
    TreatsPackets head.val (fun _ => pixelType) (fun d w => d.takePixels head.val w px) (.pixelPacket head · px) :=
  ⟨fun _ _ => rfl, fun d v w ht _ => by rw [Dev.takePixels, ht, Dev.takePixels], fun _ _ _ => rfl⟩

theorem headMessage_treats (x : HeadData) :
    TreatsPackets head.val (fun _ => (· == 0x37)) (fun d w => d.takeHeadMessage head.val x w) (.headMessagePacket head · x) :=
  ⟨fun _ _ => rfl, fun _ _ _ _ _ => rfl, fun _ _ _ => rfl⟩

theorem discarded_treats (data : Bytes) :
    TreatsPackets head.val (discards head.val) (Dev.discardPacket head.val) (.discardedPacket head · data) :=
  ⟨fun _ _ => rfl, fun _ _ _ _ _ => rfl, fun d t ht => funext fun x => by rw [discards, Dev.planeOf_congr ht, discards]⟩

end

/-- The rows of packets of a port with the data types of each. -/
def packetRows (d : Dev) (head : Fin 16) (px : Pixels) (x : HeadData) (data : Bytes) : List ((Nat → Bool) × (Word → Instr)) :=
  [((· == 0), Instr.frameStart head), ((· == 1), .frameEnd head), ((· == 2), .lineStartPacket head), ((· == 3), .lineEnd head),
    (pixelType, (.pixelPacket head · px)), ((· == 0x37), (.headMessagePacket head · x)),
    (discards head.val d, (.discardedPacket head · data))]

theorem packetRows_treat {d : Dev} {head : Fin 16} {px : Pixels} {x : HeadData} {data : Bytes} {types : Nat → Bool} {c : Word → Instr}
    (h : (types, c) ∈ packetRows d head px x data) : ∃ T f, TreatsPackets head.val T f c ∧ T d = types := by
  simp only [packetRows, List.mem_cons, List.not_mem_nil, or_false, Prod.mk.injEq] at h
  obtain ⟨rfl, rfl⟩ | ⟨rfl, rfl⟩ | ⟨rfl, rfl⟩ | ⟨rfl, rfl⟩ | ⟨rfl, rfl⟩ | ⟨rfl, rfl⟩ | ⟨rfl, rfl⟩ := h
  · exact ⟨_, _, frameStart_treats head, rfl⟩
  · exact ⟨_, _, frameEnd_treats head, rfl⟩
  · exact ⟨_, _, lineStart_treats head, rfl⟩
  · exact ⟨_, _, lineEnd_treats head, rfl⟩
  · exact ⟨_, _, pixels_treats head px, rfl⟩
  · exact ⟨_, _, headMessage_treats head x, rfl⟩
  · exact ⟨_, _, discarded_treats head data, rfl⟩

section
variable {s : State} {n : Nat} (ha : s.alive) (hup : s.dev.portState n = 3) (hsafe : s.dev.safe = false)
include ha hup hsafe

/-- A packet whose header is kept is treated. -/
theorem TreatsPackets.becomes {T : Dev → Nat → Bool} {f : Dev → Word → Dev} {c : Word → Instr} (hc : TreatsPackets n T f c) {h w : Word}
    (he : eccCheck h = some (w, false)) (hv : hdrVc w = s.dev.fld (Reg.hlCfg n) 16 4) (ht : T s.dev (hdrType w) = true)
    {effect : Dev → Prop} (hf : effect (f s.dev w)) : Becomes (c h) s effect :=
  becomes_of_upd ha (hc.runs h s) (Dev.packet_taken (Dev.header_kept hup hsafe he hv) ht f) hf

theorem TreatsPackets.headers {T : Dev → Nat → Bool} {f : Dev → Word → Dev} {c : Word → Instr} (hc : TreatsPackets n T f c) (h : Word) :
    (eccCheck h = none → Becomes (c h) s fun t => t = s.dev.incSat (Reg.hlErr0 n) 16 8 1)
    ∧ (∀ w, eccCheck h = some (w, false) → hdrVc w ≠ s.dev.fld (Reg.hlCfg n) 16 4 →
        Becomes (c h) s fun t => t = s.dev.incSat (Reg.hlErr1 n) 16 16 1)
    ∧ (∀ w v, eccCheck h = some (w, true) → eccCheck v = some (v, false) → hdrVc v = hdrVc w → hdrType v = hdrType w →
        hdrField v = hdrField w → (T s.dev (hdrType w) = true ∨ hdrVc w ≠ s.dev.fld (Reg.hlCfg n) 16 4) →
        exec (c h) s = exec (c v) { s with dev := s.dev.incSat (Reg.hlErr0 n) 24 8 1 }) := by
  refine ⟨fun he => ?_, fun w he hv => ?_, fun w v hw hv hvc hty hfd hgo => ?_⟩
  · exact becomes_of_upd ha (hc.runs h s) (Dev.packet_dropped (Dev.header_bad hup hsafe he) _ f) rfl
  · exact becomes_of_upd ha (hc.runs h s) (Dev.packet_dropped (Dev.header_otherVc hup hsafe he hv) _ f) rfl
  · have hcfg := hc.settings s.dev _ (s.dev.corrected_rd (Reg.hlCfg_ne_hlErr0 n))
    have hp := Dev.packet_corrected hup hsafe hw hv hvc (types' := T (s.dev.incSat (Reg.hlErr0 n) 24 8 1)) (by rw [hcfg, hty])
      (hc.reads _ v w hty hfd) hgo
    have ha1 : State.alive { s with dev := s.dev.incSat (Reg.hlErr0 n) 24 8 1 } := by
      rw [State.alive, State.dead] at ha ⊢
      rw [Dev.incSat_pwr, ha]
    have hrun : exec (c v) { s with dev := s.dev.incSat (Reg.hlErr0 n) 24 8 1 } = .next { s with dev := _ } :=
      (hc.runs v _).trans (State.upd_alive (s := { s with dev := s.dev.incSat (Reg.hlErr0 n) 24 8 1 }) ha1 _)
    rw [hrun, ← hp]
    exact (hc.runs h s).trans (State.upd_alive ha _)

end

end Sys2Proof.Machine
end

section
/-! SUPPORT. Lines of a head link: the record that a Line Start consumes, the line that pixels make, and how a line is lost (R109, R168 to
R175). -/

namespace Sys2Proof.Machine

open Sys2Proof

/-! ## Records retired (R172) -/

/-- The records of a list are retired, one after the other. -/
def Dev.retireAll (d : Dev) (n : Nat) (ts : List TrigRec) : Dev := ts.foldl (fun d t => d.retire n t) d

section
variable (d : Dev) (n : Nat)

theorem Dev.retire_eq (t : TrigRec) : d.retire n t = (d.passLines n (t.lostLines Cause.noLine)).incSat (Reg.hlErr2 n) 16 8 1 := by
  rw [Dev.retire, Dev.loseRecord_eq]

theorem Dev.onlyHead_retireAll {l : List Nat} (hl : Reg.hlErr2 n ∈ l) (ts : List TrigRec) : d.OnlyHead l n (d.retireAll n ts) := by
  refine List.foldlRecOn (motive := fun t => d.OnlyHead l n t) ts _ (Dev.OnlyHead.refl l n d) fun u hu t _ => ?_
  rw [Dev.retire_eq]
  exact (hu.trans (u.onlyHead_passLines n l _)).incSat hl _ _ _

theorem Dev.retireAll_ports (ts : List TrigRec) : (d.retireAll n ts).ports = d.ports := by
  refine List.foldlRecOn (motive := fun t : Dev => t.ports = d.ports) ts _ rfl fun u hu t _ => ?_
  rw [Dev.retire_eq]
  exact (u.passLines_ports n _).trans hu

theorem Dev.retireAll_rx (ts : List TrigRec) :
    ((d.retireAll n ts).pipe n).rx = (d.pipe n).rx ++ ts.flatMap fun t => t.lostLines Cause.noLine := by
  induction ts generalizing d with
  | nil => rw [List.flatMap_nil, List.append_nil]; rfl
  | cons t ts ih =>
    refine (ih (d.retire n t)).trans ?_
    rw [List.flatMap_cons, ← List.append_assoc, d.retire_eq, ← d.passLines_rx n]
    rfl

theorem Dev.retireAll_missed (ts : List TrigRec) :
    (d.retireAll n ts).fld (Reg.hlErr2 n) 16 8 = satAdd 8 (d.fld (Reg.hlErr2 n) 16 8) ts.length := by
  induction ts generalizing d with
  | nil => exact (d.satAdd_fld_zero _ _ _).symm
  | cons t ts ih =>
    refine (ih (d.retire n t)).trans ?_
    have hregs : (d.passLines n (t.lostLines Cause.noLine)).rd (Reg.hlErr2 n) = d.rd (Reg.hlErr2 n) := by
      rw [Dev.rd, Dev.passLines_regs, Dev.rd]
    rw [Dev.retire_eq, Dev.fld_incSat_same _ _ _ (by decide), Dev.fld_congr hregs, satAdd_satAdd, Nat.add_comm, List.length_cons]

/-! ## The first line of a frame, and a line opened (R173, R174) -/

/-- Whether the echo of the Frame Start before a record's first line is another than the record's identifier. -/
def Port.echoDiffers (p : Port) (t : TrigRec) : Bool := p.echo.any (· != t.expid)

theorem Dev.echoCheck_eq (t : TrigRec) : ∃ f : Port → Port, (∀ p, ∃ u, f p = { p with unconf := u })
    ∧ ((d.port n).echoDiffers t = true → d.echoCheck n t = (d.incSat (Reg.hlErr3 n) 8 8 1).modPort n f)
    ∧ ((d.port n).echoDiffers t = false → d.echoCheck n t = d ∨ d.echoCheck n t = d.modPort n f) := by
  have hset : ∀ (p : Port) (b why e c : Nat), ∃ u, p.setUnconf b why e c = { p with unconf := u } := fun p b why e c => by
    unfold Port.setUnconf
    split <;> exact ⟨_, rfl⟩
  unfold Dev.echoCheck Port.echoDiffers
  cases (d.port n).echo with
  | some e =>
    refine ⟨_, fun p => hset p t.batt 1 t.expid e, fun h => if_pos (by simpa using h), fun h => .inl (if_neg (by simpa using h))⟩
  | none =>
    refine ⟨_, fun p => hset p t.batt 2 t.expid 0, fun h => absurd h (by simp), fun _ => ?_⟩
    dsimp only
    split
    · exact .inr rfl
    · exact .inl rfl

theorem Dev.onlyHead_echoCheck {l : List Nat} (hl : Reg.hlErr3 n ∈ l) (t : TrigRec) : d.OnlyHead l n (d.echoCheck n t) := by
  obtain ⟨f, -, hd, hs⟩ := d.echoCheck_eq n t
  cases he : (d.port n).echoDiffers t with
  | true => rw [hd he]; exact ((Dev.OnlyHead.refl l n d).incSat hl _ _ _).modPort f
  | false => obtain h | h := hs he <;> rw [h]; exacts [Dev.OnlyHead.refl l n d, (Dev.OnlyHead.refl l n d).modPort f]

/-- Of its port and its pipeline the check of an echo may change which batts are marked, alone. -/
theorem Dev.echoCheck_port (t : TrigRec) : (∃ u, (d.echoCheck n t).port n = { d.port n with unconf := u })
    ∧ (d.echoCheck n t).pipes = d.pipes := by
  obtain ⟨f, hf, hd, hs⟩ := d.echoCheck_eq n t
  obtain ⟨u, hu⟩ := hf (d.port n)
  cases he : (d.port n).echoDiffers t with
  | true => rw [hd he]; exact ⟨⟨u, (Dev.port_modPort_same _ n f).trans hu⟩, rfl⟩
  | false =>
    obtain h | h := hs he <;> rw [h]
    · exact ⟨⟨_, rfl⟩, rfl⟩
    · exact ⟨⟨u, (d.port_modPort_same n f).trans hu⟩, rfl⟩

theorem Dev.echoCheck_rd (t : TrigRec) {a : Nat} (ha : a ≠ Reg.hlErr3 n) : (d.echoCheck n t).rd a = d.rd a :=
  (d.onlyHead_echoCheck n (List.mem_singleton_self _) t).word a (List.mem_singleton.not.mpr ha)

theorem Dev.echoCheck_mismatches (t : TrigRec) : (d.echoCheck n t).fld (Reg.hlErr3 n) 8 8
    = if (d.port n).echoDiffers t then satAdd 8 (d.fld (Reg.hlErr3 n) 8 8) 1 else d.fld (Reg.hlErr3 n) 8 8 := by
  obtain ⟨f, -, hd, hs⟩ := d.echoCheck_eq n t
  cases he : (d.port n).echoDiffers t with
  | true => rw [hd he, if_pos rfl]; exact d.fld_incSat_same _ _ (by decide)
  | false => obtain h | h := hs he <;> rw [h] <;> rfl

/-- The line that a record opens. -/
def Port.lineOf (p : Port) (t : TrigRec) : OpenLine :=
  ⟨t, t.got, 0, [], ((p.unconf.find? fun u => u.1 == t.batt).map (·.2.1)).getD t.why, false⟩

theorem Dev.openLine_eq (t : TrigRec) : d.openLine n t
    = d.modPort n fun p => { p with inUse := some { t with got := t.got + 1 }, echo := none, line := some (p.lineOf t) } := rfl

/-! ## Line Starts (R170, R172) -/

theorem Dev.lengthError_idle (h : (d.port n).line = none) : d.lengthError n = d := by
  rw [Dev.lengthError, Dev.failLine, h]

theorem Dev.takeLineStart_idle {n : Nat} {d : Dev} (h : (d.port n).line = none) (w : Word) :
    Dev.takeLineStart n d w = d.lineStarts n (hdrField w) := by
  rw [Dev.takeLineStart, d.lengthError_idle n h]

/-- The record in use does not go on with a tag. -/
def Port.noneGoesOn (p : Port) (tag : Nat) : Prop := ∀ x, p.inUse = some x → x.tag ≠ tag ∨ x.awaits ≤ x.got

theorem Port.noneGoesOn.filter {p : Port} {tag : Nat} (h : p.noneGoesOn tag) :
    (p.inUse.filter fun t => t.tag == tag && decide (t.got < t.awaits)) = none := by
  refine Option.filter_eq_none_iff.mpr fun x hx => ?_
  obtain hne | hle := h x hx
  · simp [hne]
  · simp [Nat.not_lt.mpr hle]

theorem Dev.lineStarts_unknown {n tag : Nat} {d : Dev} (hu : (d.port n).noneGoesOn tag) (ht : ∀ x ∈ (d.port n).table, x.tag ≠ tag) :
    d.lineStarts n tag = d.incSat (Reg.hlErr2 n) 24 8 1 := by
  have hfind : ((d.port n).table.find? fun t => t.tag == tag) = none := List.find?_eq_none.mpr fun x hx => by simpa using ht x hx
  unfold Dev.lineStarts
  rw [hu.filter, hfind]

theorem Dev.lineStarts_goesOn {n tag : Nat} {d : Dev} {x : TrigRec} (hx : (d.port n).inUse = some x) (ht : x.tag = tag)
    (hg : x.got < x.awaits) : d.lineStarts n tag = (d.echoCheck n x).openLine n x := by
  have hgo : ((d.port n).inUse.filter fun t => t.tag == tag && decide (t.got < t.awaits)) = some x := by
    rw [hx]
    exact Option.filter_some_pos (by simp [ht, hg])
  unfold Dev.lineStarts
  rw [hgo]

/-- The records that a Line Start retires: that in use if it still awaits lines, and those older than the one it names. -/
def Port.retired (p : Port) (older : List TrigRec) : List TrigRec := (p.inUse.filter fun y => decide (y.got < y.awaits)).toList ++ older

theorem Dev.lineStarts_consumes {n tag : Nat} {d : Dev} {older rest : List TrigRec} {x : TrigRec} (hu : (d.port n).noneGoesOn tag)
    (ht : (d.port n).table = older ++ x :: rest) (hx : x.tag = tag) (ho : ∀ y ∈ older, y.tag ≠ tag) :
    d.lineStarts n tag = d.consumeRecord n ((d.port n).retired older) rest x := by
  have hfind : ((d.port n).table.find? fun t => t.tag == tag) = some x := by
    rw [ht, List.find?_append, List.find?_eq_none.mpr fun y hy => by simpa using ho y hy]
    simp [hx]
  have htake : ((d.port n).table.takeWhile fun y => y.tag != tag) = older := by
    rw [ht, List.takeWhile_append_of_pos fun y hy => by simpa using ho y hy]
    simp [hx]
  have hdrop : (d.port n).table.drop (older.length + 1) = rest := by
    rw [ht, List.drop_append]
    simp
  unfold Dev.lineStarts Dev.consumeRecord
  rw [hu.filter, hfind]
  dsimp only
  rw [htake, Dev.modPort_eq_const, hdrop, ← Dev.modPort_eq_const d n fun p => { p with table := rest, inUse := none }]
  rfl

/-- What a consumed record leaves. -/
theorem Dev.consumeRecord_effect (gone rest : List TrigRec) (x : TrigRec) :
    let t := d.consumeRecord n gone rest x
    (t.port n).table = rest ∧ (t.port n).inUse = some { x with got := x.got + 1 } ∧ (t.port n).echo = none
    ∧ (∃ l, (t.port n).line = some l ∧ l.rcd = x ∧ l.sub = x.got ∧ l.planes = [] ∧ l.packets = 0)
    ∧ (t.pipe n).rx = (d.pipe n).rx ++ gone.flatMap (·.lostLines Cause.noLine)
    ∧ t.fld (Reg.hlErr2 n) 16 8 = satAdd 8 (d.fld (Reg.hlErr2 n) 16 8) gone.length
    ∧ t.fld (Reg.hlErr3 n) 8 8 = (if (d.port n).echoDiffers x then satAdd 8 (d.fld (Reg.hlErr3 n) 8 8) 1 else d.fld (Reg.hlErr3 n) 8 8)
    ∧ d.regsKept t [Reg.hlErr2 n, Reg.hlErr3 n] ∧ t = { d with regs := t.regs, ports := t.ports, pipes := t.pipes } := by
  have h32 : Reg.hlErr3 n ≠ Reg.hlErr2 n := by unfold Reg.hlErr3 Reg.hlErr2; omega
  intro t
  let d1 := d.modPort n fun p => { p with table := rest, inUse := none }
  let d2 := d1.retireAll n gone
  have ht : t = (d2.echoCheck n x).openLine n x := rfl
  have honly : d.OnlyHead [Reg.hlErr2 n, Reg.hlErr3 n] n t := by
    rw [ht, Dev.openLine_eq]
    exact ((((Dev.OnlyHead.refl _ n d).modPort _).trans (d1.onlyHead_retireAll n (by simp) gone)).trans
      (d2.onlyHead_echoCheck n (by simp) x)).modPort _
  have hport2 : d2.port n = { d.port n with table := rest, inUse := none } := by
    rw [Dev.port, Dev.retireAll_ports]
    exact d.port_modPort_same n _
  have herr3 : d2.fld (Reg.hlErr3 n) 8 8 = d.fld (Reg.hlErr3 n) 8 8 :=
    Dev.fld_congr ((d1.onlyHead_retireAll n (List.mem_singleton_self _) gone).word _ (List.mem_singleton.not.mpr h32)) 8 8
  obtain ⟨⟨u, hport3⟩, hpipes⟩ := d2.echoCheck_port n x
  have hport : t.port n = _ := (Dev.port_modPort_same (d2.echoCheck n x) n _).trans (by rw [hport3, hport2])
  have hpipe : t.pipe n = d2.pipe n := congrArg (fun ps : List Pipe => ps.getD n {}) hpipes
  refine ⟨congrArg Port.table hport, congrArg Port.inUse hport, congrArg Port.echo hport,
    ⟨_, congrArg Port.line hport, rfl, rfl, rfl, rfl⟩, ?_, ?_, ?_, honly.word, honly.frame⟩
  · rw [hpipe]; exact d1.retireAll_rx n gone
  · exact (Dev.fld_congr (d2.echoCheck_rd n x h32.symm) 16 8).trans (d1.retireAll_missed n gone)
  · refine (d2.echoCheck_mismatches n x).trans ?_
    rw [herr3, hport2]; rfl

/-- A record that goes on after its first line opens the next one; no Frame Start stands before it. -/
theorem Dev.goesOn_effect {n : Nat} {d : Dev} {x : TrigRec} (he : (d.port n).echo = none) (hg : 0 < x.got) :
    (d.echoCheck n x).openLine n x = { d with ports := modAt d.ports n fun _ =>
      { d.port n with inUse := some { x with got := x.got + 1 }, line := some ((d.port n).lineOf x) } } := by
  have hcheck : d.echoCheck n x = d := by
    unfold Dev.echoCheck
    rw [he]
    exact if_neg fun h => absurd h.1 (by omega)
  rw [hcheck, Dev.openLine_eq, Dev.modPort_eq_const, ← he]

/-! ## A line that ends (R109, R170) -/

/-- The open line goes, and a line takes its place on the way to pouncing. -/
def Dev.endLine (x : Line) : Dev := { d with
  ports := modAt d.ports n fun _ => { d.port n with line := none }
  pipes := modAt d.pipes n fun q => { q with rx := q.rx ++ [x] } }

theorem Dev.failLine_eq {l : OpenLine} (h : (d.port n).line = some l) (cause ctr : Nat) :
    d.failLine n cause ctr = (d.incSat (Reg.hlErr0 n) ctr 8 1).endLine n (l.rcd.line l.sub cause l.why []) := by
  unfold Dev.failLine
  rw [h]
  exact Dev.modPort_eq_const _ n _

theorem Dev.lengthError_eq {l : OpenLine} (h : (d.port n).line = some l) :
    d.lengthError n = (d.incSat (Reg.hlErr0 n) 0 8 1).endLine n (l.rcd.line l.sub Cause.length l.why []) :=
  d.failLine_eq n h Cause.length 0

theorem Dev.endLine_effect (x : Line) : ((d.endLine n x).pipe n).rx = (d.pipe n).rx ++ [x] ∧ ((d.endLine n x).port n).line = none :=
  ⟨congrArg Pipe.rx (getD_modAt_same d.pipes n _), congrArg Port.line (getD_modAt_same d.ports n _)⟩

theorem Dev.completeLine_overflow {l : OpenLine} (h : l.overflow = true) :
    d.completeLine n l = (d.hopDrop (10 + n)).endLine n (l.rcd.line l.sub Cause.rxOverflow l.why []) := by
  unfold Dev.completeLine
  rw [if_pos h, Dev.modPort_eq_const]
  rfl

theorem Dev.completeLine_passes {l : OpenLine} (h : l.overflow = false) :
    d.completeLine n l = (d.incWrap (Reg.hlLines n) 0 32 1).endLine n (l.rcd.line l.sub 0 l.why l.planes) := by
  unfold Dev.completeLine
  rw [if_neg (by rw [h]; decide), Dev.modPort_eq_const]
  rfl

/-! ## Pixels that join a line (R169, R170) -/

/-- The pixels of a packet of data type `ty` behind those that plane 0 of the open line has. -/
def OpenLine.joined (l : OpenLine) (ty : Nat) (p : Pixels) : List Nat :=
  l.planes.getD 0 [] ++ unpack ty (p.payload.length / unitBytes ty) p.payload

/-- The open line of one plane with a packet's pixels. -/
def OpenLine.extended (l : OpenLine) (new : List Nat) (p : Pixels) : OpenLine :=
  { l with planes := [new], packets := l.packets + 1, overflow := l.overflow || p.overflow }

theorem Dev.joinPixels_onePlane {n : Nat} {d : Dev} (hm : d.flag (Reg.hlCfg n) 25 = false) {l : OpenLine} (hl : l.planes.length ≤ 1)
    (p : Pixels) {new : List Nat} (hn : new = l.joined (d.fld (Reg.hlCfg n) 8 6) p) : d.joinPixels n p l 0 =
    if d.width n < new.length ∨ (8 ≤ l.packets + 1 ∧ new.length < d.width n) then d.lengthError n
    else if new.length = d.width n then d.completeLine n (l.extended new p)
    else d.modPort n fun q => { q with line := some (l.extended new p) } := by
  have hplanes : d.planesIn n = 1 := by rw [Dev.planesIn, hm]; rfl
  have hgrown : (l.planes ++ List.replicate (0 + 1 - l.planes.length) []).set 0 new = [new] := by
    match hp : l.planes with
    | [] => rfl
    | [_] => rfl
    | _ :: _ :: _ => rw [hp, List.length_cons, List.length_cons] at hl; omega
  unfold Dev.joinPixels
  extract_lets dt px old grown w pk l1
  have hnew : old ++ px = new := hn.symm
  have hone : grown = [new] := by
    unfold grown
    rw [hnew, hgrown]
  have hl1 : l1 = l.extended new p := by
    unfold l1
    rw [hone]
    rfl
  rw [← List.length_append, hnew, hone, hl1, hplanes]
  simp [w, pk]

end

end Sys2Proof.Machine
end

section
/-! SUPPORT. Blocks and packets of a head link (R160 to R174): what the errors outside packets count, and the statement. -/

namespace Sys2Proof.Machine

open Sys2Proof

/-! ## Blocks (R160, R165) -/

/-- What an error block of port n counts by its kind. -/
def Dev.countBlock (d : Dev) (n : Nat) (kind : Fin 3) : Dev :=
  if kind.val = 1 then d.incSat (Reg.hlErr3 n) 16 16 1 else if kind.val = 0 then d.incSat (Reg.hlErr2 n) 0 8 1 else d

/-- An error block counts once more where it truncates a packet. -/
def Dev.blockError (d : Dev) (n : Nat) (kind : Fin 3) (truncates : Bool) : Dev :=
  if truncates then (d.countBlock n kind).incSat (Reg.hlErr2 n) 0 8 1 else d.countBlock n kind

theorem exec_errorBlock {s : State} {head : Fin 16} (ha : s.alive) (hp : s.dev.portState head.val ≠ 0) (kind : Fin 3) (inPacket : Bool) :
    exec (.errorBlock head kind inPacket) s
      = .next { s with dev := s.dev.blockError head.val kind (inPacket && decide (s.dev.portState head.val = 3)) } := by
  change execErrorBlock head kind inPacket s = _
  rw [execErrorBlock, State.upd_alive ha]
  dsimp only
  rw [if_neg hp, Dev.blockError]
  simp only [Bool.and_eq_true, decide_eq_true_eq]
  rfl

theorem exec_strayDataBlock {s : State} {head : Fin 16} (ha : s.alive) (hp : s.dev.portState head.val ≠ 0) :
    exec (.strayDataBlock head) s = .next { s with dev := s.dev.incSat (Reg.hlErr2 head.val) 8 8 1 } := by
  change execStrayDataBlock head s = _
  rw [execStrayDataBlock, State.upd_alive ha]
  rw [if_neg hp]

section
variable (d : Dev) (n : Nat)

theorem Reg.hlErr2_ne_hlErr3 : Reg.hlErr2 n ≠ Reg.hlErr3 n := by unfold Reg.hlErr2 Reg.hlErr3; omega

theorem Dev.fld_hlErr3_incSat_hlErr2 (lo w k lo' w' : Nat) :
    (d.incSat (Reg.hlErr2 n) lo w k).fld (Reg.hlErr3 n) lo' w' = d.fld (Reg.hlErr3 n) lo' w' :=
  Dev.fld_congr (Dev.rd_incSat_ne _ _ _ _ _ _ (Reg.hlErr2_ne_hlErr3 n).symm) _ _

theorem Dev.countBlock_effect (kind : Fin 3) :
    (d.countBlock n kind).fld (Reg.hlErr2 n) 0 8 = satAdd 8 (d.fld (Reg.hlErr2 n) 0 8) (b2n (kind == 0))
    ∧ (d.countBlock n kind).fld (Reg.hlErr3 n) 16 16 = satAdd 16 (d.fld (Reg.hlErr3 n) 16 16) (b2n (kind == 1))
    ∧ d.onlyRegs (d.countBlock n kind) [Reg.hlErr2 n, Reg.hlErr3 n] := by
  have h0 := d.onlyRegs_refl [Reg.hlErr2 n, Reg.hlErr3 n]
  have s2 := (d.satAdd_fld_zero (Reg.hlErr2 n) 0 8).symm
  have s3 := (d.satAdd_fld_zero (Reg.hlErr3 n) 16 16).symm
  match kind with
  | 0 => exact ⟨d.fld_incSat_same _ _ (by decide), (d.fld_hlErr3_incSat_hlErr2 n _ _ _ _ _).trans s3,
      h0.incSat (a := Reg.hlErr2 n) (by simp) _ _ _⟩
  | 1 => exact ⟨(Dev.fld_congr (Dev.rd_incSat_ne _ _ _ _ _ _ (Reg.hlErr2_ne_hlErr3 n)) 0 8).trans s2, d.fld_incSat_same _ _ (by decide),
      h0.incSat (a := Reg.hlErr3 n) (by simp) _ _ _⟩
  | 2 => exact ⟨s2, s3, h0⟩

theorem Dev.blockError_effect (kind : Fin 3) (truncates : Bool) :
    (d.blockError n kind truncates).fld (Reg.hlErr2 n) 0 8 = satAdd 8 (d.fld (Reg.hlErr2 n) 0 8) (b2n (kind == 0) + b2n truncates)
    ∧ (d.blockError n kind truncates).fld (Reg.hlErr3 n) 16 16 = satAdd 16 (d.fld (Reg.hlErr3 n) 16 16) (b2n (kind == 1))
    ∧ d.onlyRegs (d.blockError n kind truncates) [Reg.hlErr2 n, Reg.hlErr3 n] := by
  obtain ⟨e2, e3, eo⟩ := d.countBlock_effect n kind
  cases truncates with
  | false => exact ⟨e2, e3, eo⟩
  | true =>
    refine ⟨(Dev.fld_incSat_same _ _ _ (by decide)).trans ?_, (Dev.fld_hlErr3_incSat_hlErr2 _ _ _ _ _ _ _).trans e3,
      eo.incSat (by simp) _ _ _⟩
    rw [e2, satAdd_satAdd]; rfl

theorem Dev.strayBlock_effect : (d.incSat (Reg.hlErr2 n) 8 8 1).fld (Reg.hlErr2 n) 8 8 = satAdd 8 (d.fld (Reg.hlErr2 n) 8 8) 1
    ∧ d.onlyRegs (d.incSat (Reg.hlErr2 n) 8 8 1) [Reg.hlErr2 n] :=
  ⟨d.fld_incSat_same _ _ (by decide), (d.onlyRegs_refl _).incSat (by simp) _ _ _⟩

end

/-! ## Packets that are kept (R168 to R174) -/

theorem Dev.takeFrameStart_eq (n : Nat) (d : Dev) (w : Word) : d.takeFrameStart n w =
    { (if (d.port n).frameOpen then d.incSat (Reg.hlErr1 n) 0 8 1 else d) with
      ports := modAt (if (d.port n).frameOpen then d.incSat (Reg.hlErr1 n) 0 8 1 else d).ports n fun _ =>
        { d.port n with frameOpen := true, echo := some (hdrField w % 256) } } := by
  rw [Dev.takeFrameStart, Dev.modPort_eq_const]
  split <;> rfl

section
variable {n : Nat} {d : Dev} {w : Word} {p : Pixels} {l : OpenLine}

theorem Dev.takePixels_noLine (h : (d.port n).line = none) (hty : hdrType w = d.fld (Reg.hlCfg n) 8 6) :
    d.takePixels n w p = d.incSat (Reg.hlErr0 n) 0 8 1 := by
  have hplane : d.planeOf n (hdrType w) = some 0 := if_pos hty
  rw [Dev.takePixels, hplane, h]

section
variable (h : (d.port n).line = some l) (hty : hdrType w = d.fld (Reg.hlCfg n) 8 6)
include h hty

theorem Dev.takePixels_line : d.takePixels n w p
    = if p.footer ≠ csiCrc p.payload then d.failLine n Cause.checksum 8 else d.joinPixels n p l 0 := by
  have hplane : d.planeOf n (hdrType w) = some 0 := if_pos hty
  rw [Dev.takePixels, hplane, h]

theorem Dev.takePixels_badFooter (hp : ¬ p.footer = csiCrc p.payload) :
    d.takePixels n w p = (d.incSat (Reg.hlErr0 n) 8 8 1).endLine n (l.rcd.line l.sub Cause.checksum l.why []) := by
  rw [Dev.takePixels_line h hty, if_pos hp, d.failLine_eq n h]

variable (hm : d.flag (Reg.hlCfg n) 25 = false) (hl : l.planes.length ≤ 1) {new : List Nat} (hn : new = l.joined (hdrType w) p)
  (hp : p.footer = csiCrc p.payload)
include hm hl hn hp

theorem Dev.takePixels_joined : d.takePixels n w p =
    if d.width n < new.length ∨ (8 ≤ l.packets + 1 ∧ new.length < d.width n) then d.lengthError n
    else if new.length = d.width n then d.completeLine n (l.extended new p)
    else d.modPort n fun q => { q with line := some (l.extended new p) } := by
  rw [Dev.takePixels_line h hty, if_neg (not_not.mpr hp), Dev.joinPixels_onePlane hm hl p (hty ▸ hn)]

theorem Dev.takePixels_badLength (hw : d.width n < new.length ∨ (8 ≤ l.packets + 1 ∧ new.length < d.width n)) :
    d.takePixels n w p = (d.incSat (Reg.hlErr0 n) 0 8 1).endLine n (l.rcd.line l.sub Cause.length l.why []) := by
  rw [Dev.takePixels_joined h hty hm hl hn hp, if_pos hw, d.lengthError_eq n h]

theorem Dev.takePixels_partial (hw : new.length < d.width n) (hk : l.packets + 1 < 8) :
    d.takePixels n w p = { d with ports := modAt d.ports n fun _ => { d.port n with line := some (l.extended new p) } } := by
  rw [Dev.takePixels_joined h hty hm hl hn hp, if_neg (by omega), if_neg (by omega), Dev.modPort_eq_const]

theorem Dev.takePixels_complete (hw : new.length = d.width n) : d.takePixels n w p = d.completeLine n (l.extended new p) := by
  rw [Dev.takePixels_joined h hty hm hl hn hp, if_neg (by omega), if_pos hw]

theorem Dev.takePixels_overflow_effect (hw : new.length = d.width n) (ho : (l.overflow || p.overflow) = true) :
    let t := d.takePixels n w p
    t.fld (Reg.hopCnt (10 + n)) 8 8 = satAdd 8 (d.fld (Reg.hopCnt (10 + n)) 8 8) 1
    ∧ (t.pipe n).rx = (d.pipe n).rx ++ [l.rcd.line l.sub Cause.rxOverflow l.why []] ∧ (t.port n).line = none
    ∧ d.regsKept t [Reg.hopCnt (10 + n)] ∧ t = { d with regs := t.regs, ports := t.ports, pipes := t.pipes } := by
  have hover : (l.extended new p).overflow = true := ho
  rw [Dev.takePixels_complete h hty hm hl hn hp hw, d.completeLine_overflow n hover]
  obtain ⟨hrx, hline⟩ := (d.hopDrop (10 + n)).endLine_effect n (l.rcd.line l.sub Cause.rxOverflow l.why [])
  exact ⟨d.fld_incSat_same _ _ (by decide), hrx, hline, (d.regsKept_refl _).incSat (by simp) _ _ _, rfl⟩

theorem Dev.takePixels_complete_effect (hw : new.length = d.width n) (hlo : l.overflow = false) (hpo : p.overflow = false) :
    let t := d.takePixels n w p
    t.fld (Reg.hlLines n) 0 32 = wrapAdd 32 (d.fld (Reg.hlLines n) 0 32) 1
    ∧ (t.pipe n).rx = (d.pipe n).rx ++ [l.rcd.line l.sub 0 l.why [new]] ∧ (t.port n).line = none
    ∧ d.regsKept t [Reg.hlLines n] ∧ t = { d with regs := t.regs, ports := t.ports, pipes := t.pipes } := by
  have hover : (l.extended new p).overflow = false := Bool.or_eq_false_iff.mpr ⟨hlo, hpo⟩
  rw [Dev.takePixels_complete h hty hm hl hn hp hw, d.completeLine_passes n hover]
  obtain ⟨hrx, hline⟩ := (d.incWrap (Reg.hlLines n) 0 32 1).endLine_effect n (l.rcd.line l.sub 0 l.why [new])
  exact ⟨d.fld_incWrap_same _ _ (by decide), hrx, hline, (d.regsKept_refl _).incWrap (by simp) _ _ _, rfl⟩

end

/-- A data type that is neither short, nor a message, nor carried by a plane of the port is discarded (R168). -/
theorem discards_of {ty : Nat} (h4 : 4 ≤ ty) (h37 : ty ≠ 0x37) (hty : ty ≠ d.fld (Reg.hlCfg n) 8 6)
    (hm : d.flag (Reg.hlCfg n) 25 = true → ty < 0x30 ∨ 0x33 < ty) : discards n d ty = true := by
  have hplane : d.planeOf n ty = none := by
    rw [Dev.planeOf, if_neg hty, if_neg]
    intro h
    obtain ⟨hflag, hrange⟩ := (Bool.and_eq_true _ _).mp h
    have := hm hflag
    have := of_decide_eq_true hrange
    omega
  simp [discards, hplane, h37]
  omega

end

theorem exec_lineTimeout {s : State} (ha : s.alive) (head : Fin 16) :
    exec (.lineTimeout head) s = .next { s with dev := s.dev.lengthError head.val } := by
  change execLineTimeout head s = _
  rw [execLineTimeout, State.upd_alive ha]

/-- Settles O20: a packet's header decides whether it is kept, and each row's treatment of a kept packet is one of the lemmas above. -/
theorem headPackets : Obligations.HeadPackets := by
  unfold Obligations.HeadPackets
  rintro s head _ ha rfl hup hsafe
  have hp0 : s.dev.portState head.val ≠ 0 := by omega
  refine ⟨fun h px data footer types c hc => ?_, fun kind inPacket => ?_,
    ⟨_, exec_strayDataBlock ha hp0, s.dev.strayBlock_effect head.val⟩, ?_⟩
  · obtain ⟨T, f, htreat, rfl⟩ := packetRows_treat (d := s.dev) (x := ⟨data, footer⟩) hc
    exact htreat.headers ha hup hsafe h
  · refine ⟨_, exec_errorBlock ha hp0 kind inPacket, ?_⟩
    rw [hup, decide_eq_true rfl, Bool.and_true]
    exact s.dev.blockError_effect head.val kind inPacket
  intro h w he hv ty fd p sp
  have hstart : ∀ {effect : Dev → Prop}, ty = 2 → p.line = none → effect (s.dev.lineStarts head.val fd) →
      Becomes (.lineStartPacket head h) s effect := fun hty hl hf =>
    (lineStart_treats head).becomes ha hup hsafe he hv (beq_iff_eq.mpr hty) (by rw [Dev.takeLineStart_idle hl]; exact hf)
  have hpixels : ∀ {effect : Dev → Prop} {px : Pixels}, pixelType ty = true → effect (s.dev.takePixels head.val w px) →
      Becomes (.pixelPacket head h px) s effect := fun hty hf => (pixels_treats head _).becomes ha hup hsafe he hv hty hf
  have hmessage : ∀ {effect : Dev → Prop} {x : HeadData}, ty = 0x37 → effect (s.dev.takeHeadMessage head.val x w) →
      Becomes (.headMessagePacket head h x) s effect := fun hty hf =>
    (headMessage_treats head _).becomes ha hup hsafe he hv (beq_iff_eq.mpr hty) hf
  refine ⟨fun h0 => ?_, fun h1 => ?_, fun h3 => ?_, fun h2 hl ht hu => ?_, fun older rest x h2 hl ht hx ho hu => ?_,
    fun x h2 hl hx ht hg hecho h0 => ?_, ?_, fun px hl hpt hty => ?_, fun data footer h37 hlen => ?_,
    fun data footer h37 h1 h256 hbad => ?_, fun data h37 h1 h256 => ?_, fun h4 h37 hty hm payload => ?_, fun l hl => ?_⟩
  · exact (frameStart_treats head).becomes ha hup hsafe he hv (beq_iff_eq.mpr h0) (s.dev.takeFrameStart_eq head.val w)
  · exact (frameEnd_treats head).becomes ha hup hsafe he hv (beq_iff_eq.mpr h1) (s.dev.modPort_eq_const head.val _)
  · refine (lineEnd_treats head).becomes ha hup hsafe he hv (beq_iff_eq.mpr h3) ?_
    unfold Dev.takeLineEnd
    split
    · rfl
    · rfl
  · exact hstart h2 hl (Dev.lineStarts_unknown hu ht)
  · refine hstart h2 hl ?_
    rw [Dev.lineStarts_consumes hu ht hx ho]
    exact s.dev.consumeRecord_effect head.val _ rest x
  · refine hstart h2 hl ?_
    rw [Dev.lineStarts_goesOn hx ht hg, Dev.goesOn_effect hecho h0]
    exact ⟨_, rfl, rfl, rfl, rfl⟩
  · intro px l hl hpt hty hm hone new ok lost
    refine ⟨fun hbad => ?_, fun hok hw => ?_, fun hok hw hk => ?_, fun hok hw hover => ?_, fun hok hw hlo hpo => ?_⟩
    · exact hpixels hpt (Dev.takePixels_badFooter hl hty hbad)
    · exact hpixels hpt (Dev.takePixels_badLength hl hty hm hone rfl hok hw)
    · exact hpixels hpt (Dev.takePixels_partial hl hty hm hone rfl hok hw hk)
    · exact hpixels hpt (Dev.takePixels_overflow_effect hl hty hm hone rfl hok hw hover)
    · exact hpixels hpt (Dev.takePixels_complete_effect hl hty hm hone rfl hok hw hlo hpo)
  · exact hpixels hpt (Dev.takePixels_noLine hl hty)
  · exact hmessage h37 (if_pos (by simpa using hlen))
  · exact hmessage h37 ((if_neg (by simp only; omega)).trans (if_pos hbad))
  · exact hmessage h37 ((if_neg (by simp only; omega)).trans (if_neg (not_not.mpr rfl)))
  · exact (discarded_treats head payload).becomes ha hup hsafe he hv (discards_of h4 h37 hty hm) rfl
  · exact ⟨_, exec_lineTimeout ha head, s.dev.lengthError_eq head.val hl⟩

end Sys2Proof.Machine
end

section
/-! SUPPORT. The states of a head link port: lane markers, marker lock, the loss of the link and training (R159 to R163, R183 to R187). -/

namespace Sys2Proof.Machine

open Sys2Proof

theorem Reg.hlStat_ne_hlErr3 (n : Nat) : Reg.hlStat n ≠ Reg.hlErr3 n := by unfold Reg.hlStat Reg.hlErr3; omega
theorem Reg.hlCfg_ne_hlStat (n : Nat) : Reg.hlCfg n ≠ Reg.hlStat n := by unfold Reg.hlCfg Reg.hlStat; omega

/-! ## The state of a port, and its marker lock (R163, R183) -/

section
variable (d : Dev) (n : Nat)

theorem Dev.portState_setPortState {st : Nat} (h : st < 8) : (d.setPortState n st).portState n = st :=
  (d.fld_setFld_same _ 29 3 st (by decide)).trans (Nat.mod_eq_of_lt h)

theorem Dev.flag_setPortState {i : Nat} (st : Nat) (h : i < 29) : (d.setPortState n st).flag (Reg.hlStat n) i = d.flag (Reg.hlStat n) i :=
  d.flag_setFld_ne _ _ (by omega) (.inl h)

theorem Dev.fld_setPortState {lo w : Nat} (st : Nat) (h : lo + w ≤ 29) :
    (d.setPortState n st).fld (Reg.hlStat n) lo w = d.fld (Reg.hlStat n) lo w := d.fld_setFld_ne _ _ (by omega) (.inl h)

theorem Dev.portState_setFlag {i : Nat} (b : Bool) (h : i < 29) : (d.setFlag (Reg.hlStat n) i b).portState n = d.portState n :=
  d.fld_setFlag_ne _ b (by omega) (.inl h)

theorem Dev.onlyHead_setPortState {l : List Nat} (hl : Reg.hlStat n ∈ l) (st : Nat) : d.OnlyHead l n (d.setPortState n st) :=
  (Dev.OnlyHead.refl l n d).setFld hl _ _ _

theorem Dev.onlyHead_clearLock {l : List Nat} (hl : Reg.hlStat n ∈ l) : d.OnlyHead l n (d.clearLock n) := by
  unfold Dev.clearLock
  exact ((Dev.OnlyHead.refl l n d).setFlag hl _ _).modPort _

theorem Dev.rd_modPort (f : Port → Port) (a : Nat) : (d.modPort n f).rd a = d.rd a := rfl

theorem Dev.clearLock_rd (a : Nat) : (d.clearLock n).rd a = (d.setFlag (Reg.hlStat n) 23 false).rd a := by
  rw [Dev.clearLock, Dev.rd_modPort]

theorem Dev.portState_clearLock : (d.clearLock n).portState n = d.portState n := by
  rw [← d.portState_setFlag n false (by decide : 23 < 29), Dev.portState, Dev.fld_congr (d.clearLock_rd n _), Dev.portState]

theorem Dev.clearLock_lock : (d.clearLock n).flag (Reg.hlStat n) 23 = false := by
  rw [Dev.flag_congr (d.clearLock_rd n _)]
  exact d.flag_setFlag_same _ _ _ (by decide)

theorem Dev.clearLock_flag {i : Nat} (h : i ≠ 23) : (d.clearLock n).flag (Reg.hlStat n) i = d.flag (Reg.hlStat n) i := by
  rw [Dev.flag_congr (d.clearLock_rd n _)]
  exact d.flag_setFlag_ne _ _ (by decide) h

theorem Dev.port_setFlag (a i : Nat) (b : Bool) : (d.setFlag a i b).port n = d.port n := rfl

theorem Dev.port_incSat (a lo w k : Nat) : (d.incSat a lo w k).port n = d.port n := rfl

theorem Dev.port_setFld (a lo w v : Nat) : (d.setFld a lo w v).port n = d.port n := rfl

theorem Dev.port_setPortState (st : Nat) : (d.setPortState n st).port n = d.port n := by
  rw [Dev.setPortState, Dev.port_setFld]

theorem Dev.pipes_modPort (f : Port → Port) : (d.modPort n f).pipes = d.pipes := rfl

theorem Dev.pipes_setFlag (a i : Nat) (b : Bool) : (d.setFlag a i b).pipes = d.pipes := rfl

theorem Dev.pipes_setFld (a lo w v : Nat) : (d.setFld a lo w v).pipes = d.pipes := rfl

theorem Dev.pipes_incSat (a lo w k : Nat) : (d.incSat a lo w k).pipes = d.pipes := rfl

theorem Dev.clearLock_port : (d.clearLock n).port n = { d.port n with mcount := [none, none, none, none], runs := [0, 0, 0, 0] } := by
  rw [Dev.clearLock, Dev.port_modPort_same, Dev.port_setFlag]

theorem Dev.onlyRegs.onlyHead {d t : Dev} {l : List Nat} (h : d.onlyRegs t l) (n : Nat) : d.OnlyHead l n t :=
  ⟨h.2, fun j _ => (congrArg (fun x : Dev => x.port j) h.1 :), fun j _ => (congrArg (fun x : Dev => x.pipe j) h.1 :),
    (congrArg Dev.sansHead h.1 :)⟩

/-! ## Lane markers (R161 to R163) -/

/-- The device that shows what a valid marker m of port n says of its head and its skew. -/
def Dev.markerSeen (m : Bytes) (skew : Nat) : Dev := (d.setFld (Reg.hlStat n) 0 8 (byteAt m 4)).setFld (Reg.hlStat n) 8 6 (min skew 32)

theorem Dev.markerSeen_effect (m : Bytes) (skew : Nat) : d.onlyRegs (d.markerSeen n m skew) [Reg.hlStat n]
    ∧ (d.markerSeen n m skew).fld (Reg.hlStat n) 0 8 = byteAt m 4 ∧ (d.markerSeen n m skew).fld (Reg.hlStat n) 8 6 = min skew 32
    ∧ (d.markerSeen n m skew).portState n = d.portState n := by
  have hbyte : byteAt m 4 < 2 ^ 8 := (m.getD 4 0).isLt
  refine ⟨((d.onlyRegs_refl _).setFld (by simp) _ _ _).setFld (by simp) _ _ _, ?_, ?_, ?_⟩
  · refine (Dev.fld_setFld_ne _ _ _ (by decide) (by decide)).trans ?_
    exact (d.fld_setFld_same _ _ _ _ (by decide)).trans (Nat.mod_eq_of_lt hbyte)
  · exact (Dev.fld_setFld_same _ _ _ _ _ (by decide)).trans (Nat.mod_eq_of_lt (by omega))
  · exact (Dev.fld_setFld_ne _ _ _ (by decide) (by decide)).trans (d.fld_setFld_ne _ _ (by decide) (by decide))

/-- A marker names the lane count and the logical lane that it came on. -/
def Dev.markerGood (k : Nat) (m : Bytes) : Bool := byteAt m 1 / 64 == lcodeOf (d.laneCount n) && byteAt m 1 % 4 == k

theorem Dev.markerGood_iff (k : Nat) (m : Bytes) :
    d.markerGood n k m = true ↔ byteAt m 1 / 64 = lcodeOf (d.laneCount n) ∧ byteAt m 1 % 4 = k := by
  rw [Dev.markerGood, Bool.and_eq_true, beq_iff_eq, beq_iff_eq]

theorem Dev.markerGood_seen (k : Nat) (m m' : Bytes) (skew : Nat) : (d.markerSeen n m' skew).markerGood n k m = d.markerGood n k m := by
  have hcount : (d.markerSeen n m' skew).laneCount n = d.laneCount n := congrArg (2 ^ ·)
    (Dev.fld_congr ((d.markerSeen_effect n m' skew).1.2 _ (List.mem_singleton.not.mpr (Reg.hlCfg_ne_hlStat n))) 26 2)
  rw [Dev.markerGood, hcount, Dev.markerGood]

/-- A marker's count follows that of the last one of its lane, if there was one, as many periods later as it stands behind it. -/
def markerFollows (last gap : Option Nat) (mc : Nat) : Bool := last.isNone || last.any fun c => gap.any fun g => (c + g) % 65536 == mc

/-- The periods between two markers, 0 where the spacing is not right. -/
def periodsOf (blocks : Nat) : Nat := if blocks % 16384 = 16383 then blocks / 16384 + 1 else 0

theorem markerPeriods_any (blocks : Nat) (p : Nat → Bool) :
    (markerPeriods blocks).any p = true ↔ periodsOf blocks ≠ 0 ∧ p (periodsOf blocks) = true := by
  unfold markerPeriods periodsOf
  split
  · simp
  · simp

theorem markerFollows_iff (last : Option Nat) (blocks mc : Nat) : markerFollows last (markerPeriods blocks) mc = true
    ↔ ∀ c, last = some c → periodsOf blocks ≠ 0 ∧ (c + periodsOf blocks) % 65536 = mc := by
  unfold markerFollows
  cases last with
  | none => simp
  | some c => simp [markerPeriods_any]

/-- The marker after the last one of its lane, one period later. -/
theorem markerNext_iff (last : Option Nat) (blocks mc : Nat) :
    (markerPeriods blocks == some 1 && last.isSome && markerFollows last (markerPeriods blocks) mc) = true
    ↔ blocks = 16383 ∧ last.any (fun c => (c + 1) % 65536 == mc) = true := by
  have hone : markerPeriods blocks = some 1 ↔ blocks = 16383 := by
    unfold markerPeriods
    split
    · simp only [Option.some.injEq]; omega
    · simp only [reduceCtorEq, false_iff]; omega
  rw [Bool.and_eq_true, Bool.and_eq_true, beq_iff_eq, hone, and_assoc]
  refine and_congr_right fun hb => ?_
  rw [hone.mpr hb]
  cases last <;> simp [markerFollows]

/-- The run of good markers of a lane after one more. -/
def runAfter (good next : Bool) (skew run : Nat) : Nat := if good && decide (skew ≤ 32) then (if next then run + 1 else 1) else 0

/-- The count of the last valid marker of lane k. -/
def Port.lastMarker (p : Port) (k : Nat) : Option Nat := p.mcount.getD k none

/-- The port has seen the count of a valid marker of lane k. -/
def Port.counted (p : Port) (k mc : Nat) : Port := { p with mcount := p.mcount.set k (some mc) }

/-- A valid marker of logical lane k (R163). -/
def Dev.takeMarker (k : Nat) (m : Bytes) (x : MarkerAt) : Dev :=
  let u := d.markerSeen n m x.skew
  let last := (u.port n).lastMarker k
  let gap := markerPeriods x.blocks
  let t := u.modPort n fun p => p.counted k (leAt m 2 2)
  let good := u.markerGood n k m
  let follows := markerFollows last gap (leAt m 2 2)
  if u.portState n = 3 then
    if x.skew > 32 then u.linkDown n 3
    else if (gap.any fun g => decide (g > 2)) = true then u.linkDown n 1
    else if !good || !follows then u.linkDown n 2
    else t
  else t.modPort n fun p => { p with
    runs := p.runs.set k (runAfter good (gap == some 1 && last.isSome && follows) x.skew (p.runs.getD k 0)) }

end

section
variable {s : State} {head : Fin 16} (ha : s.alive) (hp : s.dev.portState head.val ≠ 0) {k : Nat} {lane : Fin 4}
  (hk : s.dev.logicalLane head.val lane.val = some k) (m : Bytes) (x : MarkerAt)
include ha hp hk

theorem exec_laneMarker_bad (hc : pecOf (m.take 7) ≠ m.getD 7 0) :
    exec (.laneMarker head lane m x) s = .next { s with dev := s.dev.incSat (Reg.hlErr2 head.val) 0 8 1 } := by
  change execLaneMarker head lane m x s = _
  rw [execLaneMarker, State.upd_alive ha]
  dsimp only
  rw [hk, if_neg (by simpa using hp), if_pos hc]

theorem exec_laneMarker (hc : pecOf (m.take 7) = m.getD 7 0) :
    exec (.laneMarker head lane m x) s = .next { s with dev := s.dev.takeMarker head.val k m x } := by
  change execLaneMarker head lane m x s = _
  rw [execLaneMarker, State.upd_alive ha]
  dsimp only
  rw [hk, if_neg (by simpa using hp), if_neg (not_not.mpr hc)]
  rfl

end

theorem Port.lastMarker_counted (p : Port) (k mc : Nat) :
    (p.counted k mc).lastMarker k = if k < p.mcount.length then some mc else none := by
  unfold Port.lastMarker Port.counted
  split
  next h => simp [List.getD_eq_getElem?_getD, h]
  next h => simp [List.getD_eq_getElem?_getD, h]

section
variable {d : Dev} {n k : Nat} (m : Bytes) (x : MarkerAt)

/-- A valid marker in training: head and skew show, and the lane's run goes on, begins again or is lost. -/
theorem Dev.takeMarker_training (hp : d.portState n ≠ 3) :
    let t := d.takeMarker n k m x
    t = { d with regs := t.regs, ports := t.ports } ∧ d.regsKept t [Reg.hlStat n]
    ∧ t.fld (Reg.hlStat n) 0 8 = byteAt m 4 ∧ t.fld (Reg.hlStat n) 8 6 = min x.skew 32 ∧ t.portState n = d.portState n
    ∧ (t.port n).lastMarker k = (if k < (d.port n).mcount.length then some (leAt m 2 2) else none)
    ∧ (k < (d.port n).runs.length → (t.port n).runs.getD k 0 =
        if (byteAt m 1 / 64 = lcodeOf (d.laneCount n) ∧ byteAt m 1 % 4 = k) ∧ x.skew ≤ 32 then
          (if x.blocks = 16383 ∧ ((d.port n).lastMarker k).any (fun c => (c + 1) % 65536 == leAt m 2 2) = true then
            (d.port n).runs.getD k 0 + 1 else 1)
        else 0)
    ∧ ∀ j, j < 16 → j ≠ n → t.port j = d.port j := by
  obtain ⟨honly, hid, hskew, hstate⟩ := d.markerSeen_effect n m x.skew
  have hgood := d.markerGood_seen n k m m x.skew
  have hports : (d.markerSeen n m x.skew).ports = d.ports := rfl
  unfold Dev.takeMarker
  generalize d.markerSeen n m x.skew = u at *
  have hport : u.port n = d.port n := congrArg (fun ps : List Port => ps.getD n {}) hports
  dsimp only
  rw [if_neg (by rw [hstate]; exact hp), hport, hgood]
  let c := u.modPort n fun p => p.counted k (leAt m 2 2)
  have hc : c.port n = (d.port n).counted k (leAt m 2 2) := (u.port_modPort_same n _).trans (by rw [hport])
  have hrest : u.OnlyHead [Reg.hlStat n] n c := (Dev.OnlyHead.refl _ n u).modPort _
  have hu : d.OnlyHead [Reg.hlStat n] n u := honly.onlyHead n
  have hpipes : u.pipes = d.pipes := (congrArg Dev.pipes honly.1 :)
  have ht := (hu.trans hrest).modPort fun p => { p with runs := p.runs.set k (runAfter (d.markerGood n k m)
    (markerPeriods x.blocks == some 1 && ((d.port n).lastMarker k).isSome
      && markerFollows ((d.port n).lastMarker k) (markerPeriods x.blocks) (leAt m 2 2)) x.skew (p.runs.getD k 0)) }
  refine ⟨ht.frame_ports hpipes, ht.word, hid, hskew, hstate, ?_, fun hlt => ?_, fun j _ hj => ht.port j hj⟩
  · rw [Dev.port_modPort_same]
    change (c.port n).lastMarker k = _
    rw [hc, Port.lastMarker_counted]
  · rw [Dev.port_modPort_same]
    change ((c.port n).runs.set k (runAfter _ _ _ ((c.port n).runs.getD k 0))).getD k 0 = _
    rw [hc]
    change ((d.port n).runs.set k (runAfter _ _ _ ((d.port n).runs.getD k 0))).getD k 0 = _
    rw [List.getD_eq_getElem?_getD, List.getElem?_set_self hlt, Option.getD_some, runAfter]
    simp only [Bool.and_eq_true (d.markerGood n k m), d.markerGood_iff, markerNext_iff, decide_eq_true_eq]

/-- A valid marker on an UP port: the link is lost by its skew, by markers that were missed, or by what it says (R163). -/
theorem Dev.takeMarker_up (hp : d.portState n = 3) :
    let t := d.takeMarker n k m x
    let u := d.markerSeen n m x.skew
    let good := byteAt m 1 / 64 = lcodeOf (d.laneCount n) ∧ byteAt m 1 % 4 = k
    let follows := ∀ c, (d.port n).lastMarker k = some c → periodsOf x.blocks ≠ 0 ∧ (c + periodsOf x.blocks) % 65536 = leAt m 2 2
    (32 < x.skew → t = u.linkDown n 3) ∧ (x.skew ≤ 32 → 2 < periodsOf x.blocks → t = u.linkDown n 1)
    ∧ (x.skew ≤ 32 → periodsOf x.blocks ≤ 2 → ¬ (good ∧ follows) → t = u.linkDown n 2)
    ∧ (x.skew ≤ 32 → periodsOf x.blocks ≤ 2 → good → follows → t = { u with ports := t.ports } ∧ t.portState n = 3
      ∧ (t.port n).lastMarker k = (if k < (d.port n).mcount.length then some (leAt m 2 2) else none)) := by
  obtain ⟨honly, -, -, hstate⟩ := d.markerSeen_effect n m x.skew
  have hgood := d.markerGood_seen n k m m x.skew
  have hports : (d.markerSeen n m x.skew).ports = d.ports := rfl
  unfold Dev.takeMarker
  generalize d.markerSeen n m x.skew = u at *
  have hport : u.port n = d.port n := congrArg (fun ps : List Port => ps.getD n {}) hports
  dsimp only
  rw [if_pos (hstate.trans hp), hport, hgood, ← markerFollows_iff, ← d.markerGood_iff]
  have hgap : ((markerPeriods x.blocks).any fun g => decide (g > 2)) = true ↔ 2 < periodsOf x.blocks := by
    rw [markerPeriods_any, decide_eq_true_eq]; omega
  refine ⟨fun h => if_pos h, fun h hg => ?_, fun h hg hn => ?_, fun h hg hgd hf => ?_⟩
  · rw [if_neg (by omega), if_pos (hgap.mpr hg)]
  · rw [if_neg (by omega), if_neg (hgap.not.mpr (by omega)), if_pos]
    simpa [Bool.or_eq_true, imp_iff_not_or] using hn
  · rw [if_neg (by omega), if_neg (hgap.not.mpr (by omega)), if_neg (by rw [hgd, hf]; decide)]
    refine ⟨rfl, hstate.trans hp, ?_⟩
    rw [u.port_modPort_same, hport, Port.lastMarker_counted]

end

/-! ## The loss of the link (R163, R186) -/

section
variable (d : Dev) (n : Nat)

/-- An UP port has gone DOWN; its message, its fault source and its event are still to come (R186). -/
def Dev.downed : Dev :=
  let d1 := (d.dropTable n Cause.link).incSat (Reg.hlErr3 n) 0 8 1
  ((d1.setPortState n 4).clearLock n).modPort n fun p => { p with lastDown := some d1.spos, frameOpen := false }

theorem Dev.linkDown_up (h : d.portState n = 3) (cause : Nat) : d.linkDown n cause
    = (((d.downed n).abortMessage n).faultOn (0x10 + n)).event 0x8402 none (le 1 n ++ le 1 cause ++ zeros 2) := by
  rw [Dev.linkDown, if_neg (not_not.mpr h)]
  rfl

theorem Dev.linkDown_idle (h : d.portState n ≠ 3) (cause : Nat) : d.linkDown n cause = d := if_pos h

theorem Dev.downed_onlyHead : d.OnlyHead [Reg.hlStat n, Reg.hlErr3 n] n (d.downed n) := by
  have h1 := (d.onlyHead_dropTable n [Reg.hlStat n, Reg.hlErr3 n] Cause.link).incSat (a := Reg.hlErr3 n) (by simp) 0 8 1
  exact ((h1.trans (Dev.onlyHead_setPortState _ n (by simp) 4)).trans (Dev.onlyHead_clearLock _ n (by simp))).modPort _

theorem Dev.dropTable_rd (cause a : Nat) : (d.dropTable n cause).rd a = d.rd a := by rw [Dev.rd, Dev.dropTable_regs, Dev.rd]

theorem Dev.downed_status : (d.downed n).portState n = 4 ∧ (d.downed n).flag (Reg.hlStat n) 23 = false
    ∧ (d.downed n).fld (Reg.hlErr3 n) 0 8 = satAdd 8 (d.fld (Reg.hlErr3 n) 0 8) 1
    ∧ ∀ i, i < 29 → i ≠ 23 → (d.downed n).flag (Reg.hlStat n) i = d.flag (Reg.hlStat n) i := by
  have hne := Reg.hlStat_ne_hlErr3 n
  have hstat : ((d.dropTable n Cause.link).incSat (Reg.hlErr3 n) 0 8 1).rd (Reg.hlStat n) = d.rd (Reg.hlStat n) :=
    (Dev.rd_incSat_ne _ _ _ _ _ _ hne).trans (d.dropTable_rd n _ _)
  have herr : ((d.dropTable n Cause.link).incSat (Reg.hlErr3 n) 0 8 1).fld (Reg.hlErr3 n) 0 8 = satAdd 8 (d.fld (Reg.hlErr3 n) 0 8) 1 :=
    (Dev.fld_incSat_same _ _ _ (by decide)).trans (by rw [Dev.fld_congr (d.dropTable_rd n _ _)])
  unfold Dev.downed
  extract_lets d1
  have hdown : (d1.setPortState n 4).rd (Reg.hlErr3 n) = d1.rd (Reg.hlErr3 n) := Dev.rd_setFld_ne _ _ _ _ _ _ hne.symm
  refine ⟨?_, ?_, ?_, fun i hi h23 => ?_⟩
  · rw [Dev.portState, Dev.fld_congr (Dev.rd_modPort _ n _ _), ← Dev.portState, Dev.portState_clearLock,
      d1.portState_setPortState n (by decide)]
  · rw [Dev.flag_congr (Dev.rd_modPort _ n _ _), Dev.clearLock_lock]
  · rw [Dev.fld_congr (Dev.rd_modPort _ n _ _), Dev.fld_congr (Dev.clearLock_rd _ n _),
      Dev.fld_congr (Dev.rd_setFlag_ne _ _ _ _ _ hne.symm), Dev.fld_congr hdown, herr]
  · rw [Dev.flag_congr (Dev.rd_modPort _ n _ _), Dev.clearLock_flag _ n h23, d1.flag_setPortState n 4 hi, Dev.flag_congr hstat]

theorem Dev.downed_lines : ((d.downed n).pipe n).rx = (d.pipe n).rx ++ (d.port n).lostLines Cause.link
    ∧ ((d.downed n).port n).table = [] ∧ ((d.downed n).port n).inUse = none ∧ ((d.downed n).port n).line = none
    ∧ ((d.downed n).port n).lastDown = some d.spos := by
  have hne : Reg.spos ≠ Reg.hlErr3 n ∧ Reg.spos + 4 ≠ Reg.hlErr3 n := by unfold Reg.spos Reg.hlErr3; omega
  have hspos : ((d.dropTable n Cause.link).incSat (Reg.hlErr3 n) 0 8 1).spos = d.spos := by
    unfold Dev.spos
    exact Dev.rdI64_congr ((Dev.rd_incSat_ne _ _ _ _ _ _ hne.1).trans (d.dropTable_rd n _ _))
      ((Dev.rd_incSat_ne _ _ _ _ _ _ hne.2).trans (d.dropTable_rd n _ _))
  have hport : (d.downed n).port n = { (d.port n).emptied with
      mcount := [none, none, none, none], runs := [0, 0, 0, 0], lastDown := some d.spos, frameOpen := false } := by
    unfold Dev.downed
    extract_lets d1
    rw [Dev.port_modPort_same, Dev.clearLock_port, Dev.port_setPortState, hspos, Dev.port_incSat, Dev.dropTable_port]
  have hpipes : (d.downed n).pipes = (d.dropTable n Cause.link).pipes := by
    unfold Dev.downed Dev.clearLock Dev.setPortState
    extract_lets d1
    rw [Dev.pipes_modPort, Dev.pipes_modPort, Dev.pipes_setFlag, Dev.pipes_setFld, Dev.pipes_incSat]
  have hrx : (d.downed n).pipe n = (d.dropTable n Cause.link).pipe n := congrArg (fun ps : List Pipe => ps.getD n {}) hpipes
  refine ⟨?_, congrArg Port.table hport, congrArg Port.inUse hport, congrArg Port.line hport, congrArg Port.lastDown hport⟩
  rw [hrx, d.dropTable_rx n Cause.link]

end

end Sys2Proof.Machine
end

section
/-! SUPPORT. Training, marker lock and the back-channel of a head link, and the statement (R163, R177, R183 to R187). -/

namespace Sys2Proof.Machine

open Sys2Proof

/-! ## The back-channel (R177) -/

/-- A message on the back-channel as it leaves the device. -/
def sentChars (n kind : Nat) (data : Bytes) : Out := .backChannel n kind ((data ++ [pecOf data]).map (·.toNat))

/-- A LINKCTL message of port n as it leaves the device. -/
def linkctlOut (n code arg : Nat) : Out := sentChars n 4 (le 1 code ++ le 1 arg)

/-- The same LINKCTL message three times. -/
def Dev.linkctls (d : Dev) (n code : Nat) : Dev := { d with out := List.replicate 3 (linkctlOut n code 0) ++ d.out }

theorem Dev.linkctl_thrice (d : Dev) (n code : Nat) : (List.range 3).foldl (fun d _ => d.linkctl n code 0) d = d.linkctls n code := rfl

theorem Dev.rd_linkctls (d : Dev) (n code a : Nat) : (d.linkctls n code).rd a = d.rd a := rfl

/-! ## An event that is created and finds room (R82, R85) -/

section
variable {d : Dev} {code : Nat} (batt : Option Nat) (extra : Bytes) (hon : d.groupOn (groupOf code) = true) (hroom : d.eventRoom = true)
  (hquiet : bit d.ev.urgent.toNat (groupOf code) = false)
include hon hroom hquiet

theorem Dev.event_enters : ∃ e m, d.event code batt extra = { d with ev := e } ∧ e.hopper = d.ev.hopper ++ [m]
    ∧ m.code = code ∧ m.payload = d.preamble batt ++ extra := by
  let mbx := if groupOf code = 13 then 0xFF else d.cause.getD 0xFF
  let m : Msg := ⟨code, 0, d.ev.nextSeq, mbx, 0, false, true, false, false, false, d.preamble batt ++ extra⟩
  refine ⟨{ d.ev with nextSeq := d.ev.nextSeq + 1, hopper := d.ev.hopper ++ [m] }, m, ?_, rfl, rfl, rfl⟩
  have hroom' : ({ d with ev := { d.ev with nextSeq := d.ev.nextSeq + 1 } } : Dev).eventRoom = true := hroom
  rw [Dev.event, if_neg (by rw [hon]; decide)]
  dsimp only
  rw [if_neg (by rw [hquiet]; decide), Dev.enterEvent, if_pos hroom']

end

theorem Dev.rd_withEvents (d : Dev) (e : Events) (a : Nat) : ({ d with ev := e } : Dev).rd a = d.rd a := rfl

theorem Dev.event_accepted (d : Dev) (code : Nat) (batt : Option Nat) (extra : Bytes) :
    (d.event code batt extra).accepted = d.accepted := (congrArg Dev.accepted (d.event_sansEvents code batt extra) :)

theorem Dev.preamble_length (d : Dev) (batt : Option Nat) : (d.preamble batt).length = 32 := by
  simp [Dev.preamble, sle, zeros]

/-! ## Marker lock, and the way back to it (R163, R184 to R186) -/

theorem Reg.hlStat_ne_fltLive {n : Nat} (k : Nat) (hk : k < 8) : Reg.hlStat n ≠ Reg.fltLive k := by
  unfold Reg.hlStat Reg.fltLive; omega

theorem Reg.hlCfg_ne_fltLive {n : Nat} (k : Nat) (hk : k < 8) : Reg.hlCfg n ≠ Reg.fltLive k := by
  unfold Reg.hlCfg Reg.fltLive; omega

section
variable (d : Dev) (n : Nat)

/-- A port is UP with marker lock, and its fault source has ended. -/
def Dev.linkedUp : Dev := ((d.setPortState n 3).setFlag (Reg.hlStat n) 23 true).faultOff (0x10 + n)

theorem Dev.linkedUp_rest : d.linkedUp n = { d with regs := (d.linkedUp n).regs } := by
  have h : d.onlyRegs (d.linkedUp n) [Reg.hlStat n, Reg.fltLive ((0x10 + n) / 32)] :=
    (((d.onlyRegs_refl _).setFld (by simp) 29 3 3).setFlag (by simp) 23 true).setFlag (by simp) _ false
  exact h.1

variable {n} (hn : n < 16)
include hn

theorem Dev.linkedUp_stat : (d.linkedUp n).rd (Reg.hlStat n) = ((d.setPortState n 3).setFlag (Reg.hlStat n) 23 true).rd (Reg.hlStat n) := by
  unfold Dev.linkedUp Dev.faultOff Dev.setLive
  exact Dev.rd_setFlag_ne _ _ _ _ _ (Reg.hlStat_ne_fltLive _ (by omega))

theorem Dev.linkedUp_cfg : (d.linkedUp n).rd (Reg.hlCfg n) = d.rd (Reg.hlCfg n) := by
  have hne := Reg.hlCfg_ne_hlStat n
  unfold Dev.linkedUp Dev.faultOff Dev.setLive
  rw [Dev.rd_setFlag_ne _ _ _ _ _ (Reg.hlCfg_ne_fltLive _ (by omega)), Dev.rd_setFlag_ne _ _ _ _ _ hne]
  exact Dev.rd_setFld_ne _ _ _ _ _ _ hne

theorem Dev.linkedUp_status : (d.linkedUp n).portState n = 3 ∧ (d.linkedUp n).flag (Reg.hlStat n) 23 = true
    ∧ (d.linkedUp n).fld (Reg.hlStat n) 0 8 = d.fld (Reg.hlStat n) 0 8 := by
  have hstat := d.linkedUp_stat hn
  refine ⟨?_, ?_, ?_⟩
  · rw [Dev.portState, Dev.fld_congr hstat, ← Dev.portState, Dev.portState_setFlag _ n _ (by decide),
      d.portState_setPortState n (by decide)]
  · rw [Dev.flag_congr hstat]
    exact Dev.flag_setFlag_same _ _ _ _ (by decide)
  · rw [Dev.fld_congr hstat]
    exact (Dev.fld_setFlag_ne _ _ _ (by decide) (by decide)).trans (d.fld_setPortState n 3 (by decide))

end

section
variable (d : Dev) (n : Nat)

/-- A DOWN port has returned to training. -/
def Dev.retrained : Dev := (d.setPortState n 2).clearLock n

/-- A training port has begun anew, and no lane has block lock. -/
def Dev.restarted : Dev := (d.setFld (Reg.hlStat n) 24 4 0).clearLock n

theorem Dev.retrained_effect : (d.retrained n).portState n = 2 ∧ (d.retrained n).flag (Reg.hlStat n) 23 = false
    ∧ ((d.retrained n).port n).runs = [0, 0, 0, 0] ∧ d.regsKept (d.retrained n) [Reg.hlStat n]
    ∧ d.retrained n = { d with regs := (d.retrained n).regs, ports := (d.retrained n).ports } := by
  have honly : d.OnlyHead [Reg.hlStat n] n (d.retrained n) :=
    (d.onlyHead_setPortState n (by simp) 2).trans (Dev.onlyHead_clearLock _ n (by simp))
  have hpipes : (d.retrained n).pipes = d.pipes := by
    unfold Dev.retrained Dev.clearLock Dev.setPortState
    rw [Dev.pipes_modPort, Dev.pipes_setFlag, Dev.pipes_setFld]
  refine ⟨?_, ?_, ?_, honly.word, honly.frame_ports hpipes⟩ <;> unfold Dev.retrained
  · rw [Dev.portState_clearLock, d.portState_setPortState n (by decide)]
  · rw [Dev.clearLock_lock]
  · rw [Dev.clearLock_port]

theorem Dev.restarted_effect (hp : d.portState n = 2) : (d.restarted n).portState n = 2
    ∧ (d.restarted n).fld (Reg.hlStat n) 24 4 = 0 ∧ (d.restarted n).flag (Reg.hlStat n) 23 = false
    ∧ ((d.restarted n).port n).runs = [0, 0, 0, 0] ∧ d.regsKept (d.restarted n) [Reg.hlStat n]
    ∧ d.restarted n = { d with regs := (d.restarted n).regs, ports := (d.restarted n).ports } := by
  have honly : d.OnlyHead [Reg.hlStat n] n (d.restarted n) :=
    ((Dev.OnlyHead.refl _ n d).setFld (by simp) 24 4 0).trans (Dev.onlyHead_clearLock _ n (by simp))
  have hpipes : (d.restarted n).pipes = d.pipes := by
    unfold Dev.restarted Dev.clearLock
    rw [Dev.pipes_modPort, Dev.pipes_setFlag, Dev.pipes_setFld]
  refine ⟨?_, ?_, ?_, ?_, honly.word, honly.frame_ports hpipes⟩ <;> unfold Dev.restarted
  · rw [Dev.portState_clearLock, Dev.portState, Dev.fld_setFld_ne _ _ _ (by decide) (by decide)]
    exact hp
  · rw [Dev.fld_congr (Dev.clearLock_rd _ n _), Dev.fld_setFlag_ne _ _ _ (by decide) (by decide),
      Dev.fld_setFld_same _ _ _ _ _ (by decide), Nat.zero_mod]
  · rw [Dev.clearLock_lock]
  · rw [Dev.clearLock_port]

/-- The lane of which a port loses block lock, if the loss is one of block lock. -/
def Dev.laneLost (x : LinkLoss) : Dev := if x.cause = 0 then d.setFlag (Reg.hlStat n) (24 + x.lane.val) false else d

theorem Dev.laneLost_effect (x : LinkLoss) : d.onlyRegs (d.laneLost n x) [Reg.hlStat n]
    ∧ (d.laneLost n x).portState n = d.portState n
    ∧ ∀ i : Fin 4, (d.laneLost n x).flag (Reg.hlStat n) (24 + i.val)
        = (d.flag (Reg.hlStat n) (24 + i.val) && !(decide (x.cause = 0) && decide (i = x.lane))) := by
  unfold Dev.laneLost
  split
  next hc =>
    refine ⟨(d.onlyRegs_refl _).setFlag (by simp) _ _, d.portState_setFlag n false (by omega), fun i => ?_⟩
    by_cases hi : i = x.lane
    · rw [hi, d.flag_setFlag_same _ _ _ (by omega)]
      simp [hc]
    · have hv : i.val ≠ x.lane.val := fun h => hi (Fin.ext h)
      rw [d.flag_setFlag_ne _ _ (by omega) (by omega)]
      simp [hi]
  next hc => exact ⟨d.onlyRegs_refl _, rfl, fun i => by simp [hc]⟩

/-- An UP port that loses block lock of a lane, or marker lock, has gone DOWN. -/
theorem Dev.downed_laneLost_effect (x : LinkLoss) :
    let u := (d.laneLost n x).downed n
    u.portState n = 4 ∧ u.fld (Reg.hlErr3 n) 0 8 = satAdd 8 (d.fld (Reg.hlErr3 n) 0 8) 1 ∧ u.flag (Reg.hlStat n) 23 = false
    ∧ (∀ i : Fin 4, u.flag (Reg.hlStat n) (24 + i.val)
        = (d.flag (Reg.hlStat n) (24 + i.val) && !(decide (x.cause = 0) && decide (i = x.lane))))
    ∧ (u.pipe n).rx = (d.pipe n).rx ++ (d.port n).lostLines Cause.link
    ∧ (u.port n).table = [] ∧ (u.port n).inUse = none ∧ (u.port n).line = none ∧ (u.port n).lastDown = some d.spos
    ∧ (∀ m, m < 16 → m ≠ n → u.port m = d.port m ∧ u.pipe m = d.pipe m)
    ∧ d.regsKept u [Reg.hlStat n, Reg.hlErr3 n]
    ∧ u = { d with regs := u.regs, ports := u.ports, pipes := u.pipes } := by
  obtain ⟨honly, -, hlanes⟩ := d.laneLost_effect n x
  generalize d.laneLost n x = v at *
  intro u
  obtain ⟨hstate, hlock, herr, hflags⟩ := v.downed_status n
  obtain ⟨hrx, htable, huse, hline, hdown⟩ := v.downed_lines n
  have hpipe : v.pipe n = d.pipe n := (congrArg (fun x : Dev => x.pipe n) honly.1 :)
  have hport : v.port n = d.port n := (congrArg (fun x : Dev => x.port n) honly.1 :)
  have hfar : Reg.spos ≠ Reg.hlStat n ∧ Reg.spos + 4 ≠ Reg.hlStat n := by unfold Reg.spos Reg.hlStat; omega
  have hspos : v.spos = d.spos := by
    unfold Dev.spos
    exact Dev.rdI64_congr (honly.2 _ (List.mem_singleton.not.mpr hfar.1)) (honly.2 _ (List.mem_singleton.not.mpr hfar.2))
  have hsame : v.fld (Reg.hlErr3 n) 0 8 = d.fld (Reg.hlErr3 n) 0 8 :=
    Dev.fld_congr (honly.2 _ (List.mem_singleton.not.mpr (Reg.hlStat_ne_hlErr3 n).symm)) 0 8
  have hhead : d.OnlyHead [Reg.hlStat n, Reg.hlErr3 n] n u :=
    Dev.OnlyHead.trans ⟨honly.2.mono (by simp), (honly.onlyHead n).port, (honly.onlyHead n).pipe, (honly.onlyHead n).rest⟩ (v.downed_onlyHead n)
  exact ⟨hstate, herr.trans (by rw [hsame]), hlock, fun i => (hflags _ (by omega) (by omega)).trans (hlanes i),
    hrx.trans (by rw [hpipe, hport]), htable, huse, hline, hdown.trans (by rw [hspos]), fun m _ hm => ⟨hhead.port m hm, hhead.pipe m hm⟩,
    hhead.word, hhead.frame⟩

end

section
variable (d : Dev) (n : Nat)

/-- An UP port has told its head so three times. -/
def Dev.linkRun : Dev := (d.linkedUp n).linkctls n 2

/-- What HEAD_LINK_UP says of port n after its preamble. -/
def Dev.upNotice : Bytes := le 1 n ++ le 1 (d.fld (Reg.hlCfg n) 28 3) ++ le 1 (d.laneCount n) ++ le 1 (d.fld (Reg.hlStat n) 0 8)

/-- A port has marker lock, and its event has been created. -/
def Dev.markerLocked : Dev := (d.linkRun n).event 0x8401 none ((d.linkRun n).upNotice n)

theorem Dev.linkRun_rest : ∃ regs, d.linkRun n = { d with regs := regs, out := List.replicate 3 (linkctlOut n 2 0) ++ d.out } := by
  obtain ⟨regs, h⟩ : ∃ regs, d.linkedUp n = { d with regs := regs } := ⟨_, d.linkedUp_rest n⟩
  exact ⟨regs, by rw [Dev.linkRun, h, Dev.linkctls]⟩

theorem Dev.linkRun_rd (a : Nat) : (d.linkRun n).rd a = (d.linkedUp n).rd a := by rw [Dev.linkRun, Dev.rd_linkctls]

theorem Dev.linkRun_upNotice (hn : n < 16) : (d.linkRun n).upNotice n = d.upNotice n := by
  have hcfg : (d.linkRun n).rd (Reg.hlCfg n) = d.rd (Reg.hlCfg n) := (d.linkRun_rd n _).trans (d.linkedUp_cfg hn)
  have hhead : (d.linkRun n).fld (Reg.hlStat n) 0 8 = d.fld (Reg.hlStat n) 0 8 :=
    (Dev.fld_congr (d.linkRun_rd n _) 0 8).trans (d.linkedUp_status hn).2.2
  rw [Dev.upNotice, hhead, Dev.fld_congr hcfg, Dev.laneCount, Dev.fld_congr hcfg, Dev.upNotice, Dev.laneCount]

variable {n} (hn : n < 16) (hon : d.groupOn 4 = true) (hroom : d.eventRoom = true) (hquiet : bit d.ev.urgent.toNat 4 = false)
include hn hon hroom hquiet

/-- Marker lock with room for its event (R163, R184). -/
theorem Dev.markerLocked_effect :
    (d.markerLocked n).portState n = 3 ∧ (d.markerLocked n).flag (Reg.hlStat n) 23 = true
    ∧ (d.markerLocked n).out = List.replicate 3 (linkctlOut n 2 0) ++ d.out
    ∧ (∃ m, (d.markerLocked n).ev.hopper = d.ev.hopper ++ [m] ∧ m.code = 0x8401 ∧ m.payload.drop 32 = d.upNotice n)
    ∧ (d.markerLocked n).pos = d.pos ∧ (d.markerLocked n).ports = d.ports ∧ (d.markerLocked n).pipes = d.pipes
    ∧ (d.markerLocked n).memKept d := by
  obtain ⟨hstate, hlock, -⟩ := d.linkedUp_status hn
  obtain ⟨regs, hrest⟩ := d.linkRun_rest n
  have hev : (d.linkRun n).ev = d.ev := by rw [hrest]
  have hgroup : groupOf 0x8401 = 4 := rfl
  have hon' : (d.linkRun n).groupOn (groupOf 0x8401) = true := by rw [hgroup, Dev.groupOn, hev, ← Dev.groupOn, hon]
  have hroom' : (d.linkRun n).eventRoom = true := by rw [Dev.eventRoom, hev, ← Dev.eventRoom, hroom]
  have hquiet' : bit (d.linkRun n).ev.urgent.toNat (groupOf 0x8401) = false := by rw [hgroup, hev, hquiet]
  obtain ⟨e, m, ht, hhop, hcode, hpay⟩ := Dev.event_enters none ((d.linkRun n).upNotice n) hon' hroom' hquiet'
  have hstat := d.linkRun_rd n (Reg.hlStat n)
  have hstate' : (d.linkRun n).portState n = 3 := by
    rw [Dev.portState, Dev.fld_congr hstat, ← Dev.portState, hstate]
  have hlock' : (d.linkRun n).flag (Reg.hlStat n) 23 = true := by rw [Dev.flag_congr hstat, hlock]
  have hnotice := d.linkRun_upNotice n hn
  rw [← Dev.markerLocked] at ht
  have hrd : (d.markerLocked n).rd (Reg.hlStat n) = (d.linkRun n).rd (Reg.hlStat n) := by rw [ht, Dev.rd_withEvents]
  refine ⟨?_, ?_, ?_, ⟨m, ?_, hcode, ?_⟩, ?_, ?_, ?_, ?_⟩
  · rw [Dev.portState, Dev.fld_congr hrd, ← Dev.portState, hstate']
  · rw [Dev.flag_congr hrd, hlock']
  · rw [ht, hrest]
  · rw [ht, hhop, hev]
  · rw [hpay, List.drop_left' (Dev.preamble_length _ none), hnotice]
  all_goals rw [ht, hrest]
  exact ⟨fun _ => rfl, fun _ _ _ => rfl, fun _ _ => rfl⟩

end

/-! ## The events of a port as they run -/

section
variable {s : State} {head : Fin 16} (ha : s.alive)
include ha

theorem exec_laneBlockLock_idle {lane : Fin 4} (h : s.dev.portState head.val = 0 ∨ s.dev.logicalLane head.val lane.val = none) :
    exec (.laneBlockLock head lane) s = .next s := by
  change execLaneBlockLock head lane s = _
  rw [execLaneBlockLock, State.upd_alive ha]
  rw [if_pos h]

theorem exec_laneBlockLock {lane : Fin 4} (hp : s.dev.portState head.val ≠ 0) (hl : s.dev.logicalLane head.val lane.val ≠ none) :
    exec (.laneBlockLock head lane) s = .next { s with dev := s.dev.setFlag (Reg.hlStat head.val) (24 + lane.val) true } := by
  change execLaneBlockLock head lane s = _
  rw [execLaneBlockLock, State.upd_alive ha]
  rw [if_neg (not_or.mpr ⟨hp, hl⟩)]

theorem exec_markerLock_safe (h : s.dev.safe = true) : exec (.markerLock head) s = .next s := by
  change execMarkerLock head s = _
  rw [execMarkerLock, State.upd_alive ha]
  dsimp only
  rw [if_pos (.inr (.inr h))]

theorem exec_markerLock (hp : s.dev.portState head.val = 2) (hs : s.dev.safe = false) (hm : s.dev.markersGood head.val = true)
    (howed : s.dev.owedArgs 0x0401 (· == [head.val]) = none) :
    exec (.markerLock head) s = .next { s with dev := s.dev.markerLocked head.val } := by
  have hacc : (s.dev.markerLocked head.val).accepted = s.dev.accepted := by
    obtain ⟨regs, hrest⟩ := s.dev.linkRun_rest head.val
    rw [Dev.markerLocked, Dev.event_accepted, hrest]
  have hnone : (s.dev.markerLocked head.val).owedArgs 0x0401 (· == [head.val]) = none := by rw [Dev.owedArgs, hacc]; exact howed
  change execMarkerLock head s = _
  rw [execMarkerLock, State.upd_alive ha]
  dsimp only
  rw [if_neg (by simp [hp, hs, hm]), Dev.linkctl_thrice, ← Dev.linkedUp]
  have hdone : (s.dev.markerLocked head.val).finish ((s.dev.markerLocked head.val).owedArgs 0x0401 (· == [head.val])) St.ok
      (le 1 3 ++ zeros 3) = s.dev.markerLocked head.val := by rw [hnone, Dev.finish]
  exact congrArg (fun x : Dev => Host.Outcome.next { s with dev := x }) hdone

theorem exec_portDown_idle {x : LinkLoss} (h : s.dev.portState head.val = 0 ∨ x.cause = 0 ∧ s.dev.logicalLane head.val x.lane.val = none) :
    exec (.portDown head x) s = .next s := by
  change execPortDown head x s = _
  rw [execPortDown, State.upd_alive ha]
  dsimp only
  rw [if_pos h]

theorem exec_portDown {x : LinkLoss} (hp : s.dev.portState head.val ≠ 0) (hl : x.cause = 0 → s.dev.logicalLane head.val x.lane.val ≠ none) :
    exec (.portDown head x) s = .next { s with dev := (s.dev.laneLost head.val x).linkDown head.val x.cause.val } := by
  change execPortDown head x s = _
  rw [execPortDown, State.upd_alive ha]
  dsimp only
  rw [if_neg (not_or.mpr ⟨hp, fun h => hl h.1 h.2⟩), Dev.laneLost]

theorem exec_portRetrain (hp : s.dev.portState head.val = 4) :
    exec (.portRetrain head) s = .next { s with dev := s.dev.retrained head.val } := by
  change execPortRetrain head s = _
  rw [execPortRetrain, State.upd_alive ha]
  rw [if_pos hp, Dev.retrained]

theorem exec_trainRestart (hp : s.dev.portState head.val = 2) : 
    let u := s.dev.restarted head.val
    exec (.trainRestart head) s
      = .next { s with dev := u.finish (u.owedArgs 0x0401 (· == [head.val])) St.remoteError (le 1 2 ++ zeros 3) } := by
  change execTrainRestart head s = _
  rw [execTrainRestart, State.upd_alive ha]
  dsimp only
  rw [if_pos hp, Dev.restarted]

theorem exec_linkctlTrain (hp : s.dev.portState head.val = 2) (hs : s.dev.safe = false) : 
    let arg := s.dev.fld (Reg.hlCfg head.val) 28 3 + 16 * lcodeOf (s.dev.laneCount head.val)
    exec (.linkctlTrain head) s = .next { s with dev := s.dev.linkctl head.val 1 arg } := by
  change execLinkctlTrain head s = _
  rw [execLinkctlTrain, State.upd_alive ha]
  rw [if_pos ⟨hp, hs⟩]

end

/-- A lane's block lock shows among the flags of HLn_STAT. -/
theorem Dev.flags_setFlag (d : Dev) (a k : Nat) (hk : k < 32) (i : Nat) :
    (d.setFlag a k true).flag a i = (decide (i = k) || d.flag a i) := by
  by_cases hi : i = k
  · rw [hi, d.flag_setFlag_same _ _ _ hk, decide_eq_true rfl, Bool.true_or]
  · rw [d.flag_setFlag_ne _ _ hk hi, decide_eq_false hi, Bool.false_or]

/-- Settles O19: each event's device by the lemmas on lane markers, on marker lock, and on an UP port that goes DOWN. -/
theorem headLinkStates : Obligations.HeadLinkStates := by
  unfold Obligations.HeadLinkStates
  intro s head n ha hn
  subst hn
  refine ⟨fun lane h => exec_laneBlockLock_idle ha h, fun lane hp hl => ?_, fun lane m skew blocks k hlen hp hk hlane => ?_,
    fun kind inPacket hp h3 => ?_, fun hp => ?_, fun hs => exec_markerLock_safe ha hs,
    fun hp hs hm howed hon hroom hquiet _ => ?_, fun cause lane h => exec_portDown_idle ha h, fun cause lane hp h3 hl => ?_,
    fun cause lane h3 hl => ?_, fun h4 => ?_, fun h2 => ?_, fun h2 hs => ?_⟩
  case refine_1 =>
    exact ⟨_, exec_laneBlockLock ha hp hl, (Dev.onlyRegs_refl _ _).setFlag (by simp) _ _,
      fun i _ => Dev.flags_setFlag _ _ _ (by omega) i⟩
  case refine_2 =>
    intro good last
    refine ⟨fun hc => ⟨_, exec_laneMarker_bad ha hp hlane m _ hc, rfl⟩, fun hc h3 => ?_, fun hc h3 => ?_⟩
    · exact ⟨_, exec_laneMarker ha hp hlane m _ hc, Dev.takeMarker_training (k := k) m ⟨skew, blocks⟩ h3⟩
    · exact ⟨_, exec_laneMarker ha hp hlane m _ hc, Dev.takeMarker_up (k := k) m ⟨skew, blocks⟩ h3⟩
  case refine_3 =>
    have htrunc : (inPacket && decide (s.dev.portState head.val = 3)) = false := by simp [h3]
    have h := s.dev.blockError_effect head.val kind false
    refine ⟨_, exec_errorBlock ha hp kind inPacket, ?_⟩
    rw [htrunc]
    exact h
  case refine_4 => exact ⟨_, exec_strayDataBlock ha hp, s.dev.strayBlock_effect head.val⟩
  case refine_5 => exact ⟨_, exec_markerLock ha hp hs hm howed, s.dev.markerLocked_effect head.isLt hon hroom hquiet⟩
  case refine_6 =>
    refine ⟨_, exec_portDown ha hp hl, ?_⟩
    rw [Dev.linkDown_idle _ _ (by rw [(s.dev.laneLost_effect head.val _).2.1]; exact h3), Dev.laneLost]
  case refine_7 =>
    have hup : (s.dev.laneLost head.val ⟨cause, lane⟩).portState head.val = 3 := (s.dev.laneLost_effect head.val _).2.1.trans h3
    refine ⟨_, exec_portDown ha (by rw [h3]; decide) hl, (s.dev.laneLost head.val ⟨cause, lane⟩).downed head.val, ?_,
      s.dev.downed_laneLost_effect head.val ⟨cause, lane⟩⟩
    rw [Dev.linkDown_up _ _ hup]
  case refine_8 => exact ⟨_, exec_portRetrain ha h4, s.dev.retrained_effect head.val⟩
  case refine_9 =>
    have heffect := s.dev.restarted_effect head.val h2
    have howed : (s.dev.restarted head.val).owedArgs 0x0401 (· == [head.val]) = s.dev.owedArgs 0x0401 (· == [head.val]) := by
      obtain ⟨-, -, -, -, -, hframe⟩ := heffect
      rw [Dev.owedArgs, hframe, Dev.owedArgs]
    refine ⟨_, exec_trainRestart ha h2, s.dev.restarted head.val, ?_, heffect⟩
    rw [howed]
  case refine_10 => exact ⟨_, exec_linkctlTrain ha h2 hs, rfl⟩

end Sys2Proof.Machine
end

section
/-! SUPPORT. Attaching and detaching a head: the power domains asked for, what an attach and a detach set (R184, R188, R545, R548). -/

namespace Sys2Proof.Machine

open Sys2Proof

/-- A command whose body goes on is entered among the running ones. -/
theorem command_goesOn {i : Instr} {s : State} {r : Req} {objs : List Obj} {code : Nat} (h : Begins s r objs) (sp : Spec)
    (body : Dev → Result ⊕ Begun) {b : Begun} {effect : Dev → Running → Prop} (hi : exec i s = s.upd fun d => d.commandOr sp r body)
    (hc : sp.code = code) (ho : sp.objs r.payload = objs) (hl : sp.len r.payload = true) (hr : sp.reserved r.payload = true)
    (hb : body (s.dev.takeReq code r) = .inr b) (he : effect b.dev ⟨code, r, b.objs, b.args, b.switch, false⟩) :
    GoesOn i s code r effect := by
  subst hc
  intro hq
  exact ⟨b.dev, ⟨sp.code, r, b.objs, b.args, b.switch, false⟩, by rw [hi, command_runs h sp body ho hl hr hq, hb, Dev.after], rfl, rfl, he⟩

/-! ## Power domains (R545) -/

section
variable (d : Dev)

theorem Dev.showSeq_onlyRegs : d.onlyRegs d.showSeq [Reg.pdSeq] := by
  unfold Dev.showSeq
  split
  · exact (d.onlyRegs_refl _).wrN (by simp) _
  · exact (d.onlyRegs_refl _).wrN (by simp) _

theorem Dev.requestDomains_pwr (on : Bool) (l : List Nat) : (d.requestDomains on l).pwr
    = { d.pwr with queue := d.pwr.queue ++ (l.filter fun j => d.domainOn j != on).map fun j => (j, on) } :=
  (congrArg Dev.pwr (Dev.showSeq_onlyRegs _).1 :)

theorem Dev.requestDomains_rest (on : Bool) (l : List Nat) : d.requestDomains on l
    = { d with regs := (d.requestDomains on l).regs, pwr := (d.requestDomains on l).pwr } := by
  have h := (Dev.showSeq_onlyRegs
    { d with pwr := { d.pwr with queue := d.pwr.queue ++ (l.filter fun j => d.domainOn j != on).map fun j => (j, on) } }).1
  rw [d.requestDomains_pwr on l]
  exact h

theorem Dev.requestDomains_port (on : Bool) (l : List Nat) (m : Nat) : (d.requestDomains on l).port m = d.port m :=
  (congrArg (fun x : Dev => x.port m) (d.requestDomains_rest on l) :)

theorem Dev.requestDomains_pipe (on : Bool) (l : List Nat) (m : Nat) : (d.requestDomains on l).pipe m = d.pipe m :=
  (congrArg (fun x : Dev => x.pipe m) (d.requestDomains_rest on l) :)

theorem Dev.requestDomains_gen (on : Bool) (l : List Nat) (m : Nat) : (d.requestDomains on l).gen m = d.gen m :=
  (congrArg (fun x : Dev => x.gen m) (d.requestDomains_rest on l) :)

theorem Dev.requestDomains_deepRd (on : Bool) (l : List Nat) (a : Nat) : (d.requestDomains on l).deepRd a = d.deepRd a :=
  (congrArg (fun x : Dev => x.deepRd a) (d.requestDomains_rest on l) :)

theorem Dev.requestDomains_out (on : Bool) (l : List Nat) : (d.requestDomains on l).out = d.out :=
  (congrArg Dev.out (d.requestDomains_rest on l) :)

theorem Dev.requestDomains_kept (on : Bool) (l : List Nat) : d.regsKept (d.requestDomains on l) [Reg.pdSeq] :=
  fun a ha => (Dev.showSeq_onlyRegs _).2 a ha

end

/-- Registers that do not show which domains are on. -/
theorem Dev.domainOn_kept {d t : Dev} {l : List Nat} (h : d.regsKept t l) (hl : ∀ a ∈ l, 0x10024 ≤ a) {n j : Nat} (hn : n ≤ 15)
    (hj : j ∈ pipeDomains n) : t.domainOn j = d.domainOn j := by
  have hlt : j < 96 := by
    simp only [pipeDomains, List.mem_cons, List.not_mem_nil, or_false] at hj
    omega
  refine Dev.flag_congr (h _ fun hm => ?_) _
  have := hl _ hm
  unfold Reg.pdOn at this
  omega

theorem Dev.filter_domains_congr {d t : Dev} {l : List Nat} (on : Bool) (h : ∀ j ∈ l, t.domainOn j = d.domainOn j) :
    (l.filter fun j => t.domainOn j != on) = l.filter fun j => d.domainOn j != on :=
  List.filter_congr fun j hj => by rw [h j hj]

theorem Dev.lastSwitch_congr {d t : Dev} {l : List Nat} (on : Bool) (h : ∀ j ∈ l, t.domainOn j = d.domainOn j) :
    t.lastSwitch on l = d.lastSwitch on l := by rw [Dev.lastSwitch, Dev.filter_domains_congr on h, Dev.lastSwitch]

/-- A switch is queued if some domain is not as asked. -/
theorem Dev.lastSwitch_isSome {d : Dev} {l : List Nat} {on : Bool} (h : ∃ j ∈ l, d.domainOn j = !on) : ∃ sw, d.lastSwitch on l = some sw := by
  obtain ⟨j, hj, hoff⟩ := h
  have hmem : j ∈ l.filter fun j => d.domainOn j != on := List.mem_filter.mpr ⟨hj, by rw [hoff]; cases on <;> rfl⟩
  exact ⟨_, by rw [Dev.lastSwitch, List.getLast?_eq_some_getLast (List.ne_nil_of_mem hmem), Option.map_some]⟩

/-! ## Attaching (R184, R219, R251, R272) -/

/-- The registers other than those that the request gives. -/
def freshRegs (n : Nat) : List Nat := [Reg.hlStat n, Reg.pdSeq] ++ expRegs n ++ identityRegs n 0 ++ identityRegs n 1

/-- All that an attach of port n may change. -/
def attachWords (n : Nat) : List Nat :=
  [Reg.hlCfg n, Reg.hlGeom n, Reg.hlLanemap n, Reg.hlTimeout n, Reg.hlStat n, Reg.pdSeq, Reg.expNow n, Reg.expTime n, Reg.expTarget n,
    Reg.expTarget n + 4] ++ (List.range 8).map Reg.strbWidth ++ identityRegs n 0 ++ identityRegs n 1

theorem mem_attachWords {n a : Nat} : a ∈ attachWords n
    ↔ a ∈ [Reg.hlCfg n, Reg.hlGeom n, Reg.hlLanemap n, Reg.hlTimeout n] ∨ a ∈ freshRegs n := by
  simp only [attachWords, freshRegs, expRegs, List.mem_append, List.mem_cons, List.not_mem_nil, or_false, or_assoc]

theorem le_of_mem_identityRegs {n b a : Nat} (h : a ∈ identityRegs n b) : 0x200104 + 0x10000 * n ≤ a := by
  simp only [identityRegs, Reg.ppBl, Reg.mosCfg, Reg.matW0, Reg.matW1, Reg.matW2, Reg.matW3, Reg.bkCol0, Reg.bkCfg, Reg.bkAnchor,
    List.mem_append, List.mem_map, List.mem_flatMap, List.mem_range, List.mem_cons, List.not_mem_nil, or_false] at h
  rcases h with ((⟨_, -, rfl⟩ | rfl) | ⟨_, -, h⟩) | h <;> omega

theorem le_of_mem_attachWords {n a : Nat} (h : a ∈ attachWords n) : 0x10024 ≤ a := by
  simp only [attachWords, List.mem_append, List.mem_cons, List.mem_map, List.mem_range, List.not_mem_nil, or_false, Reg.hlCfg, Reg.hlGeom,
    Reg.hlLanemap, Reg.hlTimeout, Reg.hlStat, Reg.pdSeq, Reg.expNow, Reg.expTime, Reg.expTarget, Reg.strbWidth] at h
  rcases h with ((h | ⟨_, -, rfl⟩) | h) | h
  · omega
  · omega
  · have := le_of_mem_identityRegs h; omega
  · have := le_of_mem_identityRegs h; omega

theorem not_mem_freshRegs {n a : Nat} (hn : n ≤ 15) (hlo : Reg.hlCfg n ≤ a) (hhi : a < Reg.hlStat n) : a ∉ freshRegs n := by
  unfold Reg.hlCfg at hlo
  unfold Reg.hlStat at hhi
  have hexp : a ∉ expRegs n := not_mem_expRegs (.inr (by omega))
  have hid : ∀ b, a ∉ identityRegs n b := fun b h => by have := le_of_mem_identityRegs h; omega
  simp only [freshRegs, List.mem_append, List.mem_cons, List.not_mem_nil, or_false, hexp, hid, Reg.hlStat, Reg.pdSeq]
  omega

/-- All of the device but what an attach may change besides power domains. -/
def Dev.sansAttach (d : Dev) : Dev := { d with regs := [], pos := {}, ports := [], pipes := [], deep := [], lost := [] }

/-- From d to t only head n may be different: of the registers those listed, its port, pipeline, generator and tables. -/
structure Dev.Refits (l : List Nat) (n : Nat) (d t : Dev) : Prop where
  word : d.regsKept t l
  other : ∀ m, m ≠ n → t.port m = d.port m ∧ t.pipe m = d.pipe m ∧ t.gen m = d.gen m
  deep : ∀ a, a < tableBase n ∨ tableBase n + 0x100000 ≤ a → t.deepRd a = d.deepRd a
  rest : t.sansAttach = d.sansAttach

section
variable {l : List Nat} {n : Nat} {d t u : Dev}

theorem Dev.Refits.trans (h : d.Refits l n t) (k : t.Refits l n u) : d.Refits l n u := by
  refine ⟨h.word.trans k.word, fun m hm => ?_, fun a ha => (k.deep a ha).trans (h.deep a ha), k.rest.trans h.rest⟩
  obtain ⟨hport, hpipe, hgen⟩ := h.other m hm
  rw [← hport, ← hpipe, ← hgen]
  exact k.other m hm

theorem Dev.OnlyHead.refits (h : d.OnlyHead l n t) : d.Refits l n t :=
  ⟨h.word, fun m hm => ⟨h.port m hm, h.pipe m hm, (congrArg (fun x : Dev => x.gen m) h.rest :)⟩,
    fun a _ => (congrArg (fun x : Dev => x.deepRd a) h.rest :), (congrArg Dev.sansAttach h.rest :)⟩

theorem Dev.refits_modGen (f : TrigGen → TrigGen) : d.Refits l n (d.modGen n f) :=
  ⟨d.regsKept_refl l, fun _ hm => ⟨rfl, rfl, d.gen_modGen_ne f hm⟩, fun _ _ => rfl, rfl⟩

theorem Dev.Refits.mono {m : List Nat} (h : d.Refits l n t) (hl : l ⊆ m) : d.Refits m n t := ⟨h.word.mono hl, h.other, h.deep, h.rest⟩

end

/-- Cells that a filter by their keys keeps read as before. -/
theorem Sparse.get_filter_kept {β : Type} (dflt : Nat → β) (l : List (Nat × β)) (p : Nat → Bool) {j : Nat} (hj : p j = true) :
    Sparse.get dflt (l.filter fun x => p x.1) j = Sparse.get dflt l j := by
  induction l with
  | nil => rfl
  | cons x t ih =>
    obtain ⟨a, v⟩ := x
    cases hp : p a with
    | true => rw [List.filter_cons_of_pos (by exact hp), Sparse.get, Sparse.get, ih]
    | false =>
      have hne : a ≠ j := fun h => by rw [h, hj] at hp; exact Bool.noConfusion hp
      rw [List.filter_cons_of_neg (by rw [hp]; decide), ih, Sparse.get, if_neg hne]

theorem Dev.refits_identityTables (d : Dev) (n : Nat) : d.Refits (identityRegs n 0 ++ identityRegs n 1) n (d.identityTables n) := by
  unfold Dev.identityTables
  extract_lets base mine d1
  have h1 : d.Refits (identityRegs n 0 ++ identityRegs n 1) n d1 := by
    refine ⟨fun _ _ => rfl, fun _ _ => ⟨rfl, rfl, rfl⟩, fun a ha => ?_, rfl⟩
    refine Sparse.get_filter_kept deepDefault d.deep (fun a => !mine a) ?_
    simp only [mine, Bool.not_eq_true', decide_eq_false_iff_not]
    omega
  refine List.foldlRecOn (motive := fun t => d.Refits _ n t) _ _ h1 fun t ht a ha => ?_
  exact ht.trans ((Dev.OnlyHead.refl _ n t).wr ha _).refits

section
variable (d : Dev) (n : Nat) (p : Bytes)

/-- The port's registers as a request gives them. -/
def Dev.attachSettings : Dev :=
  let g := attachRegs p
  (((d.wrN (Reg.hlCfg n) g.1).wrN (Reg.hlGeom n) g.2.1).wrN (Reg.hlLanemap n) g.2.2.1).wrN (Reg.hlTimeout n) g.2.2.2

/-- What an attach does besides: tables, a fresh link and generator, and the lines that a started line awaits. -/
def Dev.attachFresh : Dev :=
  let w := leAt p 8 2
  let d2 := if (d.pipe n).width.any (· != w) then d.identityTables n else d
  let d3 := (d2.modPipe n fun q => { q with width := some w }).modPort n fun q => { lastDown := q.lastDown }
  let d4 := (d3.modGen n fun g => { g with setting := {}, pending := [], committed := [] }).showExp n
  let d5 := d4.wrN (Reg.hlStat n) 0
  if d5.lineStarted then d5.modCard n d5.pos.gen fun c => c.withAwaits (max 1 (d5.awaits n)) else d5

theorem Dev.attachPort_eq : d.attachPort n p = (d.attachSettings n p).attachFresh n p := rfl

theorem Dev.onlyHead_modCard (l : List Nat) (gen : Nat) (f : Card → Card) : d.OnlyHead l n (d.modCard n gen f) :=
  (Dev.OnlyHead.refl l n d).modPipe _

theorem Dev.refits_attachFresh : d.Refits (freshRegs n) n (d.attachFresh n p) := by
  have hstat : Reg.hlStat n ∈ freshRegs n := by simp [freshRegs]
  have hexp : expRegs n ⊆ freshRegs n := fun a ha => by simp [freshRegs, ha]
  have hid : identityRegs n 0 ++ identityRegs n 1 ⊆ freshRegs n := fun a ha => by
    rw [freshRegs, List.append_assoc]
    exact List.mem_append_right _ ha
  unfold Dev.attachFresh
  extract_lets w d2 d3 d4 d5
  have h2 : d.Refits (freshRegs n) n d2 := by
    unfold d2
    split
    · exact (d.refits_identityTables n).mono hid
    · exact (Dev.OnlyHead.refl _ n d).refits
  have h3 : d2.Refits (freshRegs n) n d3 := (((Dev.OnlyHead.refl _ n d2).modPipe _).modPort _).refits
  have h4 : d3.Refits (freshRegs n) n d4 :=
    (Dev.refits_modGen _).trans (((Dev.showExp_onlyRegs _ n).onlyHead n).refits.mono hexp)
  have h5 : d4.Refits (freshRegs n) n d5 := ((Dev.OnlyHead.refl _ n d4).wr hstat _).refits
  have h : d.Refits (freshRegs n) n d5 := ((h2.trans h3).trans h4).trans h5
  split
  · exact h.trans (d5.onlyHead_modCard n _ _ _).refits
  · exact h

theorem Dev.attachSettings_refits : d.Refits (attachWords n) n (d.attachSettings n p) :=
  (((((Dev.OnlyHead.refl (attachWords n) n d).wr (by simp [attachWords]) _).wr (by simp [attachWords]) _).wr (by simp [attachWords]) _).wr
    (by simp [attachWords]) _).refits

theorem Dev.refits_attachPort : d.Refits (attachWords n) n (d.attachPort n p) := by
  rw [d.attachPort_eq]
  exact (d.attachSettings_refits n p).trans ((Dev.refits_attachFresh _ n p).mono fun a ha => mem_attachWords.mpr (.inr ha))

theorem Dev.attachSettings_words : (d.attachSettings n p).rdN (Reg.hlCfg n) = (attachRegs p).1 % 2 ^ 32
    ∧ (d.attachSettings n p).rdN (Reg.hlGeom n) = (attachRegs p).2.1 % 2 ^ 32
    ∧ (d.attachSettings n p).rdN (Reg.hlLanemap n) = (attachRegs p).2.2.1 % 2 ^ 32
    ∧ (d.attachSettings n p).rdN (Reg.hlTimeout n) = (attachRegs p).2.2.2 % 2 ^ 32 := by
  have h01 : Reg.hlCfg n ≠ Reg.hlGeom n := by unfold Reg.hlCfg Reg.hlGeom; omega
  have h02 : Reg.hlCfg n ≠ Reg.hlLanemap n := by unfold Reg.hlCfg Reg.hlLanemap; omega
  have h03 : Reg.hlCfg n ≠ Reg.hlTimeout n := by unfold Reg.hlCfg Reg.hlTimeout; omega
  have h12 : Reg.hlGeom n ≠ Reg.hlLanemap n := by unfold Reg.hlGeom Reg.hlLanemap; omega
  have h13 : Reg.hlGeom n ≠ Reg.hlTimeout n := by unfold Reg.hlGeom Reg.hlTimeout; omega
  have h23 : Reg.hlLanemap n ≠ Reg.hlTimeout n := by unfold Reg.hlLanemap Reg.hlTimeout; omega
  unfold Dev.attachSettings
  dsimp only
  refine ⟨?_, ?_, ?_, ?_⟩
  · rw [Dev.rdN_wrN_ne _ _ h03, Dev.rdN_wrN_ne _ _ h02, Dev.rdN_wrN_ne _ _ h01, Dev.rdN_wrN_same]
  · rw [Dev.rdN_wrN_ne _ _ h13, Dev.rdN_wrN_ne _ _ h12, Dev.rdN_wrN_same]
  · rw [Dev.rdN_wrN_ne _ _ h23, Dev.rdN_wrN_same]
  · rw [Dev.rdN_wrN_same]

end

/-- The words of a request within its ranges are whole registers. -/
theorem attachRegs_lt {p : Bytes} (hok : attachOk p = true) : (attachRegs p).1 < 2 ^ 32 ∧ (attachRegs p).2.1 < 2 ^ 32
    ∧ (attachRegs p).2.2.1 < 2 ^ 32 ∧ (attachRegs p).2.2.2 < 2 ^ 32 := by
  obtain ⟨-, hgbps, -, hvc, hdt, -, hlpt, -⟩ := of_decide_eq_true hok
  have hcode : lcodeOf (leAt p 2 1) ≤ 2 := by unfold lcodeOf; split_ifs <;> omega
  have hdt' : leAt p 4 1 ≤ 0x2F := by omega
  have hb0 : bits (leAt p 5 1) 0 1 < 2 ^ 1 := Nat.mod_lt _ (by decide)
  have hb1 : bits (leAt p 5 1) 1 4 < 2 ^ 4 := Nat.mod_lt _ (by decide)
  have hmap := leAt_lt p 6 1
  have hwidth := leAt_lt p 8 2
  have hrows := leAt_lt p 10 2
  have htime := leAt_lt p 12 2
  norm_num at hb0 hb1 hmap hwidth hrows htime
  unfold attachRegs
  dsimp only
  generalize leAt p 1 1 = a at *
  generalize lcodeOf (leAt p 2 1) = b at *
  generalize bits (leAt p 5 1) 0 1 = c at *
  generalize bits (leAt p 5 1) 1 4 = e at *
  omega

/-- The registers that an attach leaves. -/
theorem Dev.attachPort_words (d : Dev) {n : Nat} {p : Bytes} (hok : attachOk p = true) (hn : n ≤ 15) :
    (d.attachPort n p).rdN (Reg.hlCfg n) = (attachRegs p).1 ∧ (d.attachPort n p).rdN (Reg.hlGeom n) = (attachRegs p).2.1
    ∧ (d.attachPort n p).rdN (Reg.hlLanemap n) = (attachRegs p).2.2.1 ∧ (d.attachPort n p).rdN (Reg.hlTimeout n) = (attachRegs p).2.2.2 := by
  obtain ⟨hcfg, hgeom, hmap, htime⟩ := d.attachSettings_words n p
  obtain ⟨lcfg, lgeom, lmap, ltime⟩ := attachRegs_lt hok
  have hkept := (Dev.refits_attachFresh (d.attachSettings n p) n p).word
  have hk : ∀ a, Reg.hlCfg n ≤ a → a < Reg.hlStat n →
      ((d.attachSettings n p).attachFresh n p).rdN a = (d.attachSettings n p).rdN a := fun a hlo hhi =>
    Dev.rdN_congr (hkept a (not_mem_freshRegs hn hlo hhi))
  rw [d.attachPort_eq]
  refine ⟨?_, ?_, ?_, ?_⟩
  · rw [hk _ (by unfold Reg.hlCfg; omega) (by unfold Reg.hlCfg Reg.hlStat; omega), hcfg, Nat.mod_eq_of_lt lcfg]
  · rw [hk _ (by unfold Reg.hlCfg Reg.hlGeom; omega) (by unfold Reg.hlGeom Reg.hlStat; omega), hgeom, Nat.mod_eq_of_lt lgeom]
  · rw [hk _ (by unfold Reg.hlCfg Reg.hlLanemap; omega) (by unfold Reg.hlLanemap Reg.hlStat; omega), hmap, Nat.mod_eq_of_lt lmap]
  · rw [hk _ (by unfold Reg.hlCfg Reg.hlTimeout; omega) (by unfold Reg.hlTimeout Reg.hlStat; omega), htime, Nat.mod_eq_of_lt ltime]

end Sys2Proof.Machine
end

section
/-! SUPPORT. The commands of a head port and the end of a head message (R182 to R184, R188), and the statement. -/

namespace Sys2Proof.Machine

open Sys2Proof

/-! ## What an attach, a detach and their power domains may change -/

/-- A device with what an attach may change, power domains too, taken from device t. -/
def Dev.refittedAs (d t : Dev) : Dev :=
  { d with regs := t.regs, pos := t.pos, ports := t.ports, pipes := t.pipes, deep := t.deep, lost := t.lost, pwr := t.pwr }

/-- A device with what a detach may change taken from device t. -/
def Dev.detachedAs (d t : Dev) : Dev := { d with regs := t.regs, ports := t.ports, pipes := t.pipes, pwr := t.pwr, out := t.out }

section
variable (d : Dev) (on : Bool) (l : List Nat)

theorem Dev.requestDomains_refittedAs : d.requestDomains on l = d.refittedAs (d.requestDomains on l) :=
  (congrArg (fun x : Dev => x.refittedAs (d.requestDomains on l)) (d.requestDomains_rest on l) :)

theorem Dev.requestDomains_detachedAs : d.requestDomains on l = d.detachedAs (d.requestDomains on l) :=
  (congrArg (fun x : Dev => x.detachedAs (d.requestDomains on l)) (d.requestDomains_rest on l) :)

end

section
variable {l : List Nat} {n : Nat} {d t : Dev}

theorem Dev.Refits.pwr (h : d.Refits l n t) : t.pwr = d.pwr := (congrArg Dev.pwr h.rest :)

theorem Dev.Refits.refittedAs (h : d.Refits l n t) (x : Dev) : t.refittedAs x = d.refittedAs x :=
  (congrArg (fun y : Dev => y.refittedAs x) h.rest :)

theorem Dev.OnlyHead.pwr (h : d.OnlyHead l n t) : t.pwr = d.pwr := (congrArg Dev.pwr h.rest :)

theorem Dev.OnlyHead.out (h : d.OnlyHead l n t) : t.out = d.out := (congrArg Dev.out h.rest :)

theorem Dev.OnlyHead.running (h : d.OnlyHead l n t) : t.running = d.running := (congrArg Dev.running h.rest :)

theorem Dev.OnlyHead.detachedAs (h : d.OnlyHead l n t) (x : Dev) : t.detachedAs x = d.detachedAs x :=
  (congrArg (fun y : Dev => y.detachedAs x) h.rest :)

end

section
variable (d : Dev) (n code : Nat)

theorem Dev.linkctls_out : (d.linkctls n code).out = List.replicate 3 (linkctlOut n code 0) ++ d.out := rfl

theorem Dev.linkctls_pwr : (d.linkctls n code).pwr = d.pwr := rfl

theorem Dev.linkctls_port (m : Nat) : (d.linkctls n code).port m = d.port m := rfl

theorem Dev.linkctls_pipe (m : Nat) : (d.linkctls n code).pipe m = d.pipe m := rfl

theorem Dev.linkctls_running : (d.linkctls n code).running = d.running := rfl

theorem Dev.linkctls_detachedAs (t : Dev) : (d.linkctls n code).detachedAs t = d.detachedAs t := rfl

end

/-! ## HEAD_ATTACH (R184) -/

/-- What an attach leaves once it has asked for the port's power domains (R184, R548). -/
theorem Dev.attached_effect (d : Dev) {n : Nat} {p : Bytes} (hok : attachOk p = true) (hn : n ≤ 15) :
    let t := (d.attachPort n p).requestDomains true (pipeDomains n)
    t.rdN (Reg.hlCfg n) = (attachRegs p).1 ∧ t.rdN (Reg.hlGeom n) = (attachRegs p).2.1
    ∧ t.rdN (Reg.hlLanemap n) = (attachRegs p).2.2.1 ∧ t.rdN (Reg.hlTimeout n) = (attachRegs p).2.2.2
    ∧ t.pwr = { d.pwr with queue := d.pwr.queue ++ ((pipeDomains n).filter fun j => d.domainOn j != true).map fun j => (j, true) }
    ∧ (∀ m, m < 16 → m ≠ n → t.port m = d.port m ∧ t.pipe m = d.pipe m ∧ t.gen m = d.gen m)
    ∧ d.regsKept t (attachWords n)
    ∧ (∀ a, (a < tableBase n ∨ tableBase n + 0x100000 ≤ a) → t.deepRd a = d.deepRd a)
    ∧ t = { d with
        regs := t.regs, pos := t.pos, ports := t.ports, pipes := t.pipes, deep := t.deep, lost := t.lost, pwr := t.pwr } := by
  intro t
  have h := d.refits_attachPort n p
  have hon : ∀ j ∈ pipeDomains n, (d.attachPort n p).domainOn j = d.domainOn j := fun j hj =>
    Dev.domainOn_kept h.word (fun _ => le_of_mem_attachWords) hn hj
  obtain ⟨hcfg, hgeom, hmap, htime⟩ := d.attachPort_words hok hn
  have hkept := (d.attachPort n p).requestDomains_kept true (pipeDomains n)
  have hq := (d.attachPort n p).requestDomains_pwr true (pipeDomains n)
  have hrd : ∀ a, Reg.hlCfg n ≤ a → t.rdN a = (d.attachPort n p).rdN a := fun a ha =>
    Dev.rdN_congr (hkept a (List.mem_singleton.not.mpr (by unfold Reg.hlCfg at ha; unfold Reg.pdSeq; omega)))
  rw [h.pwr, Dev.filter_domains_congr true hon] at hq
  refine ⟨(hrd _ (by unfold Reg.hlCfg; omega)).trans hcfg, (hrd _ (by unfold Reg.hlCfg Reg.hlGeom; omega)).trans hgeom,
    (hrd _ (by unfold Reg.hlCfg Reg.hlLanemap; omega)).trans hmap, (hrd _ (by unfold Reg.hlCfg Reg.hlTimeout; omega)).trans htime,
    hq, fun m _ hm => ?_, h.word.trans (hkept.mono (by simp [attachWords])), fun a ha => ?_, ?_⟩
  · obtain ⟨hport, hpipe, hgen⟩ := h.other m hm
    exact ⟨(Dev.requestDomains_port _ _ _ m).trans hport, (Dev.requestDomains_pipe _ _ _ m).trans hpipe,
      (Dev.requestDomains_gen _ _ _ m).trans hgen⟩
  · exact (Dev.requestDomains_deepRd _ _ _ a).trans (h.deep a ha)
  · exact (Dev.requestDomains_refittedAs _ _ _).trans (h.refittedAs t)

/-- HEAD_ATTACH of a port that is off (R184). -/
theorem exec_headAttach {s : State} {r : Req} (h : Begins s r [.pipe (leAt r.payload 0 1)]) {n : Nat} (hn : n = leAt r.payload 0 1)
    {effect : Dev → Running → Prop} (hlen : r.payload.length = 16) (hf : bits (leAt r.payload 5 1) 5 3 = 0)
    (hz : zeroAt r.payload 14 2 = true) (hok : attachOk r.payload = true) (hoff : s.dev.portState n = 0)
    (hsoft : s.dev.stiffActive = false) (hrec : s.dev.flag Reg.fltUrec n = false) (hdom : ∃ j ∈ pipeDomains n, s.dev.domainOn j = false)
    (he : effect (((s.dev.takeReq 0x0401 r).attachPort n r.payload).requestDomains true (pipeDomains n))
      ⟨0x0401, r, [.pipe n], [n], s.dev.lastSwitch true (pipeDomains n), false⟩) :
    GoesOn (.headAttach r) s 0x0401 r effect := by
  subst hn
  obtain ⟨hle, -⟩ := of_decide_eq_true hok
  have hon : ∀ j ∈ pipeDomains (leAt r.payload 0 1),
      ((s.dev.takeReq 0x0401 r).attachPort (leAt r.payload 0 1) r.payload).domainOn j = s.dev.domainOn j := fun j hj =>
    Dev.domainOn_kept ((s.dev.takeReq 0x0401 r).refits_attachPort _ _).word (fun _ => le_of_mem_attachWords) hle hj
  obtain ⟨sw, hsw⟩ := Dev.lastSwitch_isSome (on := true) hdom
  rw [hsw] at he
  refine command_goesOn h _ _ (b := ⟨((s.dev.takeReq 0x0401 r).attachPort (leAt r.payload 0 1) r.payload).requestDomains true
    (pipeDomains (leAt r.payload 0 1)), [.pipe (leAt r.payload 0 1)], [leAt r.payload 0 1], some sw⟩) rfl rfl rfl (by simp [lenIs, hlen])
    (by simp [hf, hz]) ?_ he
  have hp : (s.dev.takeReq 0x0401 r).portState (leAt r.payload 0 1) = 0 := hoff
  dsimp only
  rw [if_neg (by rw [hok]; decide), if_neg (not_not.mpr hp), if_neg (by rw [Dev.takeReq_stiff, hsoft]; decide),
    if_neg (by rw [Dev.takeReq_flag, hrec]; decide), (Dev.lastSwitch_congr true hon).trans hsw]

/-! ## HEAD_DETACH (R188) -/

/-- The device from which a head has been detached, before its domains go off: HALT three times, the lines lost, no TRIGGER (R188). -/
def Dev.halted (d : Dev) (n : Nat) : Dev :=
  (((d.linkctls n 3).dropTable n Cause.detached).modPort n fun q => { q with halted := true }).setFlag (Reg.hlCfg n) 31 false

theorem Dev.abortMessage_none {d : Dev} {n : Nat} (h : ∀ x ∈ d.running, x.code = 0x0404 → x.args ≠ [n]) : d.abortMessage n = d := by
  have hnone : (d.running.find? fun x => x.code == 0x0404 && x.args == [n]) = none := by
    refine List.find?_eq_none.mpr fun x hx => ?_
    have := h x hx
    simpa using this
  rw [Dev.abortMessage, hnone]

theorem Dev.onlyHead_halted (d : Dev) (n : Nat) : (d.linkctls n 3).OnlyHead [Reg.hlCfg n] n (d.halted n) := by
  unfold Dev.halted
  exact (((d.linkctls n 3).onlyHead_dropTable n _ _).modPort _).setFlag (by simp) _ _

theorem Dev.detachPort_eq {d : Dev} {n : Nat} (hp : d.portState n ≠ 0) (h : ∀ x ∈ d.running, x.code = 0x0404 → x.args ≠ [n]) :
    d.detachPort n = d.halted n := by
  have hrun : (d.halted n).running = d.running := (d.onlyHead_halted n).running.trans (d.linkctls_running n 3)
  rw [← Dev.abortMessage_none (d := d.halted n) (n := n) (by rw [hrun]; exact h), Dev.halted, Dev.detachPort, Dev.haltHead, if_neg hp,
    Dev.linkctl_thrice]

/-- What a detach leaves once it has asked for the port's power domains to go off (R188, R548). -/
theorem Dev.detached_effect (d : Dev) {n : Nat} (hn : n ≤ 15) :
    let t := (d.halted n).requestDomains false (pipeDomains n).reverse
    t.out = List.replicate 3 (linkctlOut n 3 0) ++ d.out
    ∧ (t.port n).table = [] ∧ (t.port n).inUse = none ∧ (t.port n).line = none ∧ (t.port n).halted = true
    ∧ (t.pipe n).rx = (d.pipe n).rx ++ (d.port n).lostLines Cause.detached
    ∧ t.flag (Reg.hlCfg n) 31 = false
    ∧ t.pwr = { d.pwr with queue := d.pwr.queue ++ ((pipeDomains n).reverse.filter fun j => d.domainOn j != false).map fun j => (j, false) }
    ∧ (∀ m, m < 16 → m ≠ n → t.port m = d.port m ∧ t.pipe m = d.pipe m)
    ∧ d.regsKept t [Reg.hlCfg n, Reg.pdSeq]
    ∧ t = { d with regs := t.regs, ports := t.ports, pipes := t.pipes, pwr := t.pwr, out := t.out } := by
  intro t
  have h := d.onlyHead_halted n
  have hkept : d.regsKept (d.halted n) [Reg.hlCfg n] := fun a ha => (h.word a ha).trans (d.rd_linkctls n 3 a)
  have hon : ∀ j ∈ (pipeDomains n).reverse, (d.halted n).domainOn j = d.domainOn j := fun j hj =>
    Dev.domainOn_kept hkept (by simp [Reg.hlCfg]; omega) hn (List.mem_reverse.mp hj)
  have hpwr : (d.halted n).pwr = d.pwr := h.pwr.trans (d.linkctls_pwr n 3)
  have hseq := (d.halted n).requestDomains_kept false (pipeDomains n).reverse
  have hq := (d.halted n).requestDomains_pwr false (pipeDomains n).reverse
  rw [hpwr, Dev.filter_domains_congr false hon] at hq
  have hports : ∀ m, t.port m = (d.halted n).port m := (d.halted n).requestDomains_port false _
  have hpipes : ∀ m, t.pipe m = (d.halted n).pipe m := (d.halted n).requestDomains_pipe false _
  have hport : t.port n = { (d.port n).emptied with halted := true } := by
    rw [hports, Dev.halted, Dev.port_setFlag, Dev.port_modPort_same, Dev.dropTable_port, Dev.linkctls_port]
  have hout : t.out = (d.linkctls n 3).out := ((d.halted n).requestDomains_out false _).trans h.out
  rw [Dev.linkctls_out] at hout
  refine ⟨hout, congrArg Port.table hport, congrArg Port.inUse hport, congrArg Port.line hport, congrArg Port.halted hport, ?_, ?_, hq,
    fun m _ hm => ⟨((hports m).trans (h.port m hm)).trans (d.linkctls_port n 3 m),
      ((hpipes m).trans (h.pipe m hm)).trans (d.linkctls_pipe n 3 m)⟩,
    (hkept.mono (by simp)).trans (hseq.mono (by simp)), ?_⟩
  · rw [hpipes, Dev.halted, Dev.pipe, Dev.pipes_setFlag, Dev.pipes_modPort, ← Dev.pipe, Dev.dropTable_rx, Dev.linkctls_pipe,
      Dev.linkctls_port]
  · have hne : Reg.hlCfg n ≠ Reg.pdSeq := by unfold Reg.hlCfg Reg.pdSeq; omega
    rw [Dev.flag_congr (hseq _ (List.mem_singleton.not.mpr hne)), Dev.halted]
    exact Dev.flag_setFlag_same _ _ _ _ (by decide)
  · exact ((d.halted n).requestDomains_detachedAs false _).trans ((h.detachedAs t).trans (d.linkctls_detachedAs n 3 t))

/-- HEAD_DETACH of a port that is not off (R188). -/
theorem exec_headDetach {s : State} {r : Req} (h : Begins s r [.pipe (leAt r.payload 0 1)]) {n : Nat} (hn : n = leAt r.payload 0 1)
    {effect : Dev → Running → Prop} (hlen : r.payload.length = 4) (hz : zeroAt r.payload 1 3 = true) (hle : n ≤ 15)
    (hp : s.dev.portState n ≠ 0) (hmode : s.dev.lineStarted = true → s.dev.mode n = 0) (hsoft : s.dev.stiffActive = false)
    (hdom : ∃ j ∈ pipeDomains n, s.dev.domainOn j = true) (hmsg : ∀ x ∈ s.dev.running, x.code = 0x0404 → x.args ≠ [n])
    (he : effect (((s.dev.takeReq 0x0402 r).halted n).requestDomains false (pipeDomains n).reverse)
      ⟨0x0402, r, [.pipe n], [n], s.dev.lastSwitch false (pipeDomains n).reverse, false⟩) :
    GoesOn (.headDetach r) s 0x0402 r effect := by
  subst hn
  have hon : ∀ j ∈ (pipeDomains (leAt r.payload 0 1)).reverse,
      ((s.dev.takeReq 0x0402 r).halted (leAt r.payload 0 1)).domainOn j = s.dev.domainOn j := fun j hj =>
    Dev.domainOn_kept ((s.dev.takeReq 0x0402 r).onlyHead_halted _).word (by simp [Reg.hlCfg]; omega) hle (List.mem_reverse.mp hj)
  obtain ⟨sw, hsw⟩ := Dev.lastSwitch_isSome (d := s.dev) (l := (pipeDomains (leAt r.payload 0 1)).reverse) (on := false)
    (by simpa only [List.mem_reverse, Bool.not_false] using hdom)
  rw [hsw] at he
  refine command_goesOn h _ _ (b := ⟨((s.dev.takeReq 0x0402 r).halted (leAt r.payload 0 1)).requestDomains false
    (pipeDomains (leAt r.payload 0 1)).reverse, [.pipe (leAt r.payload 0 1)], [leAt r.payload 0 1], some sw⟩) rfl rfl rfl
    (by simp [lenIs, hlen]) hz ?_ he
  have hp' : (s.dev.takeReq 0x0402 r).portState (leAt r.payload 0 1) ≠ 0 := hp
  have hidle : ((s.dev.takeReq 0x0402 r).lineStarted && (s.dev.takeReq 0x0402 r).mode (leAt r.payload 0 1) != 0) = false := by
    rw [Dev.lineStarted, Dev.mode, Dev.takeReq_flag, Dev.takeReq_fld, ← Dev.lineStarted, ← Dev.mode]
    cases hline : s.dev.lineStarted with
    | false => rfl
    | true => rw [hmode hline]; rfl
  dsimp only
  rw [if_neg (by omega), if_neg hp', if_neg (by rw [hidle]; decide), if_neg (by rw [Dev.takeReq_stiff, hsoft]; decide),
    Dev.detachPort_eq hp' hmsg, (Dev.lastSwitch_congr false hon).trans hsw]

/-! ## HEAD_LINK_STATUS (R183) -/

theorem noBatt_bytes : le 8 noBatt = List.replicate 8 0xFF := by decide

theorem Dev.linkReport_takeReq (d : Dev) (c n : Nat) (r : Req) : (d.takeReq c r).linkReport n = d.linkReport n := by
  simp only [Dev.linkReport, Dev.rdN, Dev.takeReq_rd, Dev.takeReq_fld, Dev.laneCount, Dev.port, Dev.takeReq_ports]

/-! ## Head messages (R182) -/

theorem Dev.sendAll_eq (d : Dev) (n kind : Nat) (fs : List Bytes) :
    fs.foldl (fun d f => d.sendChars n kind f) d = { d with out := (fs.map (sentChars n kind)).reverse ++ d.out } := by
  induction fs generalizing d with
  | nil => rfl
  | cons f fs ih =>
    rw [List.foldl_cons, ih, List.map_cons, List.reverse_cons, List.append_assoc]
    rfl

/-- Fragment j of a message: CTL with the marks of the first and the last, LEN and up to 16 bytes. -/
def fragment (idx : Nat) (last : Bool) (piece : Bytes) : Bytes :=
  le 1 ((if idx = 0 then 0x80 else 0) + (if last then 0x40 else 0) + idx) ++ le 1 piece.length ++ piece

theorem mem_fragments {total m : Nat} {data : Bytes} (hm : m = (data.length + 15) / 16) (htotal : m ≤ total) {j : Nat}
    (hj : 16 * j < data.length) :
    fragment (total - m + j) (decide (data.length ≤ 16 * (j + 1))) ((data.drop (16 * j)).take 16) ∈ fragments total m data := by
  induction m generalizing data j with
  | zero => omega
  | succ m ih =>
    rw [fragments]
    cases j with
    | zero =>
      have hlast : (m = 0) ↔ data.length ≤ 16 * (0 + 1) := by omega
      refine List.mem_cons.mpr (.inl ?_)
      simp only [fragment, decide_eq_true_eq, ← hlast]
      rfl
    | succ j =>
      refine List.mem_cons.mpr (.inr ?_)
      have hlen : (data.drop 16).length = data.length - 16 := List.length_drop
      have h := ih (data := data.drop 16) (j := j) (by omega) (by omega) (by omega)
      have hidx : total - m + j = total - (m + 1) + (j + 1) := by omega
      have hlast : ((data.drop 16).length ≤ 16 * (j + 1)) ↔ data.length ≤ 16 * (j + 1 + 1) := by omega
      have hpiece : (data.drop 16).drop (16 * j) = data.drop (16 * (j + 1)) := by rw [List.drop_drop]; congr 1; omega
      simpa only [hidx, hlast, hpiece] using h

/-- HEAD_MESSAGE is no configuration command, and nothing of it is kept (R533). -/
theorem Dev.endRunning_headMessage (d : Dev) {x : Running} (hx : x.code = 0x0404) :
    d.endRunning x St.ok [] = (d.answerRunning x St.ok []).drainUnknown x.req.mbx.val 8 := by
  rw [Dev.endRunning, hx]
  rfl

theorem headMessage_code {l : List Running} {n : Nat} {x : Running} (hx : l.find? (fun x => x.code == 0x0404 && x.args == [n]) = some x) :
    x.code = 0x0404 := by
  have h := List.find?_some hx
  rw [Bool.and_eq_true, beq_iff_eq] at h
  exact h.1

/-- A head message that ends has left in its fragments, and its command answers OK. -/
theorem exec_hmsgSent {s : State} (ha : s.alive) {head : Fin 16} {x : Running}
    (hx : s.dev.running.find? (fun x => x.code == 0x0404 && x.args == [head.val]) = some x) :
    let data := x.req.payload.drop 4
    let n := (data.length + 15) / 16
    let u : Dev := { s.dev with out := ((fragments n n data).map (sentChars head.val 3)).reverse ++ s.dev.out }
    exec (.hmsgSent head) s = .next { s with dev := (u.answerRunning x St.ok []).drainUnknown x.req.mbx.val 8 } := by
  intro data n u
  change execHmsgSent head s = _
  rw [execHmsgSent, State.upd_alive ha, hx]
  dsimp only
  rw [Dev.sendAll_eq, Dev.endRunning_headMessage _ (headMessage_code hx)]

/-- Settles O18: the commands begin as `command_goesOn` and `command_ok` say, and the lemmas on attaching, detaching and fragments give
their effects. -/
theorem headPortCommands : Obligations.HeadPortCommands := by
  unfold Obligations.HeadPortCommands
  refine fun s => ⟨fun r n h hn => ?_, fun head x ha hx => ?_⟩
  · rw [hn] at h
    intro p took
    refine ⟨fun hlen hf hz hok hoff hsoft hrec hdom => ?_, fun hlen hz hle hp hmode hsoft hdom hmsg => ?_, fun hlen hz hle => ?_,
      fun hlen hz hle h1 h256 hp => ?_⟩
    · have hle : n ≤ 15 := hn ▸ (of_decide_eq_true hok).1
      obtain ⟨hcfg, hgeom, hmap, htime, hpwr, hother, hkept, hdeep, hframe⟩ := (took 0x0401).attached_effect hok hle
      exact exec_headAttach h hn hlen hf hz hok hoff hsoft hrec hdom
        ⟨rfl, rfl, rfl, hcfg, hgeom, hmap, htime, hpwr, hother, hkept, hdeep, hframe⟩
    · exact exec_headDetach h hn hlen hz hle hp hmode hsoft hdom hmsg ⟨rfl, rfl, rfl, (took 0x0402).detached_effect hle⟩
    · intro st
      have hok : ¬ leAt r.payload 0 1 > 15 := by omega
      refine command_ok h _ _ rfl rfl rfl (by simp [lenIs, p, hlen]) hz (d := took 0x0403) ?_ rfl
      rw [if_neg hok, Dev.linkReport_takeReq, ← hn, Dev.linkReport, noBatt_bytes]
      cases (s.dev.port n).lastDown <;> rfl
    · have hlen' : (decide (r.payload.length ≥ 4 ∧ r.payload.length = 4 + leAt r.payload 2 2)) = true :=
        decide_eq_true ⟨hlen ▸ Nat.le_add_right 4 _, hlen⟩
      have hrange : ¬ (n > 15 ∨ leAt r.payload 2 2 < 1 ∨ leAt r.payload 2 2 > 256) :=
        not_or.mpr ⟨by omega, not_or.mpr ⟨Nat.not_lt.mpr h1, Nat.not_lt.mpr h256⟩⟩
      have hready : ¬ ((s.dev.takeReq 0x0404 r).portState n ≠ 3 ∨ (s.dev.takeReq 0x0404 r).safe = true) :=
        not_or.mpr ⟨not_not.mpr hp, ne_true_of_eq_false h.serves.2.2.1⟩
      refine command_goesOn h _ _ (b := ⟨took 0x0404, [.pipe n], [n], none⟩) rfl rfl rfl hlen' hz ?_ ⟨rfl, rfl, rfl, rfl⟩
      dsimp only
      rw [← hn, if_neg hrange, if_neg hready]
  · intro data
    refine ⟨_, exec_hmsgSent ha hx, ((fragments ((data.length + 15) / 16) ((data.length + 15) / 16) data).map (sentChars head.val 3)).reverse
      ++ s.dev.out, ?_, fun j hj => ?_⟩
    · rw [Dev.answerRunning, (headMessage_code hx)]
    · intro piece chars
      have hmem := mem_fragments rfl (le_refl ((data.length + 15) / 16)) hj
      rw [Nat.sub_self, Nat.zero_add] at hmem
      have hfrag : fragment j (decide (data.length ≤ 16 * (j + 1))) piece = chars := by
        simp only [fragment, decide_eq_true_eq]
        rfl
      refine List.mem_append_left _ (List.mem_reverse.mpr (List.mem_map.mpr ⟨_, hmem, ?_⟩))
      rw [hfrag, sentChars]

end Sys2Proof.Machine
end

section
/-! SUPPORT. The pixel commands (R214, R215): a commit that its own write makes too late, and the refutation. -/

namespace Sys2Proof.Machine

open Sys2Proof

/-! ## A line with a head beyond the sixteen -/

/-- A head number whose offset word lies where word W2 of row 0 of the channel matrix of bank 1 of pipeline 0 stands. -/
def strayHead : Nat := 53236

/-- A line runs, to which that head alone contributes; the word that it takes for its offset holds 4 ticks. -/
def strayLine : State := { State.reset with
  dev := { (State.reset.dev.wr Reg.posStat 0x80000000#32).wr (Reg.matW2 0 1 0) 1024#32 with
    pos := { State.reset.dev.pos with contributing := [strayHead] }, pwr := { State.reset.dev.pwr with phase := .ready } } }

/-- A CHANNEL_MATRIX_SET of zeros for pipeline 0 that commits with batt 0 as its target, and wants no response. -/
def zeroMatrix : Req := ⟨0, 0, 0, true, false, [], [0, 1] ++ zeros 70⟩

theorem strayLine_begins : Begins strayLine zeroMatrix [.pipe 0] where
  serves := ⟨rfl, rfl, by decide +kernel, by decide +kernel⟩
  idle := rfl
  ownFree := rfl
  otherFree := rfl
  clean _ := rfl

/-- The rows of a channel matrix as CHANNEL_MATRIX_SET writes them into bank b of pipeline n. -/
def Dev.setMatrix (d : Dev) (n b : Nat) (p : Bytes) : Dev :=
  (List.range 4).foldl (fun d j =>
    (((d.wrN (Reg.matW0 n b j) (leAt p (16 + 10 * j) 4)).wrN (Reg.matW1 n b j) (leAt p (20 + 10 * j) 4)).wrN
      (Reg.matW2 n b j) (leAt p (24 + 10 * j) 2)).wrN (Reg.matW3 n b j) (leAt p (56 + 4 * j) 4 % 2 ^ 25)) d

/-- The device that has taken the request. -/
def strayTaken : Dev := strayLine.dev.takeReq 0x0504 zeroMatrix

/-- The bank could be committed and the target has not passed; with the matrix written it has. -/
theorem strayLine_inTime : strayLine.dev.commitOk 0 = true ∧ strayLine.dev.targetLate (pxTarget zeroMatrix.payload) = false
    ∧ (strayTaken.setMatrix 0 1 zeroMatrix.payload).targetLate (pxTarget zeroMatrix.payload) = true := by
  refine ⟨?_, ?_, ?_⟩
  · decide +kernel
  · decide +kernel
  · decide +kernel

/-- So the command is turned away as too late. -/
theorem strayLine_turnsAway : TurnsAway (.channelMatrixSet zeroMatrix) strayLine 0x0504 zeroMatrix St.tooLate := by
  obtain ⟨-, -, hlate⟩ := strayLine_inTime
  have hchecks : strayTaken.pxChecks zeroMatrix.payload none = none := by decide +kernel
  have hcommit : pxCommit zeroMatrix.payload = true := by decide
  have hfinish : (strayTaken.setMatrix 0 1 zeroMatrix.payload).pxFinish zeroMatrix.payload
      = (strayTaken.setMatrix 0 1 zeroMatrix.payload, St.tooLate) := by
    rw [Dev.pxFinish, hcommit, hlate]; rfl
  refine command_turned strayLine_begins _ _ rfl rfl rfl rfl (by decide +kernel) ?_ (by decide) (by decide)
  change strayTaken.pxDirect zeroMatrix none (fun d => d.setMatrix 0 (d.inactive 0) zeroMatrix.payload) [] = _
  have hbank : strayTaken.inactive 0 = 1 := by decide +kernel
  rw [Dev.pxDirect, hchecks]
  dsimp only
  rw [hbank, hfinish]
  rfl

/-! ## The response that is stored (R62) -/

theorem Dev.drainUnknown_empty {d : Dev} {m : Nat} (h : (d.box m).hopper = []) (k : Nat) : d.drainUnknown m k = d := by
  cases k with
  | zero => rfl
  | succ k => rw [Dev.drainUnknown, h]

/-- An answer that is not sent is stored, and the hopper stays. -/
theorem Dev.answer_unsent {r : Req} (h : r.noresp = true) (d : Dev) (code status : Nat) (payload : Bytes) :
    (d.answer code r status payload).box r.mbx.val
      = { d.box r.mbx.val with stored := some (response code r status payload) } := by
  rw [Dev.answer, h]
  exact Dev.box_modBox_same { d with cause := none } _ _

theorem Dev.record_box (d : Dev) (c : Nat) (p : Bytes) (m : Nat) : (d.record c p).box m = d.box m := by
  rw [Dev.record_eq]; rfl

/-- Behind an empty hopper the status of an answer that is not sent can be read from what is stored. -/
theorem Dev.answer_status {r : Req} (h : r.noresp = true) {d : Dev} (he : (d.box r.mbx.val).hopper = []) (code status k : Nat)
    (payload : Bytes) : (((d.answer code r status payload).drainUnknown r.mbx.val k).box r.mbx.val).stored.map (·.status) = some status := by
  have hb := d.answer_unsent h code status payload
  have hh : ((d.answer code r status payload).box r.mbx.val).hopper = [] := by rw [hb]; exact he
  rw [Dev.drainUnknown_empty hh, hb]
  rfl

/-- Refutes O21: the offset words of a contributing head are read where its number puts them, and nothing keeps that number below 16.
The write of the matrix can then shorten the offset that the guard of R138 counts with, and the commit, in time before, is refused. -/
theorem not_pixelBankCommands : ¬ Obligations.PixelBankCommands := by
  unfold Obligations.PixelBankCommands
  intro h
  obtain ⟨hok, hlate, -⟩ := strayLine_inTime
  obtain ⟨-, -, -, -, hcommit⟩ := h strayLine zeroMatrix 0 rfl (Nat.zero_le 15) (by decide +kernel) (by decide +kernel) (by decide +kernel)
    fun _ => hlate
  obtain ⟨d, hexec, -, heff⟩ := hcommit strayLine_begins rfl rfl (by decide +kernel) (by decide +kernel) hok rfl
  have hline : strayLine.dev.lineStarted = true := by decide +kernel
  rw [if_pos hline] at heff
  obtain ⟨-, -, -, hd⟩ := heff
  have hboxes : (d.box zeroMatrix.mbx.val).hopper = [] := by rw [hd]; rfl
  have hstate := hexec.symm.trans (strayLine_turnsAway rfl)
  injection hstate with hstate
  have hdev := congrArg (fun s : State => ((s.dev.box zeroMatrix.mbx.val).stored.map (·.status))) hstate
  dsimp only at hdev
  rw [Dev.answer_status rfl (by rw [Dev.record_box]; exact hboxes), Dev.answer_status rfl rfl] at hdev
  exact absurd hdev (by decide)

end Sys2Proof.Machine
end

section
/-! SUPPORT. The swap of a pipeline's banks (R215, R217), and what a stage reads of a pipeline: the bank of a view, the mode and lines of a
head, the lines kept (R190 to R212). -/

namespace Sys2Proof.Machine

open Sys2Proof

/-! ## The swap of the banks (R215, R217) -/

theorem Dev.inactive_lt (d : Dev) (n : Nat) : d.inactive n < 2 := by unfold Dev.inactive; omega

/-- The registers that a swap of pipeline n changes, beside those of its event. -/
def swapRegs (n : Nat) : List Nat := [Reg.ppStat n, Reg.ppSwapBatt n, Reg.ppSwapBatt n + 4]

/-- The device after a swap, before its event. -/
def Dev.swapped (d : Dev) (n : Nat) (batt : Option Nat) (first : Nat) : Dev :=
  ((((d.modPipe n fun p => { p with epoch := p.epoch + 1, swaps := p.swaps ++ [⟨first, d.snapshot n (d.activeBank n)⟩] }).setFld
    (Reg.ppStat n) 31 1 (d.inactive n)).setFlag (Reg.ppStat n) 30 false).setFlag (Reg.ppStat n) 29 true).wr64 (Reg.ppSwapBatt n)
    (batt.getD noBatt % 2 ^ 48)

theorem Dev.swapNow_eq (d : Dev) (n : Nat) (batt : Option Nat) : ∃ first,
    d.swapNow n batt = (d.swapped n batt first).event 0x8501 batt (le 1 n ++ le 1 (d.inactive n) ++ zeros 2) := ⟨_, rfl⟩

/-- What an event may change is no word of a pipeline. -/
theorem Dev.event_pipe_rd {d : Dev} {a : Nat} (code : Nat) (batt : Option Nat) (extra : Bytes) (ha : 0x200000 ≤ a) :
    (d.event code batt extra).rd a = d.rd a := by
  refine d.event_regsKept code batt extra a fun hm => ?_
  simp only [eventRegs, Reg.evtFilteredCnt, Reg.evtLostCnt, Reg.hopCnt, Reg.mbAlert, List.mem_cons, List.not_mem_nil, or_false] at hm
  omega

theorem Dev.event_pipes (d : Dev) (code : Nat) (batt : Option Nat) (extra : Bytes) : (d.event code batt extra).pipes = d.pipes :=
  (congrArg Dev.pipes (d.event_sansEvents code batt extra) :)

theorem Dev.event_lost (d : Dev) (code : Nat) (batt : Option Nat) (extra : Bytes) : (d.event code batt extra).lost = d.lost :=
  (congrArg Dev.lost (d.event_sansEvents code batt extra) :)

section
variable (d : Dev) (n : Nat) (batt : Option Nat) (first : Nat)

theorem Dev.swapped_pipes : (d.swapped n batt first).pipes
    = (d.modPipe n fun p => { p with epoch := p.epoch + 1, swaps := p.swaps ++ [⟨first, d.snapshot n (d.activeBank n)⟩] }).pipes := rfl

theorem Dev.swapped_regsKept : d.regsKept (d.swapped n batt first) (swapRegs n) := by
  refine Dev.regsKept.wr64 (((Dev.regsKept.wrN (t := Dev.modPipe ..) ?_ ?_ _).setFlag ?_ _ _).setFlag ?_ _ _) ?_ ?_ _
  · exact fun _ _ => rfl
  all_goals simp [swapRegs]

theorem Dev.swapped_stat : (d.swapped n batt first).rd (Reg.ppStat n)
    = (((d.setFld (Reg.ppStat n) 31 1 (d.inactive n)).setFlag (Reg.ppStat n) 30 false).setFlag (Reg.ppStat n) 29 true).rd (Reg.ppStat n) := by
  have h0 : Reg.ppStat n ≠ Reg.ppSwapBatt n := by unfold Reg.ppStat Reg.ppSwapBatt; omega
  have h4 : Reg.ppStat n ≠ Reg.ppSwapBatt n + 4 := by unfold Reg.ppStat Reg.ppSwapBatt; omega
  rw [Dev.swapped, Dev.wr64, Dev.rd_wrN_ne _ _ _ _ h4, Dev.rd_wrN_ne _ _ _ _ h0]
  rfl

theorem Dev.swapped_banks : (d.swapped n batt first).activeBank n = d.inactive n ∧ (d.swapped n batt first).flag (Reg.ppStat n) 30 = false
    ∧ (d.swapped n batt first).flag (Reg.ppStat n) 29 = true := by
  have hs := d.swapped_stat n batt first
  have hlt := d.inactive_lt n
  refine ⟨?_, ?_, ?_⟩
  · rw [Dev.activeBank, Dev.fld_congr hs, Dev.fld_setFlag_ne _ _ _ (by omega) (by omega), Dev.fld_setFlag_ne _ _ _ (by omega) (by omega),
      Dev.fld_setFld_same _ _ _ _ _ (by omega)]
    omega
  · rw [Dev.flag_congr hs, Dev.flag_setFlag_ne _ _ _ (by omega) (by omega), Dev.flag_setFlag_same _ _ _ _ (by omega)]
  · rw [Dev.flag_congr hs, Dev.flag_setFlag_same _ _ _ _ (by omega)]

/-- A swap makes the other bank active, with none pending and the copy begun; it changes no word of a pipeline but those of `swapRegs`, of
the pipelines this one's count of swaps and their list, and no entry becomes uncorrectable. -/
theorem Dev.swapNow_effect : (d.swapNow n batt).activeBank n = d.inactive n ∧ (d.swapNow n batt).flag (Reg.ppStat n) 30 = false
    ∧ (d.swapNow n batt).flag (Reg.ppStat n) 29 = true
    ∧ (∃ swaps, (d.swapNow n batt).pipe n = { d.pipe n with epoch := (d.pipe n).epoch + 1, swaps := swaps })
    ∧ (∀ a, 0x200000 ≤ a → a ∉ swapRegs n → (d.swapNow n batt).rd a = d.rd a)
    ∧ (d.swapNow n batt).lost = d.lost := by
  obtain ⟨first, hf⟩ := d.swapNow_eq n batt
  obtain ⟨hbank, h30, h29⟩ := d.swapped_banks n batt first
  have hstat := (d.swapped n batt first).event_pipe_rd 0x8501 batt (le 1 n ++ le 1 (d.inactive n) ++ zeros 2)
    (a := Reg.ppStat n) (by unfold Reg.ppStat; omega)
  rw [hf]
  refine ⟨?_, ?_, ?_, ⟨(d.pipe n).swaps ++ [⟨first, d.snapshot n (d.activeBank n)⟩], ?_⟩, fun a ha hl => ?_, ?_⟩
  · rw [Dev.activeBank, Dev.fld_congr hstat]; exact hbank
  · rw [Dev.flag_congr hstat]; exact h30
  · rw [Dev.flag_congr hstat]; exact h29
  · rw [Dev.pipe, Dev.event_pipes, d.swapped_pipes n batt first]
    exact d.pipe_modPipe_same n _
  · exact (Dev.event_pipe_rd _ _ _ ha).trans (d.swapped_regsKept n batt first a hl)
  · rw [Dev.event_lost, Dev.swapped, Dev.wr64_lost, Dev.setFlag_lost, Dev.setFlag_lost, Dev.setFld_lost]
    rfl

end

/-! ## Views that say the same of a bank -/

/-- A word that a stage reads of a bank of pipeline n, or above all of them. -/
def bankWord (n a : Nat) : Prop := a = Reg.ppMode n ∨ Reg.ppCfg n 0 ≤ a

/-- Two views of the same bank with the same words and tables. -/
structure View.Alike (n : Nat) (v v' : View) : Prop where
  bank : v'.bank = v.bank
  deep : v'.deep = v.deep
  lost : v'.lost = v.lost
  word : ∀ a, bankWord n a → v'.rd a = v.rd a

namespace View.Alike

variable {n : Nat} {v v' : View} (h : v.Alike n v')
include h

theorem fld {a : Nat} (ha : bankWord n a) (lo w : Nat) : v'.fld a lo w = v.fld a lo w := by rw [View.fld, h.word a ha, View.fld]

theorem above {a : Nat} (ha : Reg.ppCfg n 0 ≤ a) (lo w : Nat) : v'.fld a lo w = v.fld a lo w := h.fld (.inr ha) lo w

theorem isLost (a : Nat) : v'.isLost a = v.isLost a := by rw [View.isLost, h.lost, View.isLost]

theorem deepN (a : Nat) : v'.deepN a = v.deepN a := by rw [View.deepN, h.isLost, h.deep, View.deepN]

theorem calRows : v'.calRows n = v.calRows n := by
  rw [View.calRows, h.bank, h.above (by unfold Reg.ppCfg; omega), View.calRows]

theorem darkShift : v'.darkShift n = v.darkShift n := by
  rw [View.darkShift, h.bank, h.above (by unfold Reg.ppCfg; omega), View.darkShift]

theorem satCode : v'.satCode n = v.satCode n := by
  rw [View.satCode, h.bank, h.above (by unfold Reg.ppCfg; omega), View.satCode]

theorem blackLevel (ch : Nat) : v'.blackLevel n ch = v.blackLevel n ch := by
  rw [View.blackLevel, h.bank, h.above (by unfold Reg.ppBl Reg.ppCfg; omega), View.blackLevel]

theorem calAddr (e : Nat) : v'.calAddr n e = v.calAddr n e := by
  rw [View.calAddr, View.fused, h.fld (.inl rfl), h.bank, View.calAddr, View.fused]

theorem cal (e : Nat) : v'.cal n e = v.cal n e := by
  simp only [View.cal, h.calAddr, h.isLost, h.deepN]

theorem mosCfg (lo w : Nat) : v'.fld (Reg.mosCfg n v'.bank) lo w = v.fld (Reg.mosCfg n v.bank) lo w := by
  rw [h.bank, h.above (by unfold Reg.mosCfg Reg.ppCfg; omega)]

theorem defCount : v'.defCount n = v.defCount n := h.mosCfg 0 13
theorem mosMode : v'.mosMode n = v.mosMode n := h.mosCfg 30 2
theorem px : v'.px n = v.px n := congrArg (· + 1) (h.mosCfg 27 3)
theorem py : v'.py n = v.py n := congrArg (· + 1) (h.mosCfg 24 3)
theorem nplanes : v'.nplanes n = v.nplanes n := congrArg (· + 1) (h.mosCfg 22 2)
theorem nin : v'.nin n = v.nin n := h.mosCfg 19 3

theorem edgeT : v'.edgeT n = v.edgeT n := by
  rw [View.edgeT, h.bank, h.above (by unfold Reg.mosEdgeT Reg.ppCfg; omega), View.edgeT]

theorem site (y x : Nat) : v'.site n y x = v.site n y x := by
  rw [View.site, h.bank, h.above (by unfold Reg.mosSite Reg.ppCfg; omega), View.site]

theorem siteRow (l : Line) : v'.siteRow n l = v.siteRow n l := by simp only [View.siteRow, h.mosMode, h.py]

theorem channel (l : Line) (q c : Nat) : v'.channel n l q c = v.channel n l q c := by
  simp only [View.channel, h.mosMode, h.site, h.siteRow, h.px]

theorem kernel (j m k w : Nat) : v'.kernel n j m k w = v.kernel n j m k w := by
  simp only [View.kernel, View.deepS16, View.deep16, View.kernelAddr, h.bank, h.deepN]

theorem matrix (j i : Nat) : v'.matrix n j i = v.matrix n j i := by
  have h0 : ∀ lo, v'.fld (Reg.matW0 n v.bank j) lo 16 = v.fld (Reg.matW0 n v.bank j) lo 16 := fun lo =>
    h.above (by unfold Reg.matW0 Reg.ppCfg; omega) lo 16
  have h1 : ∀ lo, v'.fld (Reg.matW1 n v.bank j) lo 16 = v.fld (Reg.matW1 n v.bank j) lo 16 := fun lo =>
    h.above (by unfold Reg.matW1 Reg.ppCfg; omega) lo 16
  have h2 : ∀ lo, v'.fld (Reg.matW2 n v.bank j) lo 16 = v.fld (Reg.matW2 n v.bank j) lo 16 := fun lo =>
    h.above (by unfold Reg.matW2 Reg.ppCfg; omega) lo 16
  simp only [View.matrix, h.bank, h0, h1, h2]

theorem bias (j : Nat) : v'.bias n j = v.bias n j := by
  rw [View.bias, h.bank, h.above (by unfold Reg.matW3 Reg.ppCfg; omega), View.bias]

theorem defects : v'.defects n = v.defects n := by
  have hd : v'.defect n = v.defect n := by
    funext e
    simp only [View.defect, View.defectAddr, h.bank, h.deepN]
  rw [View.defects, h.defCount, hd, View.defects]

end View.Alike

/-! ## Devices in which a stage finds the same -/

/-- From d to t what a stage of pipeline n reads is the same: every word but the counts of PP_CNT, the tables, the position, the count and
list of swaps, the cards, and the lines kept. -/
structure Dev.SameStage (n : Nat) (d t : Dev) : Prop where
  word : ∀ a, a ≠ Reg.ppCnt n → t.rd a = d.rd a
  deep : t.deep = d.deep
  lost : t.lost = d.lost
  pos : t.pos = d.pos
  epoch : (t.pipe n).epoch = (d.pipe n).epoch
  swaps : (t.pipe n).swaps = (d.pipe n).swaps
  cards : (t.pipe n).cards = (d.pipe n).cards
  pounced : (t.pipe n).pounced = (d.pipe n).pounced

namespace Dev.SameStage

variable {n : Nat} {d t u : Dev} (h : d.SameStage n t)
include h

theorem trans (k : t.SameStage n u) : d.SameStage n u :=
  ⟨fun a ha => (k.word a ha).trans (h.word a ha), k.deep.trans h.deep, k.lost.trans h.lost, k.pos.trans h.pos, k.epoch.trans h.epoch,
    k.swaps.trans h.swaps, k.cards.trans h.cards, k.pounced.trans h.pounced⟩

theorem fld {a : Nat} (ha : a ≠ Reg.ppCnt n) (lo w : Nat) : t.fld a lo w = d.fld a lo w := Dev.fld_congr (h.word a ha) lo w

theorem card (gen : Nat) : t.card n gen = d.card n gen := by rw [Dev.card, h.cards, Dev.card]

theorem activeBank : t.activeBank n = d.activeBank n := h.fld (by unfold Reg.ppStat Reg.ppCnt; omega) 31 1

theorem width : t.width n = d.width n := h.fld (by unfold Reg.hlGeom Reg.ppCnt; omega) 0 16

theorem depth : t.fld (Reg.hlCfg n) 8 6 = d.fld (Reg.hlCfg n) 8 6 := h.fld (by unfold Reg.hlCfg Reg.ppCnt; omega) 8 6

theorem mode : t.mode n = d.mode n := h.fld (by unfold Reg.headTrig Reg.ppCnt; omega) 30 2

theorem lineMode (gen : Nat) : t.lineMode n gen = d.lineMode n gen := by rw [Dev.lineMode, h.card, h.mode, Dev.lineMode]

theorem lineAwaits (gen : Nat) : t.lineAwaits n gen = d.lineAwaits n gen := by
  have ha : t.awaits n = d.awaits n := by
    rw [Dev.awaits, h.mode, h.fld (by unfold Reg.hlGeom Reg.ppCnt; omega), h.fld (by unfold Reg.hlCfg Reg.ppCnt; omega), Dev.awaits]
  rw [Dev.lineAwaits, h.card, ha, Dev.lineAwaits]

theorem liveView (b : Nat) : (d.liveView b).Alike n (t.liveView b) :=
  ⟨rfl, h.deep, h.lost, fun a ha => Dev.rdN_congr (h.word a (by
    unfold bankWord Reg.ppMode Reg.ppCfg at ha
    unfold Reg.ppCnt
    omega))⟩

theorem viewAt (e : Nat) : (d.viewAt n e).Alike n (t.viewAt n e) := by
  simp only [Dev.viewAt, h.epoch, h.swaps, h.activeBank]
  split
  · cases ((d.pipe n).swaps.drop ((d.pipe n).swaps.length - ((d.pipe n).epoch - e))).head? with
    | none => exact h.liveView _
    | some s => exact ⟨rfl, rfl, rfl, fun _ _ => rfl⟩
  · exact h.liveView _

theorem lineView (l : Line) : (d.lineView n l).Alike n (t.lineView n l) := by
  obtain ⟨hb, hd, hl, hw⟩ := h.viewAt l.epoch
  exact ⟨hb, hd, by simp only [Dev.lineView, hl, h.lost], hw⟩

theorem calRow {v v' : View} (hv : v.Alike n v') (l : Line) (q : Nat) : t.calRow v' n l q = d.calRow v n l q := by
  simp only [Dev.calRow, h.lineMode, h.lineAwaits, hv.calRows, hv.mosMode]

theorem calRead {v v' : View} (hv : v.Alike n v') (l : Line) : t.calRead v' n l = d.calRead v n l := by
  simp only [Dev.calRead, h.width, h.calRow hv, hv.calAddr]

theorem pounce {v v' : View} (hv : v.Alike n v') (l : Line) : t.pounce v' n l = d.pounce v n l := by
  have hp : t.pouncePlane v' n l = d.pouncePlane v n l := by
    funext q
    simp only [Dev.pouncePlane, h.depth, h.width, h.calRow hv, hv.cal, hv.satCode, hv.darkShift, hv.blackLevel, hv.channel]
  simp only [Dev.pounce, h.depth, hv.satCode, hp]

end Dev.SameStage

/-! ## Errors of the tables (R196, R611) -/

/-- The counts of correctable and uncorrectable errors of pipeline n after a reading. -/
def Dev.ramCounted (d : Dev) (n corrected bad : Nat) : Dev := (d.incSat (Reg.ppCnt n) 16 8 corrected).incSat (Reg.ppCnt n) 8 8 bad

section
variable (d : Dev) (n corrected bad : Nat)

theorem Dev.ramCounted_onlyRegs : d.onlyRegs (d.ramCounted n corrected bad) [Reg.ppCnt n] :=
  ((d.onlyRegs_refl _).incSat (by simp) _ _ _).incSat (by simp) _ _ _

theorem Dev.ramCounted_sameStage : d.SameStage n (d.ramCounted n corrected bad) :=
  ⟨fun a ha => (d.ramCounted_onlyRegs n corrected bad).2 a (by simpa using ha), rfl, rfl, rfl, rfl, rfl, rfl, rfl⟩

theorem Dev.ramCounted_corrected : (d.ramCounted n corrected bad).fld (Reg.ppCnt n) 16 8 = satAdd 8 (d.fld (Reg.ppCnt n) 16 8) corrected := by
  rw [Dev.ramCounted, Dev.incSat, Dev.fld_setFld_ne _ _ _ (by omega) (by omega), Dev.fld_incSat_same _ _ _ (by omega)]

theorem Dev.ramCounted_bad : (d.ramCounted n corrected bad).fld (Reg.ppCnt n) 8 8 = satAdd 8 (d.fld (Reg.ppCnt n) 8 8) bad := by
  have h0 : (d.incSat (Reg.ppCnt n) 16 8 corrected).fld (Reg.ppCnt n) 8 8 = d.fld (Reg.ppCnt n) 8 8 :=
    d.fld_setFld_ne _ _ (by omega) (by omega)
  rw [Dev.ramCounted, Dev.fld_incSat_same _ _ _ (by omega), h0]

end

/-- The device once the words `bad` of a reading are known to be uncorrectable. -/
def Dev.withLost (d : Dev) (read bad : List Nat) : Dev :=
  { d with lost := d.lost ++ ((bad.filterMap ramEntry).filter fun a => read.contains a && !d.lost.contains a).eraseDups }

theorem Dev.withLost_nil (d : Dev) (read : List Nat) : d.withLost read [] = d := by
  rw [Dev.withLost, List.filterMap_nil, List.filter_nil, List.eraseDups_nil, List.append_nil]

theorem Dev.mem_withLost (d : Dev) (read bad : List Nat) (a : Nat) :
    a ∈ (d.withLost read bad).lost ↔ a ∈ d.lost ∨ (a ∈ read ∧ a ∈ bad.filterMap ramEntry) := by
  simp only [Dev.withLost, List.mem_append, List.mem_eraseDups, List.mem_filter, Bool.and_eq_true, List.contains_iff_mem,
    Bool.not_eq_true', ← Bool.not_eq_true]
  tauto

/-- The uncorrectable entries that a reading meets. -/
def Dev.metLost (d : Dev) (read bad : List Nat) : List Nat := (d.withLost read bad).lost.filter read.contains

/-- The device that has counted what a reading met, before a fault. -/
def Dev.readThrough (d : Dev) (n : Nat) (read : List Nat) (corrected : Nat) (bad : List Nat) : Dev :=
  (d.withLost read bad).ramCounted n corrected (d.metLost read bad).length

theorem Dev.ramErrors_eq (d : Dev) (n : Nat) (read : List Nat) (corrected : Nat) (bad : List Nat) : d.ramErrors n read corrected bad
    = (if d.metLost read bad = [] then d.readThrough n read corrected bad else (d.readThrough n read corrected bad).fault (0x30 + n),
      d.metLost read bad != []) := rfl

/-- No entry read is uncorrectable and none becomes so: the corrected errors are counted alone. -/
theorem Dev.ramErrors_clean {d : Dev} {read : List Nat} (h : d.lost.filter read.contains = []) (n corrected : Nat) :
    d.ramErrors n read corrected [] = (d.ramCounted n corrected 0, false) := by
  have hmet : d.metLost read [] = [] := by rw [Dev.metLost, Dev.withLost_nil, h]
  rw [Dev.ramErrors_eq, if_pos hmet, Dev.readThrough, hmet, Dev.withLost_nil]
  rfl

/-- An entry read is uncorrectable, before or from now on: the source of the pipeline's tables occurs. -/
theorem Dev.ramErrors_bad {d : Dev} {read bad : List Nat} (h : ∃ a ∈ read, a ∈ d.lost ∨ a ∈ bad.filterMap ramEntry) (n corrected : Nat) :
    d.ramErrors n read corrected bad = ((d.readThrough n read corrected bad).fault (0x30 + n), true) := by
  have hmet : d.metLost read bad ≠ [] := by
    obtain ⟨a, hr, ha⟩ := h
    refine List.ne_nil_of_mem (a := a) (List.mem_filter.mpr ⟨(d.mem_withLost read bad a).mpr ?_, List.contains_iff_mem.mpr hr⟩)
    exact ha.imp_right fun hb => ⟨hr, hb⟩
  rw [Dev.ramErrors_eq, if_neg hmet, bne_iff_ne.mpr hmet]

end Sys2Proof.Machine
end

section
/-! SUPPORT. A line that enters pouncing (R190, R192, R193, R213, R215), and the statement. -/

namespace Sys2Proof.Machine

open Sys2Proof

/-! ## One sample (R192, R193) -/

/-- A value of a line and its mark. -/
def Line.sample (x : Line) (q c : Nat) : Nat × Bool := ((x.planes.getD q []).getD c 0, (x.sats.getD q []).getD c false)

theorem pounceSample_eq (depth satCode shift bl : Nat) (dark : Int) (gain x : Nat) : pounceSample depth satCode shift bl dark gain x =
    let satEff := if satCode = 0 then 2 ^ depth - 1 else satCode
    let a : Int := ((x * 2 ^ (24 - depth) : Nat) : Int) - bl
    let y : Int := ((a - dark * (2 ^ shift : Nat)) * gain + 8192) / 16384
    if satEff ≤ x then (0xFFFFFF, true) else if y < 0 then (0, false) else if 0xFFFFFF < y then (0xFFFFFF, true) else (y.toNat, false) := by
  have hshr : ∀ i : Int, shr i 14 = i / 16384 := fun i => floorDiv_eq i _
  simp only [pounceSample, hshr]
  rfl

theorem getD_map_range {α : Type} (f : Nat → α) (a : α) {q m : Nat} (h : q < m) : ((List.range m).map f).getD q a = f q := by
  simp [List.getD_eq_getElem?_getD, h]

theorem getD_map_zip_range {α β : Type} (f : α × Nat → β) (l : List α) (a : α) (b : β) {c w : Nat} (hc : c < l.length) (hw : c < w) :
    ((l.zip (List.range w)).map f).getD c b = f (l.getD c a, c) := by
  simp [List.getD_eq_getElem?_getD, hc, hw]

theorem Line.planes_ofPlanes (l : Line) (p : List (List (Nat × Bool))) (q : Nat) :
    (l.ofPlanes p).planes.getD q [] = (p.getD q []).map (·.1) :=
  List.getD_map (l := p) (d := []) (f := fun x : List (Nat × Bool) => x.map fun y : Nat × Bool => y.1) ..

theorem Line.sats_ofPlanes (l : Line) (p : List (List (Nat × Bool))) (q : Nat) :
    (l.ofPlanes p).sats.getD q [] = (p.getD q []).map (·.2) :=
  List.getD_map (l := p) (d := []) (f := fun x : List (Nat × Bool) => x.map fun y : Nat × Bool => y.2) ..

/-- A line made of planes of values with their marks has these as its samples. -/
theorem Line.sample_ofPlanes (l : Line) (p : List (List (Nat × Bool))) (q c : Nat) :
    (l.ofPlanes p).sample q c = (p.getD q []).getD c (0, false) := by
  rw [Line.sample, l.planes_ofPlanes, l.sats_ofPlanes]
  refine Prod.ext ?_ ?_
  · exact List.getD_map (f := fun x : Nat × Bool => x.1) (d := (0, false)) ..
  · exact List.getD_map (f := fun x : Nat × Bool => x.2) (d := (0, false)) ..

theorem Dev.pounce_sample (d : Dev) (v : View) (n : Nat) (l : Line) {q c : Nat} (hq : q < l.planes.length)
    (hc : c < (l.planes.getD q []).length) (hw : c < d.width n) :
    let e := v.cal n (d.calRow v n l q * d.width n + c)
    (d.pounce v n l).1.sample q c = pounceSample (depthOf (d.fld (Reg.hlCfg n) 8 6)) (v.satCode n) (v.darkShift n)
      (v.blackLevel n (v.channel n l q c)) e.1 e.2 ((l.planes.getD q []).getD c 0) := by
  have hp : (d.pounce v n l).1 = l.ofPlanes ((List.range l.planes.length).map (d.pouncePlane v n l)) := rfl
  rw [hp, Line.sample_ofPlanes, getD_map_range _ _ hq, Dev.pouncePlane, getD_map_zip_range _ _ 0 _ hc hw]

/-! ## A line and its bank -/

/-- The device that has taken the oldest line from the receiver. -/
def Dev.rxTaken (d : Dev) (n : Nat) (rest : List Line) : Dev := (d.modPipe n fun p => { p with rx := rest }).hopRead (10 + n)

/-- A pending swap of pipeline n takes effect with this line (R215). -/
def Dev.swapDue (d : Dev) (n : Nat) (l : Line) : Bool := d.flag (Reg.ppStat n) 30 && decide (l.batt ≥ d.rd64 (Reg.ppSwapBatt n))

/-- The device with its banks as they serve this line. -/
def Dev.swappedFor (d : Dev) (n : Nat) (l : Line) : Dev :=
  if d.swapDue n l then d.swapNow n (some (d.rd64 (Reg.ppSwapBatt n))) else d

/-- A line with its marks goes on to the mosaic and is kept; k samples of it were clipped. -/
def Dev.passPounced (d : Dev) (n : Nat) (x : Line) (k : Nat) : Dev :=
  (d.modPipe n fun p => { p with mosQ := p.mosQ ++ [x], pounced := x :: p.pounced }).incSat (Reg.ppSatcnt n) 0 32 k

/-- The calibration entries that pouncing reads for a line: none for one that is lost. -/
def Dev.pounceRead (d : Dev) (n : Nat) (l : Line) : List Nat :=
  if l.cause = 0 then d.calRead (d.liveView (d.activeBank n)) n l else []

/-- What pouncing makes of a line once its entries have been read, and how many samples it clipped. -/
def Dev.linePounced (d e : Dev) (n : Nat) (l : Line) (damaged : Bool) : Line × Nat :=
  let l1 := { l with epoch := (d.pipe n).epoch, damaged := damaged }
  if l1.cause = 0 then e.pounce (e.liveView (d.activeBank n)) n l1 else (l1, 0)

/-- A line is pounced with the banks as they stand; the words `poison` of it were read with poison. -/
def Dev.pounceLine (d : Dev) (n : Nat) (l : Line) (poison : List Nat) (corrected : Nat) (bad : List Nat) : Dev :=
  let e := d.ramErrors n (d.pounceRead n l) (if l.cause = 0 then corrected else 0) bad
  let r := d.linePounced e.1 n l (l.damaged || poison != [] || e.2)
  e.1.passPounced n r.1 r.2

theorem exec_linePounce {s : State} {head : Fin 16} {l : Line} {rest : List Line} (ha : s.alive) (hs : s.dev.stageOn (16 + head.val) = true)
    (hrx : (s.dev.pipe head.val).rx = l :: rest) (hits : Hits) (corrected : Nat) (bad : List Nat) :
    exec (.linePounce head hits corrected bad) s = .next { s with dev :=
      ((((s.dev.rxTaken head.val rest).swappedFor head.val l).pounceLine head.val l (badWords [] hits) corrected bad).poisonRead
        (10 + head.val) 1 (badWords [] hits)) } := by
  change execLinePounce head hits corrected bad s = _
  rw [execLinePounce, State.updStage, State.upd_alive ha, if_pos hs]
  dsimp only
  rw [hrx]
  rfl

end Sys2Proof.Machine
end

section
/-! SUPPORT. What a line that enters pouncing leaves (R190, R192, R193, R213, R215), and the statement. -/

namespace Sys2Proof.Machine

open Sys2Proof

/-! ## What each step of pouncing leaves -/

/-- A change of registers alone, then one of registers and pipelines. -/
theorem Dev.onlyRegs.frame {d t u : Dev} {l : List Nat} (h : d.onlyRegs t l) (hu : u = { t with regs := u.regs, pipes := u.pipes }) :
    u = { d with regs := u.regs, pipes := u.pipes } := by
  obtain ⟨ht, -⟩ := h
  rw [ht] at hu
  exact hu

section
variable (d : Dev) (n : Nat) (l : Line) (rest : List Line) (x : Line) (k : Nat)

theorem Dev.rxTaken_pipe : (d.rxTaken n rest).pipe n = { d.pipe n with rx := rest } := d.pipe_modPipe_same n _

theorem Dev.rxTaken_sameStage : d.SameStage n (d.rxTaken n rest) := by
  have hp := d.rxTaken_pipe n rest
  refine ⟨fun _ _ => rfl, rfl, rfl, rfl, ?_, ?_, ?_, ?_⟩ <;> rw [hp]

theorem Dev.passPounced_pipe : (d.passPounced n x k).pipe n
    = { d.pipe n with mosQ := (d.pipe n).mosQ ++ [x], pounced := x :: (d.pipe n).pounced } := d.pipe_modPipe_same n _

theorem Dev.rxTaken_frame {u : Dev} (hu : u = { d.rxTaken n rest with regs := u.regs, pipes := u.pipes }) :
    u = { d with regs := u.regs, pipes := u.pipes, hoppers := u.hoppers } := by
  have hh : u.hoppers = (d.rxTaken n rest).hoppers := (congrArg Dev.hoppers hu :)
  rw [hh]
  exact hu

theorem Dev.passPounced_frame :
    d.passPounced n x k = { d with regs := (d.passPounced n x k).regs, pipes := (d.passPounced n x k).pipes } := rfl

theorem Dev.rxTaken_pipe_ne {m : Nat} (h : m ≠ n) : (d.rxTaken n rest).pipe m = d.pipe m := d.pipe_modPipe_ne _ h

theorem Dev.passPounced_pipe_ne {m : Nat} (h : m ≠ n) : (d.passPounced n x k).pipe m = d.pipe m := d.pipe_modPipe_ne _ h

theorem Dev.passPounced_satcnt : (d.passPounced n x k).fld (Reg.ppSatcnt n) 0 32 = satAdd 32 (d.fld (Reg.ppSatcnt n) 0 32) k :=
  Dev.fld_incSat_same _ _ _ (by omega)

theorem Dev.passPounced_regsKept : d.regsKept (d.passPounced n x k) [Reg.ppSatcnt n] :=
  Dev.regsKept.incSat (t := Dev.modPipe ..) (fun _ _ => rfl) (by simp) _ _ _

theorem ppCnt_ne_ppSatcnt : Reg.ppCnt n ≠ Reg.ppSatcnt n := by unfold Reg.ppCnt Reg.ppSatcnt; omega

theorem Dev.passPounced_ppCnt : (d.passPounced n x k).rd (Reg.ppCnt n) = d.rd (Reg.ppCnt n) :=
  d.passPounced_regsKept n x k _ (by simpa using ppCnt_ne_ppSatcnt n)

theorem Dev.linePounced_eq (e : Dev) (damaged : Bool) : (d.linePounced e n l damaged).1 = { l with
    epoch := (d.pipe n).epoch, damaged := damaged, planes := (d.linePounced e n l damaged).1.planes,
    sats := (d.linePounced e n l damaged).1.sats } := by
  unfold Dev.linePounced
  dsimp only
  split <;> rfl

theorem Dev.linePounced_lost (e : Dev) (damaged : Bool) (h : l.cause ≠ 0) :
    d.linePounced e n l damaged = ({ l with epoch := (d.pipe n).epoch, damaged := damaged }, 0) := if_neg h

theorem Dev.linePounced_arrived (e : Dev) (damaged : Bool) (h : l.cause = 0) : d.linePounced e n l damaged
    = e.pounce (e.liveView (d.activeBank n)) n { l with epoch := (d.pipe n).epoch, damaged := damaged } := if_pos h

end

theorem Dev.sameStage_refl (d : Dev) (n : Nat) : d.SameStage n d := ⟨fun _ _ => rfl, rfl, rfl, rfl, rfl, rfl, rfl, rfl⟩

namespace Dev.SameStage

variable {n : Nat} {d t : Dev} (h : d.SameStage n t)
include h

theorem pounceRead (l : Line) : t.pounceRead n l = d.pounceRead n l := by
  rw [Dev.pounceRead, h.activeBank, h.calRead (h.liveView _), Dev.pounceRead]

theorem linePounced {e : Dev} (k : t.SameStage n e) (l : Line) (damaged : Bool) : t.linePounced e n l damaged = d.linePounced d n l damaged := by
  simp only [Dev.linePounced, h.epoch, h.activeBank, (h.trans k).pounce ((h.trans k).liveView _)]

end Dev.SameStage

/-! ## A line whose entries are sound -/

/-- No calibration entry that the line takes is uncorrectable. -/
def Dev.soundFor (d : Dev) (n : Nat) (l : Line) : Prop := d.lost.filter (d.pounceRead n l).contains = []

theorem Dev.soundFor_lost (d : Dev) (n : Nat) {l : Line} (h : l.cause ≠ 0) : d.soundFor n l := by
  simp [Dev.soundFor, Dev.pounceRead, h]

theorem Dev.soundFor_nil {d : Dev} (h : d.lost = []) (n : Nat) (l : Line) : d.soundFor n l := by simp [Dev.soundFor, h]

theorem Dev.SameStage.soundFor {d t : Dev} {n : Nat} (h : d.SameStage n t) {l : Line} (hl : d.soundFor n l) : t.soundFor n l := by
  rw [Dev.soundFor, h.lost, h.pounceRead]; exact hl

theorem Dev.soundFor_of {d : Dev} {n : Nat} {l : Line}
    (h : l.cause = 0 → d.lost.filter (d.calRead (d.liveView (d.activeBank n)) n l).contains = []) : d.soundFor n l := by
  by_cases hc : l.cause = 0
  · rw [Dev.soundFor, Dev.pounceRead, if_pos hc]; exact h hc
  · exact d.soundFor_lost n hc

theorem Dev.pounceLine_sound {d : Dev} {n : Nat} {l : Line} (h : d.soundFor n l) (poison : List Nat) (corrected : Nat) :
    d.pounceLine n l poison corrected [] = (d.ramCounted n (if l.cause = 0 then corrected else 0) 0).passPounced n
      (d.linePounced d n l (l.damaged || poison != [])).1 (d.linePounced d n l (l.damaged || poison != [])).2 := by
  have hs := d.sameStage_refl n
  rw [Dev.pounceLine, Dev.ramErrors_clean h, Bool.or_false]
  dsimp only
  rw [hs.linePounced (d.ramCounted_sameStage n _ 0)]

/-- A line whose entries are sound is kept and goes on to the mosaic; only the counts of this pipeline change. -/
theorem Dev.pounceLine_effect {d t : Dev} {n : Nat} {l : Line} (h : d.soundFor n l) {poison : List Nat} {corrected : Nat}
    (ht : t = d.pounceLine n l poison corrected []) :
    let r := d.linePounced d n l (l.damaged || poison != [])
    t.pipe n = { d.pipe n with mosQ := (d.pipe n).mosQ ++ [r.1], pounced := r.1 :: (d.pipe n).pounced }
    ∧ t.fld (Reg.ppSatcnt n) 0 32 = satAdd 32 (d.fld (Reg.ppSatcnt n) 0 32) r.2
    ∧ t.fld (Reg.ppCnt n) 16 8 = satAdd 8 (d.fld (Reg.ppCnt n) 16 8) (if l.cause = 0 then corrected else 0)
    ∧ (∀ m, m ≠ n → t.pipe m = d.pipe m) ∧ d.regsKept t [Reg.ppSatcnt n, Reg.ppCnt n]
    ∧ t = { d with regs := t.regs, pipes := t.pipes } := by
  have hc := d.ramCounted_onlyRegs n (if l.cause = 0 then corrected else 0) 0
  have hcnt := d.ramCounted_corrected n (if l.cause = 0 then corrected else 0) 0
  rw [Dev.pounceLine_sound h] at ht
  generalize d.ramCounted n (if l.cause = 0 then corrected else 0) 0 = e at *
  have hpipe : ∀ m, e.pipe m = d.pipe m := fun m => (congrArg (fun x : Dev => x.pipe m) hc.1 :)
  subst ht
  refine ⟨?_, ?_, ?_, fun m hm => (e.passPounced_pipe_ne n _ _ hm).trans (hpipe m), ?_, hc.frame (e.passPounced_frame n _ _)⟩
  · rw [Dev.passPounced_pipe, hpipe]
  · rw [Dev.passPounced_satcnt, Dev.fld_congr (hc.2 _ (by simpa using (ppCnt_ne_ppSatcnt n).symm))]
  · rw [Dev.fld_congr (Dev.passPounced_ppCnt _ n _ _), hcnt]
  · exact (hc.2.mono (by simp)).trans ((Dev.passPounced_regsKept _ n _ _).mono (by simp))

/-! ## The banks as they serve the line -/

theorem Dev.swappedFor_none {d : Dev} {n : Nat} {l : Line} (h : d.flag (Reg.ppStat n) 30 = false ∨ l.batt < d.rd64 (Reg.ppSwapBatt n)) :
    d.swappedFor n l = d := by
  refine if_neg fun hs => ?_
  simp only [Dev.swapDue, Bool.and_eq_true, decide_eq_true_eq] at hs
  rcases h with h | h
  · rw [h] at hs; simp at hs
  · omega

theorem Dev.swappedFor_swap {d : Dev} {n : Nat} {l : Line} (h : d.flag (Reg.ppStat n) 30 = true) (hb : d.rd64 (Reg.ppSwapBatt n) ≤ l.batt) :
    d.swappedFor n l = d.swapNow n (some (d.rd64 (Reg.ppSwapBatt n))) :=
  if_pos (by simp only [Dev.swapDue, h, hb, decide_true, Bool.and_self])

theorem Dev.swappedFor_mosQ (d : Dev) (n : Nat) (l : Line) : ((d.swappedFor n l).pipe n).mosQ = (d.pipe n).mosQ := by
  unfold Dev.swappedFor
  split
  · obtain ⟨-, -, -, ⟨swaps, hp⟩, -, -⟩ := d.swapNow_effect n (some (d.rd64 (Reg.ppSwapBatt n)))
    rw [hp]
  · rfl

theorem Dev.swappedFor_lost (d : Dev) (n : Nat) (l : Line) : (d.swappedFor n l).lost = d.lost := by
  unfold Dev.swappedFor
  split
  · obtain ⟨-, -, -, -, -, hl⟩ := d.swapNow_effect n (some (d.rd64 (Reg.ppSwapBatt n)))
    exact hl
  · rfl

/-! ## The four cases of the statement -/

/-- A swap takes effect with a line that is lost (R213, R215): it passes as it is, by the new banks. -/
theorem Dev.pounceLine_swapped_lost {d : Dev} {n : Nat} {l : Line} (h30 : d.flag (Reg.ppStat n) 30 = true)
    (hb : d.rd64 (Reg.ppSwapBatt n) ≤ l.batt) (hl : l.cause ≠ 0) (corrected : Nat) :
    let t := (d.swappedFor n l).pounceLine n l [] corrected []
    t.activeBank n = d.inactive n ∧ t.flag (Reg.ppStat n) 30 = false ∧ t.flag (Reg.ppStat n) 29 = true
    ∧ (t.pipe n).rx = (d.pipe n).rx ∧ (t.pipe n).epoch = (d.pipe n).epoch + 1
    ∧ (t.pipe n).mosQ = (d.pipe n).mosQ ++ [{ l with epoch := (d.pipe n).epoch + 1 }]
    ∧ t.fld (Reg.ppCnt n) 16 8 = d.fld (Reg.ppCnt n) 16 8 := by
  rw [Dev.swappedFor_swap h30 hb]
  obtain ⟨hbank, hno, hcopy, ⟨swaps, hp⟩, hword, -⟩ := d.swapNow_effect n (some (d.rd64 (Reg.ppSwapBatt n)))
  intro t
  obtain ⟨hpipe, -, hcnt, -, hregs, -⟩ := Dev.pounceLine_effect (t := t) (Dev.soundFor_lost _ n hl) rfl
  have hstat : t.rd (Reg.ppStat n) = (d.swapNow n (some (d.rd64 (Reg.ppSwapBatt n)))).rd (Reg.ppStat n) :=
    hregs _ (by simp [Reg.ppStat, Reg.ppSatcnt, Reg.ppCnt])
  have hppcnt : (d.swapNow n (some (d.rd64 (Reg.ppSwapBatt n)))).rd (Reg.ppCnt n) = d.rd (Reg.ppCnt n) :=
    hword _ (by unfold Reg.ppCnt; omega) (by simp [swapRegs, Reg.ppStat, Reg.ppSwapBatt, Reg.ppCnt]; omega)
  rw [Dev.linePounced_lost _ n l _ _ hl, hp] at hpipe
  rw [if_neg hl, Dev.satAdd_fld_zero, Dev.fld_congr hppcnt] at hcnt
  refine ⟨(Dev.fld_congr hstat _ _).trans hbank, (Dev.flag_congr hstat _).trans hno, (Dev.flag_congr hstat _).trans hcopy, ?_, ?_, ?_, hcnt⟩
  · rw [hpipe]
  · rw [hpipe]
  · rw [hpipe, show (l.damaged || ([] : List Nat) != []) = l.damaged from Bool.or_false _]

/-- Words of the line were read with poison (R103): it goes on damaged. -/
theorem Dev.pounceLine_poisoned {d : Dev} (hlost : d.lost = []) {poison : List Nat} (hp : poison ≠ []) (n : Nat) (l : Line) :
    ∃ x : Line, (((d.swappedFor n l).pounceLine n l poison 0 []).pipe n).mosQ = (d.pipe n).mosQ ++ [x]
      ∧ x.damaged = true ∧ x.batt = l.batt ∧ x.cause = l.cause := by
  obtain ⟨hpipe, -⟩ := Dev.pounceLine_effect (Dev.soundFor_nil ((d.swappedFor_lost n l).trans hlost) n l) (poison := poison)
    (corrected := 0) rfl
  have hx := (d.swappedFor n l).linePounced_eq n l (d.swappedFor n l) (l.damaged || poison != [])
  rw [hpipe, d.swappedFor_mosQ]
  refine ⟨_, rfl, ?_, ?_, ?_⟩ <;> rw [hx]
  rw [bne_iff_ne.mpr hp, Bool.or_true]

/-- Entries of the line are uncorrectable (R196): it goes on damaged, after the fault of the pipeline's tables. -/
theorem Dev.pounceLine_bad {d : Dev} {n : Nat} {l : Line} {bad : List Nat}
    (h : ∃ a ∈ d.pounceRead n l, a ∈ d.lost ∨ a ∈ bad.filterMap ramEntry) (poison : List Nat) (corrected : Nat) :
    let w := d.readThrough n (d.pounceRead n l) (if l.cause = 0 then corrected else 0) bad
    ∃ x : Line, ((d.pounceLine n l poison corrected bad).pipe n).mosQ = ((w.fault (0x30 + n)).pipe n).mosQ ++ [x]
      ∧ x.damaged = true ∧ x.batt = l.batt ∧ x.cause = l.cause := by
  intro w
  have hx := d.linePounced_eq n l (w.fault (0x30 + n)) (l.damaged || poison != [] || true)
  rw [Dev.pounceLine, Dev.ramErrors_bad h]
  dsimp only
  rw [Dev.passPounced_pipe]
  refine ⟨_, rfl, ?_, ?_, ?_⟩ <;> rw [hx]
  exact Bool.or_true _

/-- Every sample of a line that arrived (R192, R193). -/
theorem Dev.linePounced_sample (d : Dev) {n : Nat} {l : Line} (damaged : Bool) (h : l.cause = 0) {q c : Nat} (hq : q < l.planes.length)
    (hc : c < (l.planes.getD q []).length) (hw : c < d.width n) :
    let v := d.liveView (d.activeBank n)
    let e := v.cal n (d.calRow v n l q * d.width n + c)
    (d.linePounced d n l damaged).1.sample q c = pounceSample (depthOf (d.fld (Reg.hlCfg n) 8 6)) (v.satCode n) (v.darkShift n)
      (v.blackLevel n (v.channel n l q c)) e.1 e.2 ((l.planes.getD q []).getD c 0) := by
  rw [d.linePounced_arrived n l d damaged h]
  exact d.pounce_sample _ n { l with epoch := (d.pipe n).epoch, damaged := damaged } hq hc hw

section
variable {s : State} {head : Fin 16} {l : Line} {rest : List Line} (ha : s.alive) (hs : s.dev.stageOn (16 + head.val) = true)
  (hrx : (s.dev.pipe head.val).rx = l :: rest)
include ha hs hrx

/-- No word of the line upset in its hopper: what it becomes is pounced by its banks. -/
theorem becomes_linePounce (corrected : Nat) (bad : List Nat) {effect : Dev → Prop}
    (he : effect (((s.dev.rxTaken head.val rest).swappedFor head.val l).pounceLine head.val l [] corrected bad)) :
    Becomes (.linePounce head [] corrected bad) s effect :=
  ⟨_, exec_linePounce ha hs hrx [] corrected bad, he⟩

end

/-- Settles O23: each case takes the line from the receiver, with a swap or without; what pouncing then leaves is said by
`Dev.pounceLine_effect` where the entries are sound, and by `Dev.ramErrors_bad` where one is not. -/
theorem linePouncing : Obligations.LinePouncing := by
  unfold Obligations.LinePouncing
  intro s head n l rest ha hn hs hrx
  subst hn
  have hstage := s.dev.rxTaken_sameStage head.val rest
  have hpipe := s.dev.rxTaken_pipe head.val rest
  refine ⟨fun corrected hno hclean => ?_, fun corrected h30 hb hl => ?_, fun hits hbad hlost => ?_, fun bad h30 hl => ?_⟩
  · have hsound := hstage.soundFor (Dev.soundFor_of hclean)
    have hx := s.dev.linePounced_eq head.val l s.dev l.damaged
    refine becomes_linePounce ha hs hrx corrected [] ?_
    rw [Dev.swappedFor_none (d := s.dev.rxTaken head.val rest) hno]
    generalize ht : (s.dev.rxTaken head.val rest).pounceLine head.val l [] corrected [] = t
    obtain ⟨hp, hsat, hcnt, hne, hregs, hframe⟩ := Dev.pounceLine_effect hsound ht.symm
    rw [show (l.damaged || ([] : List Nat) != []) = l.damaged from Bool.or_false _,
      hstage.linePounced (Dev.sameStage_refl _ _)] at hp hsat
    rw [hp, hpipe]
    refine ⟨_, rfl, rfl, rfl, hx, fun hl => ?_, fun hl => ⟨?_, fun q c hq hc hw => ?_⟩, hcnt,
      fun m _ hm => (hne m hm).trans (s.dev.rxTaken_pipe_ne head.val rest hm), hregs, s.dev.rxTaken_frame head.val rest hframe⟩
    · rw [hsat, s.dev.linePounced_lost head.val l s.dev _ hl]
      exact ⟨rfl, rfl, Dev.satAdd_fld_zero ..⟩
    · rw [hsat, s.dev.linePounced_arrived head.val l s.dev _ hl]
      rfl
    · exact (s.dev.linePounced_sample l.damaged hl hq hc hw).trans (pounceSample_eq ..)
  · have hpost := Dev.pounceLine_swapped_lost (d := s.dev.rxTaken head.val rest) h30 hb hl corrected
    refine becomes_linePounce ha hs hrx corrected [] ?_
    obtain ⟨hbank, h30', h29, hrest, hepoch, hq, hcnt⟩ := hpost
    rw [hpipe] at hrest hepoch hq
    exact ⟨hbank, h30', h29, hrest, hepoch, hq, hcnt⟩
  · obtain ⟨x, hq, hdam, hbatt, hcause⟩ := Dev.pounceLine_poisoned (d := s.dev.rxTaken head.val rest) hlost hbad head.val l
    rw [hpipe] at hq
    exact ⟨_, exec_linePounce ha hs hrx hits 0 [], _, x, hq, hdam, hbatt, hcause, rfl⟩
  · intro read hmet
    refine becomes_linePounce ha hs hrx 0 bad ?_
    rw [Dev.swappedFor_none (d := s.dev.rxTaken head.val rest) (.inl h30)]
    have hr : (s.dev.rxTaken head.val rest).pounceRead head.val l = read := by rw [hstage.pounceRead, Dev.pounceRead, if_pos hl]
    obtain ⟨x, hq, hdam, hbatt, hcause⟩ := Dev.pounceLine_bad (d := s.dev.rxTaken head.val rest) (hr ▸ hmet) [] 0
    rw [hr] at hq
    exact ⟨_, x, hq, hdam, hbatt, hcause.trans hl, (congrArg Pipe.mosQ hpipe :), Dev.ramCounted_bad .., Dev.mem_withLost _ read bad⟩

end Sys2Proof.Machine
end

section
/-! SUPPORT. What a fault leaves of the banks of the pipelines and of the heads' modes, whatever its reaction (R466 to R484). -/

namespace Sys2Proof.Machine

open Sys2Proof

/-! ## The relation -/

/-- A word of a head's plan, or one that a pipeline's banks are of: none of its counts and of what it shows. -/
def stageWord (a : Nat) : Prop :=
  (0x60400 ≤ a ∧ a < 0x60800) ∨ (0x200000 ≤ a ∧ a < 0x300000 ∧ (a % 0x10000 < 0x300 ∨ 0x400 ≤ a % 0x10000))

/-- The swaps of a pipeline, and the modes of its lines. -/
def Pipe.run (p : Pipe) : Nat × List Swap × List (Nat × Nat) := (p.epoch, p.swaps, p.cards.map fun c => (c.grid.gen, c.mode))

/-- From d to t the words of the banks and of the heads' plans stay, with the swaps and the modes of the lines. -/
structure Dev.StageHeld (d t : Dev) : Prop where
  word : ∀ a, stageWord a → t.rd a = d.rd a
  run : ∀ m, (t.pipe m).run = (d.pipe m).run

namespace Dev.StageHeld

variable {d t u : Dev}

theorem refl (d : Dev) : d.StageHeld d := ⟨fun _ _ => rfl, fun _ => rfl⟩

theorem trans (h : d.StageHeld t) (k : t.StageHeld u) : d.StageHeld u :=
  ⟨fun a ha => (k.word a ha).trans (h.word a ha), fun m => (k.run m).trans (h.run m)⟩

/-- A change of neither registers nor pipelines. -/
theorem step (h : d.StageHeld t) (hr : u.regs = t.regs) (hp : u.pipes = t.pipes) : d.StageHeld u :=
  h.trans ⟨fun a _ => by rw [Dev.rd, hr, Dev.rd], fun m => by rw [Dev.pipe, hp, Dev.pipe]⟩

/-- A change of words that are none of these. -/
theorem regs {l : List Nat} (h : d.StageHeld t) (hr : t.regsKept u l) (hl : ∀ a ∈ l, ¬ stageWord a)
    (hp : u.pipes = t.pipes) : d.StageHeld u :=
  h.trans ⟨fun a ha => hr a fun hm => hl a hm ha, fun m => by rw [Dev.pipe, hp, Dev.pipe]⟩

theorem wr (h : d.StageHeld t) {a : Nat} (ha : ¬ stageWord a) (v : Word) : d.StageHeld (t.wr a v) :=
  h.trans ⟨fun _ hx => Dev.rd_wr_ne _ _ _ _ fun hxa => ha (hxa ▸ hx), fun _ => rfl⟩

theorem wrN (h : d.StageHeld t) {a : Nat} (ha : ¬ stageWord a) (v : Nat) : d.StageHeld (t.wrN a v) := h.wr ha _

theorem setFld (h : d.StageHeld t) {a : Nat} (ha : ¬ stageWord a) (lo w v : Nat) : d.StageHeld (t.setFld a lo w v) := h.wr ha _

theorem setFlag (h : d.StageHeld t) {a : Nat} (ha : ¬ stageWord a) (i : Nat) (b : Bool) : d.StageHeld (t.setFlag a i b) := h.wr ha _

theorem incSat (h : d.StageHeld t) {a : Nat} (ha : ¬ stageWord a) (lo w k : Nat) : d.StageHeld (t.incSat a lo w k) := h.wr ha _

theorem wr64 (h : d.StageHeld t) {a : Nat} (ha : ¬ stageWord a) (hb : ¬ stageWord (a + 4)) (v : Nat) : d.StageHeld (t.wr64 a v) :=
  (h.wr ha _).wr hb _

theorem foldl {α : Type} {f : Dev → α → Dev} (h : d.StageHeld t) (xs : List α) (hf : ∀ (v : Dev) x, x ∈ xs → v.StageHeld (f v x)) :
    d.StageHeld (xs.foldl f t) :=
  List.foldlRecOn (motive := fun u => d.StageHeld u) xs _ h fun u hu x hx => hu.trans (hf u x hx)

theorem modPipe (h : d.StageHeld t) (n : Nat) {f : Pipe → Pipe} (hf : ∀ p, (f p).run = p.run) : d.StageHeld (t.modPipe n f) := by
  refine h.trans ⟨fun _ _ => rfl, fun m => ?_⟩
  rw [Dev.pipe_modPipe]
  split
  · exact hf _
  · rfl

end Dev.StageHeld

/-- Words at which nothing of `stageWord` stands. -/
theorem not_stageWord {a : Nat} (h : a < 0x60400 ∨ (0x60800 ≤ a ∧ a < 0x200000) ∨ 0x300000 ≤ a) : ¬ stageWord a := by
  unfold stageWord; omega

theorem not_stageWord_pipe {a : Nat} (h : 0x200000 ≤ a ∧ 0x300 ≤ a % 0x10000 ∧ a % 0x10000 < 0x400) : ¬ stageWord a := by
  unfold stageWord; omega

section
variable (d : Dev)

/-! ## Events, messages and the log -/

theorem not_stageWord_eventRegs : ∀ a ∈ eventRegs, ¬ stageWord a := by
  intro a ha
  refine not_stageWord ?_
  simp only [eventRegs, Reg.evtFilteredCnt, Reg.evtLostCnt, Reg.hopCnt, Reg.mbAlert, List.mem_cons, List.not_mem_nil, or_false] at ha
  omega

theorem Dev.stageHeld_event (code : Nat) (batt : Option Nat) (extra : Bytes) : d.StageHeld (d.event code batt extra) :=
  (Dev.StageHeld.refl d).regs (d.event_regsKept code batt extra) not_stageWord_eventRegs (d.event_pipes code batt extra)

theorem Dev.stageHeld_eventFor (m code : Nat) (batt : Option Nat) (extra : Bytes) : d.StageHeld (d.eventFor m code batt extra) :=
  (((Dev.StageHeld.refl d).step (u := { d with cause := some m }) rfl rfl).trans (Dev.stageHeld_event _ code batt extra)).step rfl rfl

theorem Dev.stageHeld_enterEvent (m : Msg) : d.StageHeld (d.enterEvent m) :=
  (Dev.StageHeld.refl d).regs (d.enterEvent_regsKept m) not_stageWord_eventRegs (congrArg Dev.pipes (d.enterEvent_sansEvents m) :)

theorem Dev.stageHeld_alert (i : Nat) : d.StageHeld (d.alert i) :=
  (Dev.StageHeld.refl d).regs (d.alert_regsKept i) not_stageWord_eventRegs (congrArg Dev.pipes (d.alert_sansEvents i) :)

theorem Dev.stageHeld_sealOut (m : Msg) (tag : Bytes) : d.StageHeld (d.sealOut m tag) :=
  (Dev.StageHeld.refl d).wr (not_stageWord (by unfold Reg.sealRun; omega)) _

theorem Dev.stageHeld_emit (o : Out) : d.StageHeld (d.emit o) := (Dev.StageHeld.refl d).step rfl rfl

theorem Dev.stageHeld_queueResp (m : Msg) : d.StageHeld (d.queueResp m) := by
  unfold Dev.queueResp
  extract_lets m' t
  have ht : d.StageHeld t := d.stageHeld_sealOut m' []
  clear_value t
  split
  · exact ht.step rfl rfl
  · refine Dev.StageHeld.incSat ?_ (a := Reg.mbErr) (not_stageWord (by unfold Reg.mbErr; omega)) _ _ _
    exact ht.step rfl rfl

theorem Dev.stageHeld_send (m : Msg) : d.StageHeld (d.send m) := by
  unfold Dev.send Dev.sendTo
  split
  · exact d.stageHeld_queueResp m
  · split
    · exact Dev.StageHeld.refl d
    · exact (d.stageHeld_sealOut _ _).trans (Dev.stageHeld_emit _ _)

theorem Dev.stageHeld_answerRunning (x : Running) (status : Nat) (payload : Bytes) : d.StageHeld (d.answerRunning x status payload) := by
  unfold Dev.answerRunning Dev.answer
  extract_lets d1 m d2
  have h1 : d.StageHeld d1 := (Dev.StageHeld.refl d).step rfl rfl
  have h2 : d.StageHeld d2 := h1.step rfl rfl
  split
  · exact h1
  · split
    · exact h2
    · exact h2.trans (d2.stageHeld_send m)

theorem Dev.stageHeld_followUp (a : Accepted) (status : Nat) (payload : Bytes) : d.StageHeld (d.followUp a status payload) := by
  unfold Dev.followUp
  extract_lets bare body m d1 d2 d3
  have h2 : d.StageHeld d2 := (Dev.StageHeld.refl d).step rfl rfl
  have h3 : d.StageHeld d3 := by
    unfold d3
    split
    · exact h2
    · exact h2.trans (d2.stageHeld_send m)
  split
  · exact h3.trans (d3.stageHeld_enterEvent _)
  · exact h3

theorem Dev.stageHeld_logEntry (kind cls : Nat) (u : FUnit) : d.StageHeld (d.logEntry kind cls u) := by
  unfold Dev.logEntry
  split
  · exact Dev.StageHeld.refl d
  · exact (Dev.StageHeld.refl d).step rfl rfl

theorem Dev.stageHeld_updatePin : d.StageHeld d.updatePin := by
  unfold Dev.updatePin
  extract_lets pinMin f was d1
  have h1 : d.StageHeld d1 := (Dev.StageHeld.refl d).setFlag (not_stageWord (by unfold Reg.fltState; omega)) _ _
  split
  · exact h1.trans (d1.stageHeld_alert _)
  · exact h1

/-! ## The band -/

theorem Dev.stageHeld_bandReliable (p kind : Nat) (body : List Int) : d.StageHeld (d.bandReliable p kind body) := by
  unfold Dev.bandReliable
  split
  · exact (Dev.StageHeld.refl d).step rfl rfl
  · exact Dev.StageHeld.refl d

theorem Dev.stageHeld_bandBoth (kind : Nat) (body : List Int) : d.StageHeld (d.bandBoth kind body) :=
  (d.stageHeld_bandReliable 0 kind body).trans (Dev.stageHeld_bandReliable _ 1 kind body)

theorem Dev.stageHeld_safeStopPort (p : Nat) : d.StageHeld (d.safeStopPort p) := by
  unfold Dev.safeStopPort
  split
  · exact Dev.StageHeld.refl d
  · exact (Dev.StageHeld.refl d).foldl _ fun v _ _ => (Dev.StageHeld.refl v).step rfl rfl

theorem Dev.stageHeld_haltHead (n : Nat) : d.StageHeld (d.haltHead n) := by
  unfold Dev.haltHead
  split
  · exact Dev.StageHeld.refl d
  · exact (Dev.StageHeld.refl d).foldl _ fun v _ _ => (Dev.StageHeld.refl v).step rfl rfl

/-! ## The stop of a line (R154, R156) -/

theorem Dev.stageHeld_showExp (k : Nat) : d.StageHeld (d.showExp k) := by
  obtain ⟨hf, hr⟩ := d.showExp_onlyRegs k
  refine (Dev.StageHeld.refl d).regs hr (fun a ha => ?_) (congrArg Dev.pipes hf :)
  simp only [expRegs, Reg.expNow, Reg.expTime, Reg.expTarget, Reg.strbWidth, List.cons_append, List.nil_append, List.mem_cons,
    List.mem_map, List.mem_range] at ha
  obtain rfl | rfl | rfl | rfl | ⟨j, hj, rfl⟩ := ha
  on_goal 5 => exact not_stageWord (by omega)
  all_goals exact not_stageWord_pipe (by omega)

theorem Dev.stageHeld_resolveEntry (cmd head : Nat) (applied late : Bool) : d.StageHeld (d.resolveEntry cmd head applied late) := by
  unfold Dev.resolveEntry
  split
  · split
    · exact d.stageHeld_bandReliable _ _ _
    · exact Dev.StageHeld.refl d
  · extract_lets t1 rest
    have hrest : d.StageHeld { d with pos := { d.pos with tracks := rest } } := (Dev.StageHeld.refl d).step rfl rfl
    split
    · unfold Dev.trackEvent
      split
      · exact hrest
      · exact hrest.trans (Dev.stageHeld_event _ _ _ _)
    · exact (Dev.StageHeld.refl d).step rfl rfl

theorem Dev.stageHeld_dropChanges (k lim : Nat) : d.StageHeld (d.dropChanges k lim) := by
  unfold Dev.dropChanges
  extract_lets gone d1 d2
  have h1 : d.StageHeld d1 := (Dev.StageHeld.refl d).step rfl rfl
  have h2 : d.StageHeld d2 := (h1.foldl gone fun v c _ => v.stageHeld_resolveEntry _ _ _ _).trans (Dev.stageHeld_showExp _ k)
  exact h2.step rfl rfl

theorem Dev.stageHeld_openBatts (b : Nat) : d.StageHeld (d.openBatts b) := by
  unfold Dev.openBatts
  split
  · exact Dev.StageHeld.refl d
  · extract_lets new ful d1
    have h1 : d.StageHeld d1 := by
      refine Dev.StageHeld.wr64 (Dev.StageHeld.setFld ?_ (not_stageWord ?_) _ _ _) (not_stageWord ?_) (not_stageWord ?_) _
      · exact (Dev.StageHeld.refl d).step rfl rfl
      · unfold Reg.btStat; omega
      · unfold Reg.btOpenMin; omega
      · unfold Reg.btOpenMin; omega
    split
    · exact h1.trans (d1.stageHeld_bandReliable _ _ _)
    · exact h1

/-- A card that keeps its grid and its mode keeps its line's. -/
theorem run_mapCards {f : Card → Card} (hf : ∀ c, (f c).grid = c.grid ∧ (f c).mode = c.mode) (p : Pipe) :
    ({ p with cards := p.cards.map f } : Pipe).run = p.run := by
  unfold Pipe.run
  simp only [List.map_map, Prod.mk.injEq, true_and]
  refine List.map_congr_left fun c _ => ?_
  simp only [Function.comp_apply, (hf c).1, (hf c).2]

theorem Dev.stageHeld_modCard (n gen : Nat) {f : Card → Card} (hf : ∀ c, (f c).grid = c.grid ∧ (f c).mode = c.mode) :
    d.StageHeld (d.modCard n gen f) := by
  refine (Dev.StageHeld.refl d).modPipe n (run_mapCards fun c => ?_)
  split
  · exact hf c
  · exact ⟨rfl, rfl⟩

theorem Dev.stageHeld_loopsAtStop : d.StageHeld d.loopsAtStop := (Dev.StageHeld.refl d).step rfl rfl

theorem Dev.stageHeld_headsStopped (last : Nat) : d.StageHeld (d.headsStopped last) := by
  unfold Dev.headsStopped
  extract_lets d0 lim e
  have h0 : d.StageHeld d0 := by
    unfold d0
    split
    · exact Dev.StageHeld.refl d
    · exact d.stageHeld_openBatts last
  have he : d.StageHeld e := h0.foldl _ fun v k _ => v.stageHeld_dropChanges k lim
  clear_value e
  refine Dev.StageHeld.trans (he.foldl _ fun v k _ => ?_) (Dev.stageHeld_loopsAtStop _)
  exact v.stageHeld_modCard k _ fun _ => ⟨rfl, rfl⟩

theorem Dev.stageHeld_settleStop : d.StageHeld d.settleStop := by
  unfold Dev.settleStop Dev.finish
  split
  · exact Dev.StageHeld.refl d
  · split
    · exact d.stageHeld_followUp _ _ _
    · exact Dev.StageHeld.refl d

theorem Dev.stageHeld_stopNoted (last : Nat) : d.StageHeld (d.stopNoted last) := (Dev.StageHeld.refl d).step rfl rfl

theorem Dev.stageHeld_lineEnded (last : Nat) : d.StageHeld (d.lineEnded last) := by
  refine Dev.StageHeld.trans ?_ (Dev.stageHeld_stopNoted _ last)
  refine ((Dev.StageHeld.refl d).setFlag (not_stageWord ?_) _ _).wr64 (not_stageWord ?_) (not_stageWord ?_) _
  · unfold Reg.posStat; omega
  · unfold Reg.battLastUsed; omega
  · unfold Reg.battLastUsed; omega

theorem Dev.stageHeld_stopTold (cause last : Nat) : ((d.headsStopped last).lineEnded last).StageHeld (d.finishStop cause last) := by
  unfold Dev.finishStop
  extract_lets d0 lim e e1 d1 pos d2 extra d4
  have h4 : d2.StageHeld d4 := by
    unfold d4
    split
    · split
      · exact d2.stageHeld_eventFor _ _ _ _
      · exact d2.stageHeld_event _ _ _
    · exact d2.stageHeld_event _ _ _
  exact h4.trans d4.stageHeld_settleStop

theorem Dev.stageHeld_finishStop (cause last : Nat) : d.StageHeld (d.finishStop cause last) :=
  ((d.stageHeld_headsStopped last).trans (Dev.stageHeld_lineEnded _ last)).trans (d.stageHeld_stopTold cause last)

theorem Dev.stageHeld_stopNow (cause : Nat) : d.StageHeld (d.stopNow cause) := by
  unfold Dev.stopNow
  split
  · exact d.stageHeld_finishStop cause _
  · exact Dev.StageHeld.refl d

end

end Sys2Proof.Machine
end

section
/-! SUPPORT. What the reactions to a fault of a pipeline's tables leave of the banks and of the heads' modes (R466, R475 to R484). -/

namespace Sys2Proof.Machine

open Sys2Proof

section
variable (d : Dev)

/-! ## Flushes (R104, R475) -/

theorem Dev.stageHeld_flushHop {i : Nat} (hi : i < 71) (inProgress : Bool) : d.StageHeld (d.flushHop i inProgress) := by
  unfold Dev.flushHop
  split
  · exact Dev.StageHeld.refl d
  · refine Dev.StageHeld.incSat ?_ (a := Reg.hopCnt i) (not_stageWord (by unfold Reg.hopCnt; omega)) _ _ _
    exact (Dev.StageHeld.refl d).step rfl rfl

theorem Dev.stageHeld_discardHop (i : Nat) : d.StageHeld (d.discardHop i) := by
  unfold Dev.discardHop
  split
  · exact (Dev.StageHeld.refl d).step rfl rfl
  split
  · exact (Dev.StageHeld.refl d).step rfl rfl
  split
  · exact (Dev.StageHeld.refl d).step rfl rfl
  split
  · exact (Dev.StageHeld.refl d).modPipe _ fun _ => rfl
  split
  · exact (Dev.StageHeld.refl d).modPipe _ (run_mapCards fun _ => ⟨rfl, rfl⟩)
  split
  · exact (Dev.StageHeld.refl d).step rfl rfl
  · exact Dev.StageHeld.refl d

theorem Dev.stageHeld_flush {i : Nat} (hi : i < 71) (inProgress : Bool) : d.StageHeld (d.flush i inProgress) := by
  unfold Dev.flush
  split
  · exact Dev.StageHeld.refl d
  split
  · exact d.stageHeld_flushHop hi true
  · exact (d.stageHeld_flushHop hi false).trans (Dev.stageHeld_discardHop _ i)

theorem Dev.stageHeld_flushPipe {n : Nat} (hn : n < 16) : d.StageHeld (d.flushPipe n) := by
  unfold Dev.flushPipe
  extract_lets gone d1
  have h1 : d.StageHeld d1 := by
    refine Dev.StageHeld.incSat ?_ (a := Reg.cardMissCnt n) (not_stageWord_pipe (by unfold Reg.cardMissCnt; omega)) _ _ _
    exact (Dev.StageHeld.refl d).modPipe n fun _ => rfl
  clear_value d1
  have h2 := h1.trans (d1.stageHeld_flush (i := 10 + n) (by omega) (d1.port n).line.isSome)
  have h3 := h2.trans (Dev.stageHeld_flush _ (i := 26 + n) (by omega) false)
  exact h3.trans (Dev.stageHeld_flush _ (i := 42 + n) (by omega) false)

/-! ## The output of the device (R390, R477) -/

theorem Dev.stageHeld_showPlc (s : Nat) : d.StageHeld (d.showPlc s) := by
  unfold Dev.showPlc
  refine (((Dev.StageHeld.refl d).setFld (not_stageWord ?_) _ _ _).wrN (not_stageWord ?_) _).wrN (not_stageWord ?_) _
  · unfold Reg.plcStat; omega
  · unfold Reg.plcInflKib; omega
  · unfold Reg.strStat; omega

theorem Dev.stageHeld_countBusy (before : Bool) : d.StageHeld (d.countBusy before) := by
  unfold Dev.countBusy
  extract_lets after
  split
  · exact Dev.StageHeld.refl d
  split
  · exact (Dev.StageHeld.refl d).step rfl rfl
  · exact (Dev.StageHeld.refl d).step rfl rfl

theorem Dev.stageHeld_endIssue (s : Nat) (i : Issue) (cause pseal : Nat) : d.StageHeld (d.endIssue s i cause pseal) := by
  unfold Dev.endIssue
  extract_lets before item d1 ful d2
  have h1 : d.StageHeld d1 := (Dev.StageHeld.refl d).step rfl rfl
  have h2 : d.StageHeld d2 := by
    unfold d2
    split
    · exact h1.step rfl rfl
    · exact h1.incSat (not_stageWord (by unfold Reg.plcFail; omega)) _ _ _
  exact (h2.trans (d2.stageHeld_countBusy before)).trans (Dev.stageHeld_showPlc _ s)

theorem Dev.stageHeld_dropWqe (q s pid : Nat) : d.StageHeld (d.dropWqe q s pid) := (Dev.StageHeld.refl d).step rfl rfl

theorem Dev.stageHeld_modStr (s : Nat) (f : Stream → Stream) : d.StageHeld (d.modStr s f) := (Dev.StageHeld.refl d).step rfl rfl

theorem Dev.stageHeld_rollbackOn (s : Nat) (p : Nat × Option Nat → Bool) : d.StageHeld (d.rollbackOn s p) := by
  unfold Dev.rollbackOn
  have hf : d.StageHeld (d.failIssues s 4 fun i => p i.batt) :=
    Dev.failIssues_keeps (P := fun u => d.StageHeld u)
      (fun u i hu => (hu.trans (u.stageHeld_endIssue s i 4 0)).trans (Dev.stageHeld_dropWqe ..)) d _ (Dev.StageHeld.refl d)
  exact hf.trans (Dev.stageHeld_modStr ..)

theorem Dev.stageHeld_rollbackSlice (k : Nat) : d.StageHeld (d.rollbackSlice k) := by
  unfold Dev.rollbackSlice
  split
  · exact Dev.StageHeld.refl d
  · extract_lets key d1
    have h1 : d.StageHeld d1 := (Dev.StageHeld.refl d).foldl _ fun v s _ => v.stageHeld_rollbackOn s _
    refine Dev.StageHeld.setFlag ?_ (a := Reg.fulStat k) (not_stageWord (by unfold Reg.fulStat; omega)) _ _
    exact h1.step rfl rfl

theorem Dev.stageHeld_quiesceSlice {k : Nat} (hk : k < 8) : d.StageHeld (d.quiesceSlice k) := by
  unfold Dev.quiesceSlice
  refine Dev.StageHeld.trans ?_ (Dev.stageHeld_flush _ (i := 59 + k) (by omega) false)
  exact (d.stageHeld_rollbackSlice k).step rfl rfl

theorem Dev.stageHeld_quiesceOutput : d.StageHeld d.quiesceOutput := by
  unfold Dev.quiesceOutput
  extract_lets d1
  have h1 : d.StageHeld d1 := (Dev.StageHeld.refl d).foldl _ fun v s _ => v.stageHeld_rollbackOn s _
  have h2 := h1.foldl (List.range 8) (f := fun d k => d.quiesceSlice k) fun v k hk => v.stageHeld_quiesceSlice (List.mem_range.mp hk)
  exact h2.setFlag (not_stageWord (by unfold Reg.plcStat; omega)) _ _

/-! ## The reactions of class 1 and 2 (R475, R477) -/

theorem Dev.stageHeld_restartMilliner (pair0 : Bool) : d.StageHeld (d.restartMilliner pair0) := by
  unfold Dev.restartMilliner
  extract_lets d1
  have h1 : d.StageHeld d1 := by
    unfold d1
    split
    · exact (Dev.StageHeld.refl d).foldl _ fun v x _ => v.stageHeld_answerRunning x _ _
    · exact Dev.StageHeld.refl d
  exact h1.foldl _ fun v a _ => v.stageHeld_followUp a _ _

theorem Dev.stageHeld_beginRecovery (u : FUnit) (cls : Nat) : d.StageHeld (d.beginRecovery u cls) := (Dev.StageHeld.refl d).step rfl rfl

theorem Dev.stageHeld_restartQuiet (u : FUnit) (cls : Nat) : d.StageHeld (d.restartQuiet u cls) := (Dev.StageHeld.refl d).step rfl rfl

theorem Dev.stageHeld_containUnit {n : Nat} (hn : n < 16) : d.StageHeld (d.containUnit ⟨1, n⟩) := by
  unfold Dev.containUnit
  split
  · exact (Dev.StageHeld.refl d).step rfl rfl
  split
  · exact d.stageHeld_restartQuiet _ _
  · have hb : d.StageHeld ((d.quiesce ⟨1, n⟩).beginRecovery ⟨1, n⟩ 1) :=
      (d.stageHeld_flushPipe hn).trans (Dev.stageHeld_beginRecovery _ _ _)
    exact hb.setFlag (a := Reg.fltUrec) (not_stageWord (by unfold Reg.fltUrec; omega)) _ _

theorem Dev.stageHeld_deviceRecovery (srcs : List Nat) : d.StageHeld (d.deviceRecovery srcs) := by
  unfold Dev.deviceRecovery
  extract_lets e flt d2 d3
  have he : d.StageHeld e := d.stageHeld_quiesceOutput
  clear_value e
  have h2 : d.StageHeld d2 := by
    unfold d2
    split
    · exact d.stageHeld_restartQuiet _ _
    · refine Dev.StageHeld.setFlag ?_ (a := Reg.fltState) (not_stageWord (by unfold Reg.fltState; omega)) _ _
      refine Dev.StageHeld.trans ?_ (Dev.stageHeld_beginRecovery _ _ _)
      exact he.step rfl rfl
  have h3 : d.StageHeld d3 := by
    unfold d3
    split
    · exact h2.trans (d2.stageHeld_restartMilliner _)
    · exact h2
  split
  · refine Dev.StageHeld.trans ?_ (Dev.stageHeld_bandBoth _ _ _)
    exact h3.step rfl rfl
  · exact h3

/-! ## The safe state (R480 to R483) -/

theorem Dev.stageHeld_showSeq : d.StageHeld d.showSeq := by
  obtain ⟨hf, hr⟩ := d.showSeq_onlyRegs
  refine (Dev.StageHeld.refl d).regs hr (fun a ha => ?_) (congrArg Dev.pipes hf :)
  obtain rfl := List.mem_singleton.mp ha
  exact not_stageWord (by unfold Reg.pdSeq; omega)

theorem Dev.stageHeld_cutSwitches (off : List Nat) : d.StageHeld (d.cutSwitches off) := by
  unfold Dev.cutSwitches
  extract_lets now q lost pwr d1
  have h1 : d.StageHeld d1 := by
    refine Dev.StageHeld.trans ?_ (Dev.stageHeld_showSeq _)
    exact (Dev.StageHeld.refl d).step rfl rfl
  exact h1.foldl _ fun v x _ => v.stageHeld_answerRunning x _ _

/-- SAFE_STATE is shown, and no recovery. -/
def Dev.safeShown : Dev := (((d.setFlag Reg.fltState 31 true).setFlag Reg.fltState 29 false).wrN Reg.fltUrec 0).wr64 Reg.fltQprec 0

/-- The collector in the safe state that a source brought. -/
def Dev.safeNoted (src : Nat) : Dev :=
  { d with flt := { d.flt with recoveries := [], absorbed := [], during := [], safeSource := some src } }

/-- The device that has raised SAFE_STATE. -/
def Dev.safeRaised (src : Nat) : Dev :=
  let e := (d.safeShown.safeNoted src).logEntry 4 3 FUnit.device
  e.event 0x8D04 none (le 1 src ++ zeros 3 ++ le 32 e.stickyBits.toNat)

/-- No strobe is active. -/
def Dev.strobesOff : Dev := { d with pos := { d.pos with strobes := d.pos.strobes.map fun _ => {} } }

/-- The line, the heads and the band have been stopped. -/
def Dev.safeStopped : Dev :=
  ((((List.range 16).foldl (fun d n => d.haltHead n) (d.stopNow 2)).safeStopPort 0).safeStopPort 1).strobesOff

/-- A head message under way has ended. -/
def Dev.messagesEnded : Dev := (d.running.filter fun x => x.code == 0x0404).foldl (fun d x => d.answerRunning x St.badState []) d

theorem Dev.enterSafe_eq (h : ¬ d.safe) (src : Nat) (lanes : List Nat) : d.enterSafe src lanes =
    let e := (d.safeRaised src).safeStopped
    (e.messagesEnded.cutSwitches (if 1 ≤ src ∧ src ≤ 3 then (safeDomains lanes).filter e.domainOn else [])).updatePin := by
  rw [Dev.enterSafe, if_neg h]
  rfl

theorem Dev.stageHeld_safeShown : d.StageHeld d.safeShown := by
  have hstate : ¬ stageWord Reg.fltState := not_stageWord (by unfold Reg.fltState; omega)
  refine ((((Dev.StageHeld.refl d).setFlag hstate _ _).setFlag hstate _ _).wrN (not_stageWord ?_) _).wr64 (not_stageWord ?_)
    (not_stageWord ?_) _
  · unfold Reg.fltUrec; omega
  · unfold Reg.fltQprec; omega
  · unfold Reg.fltQprec; omega

theorem Dev.stageHeld_safeNoted (src : Nat) : d.StageHeld (d.safeNoted src) := (Dev.StageHeld.refl d).step rfl rfl

theorem Dev.stageHeld_safeRaised (src : Nat) : d.StageHeld (d.safeRaised src) :=
  ((d.stageHeld_safeShown.trans (Dev.stageHeld_safeNoted _ src)).trans (Dev.stageHeld_logEntry _ _ _ _)).trans
    (Dev.stageHeld_event _ _ _ _)

theorem Dev.stageHeld_strobesOff : d.StageHeld d.strobesOff := (Dev.StageHeld.refl d).step rfl rfl

theorem Dev.stageHeld_safeStopped : d.StageHeld d.safeStopped := by
  have hheads := (d.stageHeld_stopNow 2).foldl (List.range 16) (f := fun d n => d.haltHead n) fun v n _ => v.stageHeld_haltHead n
  have hports := (hheads.trans (Dev.stageHeld_safeStopPort _ 0)).trans (Dev.stageHeld_safeStopPort _ 1)
  exact hports.trans (Dev.stageHeld_strobesOff _)

theorem Dev.stageHeld_messagesEnded : d.StageHeld d.messagesEnded :=
  (Dev.StageHeld.refl d).foldl _ fun v x _ => v.stageHeld_answerRunning x _ _

theorem Dev.stageHeld_enterSafe (src : Nat) (lanes : List Nat) : d.StageHeld (d.enterSafe src lanes) := by
  by_cases h : d.safe
  · rw [Dev.enterSafe, if_pos h]; exact Dev.StageHeld.refl d
  · rw [d.enterSafe_eq h]
    have hstop := (d.stageHeld_safeRaised src).trans (Dev.stageHeld_safeStopped _)
    exact ((hstop.trans (Dev.stageHeld_messagesEnded _)).trans (Dev.stageHeld_cutSwitches _ _)).trans (Dev.stageHeld_updatePin _)

/-! ## The collector (R466, R471, R473) -/

theorem Dev.stageHeld_countUnit {u : FUnit} (hu : u.kind = 0 ∨ u.kind = 1 ∧ u.idx < 16) (cls : Nat) :
    d.StageHeld (d.countUnit cls u) := by
  have hreg : ¬ stageWord u.cntReg.1 := by
    refine not_stageWord ?_
    rcases hu with h | ⟨h, hi⟩
    · simp only [FUnit.cntReg, h, Reg.fltDevcnt]; omega
    · simp only [FUnit.cntReg, h, Reg.fltUcnt]; omega
  have hc : d.StageHeld (d.countRecov u) :=
    ((Dev.StageHeld.refl d).step (u := { d with flt := { d.flt with counted := (u, d.now) :: d.flt.counted } }) rfl rfl).incSat hreg _ _ _
  exact hc.trans (Dev.stageHeld_logEntry _ _ _ _)

theorem Dev.stageHeld_entered (o : Occurrence) : d.StageHeld (d.entered o) := by
  unfold Dev.entered
  extract_lets ev d1
  have h1 : d.StageHeld d1 := d.stageHeld_event _ _ _
  split
  · split
    · exact Dev.StageHeld.refl d
    · exact h1.step rfl rfl
  · exact h1

theorem Dev.stageHeld_escalated (o : Occurrence) (recent : Nat) : d.StageHeld (d.escalated o recent) := by
  unfold Dev.escalated
  split
  · exact Dev.StageHeld.refl d
  · exact (d.stageHeld_logEntry _ _ _).trans (Dev.stageHeld_event _ _ _ _)

/-- The unit of a pipeline. -/
def FUnit.isPipe (u : FUnit) : Prop := u.kind = 1 ∧ u.idx < 16

theorem Dev.unitsOf_tables {n : Nat} (hn : n < 16) (qps : Nat) : d.unitsOf (0x30 + n) qps = [⟨1, n⟩] := by
  rw [Dev.unitsOf, if_neg (by omega), if_neg (by omega), if_pos (by omega), Nat.add_sub_cancel_left]

/-- Where every occurrence is of pipelines, so is what the reaction of class 1 counts. -/
theorem countedUnits_pipes {c : Nat} {occs : List Occurrence} (h : ∀ o ∈ occs, ∀ u ∈ o.units, u.isPipe) :
    ∀ u ∈ countedUnits c occs, (c = 2 ∧ u = FUnit.device) ∨ u.isPipe := by
  intro u hu
  unfold countedUnits at hu
  split at hu
  · obtain ⟨o, ho, huo⟩ := List.mem_flatMap.mp (List.mem_eraseDups.mp (List.mem_filter.mp hu).1)
    exact .inr (h o ho u huo)
  split at hu
  next hc => exact .inl ⟨hc, List.mem_singleton.mp hu⟩
  next => exact absurd hu List.not_mem_nil

theorem Dev.stageHeld_react {c : Nat} {units : List FUnit} (hu : ∀ u ∈ units, (c = 2 ∧ u = FUnit.device) ∨ u.isPipe)
    (srcs : List Nat) : d.StageHeld (d.react c srcs units) := by
  unfold Dev.react
  split
  next hc =>
    refine (Dev.StageHeld.refl d).foldl _ fun v u hm => ?_
    obtain ⟨hkind, hidx⟩ := (hu u hm).resolve_left fun h => by omega
    obtain ⟨kind, idx⟩ := u
    obtain rfl : kind = 1 := hkind
    exact v.stageHeld_containUnit hidx
  split
  · exact d.stageHeld_deviceRecovery srcs
  · exact Dev.StageHeld.refl d

/-- The collector, where every source is one of a pipeline's tables (R196). -/
theorem Dev.stageHeld_occur {srcs : List Nat} (hs : ∀ s ∈ srcs, ∃ n < 16, s = 0x30 + n) : d.StageHeld (d.occur srcs 0) := by
  unfold Dev.occur
  extract_lets ss st d0 occs gravest units d1 d2 d3 d4 lanes d5
  split
  · exact Dev.StageHeld.refl d
  have h0 : d.StageHeld d0 := (Dev.StageHeld.refl d).foldl ss fun v s hm => by
    obtain ⟨n, hn, rfl⟩ := hs s (List.mem_filter.mp (List.mem_mergeSort.mp hm)).1
    exact (Dev.StageHeld.refl v).setFlag (a := Reg.fltSticky _) (not_stageWord (by unfold Reg.fltSticky; omega)) _ _
  split
  · exact h0
  have hunits : ∀ u ∈ units, (gravest = 2 ∧ u = FUnit.device) ∨ u.isPipe := by
    refine countedUnits_pipes fun o ho u hu => ?_
    obtain ⟨s, hm, rfl⟩ := List.mem_map.mp ho
    obtain ⟨n, hn, rfl⟩ := hs s (List.mem_filter.mp (List.mem_mergeSort.mp hm)).1
    have hu' : u ∈ d0.unitsOf (0x30 + n) 0 := hu
    rw [d0.unitsOf_tables hn, List.mem_singleton] at hu'
    rw [hu']
    exact ⟨rfl, hn⟩
  have h1 : d.StageHeld d1 := h0.foldl units fun v u hm => by
    refine v.stageHeld_countUnit ?_ gravest
    rcases hunits u hm with ⟨-, rfl⟩ | hp
    · exact .inl rfl
    · exact .inr hp
  have h2 : d.StageHeld d2 := h1.foldl occs fun v o _ => v.stageHeld_entered o
  have h3 : d.StageHeld d3 := h2.foldl occs fun v o _ => v.stageHeld_escalated o _
  have h4 : d.StageHeld d4 := h3.trans (d3.stageHeld_react hunits _)
  have h5 : d.StageHeld d5 := by
    unfold d5
    split
    · exact h4.trans (d4.stageHeld_enterSafe _ _)
    · exact h4
  exact h5.trans d5.stageHeld_updatePin

/-- A fault of the tables of pipeline n leaves the banks, the heads' plans, the swaps and the modes of the lines. -/
theorem Dev.stageHeld_fault {n : Nat} (hn : n < 16) : d.StageHeld (d.fault (0x30 + n)) :=
  d.stageHeld_occur fun _ hs => ⟨n, hn, List.mem_singleton.mp hs⟩

end

end Sys2Proof.Machine
end

section
/-! SUPPORT. A line at the mosaic stage: what becomes of it and when it waits (R198 to R210), from devices in which the stage finds the
same. -/

namespace Sys2Proof.Machine

open Sys2Proof

/-! ## The mode of a line and of its bank after a fault -/

theorem Dev.lineMode_run (d : Dev) (n gen : Nat) :
    d.lineMode n gen = ((d.pipe n).run.2.2.find? fun x => x.1 == gen).elim (d.mode n) (·.2) := by
  rw [Dev.lineMode, Dev.card, Pipe.run, List.find?_map]
  cases h : (d.pipe n).cards.find? fun c => c.grid.gen == gen <;> simp [h]

namespace Dev.StageHeld

variable {d t : Dev} (h : d.StageHeld t) {n : Nat} (hn : n < 16)
include h hn

theorem lineMode (gen : Nat) : t.lineMode n gen = d.lineMode n gen := by
  have hm : t.mode n = d.mode n := Dev.fld_congr (h.word _ (by unfold stageWord Reg.headTrig; omega)) 30 2
  rw [Dev.lineMode_run, h.run, hm, ← Dev.lineMode_run]

theorem activeBank : t.activeBank n = d.activeBank n := Dev.fld_congr (h.word _ (by unfold stageWord Reg.ppStat; omega)) 31 1

theorem liveView_mosMode {b : Nat} (hb : b < 2) : (t.liveView b).mosMode n = (d.liveView b).mosMode n :=
  Dev.fld_congr (h.word (Reg.mosCfg n b) (by unfold stageWord Reg.mosCfg; omega)) 30 2

theorem lineView_mosMode (l : Line) : (t.lineView n l).mosMode n = (d.lineView n l).mosMode n := by
  have hb : d.activeBank n < 2 := d.fld_lt _ 31 1
  have hrun := h.run n
  have he : (t.pipe n).epoch = (d.pipe n).epoch := congrArg Prod.fst hrun
  have hs : (t.pipe n).swaps = (d.pipe n).swaps := congrArg (fun x => x.2.1) hrun
  change (t.viewAt n l.epoch).mosMode n = (d.viewAt n l.epoch).mosMode n
  simp only [Dev.viewAt, he, hs, h.activeBank hn]
  split
  · cases ((d.pipe n).swaps.drop ((d.pipe n).swaps.length - ((d.pipe n).epoch - l.epoch))).head? with
    | none => exact h.liveView_mosMode hn hb
    | some s => rfl
  · exact h.liveView_mosMode hn hb

end Dev.StageHeld

/-! ## What becomes of a line -/

/-- What the mosaic stage makes of a line that arrived: the line, how many rows of its window were replaced, and how many defects were
not; none while it awaits others. -/
def Dev.mosaicOf (d : Dev) (n : Nat) (l : Line) : Option (Line × Nat × Nat) :=
  let v := d.lineView n l
  let w := d.width n
  let fixed := d.repaired n l
  if d.neighboursAwaited n v l then none
  else if v.mosMode n = 0 then some (fixed.1, 0, fixed.2)
  else if v.mosMode n = 1 then
    (d.window v n l).bind fun x =>
      if x.1.any (fun y => d.neighboursAwaited n (d.viewAt n y.epoch) y) then none
      else some (v.areaLine n w fixed.1 (x.1.map fun y => (d.repaired n y).1), x.2, fixed.2)
  else if v.mosMode n = 2 then some (v.multiLine n w fixed.1, 0, fixed.2)
  else some (v.multiPlane n w fixed.1, 0, fixed.2)

/-- The device that has let the oldest pounced line go, with its counts. -/
def Dev.mosaicLeft (d : Dev) (n : Nat) (rest : List Line) (subst unres : Nat) : Dev :=
  ((d.modPipe n fun p => { p with mosQ := rest }).incSat (Reg.ppCnt n) 24 8 unres).incSat (Reg.ppCnt n) 0 8 subst

/-- The device that has passed on what became of the oldest pounced line. -/
def Dev.mosaicPassed (d : Dev) (n : Nat) (rest : List Line) (damaged : Bool) (r : Line × Nat × Nat) : Dev :=
  (d.mosaicLeft n rest r.2.1 r.2.2).cardArrive n { r.1 with damaged := r.1.damaged || damaged }

section
variable {s : State} {head : Fin 16} {l : Line} {rest : List Line} (ha : s.alive) (hs : s.dev.stageOn (16 + head.val) = true)
  (hq : (s.dev.pipe head.val).mosQ = l :: rest)
include ha hs hq

/-- A lost line passes. -/
theorem exec_mosaicLine_lost (hl : l.cause ≠ 0) (corrected : Nat) (bad : List Nat) : exec (.mosaicLine ⟨head, corrected, bad⟩) s =
    .next { s with dev := (s.dev.mosaicLeft head.val rest 0 0).cardArrive head.val l } := by
  change execMosaicLine ⟨head, corrected, bad⟩ s = _
  rw [execMosaicLine, State.updStage, State.upd_alive ha, if_pos hs]
  dsimp only
  rw [hq]
  dsimp only
  rw [if_neg hl, if_pos hl, Bool.or_false]
  rfl

/-- A line that arrived: its entries are read, and it goes on unless it waits. -/
theorem exec_mosaicLine {corrected : Nat} {bad : List Nat} {d : Dev} {damaged : Bool} (hl : l.cause = 0)
    (he : s.dev.ramErrors head.val ((s.dev.viewAt head.val l.epoch).mosaicRead head.val l) corrected bad = (d, damaged)) :
    exec (.mosaicLine ⟨head, corrected, bad⟩) s
      = .next { s with dev := (d.mosaicOf head.val l).elim s.dev (d.mosaicPassed head.val rest damaged) } := by
  change execMosaicLine ⟨head, corrected, bad⟩ s = _
  rw [execMosaicLine, State.updStage, State.upd_alive ha, if_pos hs]
  dsimp only
  rw [hq]
  dsimp only
  rw [if_pos hl, he, if_neg (not_not.mpr hl), Dev.mosaicOf]
  dsimp only
  by_cases hwait : d.neighboursAwaited head.val (d.lineView head.val l) l = true
  · rw [if_pos hwait, if_pos hwait]; rfl
  rw [if_neg hwait, if_neg hwait]
  split
  next h => rw [if_pos h]; rfl
  next h =>
    rw [if_neg (by omega), if_pos h]
    cases d.window (d.lineView head.val l) head.val l with
    | none => rfl
    | some x =>
      dsimp only [Option.bind]
      split
      · rfl
      · rfl
  next h => rw [if_neg (by omega), if_neg (by omega), if_pos h]; rfl
  next h0 h1 h2 => rw [if_neg h0, if_neg h1, if_neg h2]; rfl

end

/-! ## Views that say the same, devices that are the same to the stage -/

namespace View.Alike

variable {n : Nat} {v v' : View} (h : v.Alike n v')
include h

theorem kernelFun (j m k : Nat) : v'.kernel n j m k = v.kernel n j m k := funext (h.kernel j m k)

theorem planeValue (j m : Nat) (win : List Nat) (marks : List Bool) : v'.planeValue n j m win marks = v.planeValue n j m win marks := by
  simp only [View.planeValue, h.kernelFun, h.edgeT]

theorem matrixOut (j : Nat) (ins : List (Nat × Bool)) : v'.matrixOut n j ins = v.matrixOut n j ins := by
  simp only [View.matrixOut, h.matrix, h.bias]

theorem areaLine (w : Nat) (l : Line) (rows : List Line) : v'.areaLine n w l rows = v.areaLine n w l rows := by
  simp only [View.areaLine, h.px, h.site, h.siteRow, h.nplanes, h.planeValue, h.matrixOut]

theorem multiLine (w : Nat) (l : Line) : v'.multiLine n w l = v.multiLine n w l := by
  simp only [View.multiLine, h.px, h.site, h.siteRow, h.kernel]

theorem multiPlane (w : Nat) (l : Line) : v'.multiPlane n w l = v.multiPlane n w l := by
  simp only [View.multiPlane, h.nin, h.nplanes, h.matrixOut]

theorem repair (frame : Bool) (kept : List Line) (rowKey : Line → Nat → Nat) (l : Line) :
    v'.repair n frame kept rowKey l = v.repair n frame kept rowKey l := by
  simp only [View.repair, h.defects, h.mosMode, h.px, h.py]

end View.Alike

namespace Dev.SameStage

variable {n : Nat} {d t : Dev} (h : d.SameStage n t)
include h

theorem repaired (l : Line) : t.repaired n l = d.repaired n l := by
  have hv := h.lineView l
  simp only [Dev.repaired, Dev.rowKey, hv.repair, h.lineMode, h.pounced, h.calRow hv]

theorem neighboursAwaited {v v' : View} (hv : v.Alike n v') (l : Line) : t.neighboursAwaited n v' l = d.neighboursAwaited n v l := by
  simp only [Dev.neighboursAwaited, h.lineMode, hv.defCount, hv.mosMode, hv.py, h.lineAwaits, h.pounced]

theorem windowRow (l : Line) : t.windowRow n l = d.windowRow n l := by
  have hg : t.gen n = d.gen n := by rw [Dev.gen, h.pos, Dev.gen]
  funext dy
  simp only [Dev.windowRow, h.card, h.lineAwaits, h.pounced, h.lineMode, h.pos, hg]

theorem window {v v' : View} (hv : v.Alike n v') (l : Line) : t.window v' n l = d.window v n l := by
  simp only [Dev.window, h.windowRow, hv.py]

theorem mosaicOf (l : Line) : t.mosaicOf n l = d.mosaicOf n l := by
  have hv := h.lineView l
  simp only [Dev.mosaicOf, h.neighboursAwaited hv, hv.mosMode, h.repaired, h.window hv, h.neighboursAwaited (h.viewAt _), hv.areaLine,
    hv.multiLine, hv.multiPlane, h.width]

end Dev.SameStage

end Sys2Proof.Machine
end

section
/-! SUPPORT. What the mosaic stage makes of a line without defects, sample by sample (R206 to R212). -/

namespace Sys2Proof.Machine

open Sys2Proof

/-! ## Values and marks -/

/-- A value of a line and its mark; 0 beyond its end. -/
def Line.px (y : Line) (q c : Nat) : Nat × Bool := (y.at? q c).getD (0, false)

/-- A value held to full scale with its mark, which clipping sets (R212). -/
def clampMarked (a : Int) (m : Bool) : Nat × Bool := if a < 0 then (0, m) else if 0xFFFFFF < a then (0xFFFFFF, true) else (a.toNat, m)

theorem clamp24_marked (a : Int) (m : Bool) : ((clamp24 a).1, (clamp24 a).2 || m) = clampMarked a m := by
  unfold clamp24 clampMarked
  rw [show ((fullScale : Nat) : Int) = 0xFFFFFF from rfl]
  split
  · rw [Bool.false_or]
  split
  · rfl
  · rw [Bool.false_or]

theorem clamp24_shr (a : Int) (k : Nat) (m : Bool) :
    ((clamp24 (shr a k)).1, (clamp24 (shr a k)).2 || m) = clampMarked (a / (2 ^ k : Nat)) m := by
  rw [clamp24_marked, shr, floorDiv_eq]

theorem Line.at?_ofPlanes (l : Line) (p : List (List (Nat × Bool))) (q c : Nat) : (l.ofPlanes p).at? q c = (p.getD q [])[c]? := by
  rw [Line.at?, l.planes_ofPlanes, l.sats_ofPlanes, List.getElem?_map, List.getD_eq_getElem?_getD, List.getElem?_map]
  cases (p.getD q [])[c]? <;> rfl

/-- A sample of a line whose planes are given column by column. -/
theorem Line.px_columns (l : Line) {f : Nat → List (Nat × Bool)} {m w j c : Nat} (hj : j < m) (hc : c < w) :
    (l.ofPlanes ((List.range m).map fun j => ((List.range w).map f).map fun x => x.getD j (0, false))).px j c
      = (f c).getD j (0, false) := by
  rw [Line.px, Line.at?_ofPlanes, getD_map_range _ _ hj]
  simp [hc]

/-! ## The matrix and the kernels -/

theorem any_congr_range {m : Nat} {f g : Nat → Bool} (h : ∀ i, i < m → f i = g i) : (List.range m).any f = (List.range m).any g := by
  rw [Bool.eq_iff_iff, List.any_eq_true, List.any_eq_true]
  exact exists_congr fun i => and_congr_right fun hi => by rw [h i (List.mem_range.mp hi)]

theorem sum_range_five (a : Nat → Int) : ((List.range 5).map a).sum = a 0 + a 1 + a 2 + a 3 + a 4 := by
  rw [List.sum_eq_foldl, ← zero_add (a 0)]
  rfl

/-- The channel matrix over five inputs (R210). -/
def View.matrixOver (v : View) (n j : Nat) (x : Nat → Nat × Bool) : Nat × Bool :=
  clampMarked ((v.matrix n j 0 * (x 0).1 + v.matrix n j 1 * (x 1).1 + v.matrix n j 2 * (x 2).1 + v.matrix n j 3 * (x 3).1
    + v.matrix n j 4 * (x 4).1 + v.bias n j * 4096 + 2048) / 4096) ((List.range 5).any fun i => v.matrix n j i != 0 && (x i).2)

theorem View.matrixOut_eq (v : View) (n j : Nat) {ins : List (Nat × Bool)} {x : Nat → Nat × Bool}
    (h : ∀ i, i < 5 → ins.getD i (0, false) = x i) : v.matrixOut n j ins = v.matrixOver n j x := by
  have hsum : ((List.range 5).map fun i => v.matrix n j i * ((ins.getD i (0, false)).1 : Int)).foldl (· + ·) 0
      = v.matrix n j 0 * (x 0).1 + v.matrix n j 1 * (x 1).1 + v.matrix n j 2 * (x 2).1 + v.matrix n j 3 * (x 3).1
        + v.matrix n j 4 * (x 4).1 := by
    rw [← List.sum_eq_foldl, sum_range_five, h 0 (by omega), h 1 (by omega), h 2 (by omega), h 3 (by omega), h 4 (by omega)]
  have hmark : ((List.range 5).any fun i => v.matrix n j i != 0 && (ins.getD i (0, false)).2)
      = (List.range 5).any fun i => v.matrix n j i != 0 && (x i).2 :=
    any_congr_range fun i hi => by rw [h i hi]
  unfold View.matrixOut
  dsimp only
  rw [hsum, hmark, clamp24_shr, show ((2 ^ 12 : Nat) : Int) = 4096 by norm_num, View.matrixOver]

/-- The sum of a kernel over a window given by its positions. -/
theorem kernelSum_range (k : Nat → Int) (w : Nat → Nat × Bool) (m : Nat) :
    kernelSum k (((List.range m).map w).map (·.1)) (((List.range m).map w).map (·.2))
      = (((List.range m).map fun i => k i * ((w i).1 : Int)).sum, (List.range m).any fun i => k i != 0 && (w i).2) := by
  have h1 : ∀ i, i < m → (((List.range m).map w).map (·.1)).getD i 0 = (w i).1 := fun i hi => by
    rw [List.map_map, getD_map_range _ _ hi]; rfl
  have h2 : ∀ i, i < m → (((List.range m).map w).map (·.2)).getD i false = (w i).2 := fun i hi => by
    rw [List.map_map, getD_map_range _ _ hi]; rfl
  unfold kernelSum
  rw [List.length_map, List.length_map, List.length_range, ← List.sum_eq_foldl]
  refine Prod.ext ?_ ?_
  · exact congrArg List.sum (List.map_congr_left fun i hi => by rw [h1 i (List.mem_range.mp hi)])
  · exact any_congr_range fun i hi => by rw [h2 i hi]

/-! ## The three reconstructions -/

section
variable (v : View) (n w : Nat) (l : Line)

theorem View.multiPlane_px {j c : Nat} (hj : j < v.nplanes n) (hc : c < w) :
    (v.multiPlane n w l).px j c = v.matrixOver n j fun i => if i < v.nin n then l.px i c else (0, false) := by
  refine (l.px_columns hj hc).trans ?_
  rw [getD_map_range _ _ hj]
  exact v.matrixOut_eq n j fun i hi => getD_map_range _ _ hi

/-- Sample i of the five around column c of a row. -/
def View.around (y : Line) (c i : Nat) : Nat × Bool := y.px 0 (windowCol (v.px n) w c ((i : Int) - 2))

theorem View.around_eq (y : Line) (c : Nat) : (([-2, -1, 0, 1, 2] : List Int).map fun dx =>
    (y.at? 0 (windowCol (v.px n) w c dx)).getD (0, false)) = (List.range 5).map (v.around n w y c) := rfl

theorem View.multiLine_px (hm : v.mosMode n = 2) {c : Nat} (hc : c < w) :
    let cls := (v.site n l.sub (c % v.px n)).1
    let k := fun (i : Nat) => v.kernel n 0 cls 0 (10 + i)
    let x := v.around n w l c
    (v.multiLine n w l).px 0 c
      = clampMarked ((k 0 * (x 0).1 + k 1 * (x 1).1 + k 2 * (x 2).1 + k 3 * (x 3).1 + k 4 * (x 4).1 + 512) / 1024)
        ((List.range 5).any fun i => k i != 0 && (x i).2) := by
  intro cls k x
  have hrow : v.siteRow n l = l.sub := by simp only [View.siteRow, hm]
  rw [Line.px, View.multiLine, Line.at?_ofPlanes, List.getD_cons_zero, List.getElem?_map, List.getElem?_range hc]
  dsimp only [Option.map_some, Option.getD_some]
  rw [v.around_eq, hrow, kernelSum_range, clamp24_shr, sum_range_five, show ((2 ^ 10 : Nat) : Int) = 1024 by norm_num]

end

/-! ## A window of five rows (R204 to R207) -/

/-- Site i of the 25 of a window, row by row. -/
def View.windowSite (v : View) (n w : Nat) (l : Line) (rows : List Line) (c i : Nat) : Nat × Bool :=
  (rows.getD (i / 5) l).px 0 (windowCol (v.px n) w c (((i % 5 : Nat) : Int) - 2))

theorem View.window_eq (v : View) (n w : Nat) (l : Line) {rows : List Line} (h : rows.length = 5) (c : Nat) :
    (rows.flatMap fun r => ([-2, -1, 0, 1, 2] : List Int).map fun dx => (r.at? 0 (windowCol (v.px n) w c dx)).getD (0, false))
      = (List.range 25).map (v.windowSite n w l rows c) := by
  match rows, h with
  | [r0, r1, r2, r3, r4], _ => rfl

/-- The differences across and down a window of 25 sites (R206). -/
def gradientAcross (w : Nat → Nat × Bool) : Nat :=
  ((List.range 5).map fun y => ((w (5 * y + 3)).1 - (w (5 * y + 1)).1 + ((w (5 * y + 1)).1 - (w (5 * y + 3)).1))
    + ((w (5 * y + 4)).1 - (w (5 * y)).1 + ((w (5 * y)).1 - (w (5 * y + 4)).1))).sum

def gradientDown (w : Nat → Nat × Bool) : Nat :=
  ((List.range 5).map fun x => ((w (15 + x)).1 - (w (5 + x)).1 + ((w (5 + x)).1 - (w (15 + x)).1))
    + ((w (20 + x)).1 - (w x).1 + ((w x).1 - (w (20 + x)).1))).sum

theorem gradients_eq (w : Nat → Nat × Bool) :
    gradients (((List.range 25).map w).map (·.1)) = (gradientAcross w, gradientDown w) := by
  have hv : ∀ i, i < 25 → (((List.range 25).map w).map (·.1)).getD i 0 = (w i).1 := fun i hi => by
    rw [List.map_map, getD_map_range _ _ hi]; rfl
  unfold gradients gradientAcross gradientDown
  dsimp only
  rw [← List.sum_eq_foldl, ← List.sum_eq_foldl]
  refine Prod.ext (congrArg List.sum (List.map_congr_left fun i hi => ?_)) (congrArg List.sum (List.map_congr_left fun i hi => ?_))
  all_goals
    have hi5 := List.mem_range.mp hi
    rw [hv _ (by omega), hv _ (by omega), hv _ (by omega), hv _ (by omega)]
    simp only [Nat.reduceMul, Nat.zero_add, Nat.add_zero]

/-- Plane j of a site of class m, from its window: the kernel of the direction with the smaller differences (R206, R207). -/
def View.planeOver (v : View) (n m : Nat) (w : Nat → Nat × Bool) (j : Nat) : Nat × Bool :=
  let acc := fun (j h : Nat) => ((List.range 25).map fun i => v.kernel n j m h i * ((w i).1 : Int)).sum
  let mark := fun (j h : Nat) => (List.range 25).any fun i => v.kernel n j m h i != 0 && (w i).2
  if v.nplanes n ≤ j then (0, false)
  else if gradientAcross w + v.edgeT n < gradientDown w then clampMarked ((acc j 0 + 512) / 1024) (mark j 0)
  else if gradientDown w + v.edgeT n < gradientAcross w then clampMarked ((acc j 1 + 512) / 1024) (mark j 1)
  else clampMarked ((acc j 0 + acc j 1 + 1024) / 2048) (mark j 0 || mark j 1)

theorem View.planeValue_eq (v : View) (n m : Nat) (w : Nat → Nat × Bool) {j : Nat} (hj : j < v.nplanes n) :
    v.planeValue n j m (((List.range 25).map w).map (·.1)) (((List.range 25).map w).map (·.2)) = v.planeOver n m w j := by
  unfold View.planeValue View.planeOver
  dsimp only
  rw [if_neg (Nat.not_le.mpr hj), gradients_eq, kernelSum_range, kernelSum_range]
  dsimp only
  split
  · rw [clamp24_shr, show ((2 ^ 10 : Nat) : Int) = 1024 by norm_num]
  split
  · rw [clamp24_shr, show ((2 ^ 10 : Nat) : Int) = 1024 by norm_num]
  · rw [clamp24_shr, show ((2 ^ 11 : Nat) : Int) = 2048 by norm_num]

theorem View.areaLine_px (v : View) (n w : Nat) (l : Line) {rows : List Line} (h : rows.length = 5) (hm : v.mosMode n = 1) {j c : Nat}
    (hj : j < v.nplanes n) (hc : c < w) : (v.areaLine n w l rows).px j c = v.matrixOver n j fun i =>
      if i = 4 then l.px 0 c
      else v.planeOver n (v.site n (l.sub % v.py n) (c % v.px n)).1 (v.windowSite n w l rows c) i := by
  have hrow : v.siteRow n l = l.sub % v.py n := by simp only [View.siteRow, hm]
  refine (l.px_columns hj hc).trans ?_
  rw [getD_map_range _ _ hj]
  refine v.matrixOut_eq n j fun i hi => ?_
  rw [v.window_eq n w l h, hrow]
  split
  next h4 =>
    subst h4
    simp [Line.px]
  next h4 =>
    rw [List.getD_append _ _ _ _ (by simp; omega), getD_map_range _ _ (by omega)]
    split
    next hi => exact v.planeValue_eq n _ _ hi
    next hi => rw [View.planeOver, if_pos (Nat.not_lt.mp hi)]

/-! ## A line without defects -/

theorem View.defects_nil {v : View} {n : Nat} (h : v.defCount n = 0) : v.defects n = [] := by rw [View.defects, h]; rfl

theorem View.repair_nil {v : View} {n : Nat} (h : v.defCount n = 0) (frame : Bool) (kept : List Line) (rowKey : Line → Nat → Nat)
    (l : Line) : v.repair n frame kept rowKey l = (l, 0) := by
  unfold View.repair
  exact if_pos (View.defects_nil h)

section
variable {d : Dev} {n : Nat} {l : Line}

theorem Dev.repaired_nil (h : (d.lineView n l).defCount n = 0) : d.repaired n l = (l, 0) := View.repair_nil h _ _ _ _

theorem Dev.neighboursAwaited_nil {v : View} (h : v.defCount n = 0) : d.neighboursAwaited n v l = false := by
  simp [Dev.neighboursAwaited, h]

theorem Dev.neighboursAwaited_line (h : d.lineMode n l.gen ≠ 2) (v : View) : d.neighboursAwaited n v l = false := by
  simp [Dev.neighboursAwaited, h]

theorem Dev.window_length {v : View} {rows : List Line} {k : Nat} (h : d.window v n l = some (rows, k)) : rows.length = 5 := by
  unfold Dev.window at h
  dsimp only at h
  split at h
  · exact absurd h (by simp)
  · obtain ⟨rfl, -⟩ := Prod.mk.inj (Option.some.inj h)
    rfl

theorem Dev.mosaicOf_waits (hm : (d.lineView n l).mosMode n = 1) (hw : d.window (d.lineView n l) n l = none) : d.mosaicOf n l = none := by
  simp [Dev.mosaicOf, hm, hw]

section
variable (hd : (d.lineView n l).defCount n = 0)
include hd

theorem Dev.mosaicOf_bypass (hm : (d.lineView n l).mosMode n = 0) : d.mosaicOf n l = some (l, 0, 0) := by
  simp [Dev.mosaicOf, Dev.neighboursAwaited_nil hd, hm, Dev.repaired_nil hd]

theorem Dev.mosaicOf_multiPlane (hm : (d.lineView n l).mosMode n = 3) :
    d.mosaicOf n l = some ((d.lineView n l).multiPlane n (d.width n) l, 0, 0) := by
  simp [Dev.mosaicOf, Dev.neighboursAwaited_nil hd, hm, Dev.repaired_nil hd]

theorem Dev.mosaicOf_multiLine (hm : (d.lineView n l).mosMode n = 2) :
    d.mosaicOf n l = some ((d.lineView n l).multiLine n (d.width n) l, 0, 0) := by
  simp [Dev.mosaicOf, Dev.neighboursAwaited_nil hd, hm, Dev.repaired_nil hd]

theorem Dev.mosaicOf_area (hm : (d.lineView n l).mosMode n = 1) {rows : List Line} {k : Nat}
    (hw : d.window (d.lineView n l) n l = some (rows, k)) (hrows : ∀ y ∈ rows, (d.lineView n y).defCount n = 0) :
    d.mosaicOf n l = some ((d.lineView n l).areaLine n (d.width n) l rows, k, 0) := by
  have hwait : ∀ y ∈ rows, d.neighboursAwaited n (d.viewAt n y.epoch) y = false := fun y hy =>
    Dev.neighboursAwaited_nil (v := d.viewAt n y.epoch) (hrows y hy)
  have hsame : rows.map (fun y => (d.repaired n y).1) = rows := by
    refine (List.map_congr_left fun y hy => ?_).trans (List.map_id rows)
    rw [Dev.repaired_nil (hrows y hy)]
    rfl
  simpa [Dev.mosaicOf, Dev.neighboursAwaited_nil hd, hm, Dev.repaired_nil hd, hw, hsame] using hwait

end
end

end Sys2Proof.Machine
end

section
/-! SUPPORT. Defects of a LINE head: a defective sample takes the mean of its neighbours (R198, R199). -/

namespace Sys2Proof.Machine

open Sys2Proof

/-! ## Neighbours and their mean -/

/-- The map's entry for column c of the row `key`. -/
def View.defectAt (v : View) (n key c : Nat) : Option (Nat × Nat) := (v.defects n).find? fun e => e.1 == key * 65536 + c

/-- The sample left of column c, where it stands and has no defect. -/
def View.leftOf (v : View) (n key : Nat) (l : Line) (q c : Nat) : Option (Nat × Bool) :=
  if c = 0 ∨ (v.defectAt n key (c - 1)).isSome then none else l.at? q (c - 1)

/-- The sample right of column c, where it stands and has no defect. -/
def View.rightOf (v : View) (n key : Nat) (l : Line) (q c : Nat) : Option (Nat × Bool) :=
  if (v.defectAt n key (c + 1)).isSome then none else l.at? q (c + 1)

/-- The neighbours that pattern `pat` of a defect takes at a LINE head. -/
def View.nearOf (v : View) (n key : Nat) (l : Line) (q c pat : Nat) : List (Nat × Bool) :=
  if pat = 1 then (v.leftOf n key l q c).toList else if pat = 2 then (v.rightOf n key l q c).toList
  else (v.leftOf n key l q c).toList ++ (v.rightOf n key l q c).toList

/-- The mean of neighbours, marked where one of them is. -/
def meanMarked (near : List (Nat × Bool)) : Nat × Bool :=
  (((near.map (·.1)).sum + near.length / 2) / near.length, near.any (·.2))

theorem meanOf_eq (l : List Nat) : meanOf l = (l.sum + l.length / 2) / l.length := by rw [meanOf, List.sum_eq_foldl]

/-- Of two values or fewer the median is the mean. -/
theorem medianOf_eq {l : List Nat} (h : l.length ≤ 2) : medianOf l = meanOf l := by
  have hp : (l.mergeSort (· ≤ ·)).Perm l := List.mergeSort_perm l _
  have hlen := hp.length_eq
  unfold medianOf
  dsimp only
  rw [if_neg (by omega), if_neg (by omega), meanOf_eq, meanOf_eq, hp.sum_eq, hlen]

theorem filterMap_pair {α : Type} (a b : Option α) : [a, b].filterMap id = a.toList ++ b.toList := by
  cases a <;> cases b <;> rfl

theorem filterMap_single {α : Type} (a : Option α) : [a].filterMap id = a.toList := by cases a <;> rfl

theorem View.nearOf_length (v : View) (n key : Nat) (l : Line) (q c pat : Nat) : (v.nearOf n key l q c pat).length ≤ 2 := by
  have h1 : ∀ a : Option (Nat × Bool), a.toList.length ≤ 1 := fun a => by cases a <;> simp
  have hl := h1 (v.leftOf n key l q c)
  have hr := h1 (v.rightOf n key l q c)
  unfold View.nearOf
  split
  · omega
  split
  · omega
  · rw [List.length_append]; omega

/-- What a pattern gives of two neighbours or fewer. -/
theorem mean_of_near (pat : Nat) {ns : List (Option (Nat × Bool))} {near : List (Nat × Bool)} (hlen : near.length ≤ 2)
    (h : ns.filterMap id = near) : (if ns.filterMap id = [] then none
      else some ((if pat = 5 then medianOf else meanOf) ((ns.filterMap id).map (·.1)), (ns.filterMap id).any (·.2)))
    = if near = [] then none else some (meanMarked near) := by
  have hmean : (if pat = 5 then medianOf else meanOf) (near.map (·.1)) = (meanMarked near).1 := by
    have h2 : (near.map (·.1)).length ≤ 2 := by rw [List.length_map]; exact hlen
    split
    · rw [medianOf_eq h2, meanOf_eq, List.length_map]; rfl
    · rw [meanOf_eq, List.length_map]; rfl
  rw [h, hmean]
  rfl

/-! ## The repair of a line -/

/-- A sample of a LINE head's line once its defects are replaced; one without neighbours stays. -/
def View.repairedSample (v : View) (n key : Nat) (l : Line) (q c : Nat) : Nat × Bool :=
  match v.defectAt n key c with
  | none => l.px q c
  | some e => if v.nearOf n key l q c e.2 = [] then l.px q c else meanMarked (v.nearOf n key l q c e.2)

theorem View.any_defect (v : View) (n key c : Nat) :
    ((v.defects n).any fun e => e.1 == key * 65536 + c) = (v.defectAt n key c).isSome := by
  rw [Bool.eq_iff_iff, View.defectAt, List.find?_isSome, List.any_eq_true]

theorem View.repair_line {v : View} {n : Nat} (hd : v.defects n ≠ []) (hm : v.mosMode n = 0) (kept : List Line)
    (rowKey : Line → Nat → Nat) (l : Line) : (v.repair n false kept rowKey l).1.planes.length = l.planes.length
    ∧ ∀ q c, q < l.planes.length → c < (l.planes.getD q []).length →
      (v.repair n false kept rowKey l).1.px q c = v.repairedSample n (rowKey l q) l q c := by
  unfold View.repair
  extract_lets defs area px py isDef horiz vert fix planes
  rw [if_neg hd]
  have hpx : px = 1 := if_neg (by simp [area, hm])
  have hdef : ∀ q c, isDef l q c = (v.defectAt n (rowKey l q) c).isSome := fun q c => v.any_defect n _ c
  have hleft : ∀ q c, horiz q c (-1) = v.leftOf n (rowKey l q) l q c := fun q c => by
    unfold horiz View.leftOf
    dsimp only
    rw [hpx, hdef]
    by_cases hc : c = 0
    · rw [if_pos (by omega), if_pos (.inl hc)]
    · rw [if_neg (by omega), show ((c : Int) + -1 * (1 : Nat)).toNat = c - 1 by omega]
      simp [hc]
  have hright : ∀ q c, horiz q c 1 = v.rightOf n (rowKey l q) l q c := fun q c => by
    unfold horiz View.rightOf
    dsimp only
    rw [hpx, hdef, if_neg (by omega), show ((c : Int) + 1 * (1 : Nat)).toNat = c + 1 by omega]
  have hfix : ∀ q c pat, fix q c pat = if v.nearOf n (rowKey l q) l q c pat = [] then none
      else some (meanMarked (v.nearOf n (rowKey l q) l q c pat)) := fun q c pat => by
    have hboth : [horiz q c (-1), horiz q c 1].filterMap id
        = (v.leftOf n (rowKey l q) l q c).toList ++ (v.rightOf n (rowKey l q) l q c).toList := by rw [filterMap_pair, hleft, hright]
    refine mean_of_near pat (v.nearOf_length ..) ?_
    simp only [Bool.false_eq_true, if_false, List.append_nil]
    unfold View.nearOf
    split
    · rw [filterMap_single, hleft]; rfl
    · rw [filterMap_single, hright]; rfl
    · exact hboth
    · exact hboth
    · exact hboth
    next h1 h2 _ _ _ => rw [if_neg h1, if_neg h2, hboth]
  have hplanes : planes.length = l.planes.length := by rw [List.length_map, List.length_range]
  have hout : ({ l with planes := planes.map (·.map (·.1.1)), sats := planes.map (·.map (·.1.2)) } : Line)
      = l.ofPlanes (planes.map (·.map (·.1))) := by
    simp only [Line.ofPlanes, List.map_map, Function.comp_def]
  refine ⟨by rw [List.length_map, hplanes], fun q c hq hc => ?_⟩
  dsimp only
  have hpx : l.px q c = ((l.planes.getD q []).getD c 0, (l.sats.getD q []).getD c false) := by
    rw [Line.px, Line.at?, List.getElem?_eq_getElem hc, List.getD_eq_getElem _ _ hc]
    rfl
  rw [hout, Line.px, Line.at?_ofPlanes, ← List.getD_eq_getElem?_getD, List.map_map, getD_map_range _ _ hq]
  dsimp only [Function.comp_apply]
  rw [List.map_map, getD_map_zip_range _ _ 0 _ hc hc]
  dsimp only [Function.comp_apply]
  have hfind : defs.find? (fun e => e.1 == rowKey l q * 65536 + c) = v.defectAt n (rowKey l q) c := rfl
  rw [View.repairedSample, hfind]
  cases v.defectAt n (rowKey l q) c with
  | none => exact hpx.symm
  | some e =>
    dsimp only
    by_cases hn : v.nearOf n (rowKey l q) l q c e.2 = []
    · rw [hfix, if_pos hn, if_pos hn]; exact hpx.symm
    · rw [hfix, if_neg hn, if_neg hn]

end Sys2Proof.Machine
end

section
/-! SUPPORT. What the mosaic stage passes on, and the statement (R198 to R212). -/

namespace Sys2Proof.Machine

open Sys2Proof

/-! ## A line passed on -/

/-- The line `out` has reached carding: the rest stays to come, and the counts of defects left, rows replaced and errors
corrected have grown. -/
def Dev.MosaicPasses (d : Dev) (n : Nat) (rest : List Line) (corrected : Nat) (t : Dev) (out : Line) (subst unres : Nat) : Prop :=
  ∃ u : Dev, t = u.cardArrive n out
    ∧ (u.pipe n).mosQ = rest ∧ (u.pipe n).cards = (d.pipe n).cards ∧ (u.pipe n).pounced = (d.pipe n).pounced
    ∧ u.fld (Reg.ppCnt n) 24 8 = satAdd 8 (d.fld (Reg.ppCnt n) 24 8) unres
    ∧ u.fld (Reg.ppCnt n) 0 8 = satAdd 8 (d.fld (Reg.ppCnt n) 0 8) subst
    ∧ u.fld (Reg.ppCnt n) 16 8 = satAdd 8 (d.fld (Reg.ppCnt n) 16 8) corrected
    ∧ (∀ m, m < 16 → m ≠ n → u.pipe m = d.pipe m) ∧ d.regsKept u [Reg.ppCnt n]
    ∧ u = { d with regs := u.regs, pipes := u.pipes }

section
variable (d : Dev) (n : Nat) (rest : List Line) (subst unres : Nat)

theorem Dev.mosaicLeft_counts : (d.mosaicLeft n rest subst unres).fld (Reg.ppCnt n) 24 8 = satAdd 8 (d.fld (Reg.ppCnt n) 24 8) unres
    ∧ (d.mosaicLeft n rest subst unres).fld (Reg.ppCnt n) 0 8 = satAdd 8 (d.fld (Reg.ppCnt n) 0 8) subst
    ∧ (d.mosaicLeft n rest subst unres).fld (Reg.ppCnt n) 16 8 = d.fld (Reg.ppCnt n) 16 8 := by
  unfold Dev.mosaicLeft
  refine ⟨?_, ?_, ?_⟩
  · rw [Dev.incSat, Dev.fld_setFld_ne _ _ _ (by omega) (by omega), Dev.fld_incSat_same _ _ _ (by omega)]
    rfl
  · rw [Dev.fld_incSat_same _ _ _ (by omega), Dev.incSat, Dev.fld_setFld_ne _ _ _ (by omega) (by omega)]
    rfl
  · rw [Dev.incSat, Dev.fld_setFld_ne _ _ _ (by omega) (by omega), Dev.incSat, Dev.fld_setFld_ne _ _ _ (by omega) (by omega)]
    rfl

theorem Dev.mosaicLeft_onlyRegs : (d.modPipe n fun p => { p with mosQ := rest }).onlyRegs (d.mosaicLeft n rest subst unres) [Reg.ppCnt n] :=
  ((Dev.onlyRegs_refl _ _).incSat (by simp) _ _ _).incSat (by simp) _ _ _

theorem Dev.mosaicLeft_pipes : (d.mosaicLeft n rest subst unres).pipes = (d.modPipe n fun p => { p with mosQ := rest }).pipes :=
  (congrArg Dev.pipes (d.mosaicLeft_onlyRegs n rest subst unres).1 :)

theorem Dev.mosaicLeft_pipe : (d.mosaicLeft n rest subst unres).pipe n = { d.pipe n with mosQ := rest } := by
  rw [Dev.pipe, d.mosaicLeft_pipes]
  exact d.pipe_modPipe_same n _

theorem Dev.mosaicLeft_pipe_ne {m : Nat} (h : m ≠ n) : (d.mosaicLeft n rest subst unres).pipe m = d.pipe m := by
  rw [Dev.pipe, d.mosaicLeft_pipes]
  exact d.pipe_modPipe_ne _ h

theorem Dev.mosaicLeft_regsKept : d.regsKept (d.mosaicLeft n rest subst unres) [Reg.ppCnt n] :=
  fun a ha => (d.mosaicLeft_onlyRegs n rest subst unres).2 a ha

theorem Dev.mosaicLeft_frame : d.mosaicLeft n rest subst unres
    = { d with regs := (d.mosaicLeft n rest subst unres).regs, pipes := (d.mosaicLeft n rest subst unres).pipes } := by
  rw [d.mosaicLeft_pipes]
  exact (d.mosaicLeft_onlyRegs n rest subst unres).1

/-- A line passed on without a reading of the tables. -/
theorem Dev.mosaicPasses_lost {k : Nat} (hk : k = 0) (out : Line) :
    d.MosaicPasses n rest k ((d.mosaicLeft n rest subst unres).cardArrive n out) out subst unres := by
  obtain ⟨h24, h0, h16⟩ := d.mosaicLeft_counts n rest subst unres
  have hp := d.mosaicLeft_pipe n rest subst unres
  refine ⟨_, rfl, ?_, ?_, ?_, h24, h0, ?_, fun m _ hm => d.mosaicLeft_pipe_ne n rest subst unres hm,
    d.mosaicLeft_regsKept n rest subst unres, d.mosaicLeft_frame n rest subst unres⟩
  · rw [hp]
  · rw [hp]
  · rw [hp]
  · rw [h16, hk, Dev.satAdd_fld_zero]

theorem Dev.ramCounted_other (corrected bad : Nat) {lo : Nat} (h : lo = 0 ∨ lo = 24) :
    (d.ramCounted n corrected bad).fld (Reg.ppCnt n) lo 8 = d.fld (Reg.ppCnt n) lo 8 := by
  rw [Dev.ramCounted, Dev.incSat, Dev.fld_setFld_ne _ _ _ (by omega) (by omega), Dev.incSat,
    Dev.fld_setFld_ne _ _ _ (by omega) (by omega)]

/-- A line passed on after its entries have been read, with single-bit errors at most. -/
theorem Dev.mosaicPasses_counted (corrected : Nat) (out : Line) :
    d.MosaicPasses n rest corrected (((d.ramCounted n corrected 0).mosaicLeft n rest subst unres).cardArrive n out) out subst unres := by
  have hc := d.ramCounted_onlyRegs n corrected 0
  have hpipe : ∀ m, (d.ramCounted n corrected 0).pipe m = d.pipe m := fun m => (congrArg (fun x : Dev => x.pipe m) hc.1 :)
  have h24' := d.ramCounted_other n corrected 0 (lo := 24) (.inr rfl)
  have h0' := d.ramCounted_other n corrected 0 (lo := 0) (.inl rfl)
  have h16' := d.ramCounted_corrected n corrected 0
  generalize d.ramCounted n corrected 0 = e at *
  obtain ⟨h24, h0, h16⟩ := e.mosaicLeft_counts n rest subst unres
  have hp := e.mosaicLeft_pipe n rest subst unres
  refine ⟨_, rfl, ?_, ?_, ?_, h24.trans (by rw [h24']), h0.trans (by rw [h0']), h16.trans h16', fun m _ hm => ?_,
    hc.2.trans (e.mosaicLeft_regsKept n rest subst unres), hc.frame (e.mosaicLeft_frame n rest subst unres)⟩
  · rw [hp]
  · rw [hp, hpipe]
  · rw [hp, hpipe]
  · rw [e.mosaicLeft_pipe_ne n rest subst unres hm, hpipe]

end

/-! ## A BYPASS line of a LINE head -/

theorem View.repair_batt (v : View) (n : Nat) (frame : Bool) (kept : List Line) (rowKey : Line → Nat → Nat) (l : Line) :
    (v.repair n frame kept rowKey l).1.batt = l.batt := by
  unfold View.repair
  dsimp only
  split <;> rfl

theorem Dev.mosaicOf_line {d : Dev} {n : Nat} {l : Line} (hm : (d.lineView n l).mosMode n = 0) (hmode : d.lineMode n l.gen ≠ 2) :
    d.mosaicOf n l = some ((d.repaired n l).1, 0, (d.repaired n l).2) := by
  simp [Dev.mosaicOf, Dev.neighboursAwaited_line hmode, hm]

/-- The samples of a LINE head's line with defects. -/
theorem Dev.repaired_line {d : Dev} {n : Nat} {l : Line} (hd : 0 < (d.lineView n l).defCount n) (hm : (d.lineView n l).mosMode n = 0)
    (hmode : d.lineMode n l.gen ≠ 2) : (d.repaired n l).1.planes.length = l.planes.length
    ∧ ∀ q c, q < l.planes.length → c < (l.planes.getD q []).length →
      (d.repaired n l).1.px q c = (d.lineView n l).repairedSample n (l.sub % (d.lineView n l).calRows n) l q c := by
  have hne : (d.lineView n l).defects n ≠ [] := by simpa [View.defects] using hd.ne'
  have hframe : (d.lineMode n l.gen == 2) = false := by simpa using hmode
  have hkey : ∀ q, d.rowKey (d.lineView n l) n l q = l.sub % (d.lineView n l).calRows n := fun q => by
    rw [Dev.rowKey, if_neg hmode, Dev.calRow, if_neg hmode, if_neg (by omega)]
  obtain ⟨hlen, hsample⟩ := View.repair_line hne hm (d.pipe n).pounced (fun x q => d.rowKey (d.lineView n l) n x q) l
  rw [Dev.repaired, hframe]
  exact ⟨hlen, fun q c hq hc => (hsample q c hq hc).trans (by rw [hkey])⟩

/-- Neither a reading of the tables nor its fault changes the mode of a line, or of its bank. -/
theorem Dev.readThrough_fault_modes (d : Dev) {n : Nat} (hn : n < 16) (read : List Nat) (corrected : Nat) (bad : List Nat) :
    let t := (d.readThrough n read corrected bad).fault (0x30 + n)
    (∀ gen, t.lineMode n gen = d.lineMode n gen) ∧ ∀ l, (t.lineView n l).mosMode n = (d.lineView n l).mosMode n := by
  have hfault := (d.readThrough n read corrected bad).stageHeld_fault hn
  have hcount := (d.withLost read bad).ramCounted_sameStage n corrected (d.metLost read bad).length
  have hlost : d.StageHeld (d.withLost read bad) := (Dev.StageHeld.refl d).step rfl rfl
  exact ⟨fun gen => (hfault.lineMode hn gen).trans ((hcount.lineMode gen).trans (hlost.lineMode hn gen)),
    fun l => (hfault.lineView_mosMode hn l).trans ((hcount.lineView l).mosMode.trans (hlost.lineView_mosMode hn l))⟩

/-! ## The cases of the statement -/

section
variable {s : State} {head : Fin 16} {l : Line} {rest : List Line} {corrected : Nat} (ha : s.alive)
  (hs : s.dev.stageOn (16 + head.val) = true) (hq : (s.dev.pipe head.val).mosQ = l :: rest) (hl : l.cause = 0)
include ha hs hq hl

section
variable (hclean : s.dev.lost.filter ((s.dev.viewAt head.val l.epoch).mosaicRead head.val l).contains = [])
include hclean

/-- An arrived line whose entries are sound becomes what `mosaicOf` says of it. -/
theorem mosaicLine_passes {out : Line} {subst unres : Nat} (h : s.dev.mosaicOf head.val l = some (out, subst, unres)) :
    ∃ t, exec (.mosaicLine ⟨head, corrected, []⟩) s = .next { s with dev := t }
      ∧ s.dev.MosaicPasses head.val rest (if l.cause = 0 then corrected else 0) t out subst unres := by
  have hexec := exec_mosaicLine ha hs hq hl (Dev.ramErrors_clean hclean head.val corrected)
  rw [(s.dev.ramCounted_sameStage head.val corrected 0).mosaicOf, h] at hexec
  refine ⟨_, hexec, ?_⟩
  have hpass := s.dev.mosaicPasses_counted head.val rest subst unres corrected out
  rw [Option.elim_some, Dev.mosaicPassed, Bool.or_false, if_pos hl]
  exact hpass

/-- It waits while others are awaited. -/
theorem mosaicLine_waits (h : s.dev.mosaicOf head.val l = none) :
    exec (.mosaicLine ⟨head, corrected, []⟩) s = .next { s with dev := s.dev } := by
  rw [exec_mosaicLine ha hs hq hl (Dev.ramErrors_clean hclean head.val corrected),
    (s.dev.ramCounted_sameStage head.val corrected 0).mosaicOf, h]
  rfl

end

/-- Entries of a LINE head's defects are uncorrectable (R196): the line goes on damaged, after the fault of the tables. -/
theorem mosaicLine_bad {bad : List Nat} (hm : (s.dev.lineView head.val l).mosMode head.val = 0)
    (hmode : s.dev.lineMode head.val l.gen ≠ 2)
    (hmet : ∃ a ∈ (s.dev.viewAt head.val l.epoch).mosaicRead head.val l, a ∈ s.dev.lost ∨ a ∈ bad.filterMap ramEntry) :
    ∃ (u : Dev) (out : Line), exec (.mosaicLine ⟨head, corrected, bad⟩) s = .next { s with dev := u.cardArrive head.val out }
      ∧ out.damaged = true ∧ out.batt = l.batt := by
  obtain ⟨hmode', hm'⟩ := s.dev.readThrough_fault_modes head.isLt ((s.dev.viewAt head.val l.epoch).mosaicRead head.val l) corrected bad
  have hexec := exec_mosaicLine ha hs hq hl (Dev.ramErrors_bad hmet head.val corrected)
  rw [Dev.mosaicOf_line (by rw [hm', hm]) (by rw [hmode']; exact hmode)] at hexec
  exact ⟨_, _, hexec, Bool.or_true _, View.repair_batt ..⟩

end

/-- Settles O24: what `Dev.mosaicOf` makes of the line in each mode is passed on, or the line waits; with an uncorrectable entry the fault
leaves the modes, so that the line goes on damaged. -/
theorem mosaicLines : Obligations.MosaicLines := by
  unfold Obligations.MosaicLines
  intro s head n corrected l rest v ha hn hs hq hv
  subst hn hv
  intro passes px clamped matrix clean
  refine ⟨fun bad hl hm hmode hmet => ?_, fun hl => ?_, fun hl hclean hd => ⟨fun hm => ?_, fun hm => ?_, fun hm => ?_, fun hm hw => ?_,
    fun rows k hm hw hrows => ?_⟩, fun hl hclean hm hmode hd => ?_⟩
  · obtain ⟨u, out, hexec, hout⟩ := mosaicLine_bad (corrected := corrected) ha hs hq hl hm hmode hmet
    exact ⟨_, hexec, u, out, rfl, hout⟩
  · refine ⟨_, exec_mosaicLine_lost ha hs hq hl corrected [], ?_⟩
    exact s.dev.mosaicPasses_lost head.val rest 0 0 (if_neg hl) l
  · exact mosaicLine_passes ha hs hq hl hclean (Dev.mosaicOf_bypass hd hm)
  · obtain ⟨t, hexec, hpass⟩ := mosaicLine_passes (corrected := corrected) ha hs hq hl hclean (Dev.mosaicOf_multiPlane hd hm)
    exact ⟨t, hexec, _, hpass, rfl, by simp [View.multiPlane, Line.ofPlanes], fun j c hj hc => View.multiPlane_px _ _ _ _ hj hc⟩
  · obtain ⟨t, hexec, hpass⟩ := mosaicLine_passes (corrected := corrected) ha hs hq hl hclean (Dev.mosaicOf_multiLine hd hm)
    exact ⟨t, hexec, _, hpass, rfl, rfl, fun c hc => View.multiLine_px _ _ _ _ hm hc⟩
  · exact ⟨_, mosaicLine_waits ha hs hq hl hclean (Dev.mosaicOf_waits hm hw), rfl⟩
  · obtain ⟨t, hexec, hpass⟩ := mosaicLine_passes (corrected := corrected) ha hs hq hl hclean (Dev.mosaicOf_area hd hm hw hrows)
    exact ⟨t, hexec, _, hpass, rfl, by simp [View.areaLine, Line.ofPlanes],
      fun j c hj hc => View.areaLine_px _ _ _ _ (Dev.window_length hw) hm hj hc⟩
  · obtain ⟨t, hexec, hpass⟩ := mosaicLine_passes (corrected := corrected) ha hs hq hl hclean (Dev.mosaicOf_line hm hmode)
    obtain ⟨hlen, hsample⟩ := Dev.repaired_line hd hm hmode
    refine ⟨t, hexec, _, _, hpass, hlen, fun q c hq hc => ?_⟩
    have hpx := hsample q c hq hc
    rw [View.repairedSample] at hpx
    intro defect left right
    change match View.defectAt _ _ _ c with | none => _ | some e => _
    cases hdef : (s.dev.lineView head.val l).defectAt head.val (l.sub % (s.dev.lineView head.val l).calRows head.val) c with
    | none => rw [hdef] at hpx; exact hpx
    | some e =>
      rw [hdef] at hpx
      dsimp only at hpx
      split at hpx
      next hnear => exact (if_pos hnear).mpr hpx
      next hnear => exact (if_neg hnear).mpr hpx

end Sys2Proof.Machine
end
